-- ==== Sys2Proof/Word.lean ====
section
/-! DEFINITION. The word types of the Uavan W8 and their plainest arithmetic (00 R7). -/

namespace Sys2Proof

/-- A 64-bit word: a scalar, an instruction word, a CSR (03 R68, R83). -/
abbrev Word := BitVec 64

/-- One byte of memory. -/
abbrev Byte := BitVec 8

/-- The number of a scalar register field, 6 bits (03 R72). -/
abbrev SReg := BitVec 6

/-- The number of a predicate field, 7 bits (03 R72). -/
abbrev PReg := BitVec 7

end Sys2Proof
end

