-- ==== Sys2Proof/Machine/Float.lean ====
section
/-! DEFINITION. Number formats, exact values, rounding and conversion (04 R101-R118, R122, R130). -/

namespace Sys2Proof.Machine

/-- The element types of R76, in the order of their codes 0x0 to 0xE. -/
inductive ElemType where
  | fp32 | fp64 | bf16 | fp16 | int32 | int8 | int64 | int16 | uint8 | e4m3 | e5m2 | fb4 | mxfp8 | mxfp4 | mxfp8e5
  deriving DecidableEq, Repr

/-- The type of a 4-bit code; 0xF is reserved (03 R76). -/
def ElemType.ofCode : Nat → Option ElemType
  | 0 => some .fp32 | 1 => some .fp64 | 2 => some .bf16 | 3 => some .fp16 | 4 => some .int32 | 5 => some .int8
  | 6 => some .int64 | 7 => some .int16 | 8 => some .uint8 | 9 => some .e4m3 | 10 => some .e5m2 | 11 => some .fb4
  | 12 => some .mxfp8 | 13 => some .mxfp4 | 14 => some .mxfp8e5
  | _ => none

/-- The width of an element in bits (04 R101); of a block type, of its element. -/
def ElemType.width : ElemType → Nat
  | .fp32 => 32 | .fp64 => 64 | .bf16 => 16 | .fp16 => 16 | .int32 => 32 | .int8 => 8 | .int64 => 64 | .int16 => 16
  | .uint8 => 8 | .e4m3 => 8 | .e5m2 => 8 | .fb4 => 4 | .mxfp8 => 8 | .mxfp4 => 4 | .mxfp8e5 => 8

/-- Whether a type is an integer type. -/
def ElemType.isInt : ElemType → Bool
  | .int32 | .int8 | .int64 | .int16 | .uint8 => true
  | _ => false

/-- Whether a type is a block type, for the matrix and conversions only (03 R76). -/
def ElemType.isBlock : ElemType → Bool
  | .fb4 | .mxfp8 | .mxfp4 | .mxfp8e5 => true
  | _ => false

/-- A floating format: mantissa bits, exponent bits, bias, whether it has infinities, whether it is signed, its largest
finite value as a mantissa with its leading one and the exponent of its last place, and its canonical NaN (04 R101, R103). -/
structure FFmt where
  man : Nat
  ebits : Nat
  bias : Nat
  hasInf : Bool
  signed : Bool
  maxM : Nat
  maxE : Int
  nan : Nat
  deriving DecidableEq, Repr

/-- FP32. -/
def fp32F : FFmt := ⟨23, 8, 127, true, true, 2 ^ 24 - 1, 104, 0x7FC00000⟩
/-- FP64. -/
def fp64F : FFmt := ⟨52, 11, 1023, true, true, 2 ^ 53 - 1, 971, 0x7FF8000000000000⟩
/-- BF16. -/
def bf16F : FFmt := ⟨7, 8, 127, true, true, 2 ^ 8 - 1, 120, 0x7FC0⟩
/-- FP16. -/
def fp16F : FFmt := ⟨10, 5, 15, true, true, 2 ^ 11 - 1, 5, 0x7E00⟩
/-- OFP8 E4M3: no infinities, 448 the largest value (04 R105). -/
def e4m3F : FFmt := ⟨3, 4, 7, false, true, 14, 5, 0x7F⟩
/-- OFP8 E5M2. -/
def e5m2F : FFmt := ⟨2, 5, 15, true, true, 7, 13, 0x7E⟩
/-- FP4 E2M1, 6 the largest value (04 R106). -/
def fp4F : FFmt := ⟨1, 2, 1, false, true, 3, 1, 0⟩
/-- E3M5, the FB4 block scale, 31.5 the largest value (04 R107). -/
def e3m5F : FFmt := ⟨5, 3, 3, false, false, 63, -1, 0⟩

/-- The format of a floating element type; a block type's is its element's. -/
def ElemType.ffmt : ElemType → FFmt
  | .fp64 => fp64F | .bf16 => bf16F | .fp16 => fp16F | .e4m3 => e4m3F | .e5m2 => e5m2F
  | .fb4 => fp4F | .mxfp4 => fp4F | .mxfp8 => e4m3F | .mxfp8e5 => e5m2F
  | _ => fp32F

/-- An exact value: a NaN, an infinity, or `(-1)^neg * m * 2^e`; `inexact` says that the magnitude lies strictly between
that and the same with `m + 1`. -/
inductive Num where
  | nan
  | inf (neg : Bool)
  | fin (neg : Bool) (m : Nat) (e : Int) (inexact : Bool)
  deriving DecidableEq, Repr

/-- The rounding modes of RM 0 to 4 (03 R77); a stochastic one holds its random value (04 R114). -/
inductive RMode where
  | rne | rtz | rup | rdn
  | sto (r : Nat)
  deriving DecidableEq, Repr

/-- Decode an encoding (04 R101, R103, R105). -/
def FFmt.decode (f : FFmt) (b : Nat) : Num :=
  let neg := f.signed && b.testBit (f.man + f.ebits)
  let e := (b >>> f.man) % 2 ^ f.ebits
  let m := b % 2 ^ f.man
  if f.hasInf ∧ e = 2 ^ f.ebits - 1 then (if m = 0 then .inf neg else .nan)
  else if f.man = 3 ∧ f.ebits = 4 ∧ e = 15 ∧ m = 7 then .nan
  else if e = 0 then .fin neg m (1 - (f.bias : Int) - f.man) false
  else .fin neg (2 ^ f.man + m) ((e : Int) - f.bias - f.man) false

/-- An exact integer as a value. -/
def Num.ofInt (i : Int) : Num := .fin (decide (i < 0)) i.natAbs 0 false

/-- Whether the mode moves the magnitude `q + rem / 2^sh` (and a little more when `inexact`) up to `q + 1` (04 R113). -/
def roundsUp (mode : RMode) (neg : Bool) (q rem sh : Nat) (inexact : Bool) : Bool :=
  if rem = 0 ∧ !inexact then false
  else match mode with
    | .rne => decide (2 ^ sh < 2 * rem) || (decide (2 * rem = 2 ^ sh) && (inexact || decide (q % 2 = 1)))
    | .rtz => false
    | .rup => !neg
    | .rdn => neg
    | .sto r =>
      if neg then
        let n := 2 ^ 32 * (2 ^ sh - rem)
        let fl := if inexact && decide (n % 2 ^ sh = 0) then n / 2 ^ sh - 1 else n / 2 ^ sh
        !decide (r < fl)
      else decide (r < 2 ^ 32 * rem / 2 ^ sh)

/-- Round the magnitude `m * 2^e` to a multiple of `2^u`: the multiplier (04 R113). -/
def roundUnit (mode : RMode) (neg : Bool) (m : Nat) (e u : Int) (inexact : Bool) : Nat :=
  if u ≤ e then
    let q := m * 2 ^ (e - u).toNat
    if roundsUp mode neg q 0 0 inexact then q + 1 else q
  else
    let sh := (u - e).toNat
    let q := m / 2 ^ sh
    if roundsUp mode neg q (m % 2 ^ sh) sh inexact then q + 1 else q

/-- The exponent of the last place of a result in a format (04 R113). -/
def FFmt.unit (f : FFmt) (m : Nat) (e : Int) : Int :=
  let low := 1 - (f.bias : Int) - f.man
  if m = 0 then low else max low (e + Nat.log2 m - f.man)

/-- Whether `q * 2^u` exceeds the largest finite value. -/
def FFmt.tooBig (f : FFmt) (q : Nat) (u : Int) : Bool :=
  if f.maxE ≤ u then decide (f.maxM < q * 2 ^ (u - f.maxE).toNat) else decide (f.maxM * 2 ^ (f.maxE - u).toNat < q)

/-- The sign bit of a format. -/
def FFmt.sign (f : FFmt) (neg : Bool) : Nat := if neg && f.signed then 2 ^ (f.man + f.ebits) else 0

/-- The encoding of a multiplier at a last place. -/
def FFmt.pack (f : FFmt) (neg : Bool) (q : Nat) (u : Int) : Nat :=
  let (q, u) := if q = 2 ^ (f.man + 1) then (2 ^ f.man, u + 1) else (q, u)
  f.sign neg + if q < 2 ^ f.man then q else (u + f.man + f.bias).toNat * 2 ^ f.man + (q - 2 ^ f.man)

/-- The largest finite value with a sign. -/
def FFmt.maxFin (f : FFmt) (neg : Bool) : Nat := f.pack neg f.maxM f.maxE

/-- Infinity with a sign. -/
def FFmt.inf (f : FFmt) (neg : Bool) : Nat := f.sign neg + (2 ^ f.ebits - 1) * 2 ^ f.man

/-- The result of an overflow (04 R116, R117). -/
def FFmt.overflow (f : FFmt) (mode : RMode) (sat neg : Bool) : Nat :=
  if f.hasInf then
    if sat then f.maxFin neg
    else match mode with
      | .rtz => f.maxFin neg
      | .rup => if neg then f.maxFin neg else f.inf neg
      | .rdn => if neg then f.inf neg else f.maxFin neg
      | _ => f.inf neg
  else if f.nan = 0 then f.maxFin neg
  else if sat then f.maxFin neg else f.nan

/-- RoundTo: a value rounded once and encoded (04 R113, R116, R117). -/
def FFmt.round (f : FFmt) (mode : RMode) (sat : Bool) : Num → Nat
  | .nan => f.nan
  | .inf neg => if f.hasInf && !sat then f.inf neg else if f.nan = 0 || sat then f.maxFin neg else f.nan
  | .fin neg m e x =>
    let u := f.unit m e
    let q := roundUnit mode neg m e u x
    if f.tooBig q u then f.overflow mode sat neg else f.pack neg q u

/-- The sum of two values; `dn` says that the mode is RDN, for the sign of an exact zero (04 R102). -/
def Num.add (dn : Bool) : Num → Num → Num
  | .nan, _ => .nan
  | _, .nan => .nan
  | .inf a, .inf b => if a = b then .inf a else .nan
  | .inf a, _ => .inf a
  | _, .inf b => .inf b
  | .fin a m e x, .fin b n f y =>
    let g := min e f
    let i : Int := (if a then -1 else 1) * (m * 2 ^ (e - g).toNat : Nat)
    let j : Int := (if b then -1 else 1) * (n * 2 ^ (f - g).toNat : Nat)
    if i + j = 0 then .fin (if a = b then a else dn) 0 g (x || y)
    else .fin (decide (i + j < 0)) (i + j).natAbs g (x || y)

/-- The value with its sign turned. -/
def Num.neg : Num → Num
  | .nan => .nan
  | .inf a => .inf (!a)
  | .fin a m e x => .fin (!a) m e x

/-- The magnitude. -/
def Num.abs : Num → Num
  | .nan => .nan
  | .inf _ => .inf false
  | .fin _ m e x => .fin false m e x

/-- The product of two values. -/
def Num.mul : Num → Num → Num
  | .nan, _ => .nan
  | _, .nan => .nan
  | .inf a, .inf b => .inf (a ^^ b)
  | .inf a, .fin b m _ _ => if m = 0 then .nan else .inf (a ^^ b)
  | .fin a m _ _, .inf b => if m = 0 then .nan else .inf (a ^^ b)
  | .fin a m e x, .fin b n f y => .fin (a ^^ b) (m * n) (e + f) (x || y)

/-- The quotient, to 256 bits and a mark of inexactness. -/
def Num.div : Num → Num → Num
  | .nan, _ => .nan
  | _, .nan => .nan
  | .inf _, .inf _ => .nan
  | .inf a, .fin b _ _ _ => .inf (a ^^ b)
  | .fin a _ _ _, .inf b => .fin (a ^^ b) 0 0 false
  | .fin a m e _, .fin b n f _ =>
    if n = 0 then (if m = 0 then .nan else .inf (a ^^ b))
    else
      let k := 256 + Nat.log2 n
      .fin (a ^^ b) (m * 2 ^ k / n) (e - f - k) (decide (m * 2 ^ k % n ≠ 0))

/-- The integer square root of `v` below `2^n`, bit by bit, from the root so far. -/
def isqrt (v : Nat) : Nat → Nat → Nat
  | 0, r => r
  | n + 1, r => if (r + 2 ^ n) * (r + 2 ^ n) ≤ v then isqrt v n (r + 2 ^ n) else isqrt v n r

/-- The square root, to some 256 bits and a mark of inexactness. -/
def Num.sqrt : Num → Num
  | .nan => .nan
  | .inf neg => if neg then .nan else .inf false
  | .fin neg m e _ =>
    if m = 0 then .fin neg 0 e false
    else if neg then .nan
    else
      let v := (if e % 2 = 0 then m else 2 * m) * 2 ^ 512
      let h := (if e % 2 = 0 then e else e - 1) / 2 - 256
      let r := isqrt v (Nat.log2 v / 2 + 1) 0
      .fin false r h (decide (r * r ≠ v))

/-- Compare two values that are not NaN: -1, 0 or 1, with -0 below +0 (04 R122). -/
def Num.lt0 : Num → Num → Bool
  | .inf a, .inf b => a && !b
  | .inf a, .fin _ _ _ _ => a
  | .fin _ _ _ _, .inf b => !b
  | .fin a m e _, .fin b n f _ =>
    let g := min e f
    let i : Int := (if a then -1 else 1) * (m * 2 ^ (e - g).toNat : Nat)
    let j : Int := (if b then -1 else 1) * (n * 2 ^ (f - g).toNat : Nat)
    decide (i < j) || (decide (i = j) && decide (m = 0) && a && !b)
  | _, _ => false

/-- The same with -0 equal to +0, as a comparison takes them. -/
def Num.lt : Num → Num → Bool
  | .fin a m e x, .fin b n f y => if m = 0 ∧ n = 0 then false else Num.lt0 (.fin a m e x) (.fin b n f y)
  | a, b => Num.lt0 a b

/-- Equality of two values that are not NaN. -/
def Num.eq (a b : Num) : Bool := match a, b with
  | .nan, _ => false
  | _, .nan => false
  | a, b => !a.lt b && !b.lt a

/-- A value rounded to an integer by the mode (04 R118); an infinity has none. -/
def Num.toInt (mode : RMode) : Num → Int
  | .fin neg m e x => (if neg then -1 else 1) * (roundUnit mode neg m e 0 x : Int)
  | _ => 0

/-- The range of an integer type. -/
def ElemType.intRange (t : ElemType) : Int × Int :=
  if t = .uint8 then (0, 255) else (-(2 ^ (t.width - 1) : Int), 2 ^ (t.width - 1) - 1)

/-- An exact integer brought to an integer type (04 R112). -/
def ElemType.narrow (t : ElemType) (sat : Bool) (i : Int) : Nat :=
  let (lo, hi) := t.intRange
  ((if sat then max lo (min hi i) else i) % (2 ^ t.width : Int)).toNat

/-- The exact integer of an encoding. -/
def ElemType.asInt (t : ElemType) (b : Nat) : Int :=
  if t = .uint8 then b % 256 else (BitVec.ofNat t.width b).toInt

/-- The exact value of an encoding (04 R115, first step). -/
def ElemType.value (t : ElemType) (b : Nat) : Num := if t.isInt then .ofInt (t.asInt b) else t.ffmt.decode b

/-- Encode a value whose source is of a floating type (04 R115-R118). -/
def ElemType.encodeF (t : ElemType) (mode : RMode) (sat : Bool) (v : Num) : Nat :=
  if t.isInt then match v with
    | .nan => 0
    | .inf neg => t.narrow true (if neg then t.intRange.1 else t.intRange.2)
    | v => t.narrow true (v.toInt mode)
  else t.ffmt.round mode sat v

/-- Convert an encoding from one type to another (04 R115-R118). -/
def convert (src dst : ElemType) (mode : RMode) (sat : Bool) (b : Nat) : Nat :=
  if src.isInt && dst.isInt then dst.narrow sat (src.asInt b) else dst.encodeF mode sat (src.value b)

/-! ## The approximated functions (04 R130) -/

/-- The binary places of the fixed-point numbers of this part. -/
def places : Nat := 512

/-- The sum of `1 / (k 2^k)` from `k` for `n` terms: ln 2, in fixed point. -/
def ln2Sum : Nat → Nat → Nat
  | 0, _ => 0
  | n + 1, k => 2 ^ places / (k * 2 ^ k) + ln2Sum n (k + 1)

/-- ln 2 in fixed point. -/
def ln2 : Nat := ln2Sum 520 1

/-- The exponential series from the term `t` of index `k`, for `n` terms. -/
def expSum (y : Nat) : Nat → Nat → Nat → Nat
  | 0, _, _ => 0
  | n + 1, k, t => t + expSum y n (k + 1) (t * y / 2 ^ places / k)

/-- `2^f` for a fixed-point `f` below 1. -/
def exp2Frac (f : Nat) : Nat := expSum (f * ln2 / 2 ^ places) 110 1 (2 ^ places)

/-- The series of the inverse hyperbolic tangent, from the power `t` of odd index `k`. -/
def atanhSum (z2 : Nat) : Nat → Nat → Nat → Nat
  | 0, _, _ => 0
  | n + 1, k, t => t / k + atanhSum z2 n (k + 2) (t * z2 / 2 ^ places)

/-- The base-2 logarithm of a fixed-point number in 1 to 2. -/
def log2Frac (m : Nat) : Nat :=
  let z := (m - 2 ^ places) * 2 ^ places / (m + 2 ^ places)
  2 * atanhSum (z * z / 2 ^ places) 170 1 z * 2 ^ places / ln2

/-- `2^x`, exact for an integer `x`; otherwise to some 500 binary places, which decide every rounding toward zero
(DEDUCED, notes/assumptions/8.md). -/
def Num.exp2 : Num → Num
  | .nan => .nan
  | .inf neg => if neg then .fin false 0 0 false else .inf false
  | .fin neg m e _ =>
    if m = 0 then .fin false 1 0 false
    else
      let big := decide (64 < (Nat.log2 m : Int) + e)
      if big then (if neg then .fin false 1 (-2 ^ 20) false else .fin false 1 (2 ^ 20) false)
      else
        let x : Nat := if 0 ≤ e then m * 2 ^ e.toNat * 2 ^ places else
          if -e ≤ places then m * 2 ^ (places - (-e).toNat) else m / 2 ^ ((-e).toNat - places)
        let lost := decide (e < 0) && decide (places < (-e).toNat) && decide (m % 2 ^ ((-e).toNat - places) ≠ 0)
        let n := x / 2 ^ places
        let f := x % 2 ^ places
        if neg then
          if f = 0 ∧ !lost then .fin false 1 (-(n : Int)) false
          else .fin false (exp2Frac (2 ^ places - f - if lost then 1 else 0)) (-(n : Int) - 1 - places) true
        else if f = 0 then .fin false (2 ^ places) ((n : Int) - places) lost
        else .fin false (exp2Frac f) ((n : Int) - places) true

/-- The base-2 logarithm, exact for a power of two; otherwise as `Num.exp2`. -/
def Num.log2 : Num → Num
  | .nan => .nan
  | .inf neg => if neg then .nan else .inf false
  | .fin neg m e _ =>
    if m = 0 then .inf true
    else if neg then .nan
    else
      let n : Int := e + Nat.log2 m
      let f := m * 2 ^ places / 2 ^ Nat.log2 m
      if f = 2 ^ places then .ofInt n
      else
        let v : Int := n * 2 ^ places + log2Frac f
        .fin (decide (v < 0)) (if v < 0 then v.natAbs - 1 else v.natAbs) (-(places : Int)) true

/-- The reciprocal square root, to some 256 bits and a mark of inexactness. -/
def Num.rsqrt : Num → Num
  | .nan => .nan
  | .inf neg => if neg then .nan else .fin false 0 0 false
  | .fin neg m e _ =>
    if m = 0 then .inf neg
    else if neg then .nan
    else
      let k := 512 + 2 * (Nat.log2 m + 1)
      let n := if e % 2 = 0 then m else 2 * m
      let h := (if e % 2 = 0 then e else e - 1) / 2
      let q := 2 ^ k / n
      let r := isqrt q (Nat.log2 q / 2 + 1) 0
      .fin false r (-h - (k / 2 : Nat)) (decide (r * r * n ≠ 2 ^ k))

/-- Encode an approximated result: by RTZ, with overflow decided on the exact result (04 R130). -/
def FFmt.approx (f : FFmt) (sat : Bool) (v : Num) : Nat := match v with
  | .nan => f.nan
  | .inf neg => f.inf neg
  | .fin neg m e x =>
    let u := f.unit m e
    let q := roundUnit .rtz neg m e u x
    let rest := x || decide (e < u ∧ m % 2 ^ (u - e).toNat ≠ 0)
    if f.tooBig q u || (rest && decide (q = f.maxM ∧ u = f.maxE)) then (if sat then f.maxFin neg else f.inf neg)
    else f.pack neg q u

end Sys2Proof.Machine
end

