-- ==== Sys2Proof/Config.lean ====
section
/-! DEFINITION. What an implementation fixes and the spec leaves open: the free values. -/

namespace Sys2Proof

/-- The free value number `n`: whatever the part does where the spec gives only a bound or a set of outcomes
(00 R5, 02 R48, 05 R151, 08 R248, 09 R292). It has no body, so nothing can be proved of its value.
UNVERIFIED: notes/assumptions/4.md. -/
opaque Config.pick : Nat → Nat

/-- What the host answers to a posted or completed PCI Express AtomicOp: whether it is supported (09 R282). Free. -/
opaque Config.hostAtomic : Nat → Bool

/-- By how much the 64 granules of run `n` of a stack are turned over its 64 pseudo-channels (01 R17, R18). The spec gives no interleave. Free. -/
opaque Config.pseudoChannel : Nat → Nat

/-- The entries of a context's overflow queue of pending children (02 R64). The spec gives no number. Free. -/
opaque Config.overflowEntries : Nat

/-- The 13 bits that a purser core's `coreid` and trap record hold as x and y, by tile: the purser has no coordinate (01 R14). Free. -/
opaque Config.purserPlace : Nat → Nat

/-- The physical errors of tick `n`: kind, core, and place (13 R389-R391). The spec says what they do and not when they come. Free. -/
opaque Config.upset : Nat → List (Nat × Nat × Nat)

/-- The read and write delays and reference voltages that training number `n` finds for the pins of a stack (13 R412). Free. -/
opaque Config.training : Nat → Nat → List Byte

/-- By how much, in 1/256 UI, the eye margin of a pin of a stack lies below 255 at a measurement (13 R413). Free. -/
opaque Config.eyeLoss : Nat → Nat → Nat → Nat

/-- The address at which a tile's purser starts its firmware after a reset (01 R14, 13 R412). The spec gives none, nor the firmware: with
none here the firmware acts through the supervisor's events alone until a trap enters it. Free. -/
opaque Config.purserStart : Nat → Option Nat

/-- Whether a peer, as an aperture, refuses this package's accesses, at a point of a run: its own table does not name this package, or it waits for a
replay (12 R368, R372). That table is no state of this package. Free. -/
opaque Config.peerRefuses : Nat → Nat → Bool

/-- The package, as an aperture, that a fibre landing 0 to 3 faces in an hour 0 to 15: the rotor's matching (01 R23, 10 R332). Free. -/
opaque Config.faces : Nat → Nat → Nat

end Sys2Proof
end

