-- ==== Sys2Proof/Syntax.lean ====
section
/-! DEFINITION. The instructions of the five streams and the events of the opcode table, one constructor per row.
An instruction holds every operand bit of its word that is not reserved; the common fields IDLE, GM and GP are not
part of it (`Decoded`, in Decode.lean). What an event happens to stands in the state. -/

namespace Sys2Proof

/-- The five kinds of instruction stream (02 R28), in the order of R33. -/
inductive Stream where
  | helm | vector | matrix | copy | crossing
  deriving DecidableEq, Repr, Inhabited

/-- The second source of a helm compare: IF = 0 a scalar, IF = 1 a signed immediate (03 R72, HCMP). -/
inductive CmpSrc where
  | reg (rb : SReg)
  | imm (v : BitVec 23)
  deriving DecidableEq, Repr

/-- HBF operands (03 R72): the bit-field and funnel forms. -/
structure HBf where
  rd : SReg
  ra : SReg
  rb : SReg
  pos : BitVec 6
  len : BitVec 7
  deriving DecidableEq, Repr

/-- HMEM operands (03 R72): the register, the base, the alias class and the signed byte offset. -/
structure HMem where
  rt : SReg
  rb : SReg
  ac : BitVec 3
  off : BitVec 22
  deriving DecidableEq, Repr

/-- VOP operands with two sources (03 R74). -/
structure VBin where
  vd : BitVec 6
  t : BitVec 3
  ka : BitVec 2
  a : BitVec 8
  kb : BitVec 2
  b : BitVec 8
  msk : BitVec 4
  rm : BitVec 3
  sat : BitVec 1
  deriving DecidableEq, Repr

/-- VOP operands of a unary form, whose KB and B are zero (03 R75). -/
structure VUn where
  vd : BitVec 6
  t : BitVec 3
  ka : BitVec 2
  a : BitVec 8
  msk : BitVec 4
  rm : BitVec 3
  sat : BitVec 1
  deriving DecidableEq, Repr

/-- VCMP operands: a mask destination and a condition code (06 R184). -/
structure VCmpOp where
  kd : BitVec 4
  t : BitVec 3
  ka : BitVec 2
  a : BitVec 8
  kb : BitVec 2
  b : BitVec 8
  msk : BitVec 4
  cc : BitVec 4
  deriving DecidableEq, Repr

/-- VEXTR operands: a handoff destination (06 R185). -/
structure VExtrOp where
  qd : BitVec 5
  t : BitVec 3
  ka : BitVec 2
  a : BitVec 8
  kb : BitVec 2
  b : BitVec 8
  msk : BitVec 4
  rm : BitVec 3
  sat : BitVec 1
  deriving DecidableEq, Repr

/-- Conversion operands: source code `s` in B bits 3..0 and part `p` in B bits 6..4 (06 R187). -/
structure VCvOp where
  vd : BitVec 6
  t : BitVec 3
  ka : BitVec 2
  a : BitVec 8
  kb : BitVec 2
  p : BitVec 3
  s : BitVec 4
  msk : BitVec 4
  rm : BitVec 3
  sat : BitVec 1
  deriving DecidableEq, Repr

/-- VRED operands (03 R74). -/
structure VRed where
  vd : BitVec 6
  t : BitVec 3
  ka : BitVec 2
  a : BitVec 8
  eq : BitVec 6
  zs : BitVec 3
  sg : BitVec 1
  msk : BitVec 4
  rm : BitVec 3
  sat : BitVec 1
  deriving DecidableEq, Repr

/-- VMEM operands of a contiguous load (03 R74). -/
structure VLdOp where
  vd : BitVec 6
  t : BitVec 3
  sb : SReg
  off : BitVec 14
  msk : BitVec 4
  tg : BitVec 1
  deriving DecidableEq, Repr

/-- VMEM operands of VLDR, with its shape slot (07 R208). -/
structure VLdrOp where
  vd : BitVec 6
  t : BitVec 3
  sb : SReg
  off : BitVec 14
  msk : BitVec 4
  tg : BitVec 1
  zs : BitVec 3
  deriving DecidableEq, Repr

/-- VMEM operands of a contiguous store; a store has no TG (06 R192). -/
structure VStOp where
  vd : BitVec 6
  t : BitVec 3
  sb : SReg
  off : BitVec 14
  msk : BitVec 4
  deriving DecidableEq, Repr

/-- VMEM operands of VLDS and VGATH: `sx` is the stride scalar or the index register (03 R74). -/
structure VLdxOp where
  vd : BitVec 6
  t : BitVec 3
  sb : SReg
  sx : BitVec 6
  msk : BitVec 4
  tg : BitVec 1
  deriving DecidableEq, Repr

/-- VMEM operands of VSTS and VSCAT (03 R74). -/
structure VStxOp where
  vd : BitVec 6
  t : BitVec 3
  sb : SReg
  sx : BitVec 6
  msk : BitVec 4
  deriving DecidableEq, Repr

/-- MMEM operands of a load (03 R79). -/
structure MLdOp where
  d : BitVec 4
  sb : SReg
  off : BitVec 14
  tg : BitVec 1
  deriving DecidableEq, Repr

/-- MMEM operands of a store, which has no TG (07 R223). -/
structure MStOp where
  d : BitVec 4
  sb : SReg
  off : BitVec 14
  deriving DecidableEq, Repr

/-- MOP operands of MMA (07 R222). -/
structure MMaOp where
  ad : BitVec 2
  ta : BitVec 4
  tb : BitVec 4
  rm : BitVec 3
  sat : BitVec 1
  deriving DecidableEq, Repr

/-- MOP operands of MMAR (07 R222, R227). -/
structure MMarOp where
  ad : BitVec 2
  ta : BitVec 4
  tb : BitVec 4
  za : BitVec 3
  zb : BitVec 3
  mv : BitVec 2
  rm : BitVec 3
  sat : BitVec 1
  deriving DecidableEq, Repr

/-- MOP operands of MOUT and MOUTQ: `ta` is the destination tile, `tb` the type code (07 R222). -/
structure MOutOp where
  ad : BitVec 2
  ta : BitVec 4
  tb : BitVec 4
  rm : BitVec 3
  sat : BitVec 1
  deriving DecidableEq, Repr

/-- CREC operands that every command with a record shares (03 R80). -/
structure CRecOp where
  ch : BitVec 2
  kg : BitVec 1
  rg : BitVec 6
  idq : BitVec 6
  deriving DecidableEq, Repr

/-- The trip count of LOOP and LOOPS, or the count of SETVC: KC = 0 immediate, KC = 1 a scalar (03 R81). -/
inductive Count where
  | imm (n : BitVec 16)
  | reg (s : SReg)
  deriving DecidableEq, Repr

/-- What SETVC sets the valid count from (03 R81). -/
inductive VcSrc where
  | count (c : Count)
  | shape (zs : BitVec 3)
  deriving DecidableEq, Repr

/-- The four near-memory arithmetic outcomes of a chunk's operand read (08 R260, 13 R391). -/
inductive ReadError where
  | none | corrected | uncorrectable (granule : Nat) (onX : Bool) | residue (granule : Nat)
  deriving DecidableEq, Repr

/-- The parts of an access that arrives from outside the package (12 R368, R386). -/
inductive OutsideAccess where
  | read (addr len : Nat)
  | write (addr : Nat) (bytes : List Byte)
  | fetchAdd (addr : Nat) (v : Word)
  deriving DecidableEq, Repr

/-- What an event happens to. Each event's row of `Instr` says which fields it reads. -/
structure Subject where
  a : Nat := 0
  b : Nat := 0
  c : Nat := 0
  d : Nat := 0
  st : Stream := .helm
  flag : Bool := false
  flag2 : Bool := false
  word : Word := 0
  words : List Word := []
  bytes : List Byte := []
  list : List Nat := []
  err : ReadError := .none
  access : OutsideAccess := .read 0 0
  off : Int := 0
  deriving DecidableEq, Repr

/-- One constructor per row of the opcode table: the words of the streams, then the events of spec/95. What an event happens
to is not part of it: it stands in the state (`State.on`) when the event runs. -/
inductive Instr where
  | nop
  | add (rd ra rb : SReg)
  | sub (rd ra rb : SReg)
  | and (rd ra rb : SReg)
  | or (rd ra rb : SReg)
  | xor (rd ra rb : SReg)
  | andn (rd ra rb : SReg)
  | sll (rd ra rb : SReg)
  | srl (rd ra rb : SReg)
  | sra (rd ra rb : SReg)
  | mul (rd ra rb : SReg)
  | mulh (rd ra rb : SReg)
  | mulhu (rd ra rb : SReg)
  | div (rd ra rb : SReg)
  | divu (rd ra rb : SReg)
  | rem (rd ra rb : SReg)
  | remu (rd ra rb : SReg)
  | addi (rd ra : SReg) (imm : BitVec 25)
  | andi (rd ra : SReg) (imm : BitVec 25)
  | ori (rd ra : SReg) (imm : BitVec 25)
  | xori (rd ra : SReg) (imm : BitVec 25)
  | slli (rd ra : SReg) (imm : BitVec 25)
  | srli (rd ra : SReg) (imm : BitVec 25)
  | srai (rd ra : SReg) (imm : BitVec 25)
  | ldi (rd : SReg) (imm : BitVec 31)
  | seth (rd : SReg) (imm : BitVec 31)
  | slt (rd ra rb : SReg)
  | sltu (rd ra rb : SReg)
  | slti (rd ra : SReg) (imm : BitVec 25)
  | min (rd ra rb : SReg)
  | max (rd ra rb : SReg)
  | minu (rd ra rb : SReg)
  | maxu (rd ra rb : SReg)
  | clz (rd ra : SReg)
  | ctz (rd ra : SReg)
  | popc (rd ra : SReg)
  | brev (rd ra : SReg)
  | bext (rd ra : SReg) (pos : BitVec 6) (len : BitVec 7)
  | bexts (rd ra : SReg) (pos : BitVec 6) (len : BitVec 7)
  | bins (rd ra : SReg) (pos : BitVec 6) (len : BitVec 7)
  | fshl (o : HBf)
  | fshr (o : HBf)
  | cmpeq (pd : PReg) (ra : SReg) (src : CmpSrc)
  | cmpne (pd : PReg) (ra : SReg) (src : CmpSrc)
  | cmplt (pd : PReg) (ra : SReg) (src : CmpSrc)
  | cmpltu (pd : PReg) (ra : SReg) (src : CmpSrc)
  | cmple (pd : PReg) (ra : SReg) (src : CmpSrc)
  | cmpleu (pd : PReg) (ra : SReg) (src : CmpSrc)
  | pand (pd pa pb : PReg)
  | por (pd pa pb : PReg)
  | pxor (pd pa pb : PReg)
  | pnot (pd pa : PReg)
  | pset (pd v : PReg)
  | pclr (pd : PReg)
  | ptos (pd : PReg) (ra : SReg)
  | pfrom (pd : PReg) (ra : SReg)
  | br (off : BitVec 30)
  | brt (pr : PReg) (off : BitVec 30)
  | brf (pr : PReg) (off : BitVec 30)
  | brtn (pr : PReg) (off : BitVec 30)
  | brfn (pr : PReg) (off : BitVec 30)
  | jmpr (ra : SReg)
  | call (off : BitVec 30)
  | callr (ra : SReg)
  | ret
  | trap (imm : BitVec 31)
  | exit
  | ld8 (o : HMem)
  | ld8s (o : HMem)
  | ld16 (o : HMem)
  | ld16s (o : HMem)
  | ld32 (o : HMem)
  | ld32s (o : HMem)
  | ld64 (o : HMem)
  | st8 (o : HMem)
  | st16 (o : HMem)
  | st32 (o : HMem)
  | st64 (o : HMem)
  | ldc (rd ra : SReg) (imm : BitVec 25)
  | qsend (qn ra rb : SReg)
  | qrecv (rd qn : SReg)
  | qpeek (rd qn : SReg)
  | aadd (rd ra rb : SReg)
  | aaddf (rd ra rb : SReg)
  | aswap (rd ra rb : SReg)
  | acas (rd ra rb : SReg)
  | amin (rd ra rb : SReg)
  | amax (rd ra rb : SReg)
  | abump (rd ra rb : SReg)
  | fence (scope : BitVec 13)
  | bind (rd ra rb : SReg)
  | acq (ra : SReg)
  | rel (ra : SReg)
  | mstore (rd ra rb : SReg)
  | mwait (ra : SReg) (g : BitVec 25)
  | taglk (rd ra : SReg)
  | tagset (ra rb : SReg)
  | tagclr (ra : SReg)
  | shld (z ra : SReg)
  | shinv (z : SReg)
  | phaseb (ra : SReg)
  | phasec (ra : SReg)
  | tstart (ra : SReg)
  | twait (n : BitVec 31)
  | waitid (ch ra : SReg) (n : BitVec 25)
  | waitidLaunch (ra : SReg) (n : BitVec 25)
  | waitq (qn : SReg) (n : BitVec 25)
  | tbar (ra : SReg) (desc : BitVec 7) (dl : BitVec 1)
  | tbarSync (ra : SReg) (desc : BitVec 7) (dl : BitVec 1)
  | launch (rd ra : SReg) (joined : BitVec 1)
  | yieldpt (rd ra : SReg) (n : BitVec 24)
  | yieldptHold (ra : SReg) (n : BitVec 24)
  | csrr (rd : SReg) (csr : BitVec 12)
  | csrw (csr : BitVec 12) (ra : SReg)
  | syscall (n : BitVec 13)
  | hret
  | hesc
  | vadd (o : VBin)
  | vsub (o : VBin)
  | vmul (o : VBin)
  | vfma (o : VBin)
  | vfms (o : VBin)
  | vfnma (o : VBin)
  | vmin (o : VBin)
  | vmax (o : VBin)
  | vabs (o : VUn)
  | vneg (o : VUn)
  | vdiv (o : VBin)
  | vsqrt (o : VUn)
  | vrcp (o : VUn)
  | vrsq (o : VUn)
  | vexp2 (o : VUn)
  | vlog2 (o : VUn)
  | vand (o : VBin)
  | vor (o : VBin)
  | vxor (o : VBin)
  | vshl (o : VBin)
  | vshr (o : VBin)
  | vsra (o : VBin)
  | vbext (o : VBin)
  | vfsh (o : VBin)
  | vpopc (o : VUn)
  | vclz (o : VUn)
  | vcmp (o : VCmpOp)
  | vsel (o : VBin)
  | vpart (o : VBin)
  | viota (o : VUn)
  | vbcast (o : VBin)
  | vperm (o : VBin)
  | vmov (o : VUn)
  | vextr (o : VExtrOp)
  | vcvt (o : VCvOp)
  | vpack (o : VCvOp)
  | vunpack (o : VCvOp)
  | vquant (o : VCvOp)
  | vdeq (o : VCvOp)
  | vrsum (o : VRed)
  | vrmax (o : VRed)
  | vrmin (o : VRed)
  | vscan (o : VRed)
  | vrnorm (o : VRed)
  | vrsmax (o : VRed)
  | vldr (o : VLdrOp)
  | vld (o : VLdOp)
  | vst (o : VStOp)
  | vlds (o : VLdxOp)
  | vsts (o : VStxOp)
  | vgath (o : VLdxOp)
  | vscat (o : VStxOp)
  | mldt (o : MLdOp)
  | mstt (o : MStOp)
  | mlds (o : MLdOp)
  | mzero (ad : BitVec 2) (ta tb : BitVec 4)
  | mzeroRelease (ta : BitVec 4)
  | mma (o : MMaOp)
  | mmar (o : MMarOp)
  | mout (o : MOutOp)
  | moutq (o : MOutOp) (qd : BitVec 5)
  | mlda (o : MLdOp)
  | msta (o : MStOp)
  | mtrn (ta tb : BitVec 4)
  | mband (ta tb : BitVec 4)
  | cpy (o : CRecOp) (zr nt : BitVec 1)
  | cpyr (o : CRecOp) (zr nt : BitVec 1) (zs : BitVec 3)
  | cgath (o : CRecOp) (nt : BitVec 1)
  | cscat (o : CRecOp) (nt : BitVec 1)
  | cbin (o : CRecOp) (nt : BitVec 1)
  | csend (o : CRecOp) (zr nt : BitVec 1) (hd : BitVec 6)
  | crecvb (o : CRecOp) (hd : BitVec 6)
  | cnmc (o : CRecOp)
  | ccoll (o : CRecOp)
  | cwait (ch : BitVec 2) (kg : BitVec 1) (rg : BitVec 6)
  | cfence
  | cconst (o : CRecOp)
  | loop (lv : BitVec 1) (n : Count) (len : BitVec 9)
  | loops (lv : BitVec 1) (n : Count) (len : BitVec 9) (stg : BitVec 3) (ps : PReg)
  | endStream
  | setvc (src : VcSrc)
  | fmtld (sb : SReg)
  | engineTwait (n : BitVec 31)
  | waitf (rk : BitVec 2) (rn : BitVec 7) (n : BitVec 28)
  | retire
  | xest (h : BitVec 6) (sl dl : BitVec 8)
  | xestm (h : BitVec 6) (sl : BitVec 8) (nd : BitVec 3) (list : BitVec 20)
  | xdrop (h : BitVec 6)
  | xstep (n : BitVec 36)
  | xstepAt (n : BitVec 36)
  | xhour (hr : BitVec 4)
  | xrelay (h : BitVec 6) (pk : BitVec 8) (fl : BitVec 2)
  | xgroup (g : BitVec 6) (pk : BitVec 8)
  | xwin (h : BitVec 6) (len : BitVec 31)
  | xloop (n : BitVec 16) (off : BitVec 21)
  | xjmp (off : BitVec 37)
  | xend
  | xretrain (l : BitVec 8)
  /-- `a` core -/
  | resultLanding
  /-- `a` core, `st` st -/
  | deadlineReached
  /-- `a` core, `st` st -/
  | elasticWaitEnd
  /-- `a` lid -/
  | quietDeadlock
  /-- `a` core -/
  | retirementBoundExceeded
  /-- `a` bar -/
  | barrierRelease
  /-- `a` core -/
  | shapeLoadLanding
  /-- `a` id -/
  | qsendArrival
  /-- `a` core, `b` id -/
  | helmAccessAtHome
  /-- `a` core, `b` id -/
  | accessWindowExpiry
  /-- `a` core, `b` id -/
  | acqLanding
  /-- `a` core, `b` id -/
  | relIncrement
  /-- `a` core, `b` id -/
  | fenceComplete
  /-- `a` core, `b` id -/
  | translationResult
  /-- `a` core, `b` id -/
  | copyTranslation
  /-- `a` core, `b` id -/
  | copyCompletion
  /-- `a` ctx, `b` page -/
  | snapshotCopyOnWrite
  /-- `a` stack, `err` err -/
  | nmupd
  /-- `a` stack, `err` err -/
  | nmaxpby
  /-- `a` stack, `err` err -/
  | nmred
  /-- `a` stack -/
  | nmfill
  /-- `a` stack, `err` err -/
  | nmcpy
  /-- `a` stack -/
  | nearMemoryCompletion
  /-- `a` core, `b` id, `c` dl -/
  | csendDelivery
  /-- `a` core, `b` id -/
  | csendAck
  /-- `a` h, `flag` relocked -/
  | handleLive
  /-- `a` h -/
  | drainEnd
  /-- `a` h -/
  | windowEnd
  /-- `a` l, `b` bad -/
  | flitReceive
  /-- `a` l, `b` seq -/
  | replayRequest
  /-- `a` l, `b` seq -/
  | flitAck
  /-- `a` l -/
  | retrainingPause
  /-- `a` l -/
  | pauseBoundExceeded
  /-- `a` l -/
  | backpressureLimit
  /-- `a` l, `b` rail -/
  | laserPowerLow
  /-- `a` l, `b` rail -/
  | ringTuningOutOfRange
  /-- `a` l -/
  | bringUpStageEnd
  /-- `a` l, `b` condition -/
  | bringUpTimeout
  /-- `off` error -/
  | dawnPulse
  | daycCorrection
  | holdoverStart
  | holdoverExpiry
  /-- `a` lid -/
  | xhourEnd
  /-- `a` id -/
  | serviceMessage
  /-- `a` src, `b` dst, `c` fl, `bytes` bytes, `flag` room -/
  | relayArrival
  /-- `a` id -/
  | relayForward
  /-- `a` id -/
  | relayTimeout
  /-- `a` g -/
  | orderPointStamp
  /-- `a` core, `b` id -/
  | mstoreAck
  /-- `a` g, `b` m -/
  | multicastApply
  /-- `a` g, `b` m -/
  | orderGap
  /-- `a` g -/
  | xgroupAck
  /-- `a` g, `b` m -/
  | memberResend
  /-- `a` quay -/
  | launchPacket
  /-- `a` quay -/
  | noopPacket
  /-- `a` tile -/
  | placementTurn
  /-- `a` lid -/
  | agingStep
  /-- `a` lid -/
  | heldCandidate
  /-- `a` lid -/
  | startBroadcast
  /-- `a` tile -/
  | poolEntryFreed
  /-- `a` lid -/
  | launchRetirement
  /-- `a` lid -/
  | completionRecord
  /-- `a` ring, `b` cause, `c` place, `d` stat -/
  | eventRecord
  /-- `a` fn -/
  | msixInterrupt
  /-- `a` lid -/
  | preemptionStop
  /-- `a` lid -/
  | preemptedResume
  /-- `a` core -/
  | trapDelivery
  /-- `a` lid -/
  | trapResume
  /-- `a` core -/
  | interruptTaken
  /-- `a` core -/
  | phaseRerun
  /-- `flag` past -/
  | thermalOrPower
  /-- `flag` down -/
  | clockChange
  | clockRestore
  | thermalTrap
  /-- `a` tile -/
  | rotationScanStep
  /-- `a` tile -/
  | rotationMigration
  /-- `a` tile -/
  | scanPass
  /-- `a` tile -/
  | scanFail
  /-- `a` ctx -/
  | snapshotBeginPoint
  /-- `a` ctx -/
  | snapshotDrain
  /-- `a` ctx -/
  | snapshotCommit
  /-- `a` ctx -/
  | snapshotRestoreEnd
  /-- `a` ctx, `b` k -/
  | sncmdBegin
  /-- `a` ctx -/
  | sncmdRestore
  /-- `a` ctx -/
  | sncmdCommitUnverified
  /-- `a` granule, `flag` correctable, `flag2` overtaken -/
  | patrolScrub
  /-- `a` core, `b` sector, `flag` correctable, `flag2` overtaken -/
  | localStoreScrub
  /-- `a` stack, `b` bank, `c` row, `flag` the access writes -/
  | misraGriesActivation
  /-- `a` stack -/
  | refreshWindow
  /-- `a` stack, `b` pin, `c` margin -/
  | eyeMarginMeasurement
  /-- `a` stack, `b` pc -/
  | hpcout
  /-- `a` stack -/
  | heyemin
  | coldBoot
  /-- `list` failing -/
  | warmReset
  /-- `a` id -/
  | collectiveDigest
  /-- `a` id -/
  | collectiveSum
  /-- `a` id -/
  | collectiveMax
  /-- `a` id -/
  | collectiveMin
  /-- `a` id -/
  | collectiveMove
  /-- `a` id, `b` m -/
  | collectiveCompletion
  /-- `a` id, `b` m -/
  | collectiveDeadline
  /-- `a` id -/
  | deadlineRelease
  /-- `a` id -/
  | chunkRerun
  /-- `a` id, `b` m -/
  | memberLost
  /-- `a` id -/
  | shootdownComplete
  /-- `a` id, `b` ap -/
  | peerUnreachable
  /-- `a` ap -/
  | pendingInvalidationReplay
  /-- `a` rack, `access` a -/
  | remoteAccessRequest
  /-- `a` ctx, `access` a -/
  | bar2Access
  /-- `a` ctx, `b` quay, `word` v -/
  | hostFetchadd
  /-- `a` tile, `word` v -/
  | pshoot
  /-- `a` tile, `word` v -/
  | presume
  /-- `a` tile, `word` v -/
  | pterm
  /-- `a` tile, `word` v -/
  | ppre
  /-- `a` tile, `word` v -/
  | pintr
  /-- `a` tile, `b` rd -/
  | ptrapq
  /-- `a` tile, `flag` write, `b` r -/
  | pcdat
  /-- `a` tile, `b` ctx, `c` n -/
  | pgrantLanding
  /-- `a` tile, `b` ctx, `c` n -/
  | prevokeLanding
  /-- `a` tile, `b` ctx, `c` n -/
  | pgrantHandle
  /-- `a` tile, `b` ctx, `c` n -/
  | prevokeHandle
  /-- `a` tile, `b` ctx, `c` n -/
  | pgrantGroup
  /-- `a` tile, `b` ctx, `c` n -/
  | prevokeGroup
  /-- `a` tile, `b` ctx, `c` n -/
  | pgrantQuay
  /-- `a` tile, `b` ctx, `c` n -/
  | prevokeQuay
  /-- `a` tile, `b` addr, `word` v -/
  | registerWrite
  /-- `flag` reserved -/
  | unassignedOpcode
  /-- `a` l -/
  | retrainingPauseEnd
  /-- `a` l, `flag` clear -/
  | supervisorRetrain
  /-- `a` g, `words` words -/
  | groupTableWrite
  /-- `a` ctx, `b` offset, `word` v -/
  | bar0Access
  /-- `a` ctx, `word` root -/
  | contextRootChange
  /-- `a` stack -/
  | correctedCountHour
  deriving DecidableEq, Repr

end Sys2Proof
end

