-- ==== Sys2Proof/Machine/State.lean ====
section
/-! DEFINITION. The state of a package: everything the spec gives the machine, as plain data, and the state after reset. -/

namespace Sys2Proof.Machine

/-- Memory as listed bytes: addresses strictly rising, no byte equal to what an unlisted address reads as (0). -/
abbrev Memory := List Host.Cell

/-- An association list with strictly rising numeric keys. -/
abbrev Tab (α : Type) := List (Nat × α)

/-! ## One core -/

/-- A tile register: 64 rows of 64 bytes, its scale sidecar, band scale and sequence tag (03 R83, 07 R218, R219). -/
structure Tile where
  data : BitVec 32768 := 0
  side : Option (BitVec 8192) := none
  band : Option (BitVec 16) := none
  tag : BitVec 16 := 0
  deriving DecidableEq, Repr

/-- An accumulator: 32 x 64 elements of 32 bits and how they are read, `none` before any (07 R220). -/
structure Acc where
  data : BitVec 65536 := 0
  int : Option Bool := none
  deriving DecidableEq, Repr

/-- What a write that has issued does when it lands (02 R31-R34). -/
inductive Eff where
  | s (r : SReg) (v : Word)
  | p (r : PReg) (v : Bool)
  | pEmpty (r : PReg)
  | q (r : BitVec 5) (v : Word)
  | qEmpty (r : BitVec 5)
  | v (r : BitVec 6) (msk data : BitVec 4096)
  | k (r : BitVec 4) (m : BitVec 128)
  | t (r : BitVec 4) (x : Tile)
  | tEmpty (r : BitVec 4)
  | tSide (r : BitVec 4) (x : BitVec 8192)
  | tBand (r : BitVec 4) (x : BitVec 16)
  | a (r : BitVec 2) (x : Acc)
  | aEmpty (r : BitVec 2)
  | fmt (x : List (BitVec 32))
  | bytes (addr : Nat) (b : List Byte)
  | cbank (first : Nat) (w : List (BitVec 32))
  | seed (v : Word)
  | bond (base len bond : Nat)
  | close (bond : Nat)
  | shape (z : Nat)
  | raise (code : Nat)
  | phase
  | phaseEnd
  deriving DecidableEq, Repr

/-- A result in flight: issued in cycle `issued`, landing at the end of cycle `due`, at schedule position `pos` of its
stream; `arrived` once the cycle has come and the stream's position has not (02 R441). `pc` and `step` name the word for a trap record, `checked` whether a residue covers it (04 R131). -/
structure Flight where
  st : Stream
  issued : Nat
  due : Nat
  pos : Nat
  eff : Eff
  arrived : Bool := false
  pc : Word := 0
  step : Nat := 0
  checked : Bool := false
  /-- issued in handler mode, so that scalars s56 to s63 are the handler bank's (12 R375) -/
  bank : Bool := false
  /-- of a vector result: the containers of its register into which it copies one whose residue does not match (13 R389) -/
  spoilt : List Nat := []
  deriving DecidableEq, Repr

/-- What a deadline wait waits for (02 R38), or an XHOUR. -/
inductive WaitKind where
  | time
  | full (rk : BitVec 2) (rn : BitVec 7)
  | channel (c : Nat) (n : Nat)
  | launch (cid : Nat) (hold : Bool)
  | bar (id : Nat) (plain : Bool)
  | hour (h : Nat)
  deriving DecidableEq, Repr

/-- A wait in progress: its deadline D, as a cycle and as a schedule position, and whether its condition has held. -/
structure Wait where
  kind : WaitKind
  due : Nat
  pos : Nat
  since : Nat
  held : Bool := false
  deriving DecidableEq, Repr

/-- A hardware loop of an engine stream, or an entry of the crossing loop stack (05 R164-R167, 10 R307). -/
structure Loop where
  lv : BitVec 1
  first : Word
  last : Word
  iter : Nat
  trips : Nat
  stages : Option (PReg × Nat × Nat) := none
  deriving DecidableEq, Repr

/-- One stream: its image, program counter, the schedule position and issue cycle after the last word, the step index,
the wait in progress, the valid count, lc0 and lc1, and its loops, innermost first. -/
structure StreamSt where
  base : Word := 0
  words : Nat := 0
  ended : Bool := true
  pc : Word := 0
  posBase : Nat := 0
  posMin : Nat := 0
  issueBase : Nat := 0
  notBefore : Nat := 0
  /-- the position of the next word whatever its IDLE, after a phase has been cancelled (13 R398) -/
  posAt : Option Nat := none
  step : Nat := 0
  wait : Option Wait := none
  vc : BitVec 32 := 0xFFFFFFFF#32
  lc0 : BitVec 32 := 0
  lc1 : BitVec 32 := 0
  loops : List Loop := []
  deriving DecidableEq, Repr

/-- A fault raised by a word of a core, until its record is written (12 R376). -/
structure TrapInfo where
  code : Nat
  st : Stream
  cmd : Nat := 0
  engine : Nat := 0
  unit : Nat := 0
  va : Word := 0
  cyc : Nat := 0
  stat : BitVec 32 := 0
  more : Bool := false
  /-- the pc of the word that the record names, where it is not the stream's own (04 R132, 08 R260, 12 R373) -/
  xpc : Option Word := none
  /-- raised by a word that had no effect and issues again on resume (12 R373) -/
  ofWord : Bool := false
  deriving DecidableEq, Repr

/-- A page's translation: the leaf entry and the size of its page (12 R366). -/
structure Leaf where
  entry : Word
  size : Nat
  home : Nat
  deriving DecidableEq, Repr

/-- The kinds of helm access (05 R150, 09 R270, R271, R280, R286, 11 R347). -/
inductive AccKind where
  | load (w : Nat) (signed : Bool)
  | store (w : Nat)
  | aadd | aaddf | aswap | acas | amin | amax | abump
  | acq
  | rel
  | fence (scope : Nat)
  | mstore (g : Nat)
  | launch (joined : Bool)
  deriving DecidableEq, Repr

/-- Where a pending child waits (02 R64). -/
inductive Pool where
  | none | unreserved | reserved | overflow
  deriving DecidableEq, Repr

/-- An outstanding helm access: operands read at issue, when its translation and its read or write take place, and what
has come of it. -/
structure Access where
  id : Nat
  kind : AccKind
  va : Word
  ac : BitVec 3 := 0
  rd : SReg := 0
  v : Word := 0
  c : Word := 0
  issued : Nat
  pos : Nat
  window : Nat
  xlatAt : Nat
  homeAt : Nat := 0
  leaf : Option Leaf := none
  fault : Option TrapInfo := none
  performed : Bool := false
  sent : Bool := false
  late : Bool := false
  captured : Bool := false
  fenceNo : Nat := 0
  /-- the tick in which it issued, and those from which it lies ahead of what follows it at the core's egress and at the tile's
  ordered port, once a FENCE has completed behind it (09 R276) -/
  tick : Nat := 0
  egress : Option Nat := none
  port : Option Nat := none
  /-- of a fault: how long after the issue it is raised (05 R153) -/
  reportIn : Nat := 512
  /-- of an MSTORE: R292's bound holds for it (09) -/
  bounded : Bool := false
  value : Option Word := none
  pc : Word := 0
  step : Nat := 0
  /-- issued in handler mode (12 R375) -/
  bank : Bool := false
  /-- of a LAUNCH: the place that it holds for its child from its issue on (02 R64) -/
  pool : Pool := .none
  deriving DecidableEq, Repr

/-- A QSEND on its way to, or waiting at, its target (05 R157, R158). -/
structure QSend where
  id : Nat
  src : Nat
  dst : Nat
  q : BitVec 5
  v : Word
  due : Nat
  waiting : Bool := false
  deriving DecidableEq, Repr

/-- The kinds of copy command (08 R239). -/
inductive CopyKind where
  | box | ragged | gath | scat | bin | send | recv | nmc | coll | const
  deriving DecidableEq, Repr

/-- A run of bytes a command moves: where from and where to, as (space, address). -/
structure Span where
  src : Nat
  dst : Nat
  len : Nat
  deriving DecidableEq, Repr

/-- A bond-table entry (09 R267). -/
structure Bond where
  base : Nat
  len : Nat
  bond : Nat
  isOpen : Bool := false
  deriving DecidableEq, Repr

/-- A copy command that has issued (08 R240-R256, 10 R313-R319): its operands as read at issue, the state of the copy stream
before it, and what has come of it. A finished one is kept until its bound has passed, since the bounds of later ones
count from it. -/
structure CopyCmd where
  id : Nat
  kind : CopyKind
  ch : Nat
  ident : Nat
  /-- the tick in which it issued -/
  tick : Nat := 0
  record : List Byte := []
  recAddr : Nat := 0
  nt : Bool := false
  handle : Nat := 0
  issued : Nat
  before : StreamSt
  sk : Nat := 0
  dk : Nat := 0
  peer : Nat := 0
  spans : List Span := []
  srcTile : Option (BitVec 32768) := none
  granules : Nat := 0
  reads : List Nat := []
  writes : List Nat := []
  ranges : List (Nat × Nat × Bool) := []
  tiles : List (Nat × Bool) := []
  idx : List Int := []
  fence : Nat := 0
  zero : Bool := false
  fault : Option TrapInfo := none
  /-- of a CBIN: the core's bond table as at issue (09 R273) -/
  bonds : List Bond := []
  xlatAt : Nat := 0
  pages : List (Nat × Leaf) := []
  virt : Bool := false
  xlated : Bool := false
  /-- its destination pages may be written: the last part of passing translation (08 R246, R247) -/
  gated : Bool := false
  ready : Option Nat := none
  bound : Option Nat := none
  doneAt : Option Nat := none
  finished : Bool := false
  started : Bool := false
  /-- what CCONST and CBIN read at their Ready cycle (08 R254, R255): the bytes, and the words or entries that were bad -/
  taken : Option (List Byte × List Nat) := none
  logged : Bool := false
  reissued : Bool := false
  /-- of a CSEND: the destination landings still to be reached, and the sequencer's counts of its delivery and acknowledgment -/
  left : List Nat := []
  arriveAt : Nat := 0
  ackAt : Nat := 0
  /-- of a CSEND: S of R318, on the sequencer's count (10) -/
  sendAt : Nat := 0
  /-- of a CSEND: what waits in a landing's arrival buffer, as landing and runs of offset, bytes and poison (10 R317); the count of its source
  landing's flits after its own (R322); its data has left by a fibre landing and a relay is still to store it (R333) -/
  held : List (Nat × List (Int × List Byte × Bool)) := []
  flits : Nat := 0
  gone : Bool := false
  /-- of a binding: the bytes counted; of a near-memory command: its next chunk and status -/
  count : Nat := 0
  status : Nat := 0
  deriving DecidableEq, Repr

/-- The state of one buffer of a shape slot (07 R198). -/
inductive BufState where
  | free | loading | current | draining
  deriving DecidableEq, Repr

/-- One buffer of a shape slot: its record, boundary table and the words that still use it (07 R196-R200). -/
structure ShapeBuf where
  st : BufState := .free
  record : List Byte := []
  bounds : List Nat := []
  users : List (Stream × Nat) := []
  deriving DecidableEq, Repr

/-- A shape slot: two buffers (03 R83, 07 R198). -/
structure ShapeSlot where
  b0 : ShapeBuf := {}
  b1 : ShapeBuf := {}
  deriving DecidableEq, Repr

/-- The running state of a segmented reduction of the vector stream (07 R212). -/
structure Carry where
  valid : Bool := false
  op : Nat := 0
  slot : Nat := 0
  seg : Nat := 0
  value : BitVec 64 := 0
  value2 : BitVec 64 := 0
  some : Bool := false
  gen : Nat := 0
  deriving DecidableEq, Repr

/-- The helm's own state beside its stream (05 R142, R147). -/
structure HelmSt where
  npc : Word := 0
  nnpc : Word := 0
  ncount : BitVec 2 := 0
  shadow : List Word := []
  deriving DecidableEq, Repr

/-- What a core in handler mode keeps of the helm it stopped (12 R375, R377). -/
structure Stopped where
  info : TrapInfo
  helm : HelmSt
  stream : StreamSt
  flights : List Flight
  at_ : Nat
  deriving DecidableEq, Repr

/-- An open phase and its start (13 R393-R398). -/
structure Phase where
  desc : Nat
  /-- CHMASK, LOG and LOGN as PHASEB read them -/
  chmask : Nat := 0
  logAt : Nat := 0
  logn : Nat := 0
  start : Nat
  sregs : Vector Word 64
  pregs : Vector Bool 128
  pfull : Vector Bool 128
  qregs : Vector Word 32
  qfull : Vector Bool 32
  helm : HelmSt
  helmS : StreamSt
  vecS : StreamSt
  matS : StreamSt
  carry : Carry
  log : List Nat := []
  cancels : Nat := 0
  unrecoverable : Bool := false
  refetch : List Nat := []
  deriving DecidableEq, Repr

/-- One core: a visible core, or the purser core of a tile. -/
structure Core where
  lid : Option Nat := none
  cyc : Nat := 0
  htime : Nat := 0
  frozen : Bool := false
  /-- frozen by a clock change, a migration or a pre-emption: no handler runs and no result lands (02 R46) -/
  held : Bool := false
  stopped : Bool := false
  freezeAt : Option Nat := none
  sregs : Vector Word 64 := Vector.replicate 64 0
  hbank : Vector Word 8 := Vector.replicate 8 0
  pregs : Vector Bool 128 := (Vector.replicate 128 false).set 0 true
  pfull : Vector Bool 128 := Vector.replicate 128 true
  qregs : Vector Word 32 := Vector.replicate 32 0
  qfull : Vector Bool 32 := Vector.replicate 32 false
  vregs : Vector (BitVec 4096) 64 := Vector.replicate 64 0
  kregs : Vector (BitVec 128) 16 := (Vector.replicate 16 0).set 0 (BitVec.allOnes 128)
  tregs : Vector Tile 16 := Vector.replicate 16 {}
  tfull : Vector Bool 16 := Vector.replicate 16 false
  aregs : Vector Acc 4 := Vector.replicate 4 {}
  afull : Vector Bool 4 := Vector.replicate 4 false
  cbank : Vector (BitVec 32) 256 := Vector.replicate 256 0
  shapes : Vector ShapeSlot 8 := Vector.replicate 8 {}
  fmt : Vector (BitVec 32) 16 := Vector.replicate 16 0
  helm : StreamSt := {}
  vec : StreamSt := {}
  mat : StreamSt := {}
  cpy : StreamSt := {}
  helmSt : HelmSt := {}
  carry : Carry := {}
  vbusy : Nat := 0
  mbusy : Vector Nat 3 := Vector.replicate 3 0
  flights : List Flight := []
  accesses : List Access := []
  nextAcc : Nat := 0
  fences : Nat := 0
  ls : Memory := []
  slotTags : Tab (BitVec 16) := []
  lsPoison : List Nat := []
  /-- of the poisoned sectors, those whose error the scrubber has still to find (13 R392) -/
  lsLatent : List Nat := []
  tBad : List Nat := []
  aBad : List Nat := []
  tagTab : Tab Word := []
  tagBad : List Nat := []
  residueBad : List Nat := []
  /-- the vector containers, 128 for each register, whose stored residue no longer matches (13 R389) -/
  vBad : List Nat := []
  bonds : List Bond := []
  copies : List CopyCmd := []
  nextCopy : Nat := 0
  chIssued : Vector Nat 4 := Vector.replicate 4 0
  chDone : Vector (List Nat) 4 := Vector.replicate 4 []
  chst : Vector Nat 4 := Vector.replicate 4 0
  pathFree : Tab Nat := []
  cfences : Nat := 0
  owed : List TrapInfo := []
  colls : Tab Nat := []
  seed : Word := 0
  tvec : Word := 0
  tcause : BitVec 9 := 0
  trec : BitVec 22 := 0x3FFFC0#22
  sinceRetire : Nat := 0
  atRetire : Bool := false
  yieldAt : Option Nat := none
  retireAt : Option Nat := none
  raised : List TrapInfo := []
  trap : Option TrapInfo := none
  deliverAt : Nat := 0
  handler : Option Stopped := none
  trapped : Option Stopped := none
  escalated : Option Nat := none
  inHandlerFault : Option TrapInfo := none
  /-- a fault of an elastic launch's crossing program, which stops no core: until it is delivered, when, and its record's address
  in the escalation area until it is resumed (12 R373, R374) -/
  xtrap : Option TrapInfo := none
  xDeliverAt : Nat := 0
  xEscalated : Option Nat := none
  children : List Nat := []
  interrupt : Option (BitVec 32 × Nat) := none
  phase : Option Phase := none
  phaseWait : Bool := false
  deriving DecidableEq, Repr

/-- The states of a crossing handle (10 R298). -/
inductive HState where
  | free | settling | live | windowed | draining | lost
  deriving DecidableEq, Repr

/-- A crossing handle (10 R296-R312). -/
structure Handle where
  st : HState := .free
  owner : Option Nat := none
  lid : Nat := 0
  src : Nat := 0
  dsts : List Nat := []
  liveAt : Nat := 0
  window : Option (Nat × Nat) := none
  relay : Option (Nat × Nat) := none
  free : Nat := 0
  lastDone : Nat := 0
  /-- ticks of draining while the sequencer's count stood for a pre-emption (11 R349) -/
  aged : Nat := 0
  /-- the CSENDs accepted and not acknowledged, in order, as (core, command) -/
  sends : List (Nat × Nat) := []
  /-- the bindings that wait, in order, as (core, command) -/
  bindings : List (Nat × Nat) := []
  deriving DecidableEq, Repr

/-! ## Launches -/

/-- Where a launch stands (02 R50-R67, 11 R341-R352). -/
inductive Stage where
  | waiting | loading | running | preempting | preempted | resuming | retired
  deriving DecidableEq, Repr

/-- The crossing program of a launch (10 R299). -/
structure Xing where
  prog : StreamSt
  stopped : Bool := false
  deriving DecidableEq, Repr

/-- One pinned page of an image (03 R71). -/
structure Pin where
  va : Nat
  leaf : Leaf
  deriving DecidableEq, Repr

/-- A saved core of a pre-empted launch (11 R350): the whole core. -/
structure Image where
  core : Nat
  st : Core
  deriving DecidableEq, Repr

/-- One launch: its packet and descriptor (11 R339, R340), where it runs, and what has come of it. -/
structure Launch where
  lid : Nat
  ctx : Nat
  cid : Nat := 0
  stage : Stage := .waiting
  timed : Bool := false
  elastic : Bool := false
  any : Bool := false
  x0 : Nat := 0
  y0 : Nat := 0
  w : Nat := 1
  h : Nat := 1
  bound : Nat := 1024
  seed : Word := 0
  packet : List Byte := []
  desc : List Byte := []
  dep : Nat := 0
  cancel : Bool := false
  params : Nat := 0
  evtag : Word := 0
  bmap : Nat := 0
  prio : Nat := 0
  quay : Option Nat := none
  tile : Nat := 0
  parent : Option Nat := none
  joined : Bool := false
  pool : Pool := .none
  seq : Nat := 0
  headAt : Nat := 0
  /-- the effective level (11 R343) -/
  level : Nat := 0
  level3 : Option Nat := none
  heldAt : Option Nat := none
  /-- since when it has been ready (11 R342, R345) -/
  readyAt : Option Nat := none
  startAt : Nat := 0
  /-- the crossing sequencer's count (02 R47) -/
  count : Nat := 0
  xing : Option Xing := none
  pins : List Pin := []
  traps : Nat := 0
  firstCause : Nat := 0
  lost : List Nat := []
  status : Nat := 0
  cause : Nat := 0
  preempt : Option Nat := none
  freezing : Bool := false
  frozenUntil : Option Nat := none
  owing : List Nat := []
  saved : List Image := []
  savedHandles : List (Nat × Handle) := []
  lastCyc : Nat := 0
  quiet : Nat := 0
  /-- the MSTOREs of the launch that an order point in another package has stamped: the group and the number (09 R287, R294) -/
  stamped : List (Nat × Nat) := []
  deriving DecidableEq, Repr

/-- A member at a barrier: the sequencer's count at which it counts as arrived, and its deadline (02 R49, R57, 09 R279). -/
structure Arrival where
  core : Nat
  at_ : Option Nat := none
  deadline : Nat := 0
  deriving DecidableEq, Repr

/-- A barrier episode (02 R54-R57). -/
structure Bar where
  id : Nat
  lid : Nat
  team : Nat × Nat × Nat × Nat
  sync : Bool
  arrived : List Arrival := []
  deriving DecidableEq, Repr

/-! ## The package -/

/-- What a fibre landing sends: the package that it is for, the one that it comes from, the fibre landing by which the package that it goes to
is to send it on, and the bytes as runs of offset, bytes and poison (10 R332, R333). -/
structure Parcel where
  dst : Nat
  src : Nat := 0
  via : Option Nat := none
  runs : List (Int × List Byte × Bool)
  deriving DecidableEq, Repr

/-- A landing (01 R19-R22, 10 R320-R328, 13 R414). -/
structure Landing where
  owner : Option Nat := none
  trained : Bool := false
  stage : Option Nat := none
  stageAt : Nat := 0
  fails : Nat := 0
  failed : Bool := false
  lastFail : Nat := 0
  railFails : Vector Nat 5 := Vector.replicate 5 0
  railLost : Option Nat := none
  weak : List Nat := []
  nextFlit : Nat := 0
  acked : Nat := 0
  /-- the count of the next flit that the sender sends, behind `nextFlit` after a replay request (10 R322) -/
  sent : Nat := 0
  /-- the count of the flits that have entered the replay buffer; those from `acked` on are in it (10 R322, R323) -/
  stored : Nat := 0
  expect : Nat := 0
  /-- the payload of the flit accepted last, rebuilt where a rail failed (10 R320, R321) -/
  flit : List Byte := []
  /-- what a fibre landing sent last -/
  lastOut : Option Parcel := none
  discarding : Bool := false
  pause : Option Nat := none
  full : Option Nat := none
  reported : Bool := false
  dropped : Nat := 0
  deriving DecidableEq, Repr

/-- A multicast store held by the order point (09 R287, R288). -/
structure MStore where
  n : Nat
  core : Nat
  acc : Nat
  off : Nat
  v : Word
  at_ : Nat
  /-- the package, as an aperture, whose core stored; 0 is this one -/
  peer : Nat := 0
  deriving DecidableEq, Repr

/-- A multicast group: its table entry, binding and numbering (09 R284-R290). -/
structure Group where
  words : List Word := []
  home : Option Nat := none
  boundAt : Nat := 0
  next : Nat := 1
  arriving : List MStore := []
  held : List MStore := []
  applied : List (Nat × Nat) := []
  stoppedM : List Nat := []
  /-- the stores that have not arrived at a member that holds a later one: the member, the store's number, and the wall-clock time since
  which it holds one (09 R290) -/
  gaps : List (Nat × Nat × Nat) := []
  /-- the supervisor has revoked the grant (12 R383) -/
  revoked : Bool := false
  deriving DecidableEq, Repr

/-- One shadow slot of a page: its label, and the 64 KiB page of the pool at which its contents stand (13 R404, R406). -/
structure Shadow where
  label : BitVec 8
  at_ : Nat
  deriving DecidableEq, Repr

/-- The two shadow slots of a page of a context, by the page's virtual address (13 R404). -/
structure ShadowPage where
  va : Nat
  units : Nat := 1
  a : Option Shadow := none
  b : Option Shadow := none
  deriving DecidableEq, Repr

/-- A context (12 R363, R383, 13 R402-R409). -/
structure Context where
  root : Word := 0
  epoch : BitVec 8 := 0
  flags : Word := 0
  evt : Word := 0
  evtc : Word := 0
  save : Word := 0
  assigned : Nat := 0
  completed : List (Nat × Nat) := []
  bar2 : Nat := 0
  ringW : Nat := 0
  ringR : Nat := 0
  dropped : Nat := 0
  trapsTaken : Nat := 0
  refused : Nat := 0
  sinceIrq : Nat := 0
  firstIrq : Nat := 0
  /-- the messages signalled by MSI-X vector, and the vectors that wait behind their mask bits (01 R24, 12 R385, R386) -/
  irqs : Tab Nat := []
  irqPending : List Nat := []
  snpool : Word := 0
  snpsz : Word := 0
  snroot : Word := 0
  active : Bool := false
  drained : Bool := false
  verified : Bool := false
  failed : Bool := false
  restoring : Bool := false
  refusedCmd : Bool := false
  uncovered : Bool := false
  committed : BitVec 8 := 0
  commitValid : Bool := false
  pagesLeft : Nat := 0
  pendingBegin : Option (BitVec 8) := none
  beginPts : List Nat := []
  /-- the cores past the begin point: core, next access and next command there (13 R405) -/
  imageOps : List (Nat × Nat × Nat) := []
  producers : List Nat := []
  activeProducers : List Nat := []
  scanned : List Nat := []
  beginDayc : Nat := 0
  /-- the tick of the begin point; the page that the drain copies now and the tick at which that copy ends; and the copies to the shadow that
  writes wait for: page and tick -/
  beginAt : Nat := 0
  drainNext : Option Nat := none
  drainAt : Nat := 0
  cows : Tab Nat := []
  slots : List ShadowPage := []
  /-- MSI-X table words of the function (12 R386) -/
  msix : Tab Nat := []
  deriving DecidableEq, Repr

/-- A non-leaf entry that a translation unit holds: the context, the virtual region that the entry maps, and the entry (12 R369). -/
structure DirEntry where
  ctx : Nat
  base : Nat
  size : Nat
  entry : Word
  deriving DecidableEq, Repr

/-- A tile's supervisor hardware: the launch unit, the translation unit, the scan controller and the CSRs of its purser. -/
structure TileSt where
  turn : Vector Nat 4 := Vector.replicate 4 0
  tu : List (Nat × Nat × Leaf) := []
  dir : List DirEntry := []
  scanNext : Nat := 0
  scanAt : Nat := 0
  map : Tab Nat := []
  spare : Option Nat := some 256
  scanning : Option (Nat × Nat) := none
  migrating : Option Nat := none
  coverage : Bool := true
  badCores : List Nat := []
  psel : Nat := 0
  trapq : List (Nat × Nat) := []
  ptrec : Word := 0
  pcsel : Word := 0
  ptvec : Word := 0
  pintr : Option Word := none
  pshst : Word := 0
  deriving DecidableEq, Repr

/-- An HBM stack's controller (01 R18, 13 R410-R413). -/
structure Stack where
  trained : Bool := false
  /-- the read and write delays and the reference voltages of its pins that are in force (13 R412) -/
  training : List Byte := []
  hcethr : Nat := 64
  hmgthr : Nat := 2048
  heye : Nat := 32
  mapped : List Nat := []
  corrected : Tab Nat := []
  hcecnt : Nat × Nat := (0, 0)
  eyeMin : Nat × Nat := (255, 0)
  disarmed : List Nat := []
  mg : Tab (List (Nat × Nat)) := []
  refreshes : List (Nat × Nat) := []
  /-- the row buffers of each bank, the last used first: the row and whether it is dirty; and the rows that have been written back in this
  refresh window, as bank and row (13 R410) -/
  rows : Tab (List (Nat × Bool)) := []
  backs : List (Nat × Nat) := []
  deriving DecidableEq, Repr

/-- A shootdown in progress (12 R371, R372). -/
structure Shoot where
  id : Nat
  tile : Nat
  ctx : Nat
  va : Nat
  pages : Nat
  mask : List Nat
  /-- when it began, or, once its second step is over and the requests are on their way to the peers, since when they have been -/
  at_ : Nat
  sent : Bool := false
  /-- the physical ranges that the leaves of its range named, as address and length -/
  ranges : List (Nat × Nat) := []
  lost : List Nat := []
  deriving DecidableEq, Repr

/-- An entry of the aperture table (12 R368). -/
structure Aperture where
  valid : Bool := false
  revoked : Bool := false
  rack : Nat := 0
  log : List (Nat × Nat) := []
  quarantine : Bool := false
  /-- its log has gone to the peer, whose acknowledgment is awaited (12 R372) -/
  replayed : Bool := false
  deriving DecidableEq, Repr

/-- One member's part in a collective (11 R353-R362). -/
structure Member where
  m : Nat
  core : Nat
  cmd : Nat
  record : List Byte
  done : Bool := false
  late : Bool := false
  deriving DecidableEq, Repr

/-- What a member of another package has sent: its number, its digest, its source shard, and the granules of that which were poison (11 R357,
13 R391); and, on its way from here, the tile that it leaves. -/
structure Part where
  m : Nat
  digest : List Byte
  bytes : List Byte
  bad : List Nat := []
  tile : Nat := 0
  deriving DecidableEq, Repr

/-- A collective in progress (11 R357). -/
structure Coll where
  id : Nat
  lid : Nat
  k : Nat
  team : Nat × Nat × Nat × Nat
  size : Nat
  members : List Member := []
  /-- what members in other packages have sent -/
  parts : List Part := []
  /-- the contributors of a release that member 0's package has decided (11 R362) -/
  only : Option (List Nat) := none
  digested : Bool := false
  status : Option (Nat × Nat) := none
  released : Bool := false
  at_ : Nat := 0
  /-- what a release has combined for members that had not come: by member, the elements' index, bytes and poison, and after them the
  contributors' bitmap (11 R362) -/
  kept : Tab (List (Nat × List Byte × Bool)) := []
  map : List Byte := []
  deriving DecidableEq, Repr

/-- What a message of the service ring, or of a service minute, says (10 R331): a binding of R311 and its acknowledgment, a store on its way to its
order point, a stamp or refusal, a stamped store and a member's count of a group, a shootdown, one that waits for the copies under way, or its
acknowledgment, the storing of relayed data or its end, of the k-th collective of a team of a context a peer member's part, its outcome, or the contributors of its
release, an escalated trap's record, or a message for another package, which goes on to it. A shootdown's ranges are of its sender's physical addresses, as address and length. -/
inductive Note where
  | groupAsk (g : Nat)
  | groupAck (g : Nat)
  | mstore (g : Nat) (m : MStore)
  | stampAck (g core acc n : Nat)
  | stampedStore (g : Nat) (m : MStore)
  | memberCount (g m n : Nat)
  | shootdown (id : Nat) (ranges : List (Nat × Nat))
  | shootWait (id peer : Nat) (ranges : List (Nat × Nat))
  | shootAck (id : Nat)
  | replay (ranges : List (Nat × Nat))
  | replayAck
  | relayStored (core cmd : Nat)
  | relayEnd (core cmd : Nat) (lost : Bool)
  | part (ctx : Nat) (team : Nat × Nat × Nat × Nat) (k : Nat) (p : Part)
  | outcome (ctx : Nat) (team : Nat × Nat × Nat × Nat) (k status who : Nat)
  | released (ctx : Nat) (team : Nat × Nat × Nat × Nat) (k : Nat) (ms : List Nat)
  | trapRecord (core addr : Nat)
  | relayed (ap : Nat) (note : Note)
  deriving DecidableEq, Repr

/-- A message on its way to this package or a tile of it; `minute` marks one that comes in a service minute, from the package `peer` that a
fibre landing must face (10 R331). -/
structure Message where
  id : Nat
  note : Note
  minute : Bool := false
  peer : Nat := 0
  at_ : Nat := 0
  deriving DecidableEq, Repr

/-- Relayed data in the relay pool: its sender, with the core and the command there, its destination, the fibre landing it leaves by, and when
it came (10 R333). -/
structure Relay where
  id : Nat
  src : Nat
  of_ : Nat × Nat := (0, 0)
  dst : Nat
  fl : Nat
  bytes : List Byte
  hour : Nat
  at_ : Nat
  /-- some of it is poison (13 R390) -/
  bad : Bool := false
  deriving DecidableEq, Repr

/-- Which part of a tick of the core clock the machine is in (02 R33): the events at its start, the words that issue in
it, the changes at its end. -/
inductive TickPhase where
  | start | issue | finish
  deriving DecidableEq, Repr

/-- An event that is to happen: its tick or wall-clock time, and its subject. -/
structure Due where
  at_ : Nat
  ev : Instr
  on : Subject := {}
  deriving DecidableEq, Repr

/-- The word being issued: its core, or its launch for a crossing word, its stream and its schedule position. -/
structure Cur where
  core : Nat := 0
  st : Stream := .helm
  pos : Nat := 0
  deriving DecidableEq, Repr

/-- The whole package: its clocks and the step's own bookkeeping, its cores and launches, memory, crossings, contexts, tiles and stacks. -/
structure State where
  now : Nat := 0
  wall : Nat := 0
  clock : Nat := 8
  tphase : TickPhase := .start
  todo : List (Nat × Stream) := []
  cur : Cur := {}
  on : Subject := {}
  freeCtr : Nat := 0
  agenda : List Due := []
  alarms : List Due := []
  cores : Tab Core := []
  launches : List Launch := []
  nextLid : Nat := 0
  bars : List Bar := []
  nextBar : Nat := 0
  qsends : List QSend := []
  nextQ : Nat := 0
  mem : Memory := []
  poison : List Nat := []
  bad : List (Nat × Bool) := []
  handles : Vector Handle 64 := Vector.replicate 64 {}
  landings : Vector Landing 132 := Vector.replicate 132 {}
  groups : Vector Group 64 := Vector.replicate 64 {}
  contexts : Vector Context 16 := Vector.replicate 16 {}
  quays : List (Nat × Nat) := []
  tiles : Vector TileSt 8 := Vector.replicate 8 {}
  hbm : Vector Stack 8 := Vector.replicate 8 {}
  apertures : Tab Aperture := []
  shoots : List Shoot := []
  nextShoot : Nat := 0
  colls : List Coll := []
  nextColl : Nat := 0
  messages : List Message := []
  /-- the service traffic that leaves for peers: the package and the message (10 R331) -/
  outbox : List (Nat × Note) := []
  relays : List Relay := []
  nextRelay : Nat := 0
  events : List (Nat × Nat × Nat × Nat) := []
  /-- the data that the last read or atomic from outside was answered with; none where it completed with Completer Abort, or met poison (12 R386) -/
  answer : Option (List Byte) := none
  /-- the physical function's event ring; the spec gives it no registers (DESIGN CHOICE, notes/assumptions/3.md) -/
  pfRing : Context := { evt := 63999926272, evtc := 0x10106 }
  pkstat : BitVec 4 := 0
  daycAdj : Int := 0
  dayError : Int := 0
  daycHold : Nat := 0
  holdover : Option Nat := none
  expired : Bool := false
  lastDawn : Nat := 0
  /-- the count of hours, plus 1, whose rotor guard has last stepped the day clock -/
  guardDone : Nat := 0
  /-- the nonvolatile store: the training values of each stack, with their CRC-32 (13 R412) -/
  nv : Vector (List Byte) 8 := Vector.replicate 8 []
  /-- a limit of R27 is exceeded, since when it has been so or has held again, since when the clock is at 1.0 GHz; a change of the
  clock is on its way; launches have trapped and none is started (01 R27) -/
  hot : Bool := false
  limitAt : Nat := 0
  lowAt : Nat := 0
  clockDue : Option Nat := none
  thermal : Bool := false
  turn : Nat := 0
  booted : Bool := false
  deriving DecidableEq, Repr

/-- Why a step stops with a fault. -/
inductive Fault where
  /-- Raised by an event of the table that is not due in this state. The spec gives an event no effect outside its
  condition; a step runs only events that are due, so no run meets it. Safe. -/
  | eventNotDue
  deriving DecidableEq, Repr

/-- Why a step is refused. -/
inductive Refusal where
  /-- Raised by Dispatch alone, for an instruction that has no meaning yet. Safe. -/
  | notModelled (mnemonic : String)
  deriving DecidableEq, Repr

/-- The package after reset (13 R412 and the log's rows 1, 2 and 7). -/
def State.reset : State := {}

end Sys2Proof.Machine
end

