-- ==== Sys2Proof/Machine/Ops.lean ====
section
/-! DEFINITION. The named operations: tables, memory, cores and streams, registers and results in flight, stopping a
core, taking a trap and returning from one. -/

namespace Sys2Proof.Machine

/-! ## Tables -/

/-- The entry of key `k`. -/
def tabGet {α : Type} : Tab α → Nat → Option α
  | [], _ => none
  | (a, x) :: t, k => if a = k then some x else tabGet t k

/-- The table with `k` set to `x`; keys stay rising. -/
def tabSet {α : Type} : Tab α → Nat → α → Tab α
  | [], k, x => [(k, x)]
  | (a, y) :: t, k, x => if k < a then (k, x) :: (a, y) :: t else if a = k then (k, x) :: t else (a, y) :: tabSet t k x

/-- The table without `k`. -/
def tabDel {α : Type} : Tab α → Nat → Tab α
  | [], _ => []
  | (a, y) :: t, k => if a = k then t else (a, y) :: tabDel t k

/-- Keys strictly rising, all above `lo` where there is one. -/
def tabRising {α : Type} : Option Nat → Tab α → Bool
  | _, [] => true
  | lo, (a, _) :: t => (match lo with | none => true | some l => l < a) && tabRising (some a) t

/-- Insertion of `x` before the first element with a larger key. -/
def insertBy {α : Type} (key : α → Nat) (x : α) : List α → List α
  | [] => [x]
  | y :: t => if key x < key y then x :: y :: t else y :: insertBy key x t

/-- A stable sort by a numeric key. -/
def sortBy {α : Type} (key : α → Nat) : List α → List α
  | [] => []
  | x :: t => insertLe key x (sortBy key t)
where
  /-- insertion of an element that stood before every element of the list -/
  insertLe {α : Type} (key : α → Nat) (x : α) : List α → List α
    | [] => [x]
    | y :: t => if key x ≤ key y then x :: y :: t else y :: insertLe key x t

/-- The first element with the smallest key. -/
def minBy? {α : Type} (key : α → Nat) : List α → Option α
  | [] => none
  | x :: t => match minBy? key t with
    | none => some x
    | some y => if key x ≤ key y then some x else some y

/-- Replace the elements that satisfy `p`. -/
def updIf {α : Type} (p : α → Bool) (f : α → α) (l : List α) : List α := l.map fun x => if p x then f x else x

/-- Add a number to a list once. -/
def addOnce (l : List Nat) (n : Nat) : List Nat := if l.contains n then l else l ++ [n]

/-! ## Register files and banks -/

/-- The element of a file that a register field names. -/
def vGet {α : Type} {n : Nat} (r : BitVec n) (v : Vector α (2 ^ n)) : α := v[r.toNat]'r.isLt

/-- The file with the element that a register field names replaced. -/
def vSet {α : Type} {n : Nat} (r : BitVec n) (x : α) (v : Vector α (2 ^ n)) : Vector α (2 ^ n) := v.set r.toNat x r.isLt

/-- The element of a bank of `k + 1` at a number, taken modulo the bank's size. -/
def vAt {α : Type} {k : Nat} (v : Vector α (k + 1)) (i : Nat) : α := v[i % (k + 1)]'(Nat.mod_lt i (Nat.succ_pos k))

/-- The bank with the element at a number replaced. -/
def vPut {α : Type} {k : Nat} (v : Vector α (k + 1)) (i : Nat) (x : α) : Vector α (k + 1) :=
  v.set (i % (k + 1)) x (Nat.mod_lt i (Nat.succ_pos k))

/-! ## Memory -/

/-- The byte at `a`; an unlisted address reads 0 (03 R83 for the local store; notes/assumptions/1.md elsewhere). -/
def memGet : Memory → Nat → Byte
  | [], _ => 0
  | (k, b) :: t, a => if k = a then b else memGet t a

/-- The memory without an entry for `a`. -/
def memDel : Memory → Nat → Memory
  | [], _ => []
  | (k, b) :: t, a => if k = a then t else (k, b) :: memDel t a

/-- The memory with an entry for `a`. -/
def memPut : Memory → Nat → Byte → Memory
  | [], a, b => [(a, b)]
  | (k, c) :: t, a, b => if a < k then (a, b) :: (k, c) :: t else if k = a then (a, b) :: t else (k, c) :: memPut t a b

/-- Write one byte; writing 0 removes the entry. -/
def memSet (m : Memory) (a : Nat) (b : Byte) : Memory := if b = 0 then memDel m a else memPut m a b

/-- Write bytes from `a` upward. -/
def memWrite (m : Memory) (a : Nat) : List Byte → Memory
  | [] => m
  | b :: t => memWrite (memSet m a b) (a + 1) t

/-- The `n` bytes from `a` upward. -/
def memBytes (m : Memory) (a : Nat) : Nat → List Byte
  | 0 => []
  | n + 1 => memGet m a :: memBytes m (a + 1) n

/-- Bytes as a number, the first the least significant (00 R7). -/
def ofBytes : List Byte → Nat
  | [] => 0
  | b :: t => b.toNat + 256 * ofBytes t

/-- The low `n` bytes of a number, the least significant first (00 R7). -/
def toBytes : Nat → Nat → List Byte
  | 0, _ => []
  | n + 1, v => BitVec.ofNat 8 v :: toBytes n (v / 256)

/-- The number held by the `n` bytes at `a`. -/
def memRead (m : Memory) (a n : Nat) : Nat := ofBytes (memBytes m a n)

/-- The canonical form: addresses strictly rising, no byte listed that reads as an unlisted one. -/
def Memory.wf (m : Memory) : Bool := tabRising none m && m.all fun c => c.2 != 0

/-! ## Places, cores and launches -/

/-- The number of a visible core from its package coordinates (01 R11). The number `wakeOf lid c` stands for what core `c` still has
under way of a retired launch. -/
def coreAt (x y : Nat) : Nat := 64 * y + x

/-- The package x and y of a visible core. -/
def coreX (c : Nat) : Nat := c % 64
/-- See `coreX`. -/
def coreY (c : Nat) : Nat := c % 4096 / 64

/-- The number under which a retired launch's last accesses of core `c` stand, until they have reached their homes (02 R67, 11 R344):
the core itself is free from the retirement on. -/
def wakeOf (lid c : Nat) : Nat := 4096 * (lid + 1) + c

/-- Whether a number stands for what is left of a retired launch's core. -/
def isWake (c : Nat) : Bool := decide (4096 ≤ c)

/-- The tile of a core; cores 2,048 to 2,055 are the pursers of tiles 0 to 7 (01 R14). -/
def tileOf (c : Nat) : Nat := if c % 4096 ≥ 2048 then (c % 4096 - 2048) % 8 else 4 * (coreY c / 16) + coreX c / 16

/-- The purser core of a tile. -/
def purserOf (t : Nat) : Nat := 2048 + t

/-- Whether a core is a purser core. -/
def isPurser (c : Nat) : Bool := decide (2048 ≤ c ∧ c < 4096)

/-- Service-ring hops from tile `i` to tile `j` (05 R157, 08 R248). -/
def hops (i j : Nat) : Nat := (j + 8 - i) % 8

/-- The core of a number; one that nothing has touched holds its reset values (03 R83). -/
def State.core (s : State) (c : Nat) : Core := (tabGet s.cores c).getD {}

/-- Replace a core. -/
def State.setCore (s : State) (c : Nat) (x : Core) : State := { s with cores := tabSet s.cores c x }

/-- Change a core. -/
def State.modCore (s : State) (c : Nat) (f : Core → Core) : State := s.setCore c (f (s.core c))

/-- The launch of an internal number. -/
def State.launch? (s : State) (lid : Nat) : Option Launch := s.launches.find? (·.lid == lid)

/-- Change a launch. -/
def State.modLaunch (s : State) (lid : Nat) (f : Launch → Launch) : State :=
  { s with launches := updIf (·.lid == lid) f s.launches }

/-- The launch a core belongs to. -/
def State.launchOf (s : State) (c : Nat) : Option Launch := (s.core c).lid.bind s.launch?

/-- The cores of a launch's rectangle, in the order s1 + W s2 (02 R54). -/
def Launch.cores (l : Launch) : List Nat :=
  (List.range (l.w * l.h)).map fun i => coreAt (l.x0 + i % l.w) (l.y0 + i / l.w)

/-- The launch's origin core (12 R373). -/
def Launch.origin (l : Launch) : Nat := coreAt l.x0 l.y0

/-- Whether a core lies in the launch's rectangle. -/
def Launch.has (l : Launch) (c : Nat) : Bool :=
  decide (l.x0 ≤ coreX c ∧ coreX c < l.x0 + l.w ∧ l.y0 ≤ coreY c ∧ coreY c < l.y0 + l.h ∧ c < 2048)

/-- Whether a launch now runs in timed mode: submitted timed, outside the elastic interval (02 R49, R53). -/
def Launch.timedNow (l : Launch) : Bool := l.timed && !l.elastic

/-- Whether a core now runs in timed mode; a purser core has no launch and runs elastically. -/
def State.timedAt (s : State) (c : Nat) : Bool := match s.launchOf c with
  | some l => l.timedNow
  | none => false

/-- The context a core executes for; a purser acts for the context `psel` selects (12 R364; DESIGN CHOICE, notes/assumptions/7.md). -/
def State.ctxOf (s : State) (c : Nat) : Nat := match s.launchOf c with
  | some l => l.ctx
  | none => (vAt s.tiles (tileOf c)).psel % 16

/-- A context by number. -/
def State.ctx (s : State) (n : Nat) : Context := vAt s.contexts n

/-- Change a context. -/
def State.modCtx (s : State) (n : Nat) (f : Context → Context) : State :=
  { s with contexts := vPut s.contexts n (f (s.ctx n)) }

/-- A tile by number. -/
def State.tile (s : State) (n : Nat) : TileSt := vAt s.tiles n

/-- Change a tile. -/
def State.modTile (s : State) (n : Nat) (f : TileSt → TileSt) : State :=
  { s with tiles := vPut s.tiles n (f (s.tile n)) }

/-- A stack controller by number. -/
def State.stack (s : State) (n : Nat) : Stack := vAt s.hbm n

/-- Change a stack controller. -/
def State.modStack (s : State) (n : Nat) (f : Stack → Stack) : State :=
  { s with hbm := vPut s.hbm n (f (s.stack n)) }

/-- A handle by number. -/
def State.handle (s : State) (n : Nat) : Handle := vAt s.handles n

/-- Change a handle. -/
def State.modHandle (s : State) (n : Nat) (f : Handle → Handle) : State :=
  { s with handles := vPut s.handles n (f (s.handle n)) }

/-- A landing by number, 0 to 131. -/
def State.landing (s : State) (n : Nat) : Landing := vAt s.landings n

/-- Change a landing. -/
def State.modLanding (s : State) (n : Nat) (f : Landing → Landing) : State :=
  { s with landings := vPut s.landings n (f (s.landing n)) }

/-- A multicast group by number. -/
def State.group (s : State) (n : Nat) : Group := vAt s.groups n

/-- Change a group. -/
def State.modGroup (s : State) (n : Nat) (f : Group → Group) : State :=
  { s with groups := vPut s.groups n (f (s.group n)) }

/-- A free value between `lo` and `hi`, and the counter moved on (notes/assumptions/4.md). -/
def State.choice (s : State) (lo hi : Nat) : Nat := lo + Config.pick s.freeCtr % (hi - lo + 1)

/-- The state after a free value has been taken. -/
def State.chosen (s : State) : State := { s with freeCtr := s.freeCtr + 1 }

/-- Put an event `ticks` ticks of the core clock ahead. -/
def State.plan (s : State) (ticks : Nat) (i : Instr) (on : Subject) : State :=
  { s with agenda := insertBy (·.at_) ⟨s.now + ticks, i, on⟩ s.agenda }

/-- Put an event a wall-clock time ahead. -/
def State.alarm (s : State) (ns : Nat) (i : Instr) (on : Subject) : State :=
  { s with alarms := insertBy (·.at_) ⟨s.wall + 210 * ns, i, on⟩ s.alarms }

/-! ## Time -/

/-- Nanoseconds of wall-clock time since reset; `wall` counts 1/210 ns, so that a tick of every clock is whole (01 R15). -/
def State.ns (s : State) : Nat := s.wall / 210

/-- Wall-clock units of a number of nanoseconds. -/
def nsUnits (n : Nat) : Nat := 210 * n

/-- `dayc` (10 R329): wall-clock nanoseconds with the corrections made so far; a backward correction holds it until `daycHold`
nanoseconds (R330). -/
def State.dayc (s : State) : Nat := (Int.ofNat (max s.ns s.daycHold) + s.daycAdj).toNat

/-- The rotor hour and the offset within it (10 R329). -/
def State.hourNow (s : State) : Nat := s.dayc % 320000 / 20000
/-- See `State.hourNow`. -/
def State.hourOff (s : State) : Nat := s.dayc % 20000

/-- CSR `hour` (10 R329). -/
def State.hourCsr (s : State) : Nat :=
  s.hourNow + (if s.hourOff < 2000 then 16 else 0) + (if 2000 ≤ s.hourOff ∧ s.hourOff < 3000 then 32 else 0)

/-! ## The rack -/

/-- The package, as an aperture, that a fibre landing faces in this hour (01 R23, 10 R332). -/
def State.facing (s : State) (l : Nat) : Nat := Config.faces s.hourNow (l % 4)

/-- An entry of the aperture table (12 R368). -/
def State.aperture (s : State) (n : Nat) : Aperture := (tabGet s.apertures n).getD {}

/-- Whether two apertures name one package. -/
def State.samePeer (s : State) (a b : Nat) : Bool :=
  a == b || ((s.aperture a).valid && (s.aperture b).valid && (s.aperture a).rack == (s.aperture b).rack)

/-- Whether a peer's ranges of the pending-invalidation log are still to be replayed, so that fibre landings facing it carry only that
(12 R372). -/
def State.quarantined (s : State) (ap : Nat) : Bool := s.apertures.any fun a => a.2.quarantine && s.samePeer a.1 ap

/-- Whether it is a service minute now; past holdover there is none (01 R23, 10 R331, R334). -/
def State.inMinute (s : State) : Bool := decide (2000 ≤ s.hourOff ∧ s.hourOff < 3000) && !s.expired

/-- A fibre landing that carries light faces the package of an aperture in this hour (10 R331). -/
def State.facesPeer (s : State) (ap : Nat) : Bool :=
  (List.range 4).any fun l => s.samePeer (s.facing l) ap && (s.landing (128 + l)).trained && (s.landing (128 + l)).pause.isNone

/-- Whether service traffic toward the package of an aperture moves now: in the service minute of an hour in which a fibre landing faces it,
and not while it is quarantined (10 R331, 12 R372). What else waits, or goes by another package (DESIGN CHOICE, notes/assumptions/40.md). -/
def State.minuteOf (s : State) (ap : Nat) : Bool := s.inMinute && s.facesPeer ap && !s.quarantined ap

/-- Whether traffic that is no service traffic moves toward the package of an aperture now: in the program's portion of an hour in which a
fibre landing faces it, and not while it is quarantined (01 R23; 12 R372). -/
def State.programOf (s : State) (ap : Nat) : Bool := decide (3000 ≤ s.hourOff) && !s.expired && s.facesPeer ap && !s.quarantined ap

/-! ## Cores' time -/

/-- The cycle in which a core's streams issue: its cycle of record, and, while a handler runs in a frozen launch, the
handler's own cycles on top of it (02 R46, R48). -/
def Core.time (c : Core) : Nat := c.cyc + c.htime

/-! ## Streams -/

/-- A stream of a core. -/
def Core.stream (c : Core) : Stream → StreamSt
  | .helm => c.helm
  | .vector => c.vec
  | .matrix => c.mat
  | .copy => c.cpy
  | .crossing => {}

/-- Replace a stream of a core. -/
def Core.setStream (c : Core) (st : Stream) (x : StreamSt) : Core := match st with
  | .helm => { c with helm := x }
  | .vector => { c with vec := x }
  | .matrix => { c with mat := x }
  | .copy => { c with cpy := x }
  | .crossing => c

/-- Change a stream of a core. -/
def Core.modStream (c : Core) (st : Stream) (f : StreamSt → StreamSt) : Core := c.setStream st (f (c.stream st))

/-- The place of a stream in the order helm, vector, matrix, copy (02 R33). -/
def streamIdx : Stream → Nat
  | .helm => 0
  | .vector => 1
  | .matrix => 2
  | .copy => 3
  | .crossing => 4

/-- The issuing core. -/
def State.me (s : State) : Core := s.core s.cur.core

/-- Change the issuing core. -/
def State.modMe (s : State) (f : Core → Core) : State := s.modCore s.cur.core f

/-- The crossing program that is issuing, `cur.core` naming its launch. -/
def State.myXing (s : State) : Option Xing := (s.launch? s.cur.core).bind (·.xing)

/-- The issuing stream. -/
def State.mine (s : State) : StreamSt := match s.cur.st with
  | .crossing => match s.myXing with
    | some x => x.prog
    | none => {}
  | st => s.me.stream st

/-- The issue cycle: of a crossing word, on the sequencer's count (02 R47). -/
def State.cyc (s : State) : Nat := match s.cur.st with
  | .crossing => match s.launch? s.cur.core with
    | some l => l.count
    | none => 0
  | _ => s.me.time

/-- Change the crossing program of a launch. -/
def State.modXing (s : State) (lid : Nat) (f : Xing → Xing) : State :=
  s.modLaunch lid fun l => { l with xing := l.xing.map f }

/-- Stage predicate `k` of a software-pipelined loop of `t` trips in iteration `i` (05 R166). -/
def stageOn (t i k : Nat) : Bool := decide (k ≤ i ∧ i - k < t)

/-- The predicate writes of a LOOPS for iteration `i` (05 R166). -/
def stageWrites (ps : PReg) (stages t i : Nat) : List Eff :=
  (List.range stages).map fun k => .p (ps + BitVec.ofNat 7 k) (stageOn t i k)

/-- The predicate writes that end a LOOPS (05 R166). -/
def stageClear (ps : PReg) (stages : Nat) : List Eff :=
  (List.range stages).map fun k => .p (ps + BitVec.ofNat 7 k) false

/-- Set lc0 or lc1. -/
def StreamSt.setLc (x : StreamSt) (lv : BitVec 1) (n : Nat) : StreamSt :=
  if lv = 0 then { x with lc0 := BitVec.ofNat 32 n } else { x with lc1 := BitVec.ofNat 32 n }

/-- Where an engine stream goes after the word at `pc`, with its loops, and the predicate writes of their hardware
(05 R164-R166). -/
def loopNext (x : StreamSt) (pc : Word) : List Loop → StreamSt × List Eff
  | [] => ({ x with pc := pc + 8, loops := [] }, [])
  | l :: rest =>
    if pc = l.last then
      if l.iter + 1 < l.trips then
        ({ x.setLc l.lv (l.iter + 1) with pc := l.first, loops := { l with iter := l.iter + 1 } :: rest },
          match l.stages with | none => [] | some (ps, n, t) => stageWrites ps n t (l.iter + 1))
      else
        let r := loopNext (x.setLc l.lv 0) pc rest
        (r.1, (match l.stages with | none => [] | some (ps, n, _) => stageClear ps n) ++ r.2)
    else ({ x with pc := pc + 8, loops := l :: rest }, [])

/-- The stream after a word that issued at position `p` in cycle `t`: the next word counts from there (02 R35, R441). -/
def StreamSt.passed (x : StreamSt) (p t : Nat) : StreamSt :=
  { x with posBase := p + 1, posMin := 0, issueBase := t + 1, notBefore := 0, posAt := none, step := x.step + 1 }

/-- A result in flight from the issuing word, of latency `lat` (02 R32, 05 R133). -/
def State.flight (s : State) (lat : Nat) (eff : Eff) : Flight :=
  { st := s.cur.st, issued := s.cyc, due := s.cyc + lat - 1, pos := s.cur.pos + lat, eff := eff,
    pc := s.mine.pc, step := s.mine.step, bank := s.cur.st == .helm && s.me.handler.isSome }

/-- Put results of the issuing word in flight. -/
def State.emit (s : State) (lat : Nat) (effs : List Eff) : State :=
  s.modMe fun c => { c with flights := c.flights ++ effs.map (s.flight lat) }

/-- Move the helm on, its next fetch after the two words in the pipe being `next` (05 R142). -/
def Core.helmTo (c : Core) (next : Word) : Core :=
  { c with helm := { c.helm with pc := c.helmSt.npc }
           helmSt := { c.helmSt with npc := c.helmSt.nnpc, nnpc := next } }

/-- Where the issuing engine stream goes after its word, and the predicate writes of its loops' hardware. -/
def State.loopStep (s : State) : StreamSt × List Eff := loopNext (s.mine.passed s.cur.pos s.cyc) s.mine.pc s.mine.loops

/-- The predicate writes of the loops' hardware, which land with the issue of a body's last word (05 R166). -/
def State.emitLoop (s : State) : State := match s.cur.st with
  | .helm | .crossing => s
  | _ => s.emit 1 s.loopStep.2

/-- Move the issuing stream past its word: helm slot, engine word with its loops, or crossing word. -/
def State.leave (s : State) : State := match s.cur.st with
  | .helm => s.modMe fun c =>
      (c.modStream .helm fun x => x.passed s.cur.pos c.time).helmTo (c.helmSt.nnpc + 8)
  | .crossing => s.modXing s.cur.core fun x =>
      { x with prog := { x.prog.passed s.cur.pos s.cyc with pc := x.prog.pc + 8 } }
  | st => s.modMe fun c => c.setStream st s.loopStep.1

/-- Move the issuing stream past its word, with the predicate writes of its loops. -/
def State.advance (s : State) : State := s.emitLoop.leave

/-- Move the helm past a taken branch to `target` (05 R142). -/
def State.branchTo (s : State) (target : Word) : State := s.modMe fun c =>
  (c.modStream .helm fun x => x.passed s.cur.pos c.time).helmTo target

/-- Change the issuing stream's state, a crossing program's too. -/
def State.modMine (s : State) (f : StreamSt → StreamSt) : State := match s.cur.st with
  | .crossing => s.modXing s.cur.core fun x => { x with prog := f x.prog }
  | st => s.modMe fun c => c.modStream st f

/-! ## Registers -/

/-- A field of bits of a register read by number. -/
def bits (v : Word) (hi lo : Nat) : Nat := (v.toNat >>> lo) % 2 ^ (hi + 1 - lo)

/-- The scalar a landed effect gives to `r`. -/
def Eff.scalar? (r : SReg) : Eff → Option Word
  | .s r' x => if r' = r then some x else none
  | _ => none

/-- Whether an effect writes a predicate, or a handoff register, at its landing. -/
def Eff.writesP (r : PReg) : Eff → Bool
  | .p r' _ => r' == r
  | _ => false
/-- See `Eff.writesP`. -/
def Eff.writesQ (r : BitVec 5) : Eff → Bool
  | .q r' _ => r' == r
  | _ => false
/-- See `Eff.writesP`. -/
def Eff.writesT (r : BitVec 4) : Eff → Bool
  | .t r' _ => r' == r
  | _ => false
/-- See `Eff.writesP`. -/
def Eff.writesA (r : BitVec 2) : Eff → Bool
  | .a r' _ => r' == r
  | _ => false

/-- Whether an effect empties a handoff register. -/
def Eff.takesQ (r : BitVec 5) : Eff → Bool
  | .qEmpty r' => r' == r
  | _ => false
/-- See `Eff.takesQ`. -/
def Eff.takesT (r : BitVec 4) : Eff → Bool
  | .tEmpty r' => r' == r
  | _ => false
/-- See `Eff.takesQ`. -/
def Eff.takesA (r : BitVec 2) : Eff → Bool
  | .aEmpty r' => r' == r
  | _ => false

/-- The last value that `f` gives over the arrived results of other streams than `st` (02 R34, R441). -/
def Core.overlay {α : Type} (c : Core) (st : Stream) (f : Eff → Option α) : Option α :=
  c.flights.foldl (fun acc x => if x.arrived && x.st != st then (f x.eff).or acc else acc) none

/-- A scalar as a stream of the core reads it (03 R73, R83; 12 R375 for the handler bank). -/
def Core.sreg (c : Core) (st : Stream) (r : SReg) : Word :=
  if r = 0 then 0
  else if c.handler.isSome && decide (56 ≤ r.toNat) then vAt c.hbank (r.toNat - 56)
  else (c.overlay st (Eff.scalar? r)).getD (vGet r c.sregs)

/-- A predicate's value (03 R73). -/
def Core.preg (c : Core) (r : PReg) : Bool := r = 0 || (vGet r c.pregs)

/-- A write to a full/empty register that issued in an earlier cycle and has not landed: the register is pending (02 R32). -/
def Core.pending (c : Core) (w : Eff → Bool) : Bool :=
  c.flights.any fun f => decide (f.issued < c.time) && w f.eff

/-- An earlier stream has consumed the register in this cycle (02 R33). -/
def Core.taken (c : Core) (w : Eff → Bool) : Bool :=
  c.flights.any fun f => decide (f.issued = c.time) && w f.eff

/-- A predicate is full as a read check sees it (02 R31, R32). -/
def Core.pIsFull (c : Core) (r : PReg) : Bool := r = 0 || ((vGet r c.pfull) && !c.pending (Eff.writesP r))

/-- A handoff register is full for a non-consuming read (02 R31, R32). -/
def Core.qIsFull (c : Core) (r : BitVec 5) : Bool := (vGet r c.qfull) && !c.pending (Eff.writesQ r)

/-- A handoff register is full for a consuming read: no earlier stream took it in this cycle (02 R33). -/
def Core.qCanTake (c : Core) (r : BitVec 5) : Bool := c.qIsFull r && !c.taken (Eff.takesQ r)

/-- A handoff register is empty and not pending, as a write check requires (02 R31, R32). -/
def Core.qIsEmpty (c : Core) (r : BitVec 5) : Bool := !(vGet r c.qfull) && !c.pending (Eff.writesQ r)

/-- A tile register that an unfinished copy command or binding will fill is pending (08 R244, 10 R315). -/
def Core.tClaimed (c : Core) (r : BitVec 4) : Bool :=
  c.copies.any fun k => !k.finished && decide (k.issued < c.time) && k.tiles.contains (r.toNat, true)

/-- The same for tile registers. -/
def Core.tIsFull (c : Core) (r : BitVec 4) : Bool := (vGet r c.tfull) && !c.pending (Eff.writesT r) && !c.tClaimed r
/-- See `Core.qCanTake`. -/
def Core.tCanTake (c : Core) (r : BitVec 4) : Bool := c.tIsFull r && !c.taken (Eff.takesT r)
/-- See `Core.qIsEmpty`. -/
def Core.tIsEmpty (c : Core) (r : BitVec 4) : Bool := !(vGet r c.tfull) && !c.pending (Eff.writesT r) && !c.tClaimed r
/-- The same for accumulators. -/
def Core.aIsFull (c : Core) (r : BitVec 2) : Bool := (vGet r c.afull) && !c.pending (Eff.writesA r)
/-- See `Core.qCanTake`. -/
def Core.aCanTake (c : Core) (r : BitVec 2) : Bool := c.aIsFull r && !c.taken (Eff.takesA r)
/-- See `Core.qIsEmpty`. -/
def Core.aIsEmpty (c : Core) (r : BitVec 2) : Bool := !(vGet r c.afull) && !c.pending (Eff.writesA r)

/-- Write a scalar at its landing: s0 discards, and the handler bank stands for s56 to s63 of a word of handler mode, `bank` (03 R73,
12 R375). -/
def Core.putIn (c : Core) (bank : Bool) (r : SReg) (v : Word) : Core :=
  if r = 0 then c
  else if bank && decide (56 ≤ r.toNat) then { c with hbank := vPut c.hbank (r.toNat - 56) v }
  else { c with sregs := vSet r v c.sregs }

/-- Write a scalar as the mode of the core now names it. -/
def Core.putS (c : Core) (r : SReg) (v : Word) : Core := c.putIn c.handler.isSome r v

/-- Write a predicate and make it full; p0 discards (03 R73). -/
def Core.putP (c : Core) (r : PReg) (v : Bool) : Core :=
  if r = 0 then c else { c with pregs := vSet r v c.pregs, pfull := vSet r true c.pfull }

/-- Make a predicate empty; p0 discards (05 R140). -/
def Core.clearP (c : Core) (r : PReg) : Core :=
  if r = 0 then c else { c with pregs := vSet r false c.pregs, pfull := vSet r false c.pfull }

/-- Write a handoff register and make it full. -/
def Core.putQ (c : Core) (r : BitVec 5) (v : Word) : Core :=
  { c with qregs := vSet r v c.qregs, qfull := vSet r true c.qfull }

/-- Write a tile register and make it full. Its attachments, the sidecar and the band scale, stay as they stand (07 R219). -/
def Core.putT (c : Core) (r : BitVec 4) (x : Tile) : Core :=
  let x := { x with side := (vGet r c.tregs).side, band := (vGet r c.tregs).band }
  { c with tregs := vSet r x c.tregs, tfull := vSet r true c.tfull, tBad := c.tBad.filter (· != r.toNat) }

/-- The 32-byte sectors that the `n` bytes at `a` cover whole (13 R390). -/
def wholeSectors (a n : Nat) : List Nat :=
  (List.range ((a + n) / 32 - (a + 31) / 32)).map fun i => (a + 31) / 32 + i

/-- The 32-byte sectors that the `n` bytes at `a` touch. -/
def sectorsOf (a n : Nat) : List Nat :=
  if n = 0 then [] else (List.range ((a + n - 1) / 32 - a / 32 + 1)).map fun i => a / 32 + i

/-- Write local store bytes; a sector written whole loses its poison (13 R390). -/
def Core.putBytes (c : Core) (a : Nat) (b : List Byte) : Core :=
  { c with ls := memWrite c.ls a b
           lsPoison := c.lsPoison.filter fun p => !(wholeSectors a b.length).contains p
           lsLatent := c.lsLatent.filter fun p => !(wholeSectors a b.length).contains p }

/-- Whether a read of `n` local store bytes at `a` meets poison (13 R390). -/
def Core.poisoned (c : Core) (a n : Nat) : Bool := (sectorsOf a n).any c.lsPoison.contains

/-- Whether two byte ranges meet. -/
def overlaps (a n b m : Nat) : Bool := decide (a < b + m ∧ b < a + n)

/-- What a plain-register write does to the register files; the other kinds change nothing here. -/
def Core.commit (c : Core) : Eff → Core
  | .s r v => c.putS r v
  | .v r m d => { c with vregs := vSet r (((vGet r c.vregs) &&& ~~~m) ||| (d &&& m)) c.vregs }
  | .k r m => if r = 0 then c else { c with kregs := vSet r m c.kregs }
  | .fmt x => { c with fmt := Vector.ofFn fun i => x.getD i.val 0 }
  | .cbank f w => { c with cbank := Vector.ofFn fun i =>
      if f ≤ i.val then (w[i.val - f]?).getD c.cbank[i] else c.cbank[i] }
  | .seed v => { c with seed := v }
  | _ => c

/-- The residues of a vector register after a write of the bits `m`: a container written whole has its own again, and one in `sp` is a copy of one whose
residue does not match (13 R389). -/
def Core.markV (c : Core) (r : BitVec 6) (m : BitVec 4096) (sp : List Nat) : Core :=
  let whole := fun (n : Nat) => n / 128 == r.toNat && m.extractLsb' (32 * (n % 128)) 32 == BitVec.allOnes 32
  { c with vBad := (sp.map (128 * r.toNat + ·)).foldl addOnce (c.vBad.filter fun n => !whole n) }

/-- What a plain-register result in flight does to the register files, the handler bank being that of its word's mode (12 R375). -/
def Core.commitOf (c : Core) (f : Flight) : Core := match f.eff with
  | .s r v => c.putIn f.bank r v
  | .v r m d => (c.commit (.v r m d)).markV r m f.spoilt
  | e => c.commit e

/-- Whether an effect writes a plain register, whose reads in its own stream go by schedule position (02 R34, R441). -/
def Eff.plain : Eff → Bool
  | .s _ _ => true
  | .v _ _ _ => true
  | .k _ _ => true
  | .fmt _ => true
  | _ => false

/-- What a write does at its landing cycle. -/
def Core.land (c : Core) : Eff → Core
  | .p r v => c.putP r v
  | .pEmpty r => c.clearP r
  | .q r v => c.putQ r v
  | .qEmpty r => { c with qfull := vSet r false c.qfull }
  | .t r x => c.putT r x
  | .tEmpty r => { c with tfull := vSet r false c.tfull }
  | .tSide r x => { c with tregs := vSet r { (vGet r c.tregs) with side := some x } c.tregs }
  | .tBand r x => { c with tregs := vSet r { (vGet r c.tregs) with band := some x } c.tregs }
  | .a r x => { c with aregs := vSet r x c.aregs, afull := vSet r true c.afull }
  | .aEmpty r => { c with afull := vSet r false c.afull }
  | .bytes a b => c.putBytes a b
  | .bond b l w => if l = 0 then { c with bonds := c.bonds.filter (·.base != b) }
      else { c with bonds := c.bonds ++ [⟨b, l, w, false⟩] }
  | .close w => { c with bonds := updIf (·.bond == w) (fun b => { b with isOpen := false }) c.bonds }
  | e => c.commit e

/-- An access whose value is still to come to register `r` at a position not after `p`. -/
def Access.owes (a : Access) (r : SReg) (p : Nat) : Bool :=
  a.rd == r && r != 0 && a.fault.isNone && !a.captured && decide (a.pos + a.window ≤ p) && (match a.kind with
    | .store _ | .rel | .acq | .fence _ | .mstore _ => false
    | _ => true)

/-- A scalar that a helm access has still to deliver for a word at position `p` (02 R441). -/
def Core.owesScalar (c : Core) (r : SReg) (p : Nat) : Bool := c.accesses.any fun a => a.owes r p

/-- An earlier access is still to write the scalar that an arrived result writes. -/
def Core.behindAccess (c : Core) (f : Flight) : Bool := match f.eff with
  | .s r _ => f.st == .helm && c.owesScalar r f.pos
  | _ => false

/-- Whether an effect writes the format table. -/
def Eff.isTable : Eff → Bool
  | .fmt _ => true
  | _ => false

/-- Results in flight without those tables of other streams that arrived before one that `now` takes: the later write stands (03 R84). -/
def overridden (now : Flight → Bool) : List Flight → List Flight
  | [] => []
  | f :: t => if f.arrived && f.eff.isTable && !now f && t.any (fun g => now g && g.eff.isTable) then overridden now t
    else f :: overridden now t

/-- The own stream's results that have arrived and whose position has come, applied in order of position (02 R441). -/
def Core.settle (c : Core) (st : Stream) (p : Nat) : Core :=
  let now := fun (f : Flight) => f.arrived && f.st == st && decide (f.pos ≤ p) && !c.behindAccess f
  let due := c.flights.filter now
  let rest := (overridden (fun f => now f) c.flights).filter fun f => !now f
  (sortBy (·.pos) due).foldl Core.commitOf { c with flights := rest }

/-- A result of the stream that its word at position `p` sees, and that the word reads by `reads`, has not arrived (02 R441). -/
def Core.unsettled (c : Core) (st : Stream) (p : Nat) (reads : Eff → Bool) : Bool :=
  c.flights.any fun f => !f.arrived && f.st == st && f.eff.plain && decide (f.pos ≤ p) && reads f.eff

/-! ## Homes of physical memory -/

/-- The key of a byte in `State.mem`: its aperture, then its address there (12 R366). -/
def pkey (ap pa : Nat) : Nat := ap * 2 ^ 56 + pa

/-- The first address of package register space (13 R404). -/
def regSpace : Nat := 0x8000000000

/-- The stack of a physical address of this package. -/
def stackOf (pa : Nat) : Nat := pa / 2 ^ 36

/-- The 64-byte granules of a range. -/
def granulesOf (key n : Nat) : List Nat :=
  if n = 0 then [] else (List.range ((key + n - 1) / 64 - key / 64 + 1)).map fun i => key / 64 + i

/-- The pseudo-channel, 0 to 63, of a granule. Every run of 64 granules of a stack has one in each, so that each holds 1 GB of the
stack's 64 GB (01 R18); which one, the spec leaves open (notes/assumptions/4.md). -/
def channelOf (g : Nat) : Nat := (g + Config.pseudoChannel (g % 2 ^ 30 / 64)) % 64

/-- Whether a granule lies in a pseudo-channel that is mapped out (13 R413). -/
def State.mappedOut (s : State) (g : Nat) : Bool :=
  decide (g < regSpace / 64) &&
    !(s.stack (stackOf (64 * g))).mapped.isEmpty &&
    (s.stack (stackOf (64 * g))).mapped.contains (channelOf g)

/-- Whether a read of a range meets poison, or an error the base die cannot correct (08 R260, 13 R391, R413). -/
def State.readBad (s : State) (key n : Nat) : Bool :=
  (granulesOf key n).any fun g => s.poison.contains g || s.bad.contains (g, false) || s.mappedOut g

/-- Bytes at a home for a reader that takes all of them or none; `none` where they meet poison (13 R391, R413). -/
def State.homeBytes (s : State) (key n : Nat) : Option (List Byte) := if s.readBad key n then none else some (memBytes s.mem key n)

/-- Write bytes at a home: a granule written whole loses its poison and its latent error; what falls in a mapped-out
pseudo-channel is dropped (08 R260, 13 R392, R413). -/
def State.writeHome (s : State) (key : Nat) (b : List Byte) : State :=
  let whole := fun g => decide (key ≤ 64 * g ∧ 64 * g + 64 ≤ key + b.length)
  { s with
    mem :=
      if (granulesOf key b.length).any s.mappedOut then
        (b.zipIdx).foldl (fun m x => if s.mappedOut ((key + x.2) / 64) then m else memSet m (key + x.2) x.1) s.mem
      else memWrite s.mem key b
    poison := s.poison.filter fun g => !whole g
    bad := s.bad.filter fun x => !whole x.1 }

/-! ## Faults and traps -/

/-- The cause code of class `c`, axis `a`, condition `b` (12 R381). -/
def cause (c a b : Nat) : Nat := 64 * c + 8 * a + b + 1

/-- The class 2 code of a stream (02 R36). -/
def cause2 (st : Stream) (b : Nat) : Nat := cause 2 (streamIdx st) b

/-- The class 0 code of a stream. -/
def cause0 (st : Stream) (b : Nat) : Nat := cause 0 (streamIdx st) b

/-- Record a fault of a word of core `c`; the core stops at the end of the tick (12 R373). -/
def State.raiseAt (s : State) (c : Nat) (t : TrapInfo) : State :=
  s.modCore c fun x => { x with raised := x.raised ++ [t] }

/-- The trap information of the issuing word. -/
def State.info (s : State) (code : Nat) : TrapInfo := match s.cur.st with
  | .crossing =>
    let x := s.myXing.getD { prog := {} }
    { code := code, st := .crossing, cmd := x.prog.step, engine := 4, cyc := s.cyc, xpc := some x.prog.pc }
  | st => { code := code, st := st, cmd := s.mine.step, engine := streamIdx st, cyc := s.cyc }

/-- The issuing word faults: it has no effect, and its core stops (02 R37, 12 R373; 10 R301 for the crossing program). -/
def State.faultWith (s : State) (t : TrapInfo) : State := let t := { t with ofWord := true }; match s.cur.st with
  | .crossing => match s.launch? s.cur.core with
    | some l => (s.modXing s.cur.core fun x => { x with stopped := true }).raiseAt l.origin t
    | none => s
  | _ => s.raiseAt s.cur.core t

/-- The issuing word faults with a cause and nothing more to record. -/
def State.fault (s : State) (code : Nat) : State := s.faultWith (s.info code)

/-- A word of the core's copy stream is to report `t` at its next slot (08 R260, 10 R317, R328). -/
def State.owe (s : State) (c : Nat) (t : TrapInfo) : State :=
  s.modCore c fun x => { x with owed := x.owed ++ [t] }

/-- The 13 bits of a core's package x and y, as `coreid` and a trap record hold them. A purser core has no coordinate (01 R14) and the
spec does not say what it reads: free (notes/assumptions/4.md). -/
def placeBits (c : Nat) : Nat := if isPurser c then Config.purserPlace (tileOf c) % 8192 else coreX c + 256 * (coreY c % 32)

/-- The 64 bytes of a trap record (12 R376). A handler's cycles in a frozen launch do not advance the cycle of record (02 R48). -/
def trapRecord (core : Nat) (c : Core) (timed inHandler : Bool) (t : TrapInfo) : List Byte :=
  let pc := t.xpc.getD (c.stream t.st).pc
  let np := match t.st with | .helm => c.helmSt.npc | _ => 0
  let nn := match t.st with | .helm => c.helmSt.nnpc | _ => 0
  let ifq := (c.flights.filter fun f => !f.arrived).length + (c.accesses.filter (·.value.isSome)).length
  toBytes 2 (t.code % 512 + 512 * streamIdx t.st + (if timed then 4096 else 0) + (if t.more then 8192 else 0)
      + (if inHandler then 16384 else 0))
    ++ toBytes 2 (placeBits core + 8192 * tileOf core)
    ++ toBytes 4 ifq ++ toBytes 8 pc.toNat ++ toBytes 8 np.toNat ++ toBytes 8 nn.toNat
    ++ toBytes 6 t.cmd ++ toBytes 1 t.engine ++ toBytes 1 t.unit ++ toBytes 8 t.va.toNat
    ++ toBytes 8 (if t.st = .crossing then t.cyc else min t.cyc c.cyc)
    ++ toBytes 4 t.stat.toNat ++ toBytes 4 0

/-- The physical address of a core's record copies in its tile's escalation area, which stands at the top of the tile's stack: 256
bytes for each core, the first two records for its own traps, the third for its launch's crossing program. The spec gives no
address; DESIGN CHOICE, notes/assumptions/3.md. -/
def escalationBase (tile core : Nat) : Nat :=
  tile * 2 ^ 36 + 64000000000 - 65536 + 256 * (16 * (coreY core % 16) + coreX core % 16)

/-- The class of a cause code. -/
def causeClass (code : Nat) : Nat := (code - 1) / 64
/-- The axis value of a cause code. -/
def causeAxis (code : Nat) : Nat := (code - 1) / 8 % 8
/-- The condition of a cause code. -/
def causeCond (code : Nat) : Nat := (code - 1) % 8

/-- Whether a trap goes to the user handler (12 R374 rows 2 to 6, R445). -/
def toHandler (code : Nat) (flags tvec : Word) (helmEnded : Bool) : Bool :=
  let u := decide (tvec ≠ 0) && !helmEnded
  if code = cause 0 5 5 ∨ (causeClass code = 1 ∧ causeCond code = 7) ∨ causeClass code = 5 then false
  else if causeClass code = 3 then
    if causeCond code = 1 then u && flags.getLsbD 2
    else if causeCond code = 2 then u && flags.getLsbD 3
    else if causeCond code = 5 then u && flags.getLsbD 4
    else if causeCond code = 6 ∨ causeCond code = 7 then u
    else false
  else u

/-- The shift of every time of a core by which its clock stood: results in flight keep their remaining delays (12 R373). -/
def shiftFlights (d : Nat) (l : List Flight) : List Flight :=
  l.map fun f => { f with issued := f.issued + d, due := f.due + d }

/-- TAKING AN EXCEPTION. The core `c`, stopped with the trap `t`, writes the record at `trec` and delivers it: to the user
handler on its helm, in handler mode at `tvec`, or to the supervisor of its tile, by the rows of R374; a fault in handler
mode keeps the first trap's record and goes to the escalation area (12 R373-R376, R445, R446). A purser core's faults go to its own
handler at `ptvec` (R383); one in that handler enters it anew (DESIGN CHOICE, notes/assumptions/12.md). A fault of an elastic launch's
crossing program that goes to the supervisor stops nothing of the core. -/
def State.takeTrap (s : State) (c : Nat) (t : TrapInfo) : State :=
  let k := s.core c
  let timed := match s.launchOf c with | some l => l.timed | none => false
  let tile := tileOf c
  let esc := escalationBase tile c
  let inH := k.handler.isSome && !isPurser c
  let r := trapRecord c k timed inH t
  let old := memBytes k.ls k.trec.toNat 64
  let stop : Stopped := ⟨t, k.helmSt, k.helm, k.flights, k.time⟩
  let s := match k.lid with
    | some lid => (s.modLaunch lid fun l =>
        { l with traps := min 65535 (l.traps + 1), firstCause := if l.firstCause = 0 then t.code else l.firstCause
                 owing := if l.timed then addOnce l.owing c else l.owing
                 lost := if t.code = cause 3 7 5 then addOnce l.lost c else l.lost }).modCtx (s.ctxOf c)
          fun x => { x with trapsTaken := x.trapsTaken + 1 }
    | none => s
  if inH then
    (((s.writeHome esc r).writeHome (esc + 64) old).modTile tile fun x => { x with trapq := x.trapq ++ [(c, esc)] }).modCore c fun x =>
      { x with trap := none, inHandlerFault := some t, escalated := some esc }
  else
    let k := (k.putBytes k.trec.toNat r)
    let x := decide (t.st = .crossing) && !s.timedAt c
    let k := { k with tcause := BitVec.ofNat 9 t.code, trap := if x then k.trap else none, xtrap := if x then none else k.xtrap }
    let enter := fun (tv : Word) => { k with
      handler := some stop, stopped := true, flights := [], accesses := k.accesses.map fun a => { a with captured := true }
      helm := { k.helm with pc := tv, ended := false, posBase := k.time + 1, issueBase := k.time + 1, wait := none }
      helmSt := { k.helmSt with npc := tv + 8, nnpc := tv + 16, ncount := 0 } }
    if isPurser c then s.setCore c (enter (s.tile tile).ptvec)
    else if toHandler t.code (s.ctx (s.ctxOf c)).flags k.tvec k.helm.ended then s.setCore c (enter k.tvec)
    else
      let esc := if x then esc + 128 else esc
      let s := (s.writeHome esc r).modTile tile fun x => { x with trapq := x.trapq ++ [(c, esc)] }
      if x then s.setCore c { k with xEscalated := some esc }
      else s.setCore c { k with
        trapped := some stop, stopped := true, escalated := some esc, flights := []
        accesses := k.accesses.map fun a => { a with captured := true } }

/-- A stream resumed at a pc from a record (12 R377). -/
def Core.resumeAt (k : Core) (st : Nat) (pc np nn : Word) : Core := match st with
  | 0 => { k with helm := { k.helm with pc := pc }, helmSt := { k.helmSt with npc := np, nnpc := nn } }
  | 1 => { k with vec := { k.vec with pc := pc } }
  | 2 => { k with mat := { k.mat with pc := pc } }
  | 3 => { k with cpy := { k.cpy with pc := pc } }
  | _ => k

/-- Engine operations and accesses keep running while their core's count stands: their times come `n` cycles nearer (02 R46). -/
def Core.ageBy (c : Core) (n : Nat) : Core :=
  let dec := fun (k : Nat) => k - n
  { c with
    copies := c.copies.map fun k => if k.finished then k else { k with
      xlatAt := dec k.xlatAt, ready := k.ready.map dec, bound := k.bound.map dec, doneAt := k.doneAt.map dec }
    pathFree := c.pathFree.map fun p => (p.1, dec p.2)
    accesses := c.accesses.map fun a => { a with xlatAt := dec a.xlatAt, homeAt := dec a.homeAt } }

/-- The crossing program of a core's launch runs on from the pc of a record (12 R377). -/
def State.resumeXing (s : State) (c : Nat) (r : List Byte) : State := match (s.core c).lid with
  | some lid => s.modXing lid fun x =>
      { x with stopped := false, prog := { x.prog with pc := BitVec.ofNat 64 (ofBytes ((r.drop 8).take 8)) } }
  | none => s

/-- RETURNING FROM AN EXCEPTION. The core leaves handler mode (or its stop) and resumes from the record `r`: the helm at
its PC, NPC and NNPC, or the stream that faulted at its PC; every other stream at its saved state, and the results captured
in flight at the remaining delays they held. A launch frozen by the trap resumes with its last returning core (12 R377-R379). -/
def State.returnTrap (s : State) (c : Nat) (r : List Byte) : State :=
  let k := (s.core c).ageBy (s.core c).htime
  let b := fun o n => BitVec.ofNat 64 (ofBytes ((r.drop o).take n))
  match k.handler.or k.trapped with
  | none => s.setCore c { k with escalated := none }
  | some st =>
    let d := k.time - st.at_ - k.htime
    let own := k.flights.map fun f => { f with due := f.due - k.htime, issued := f.issued - k.htime }
    let acc := k.accesses.map fun a =>
      if a.captured then { a with captured := false, issued := a.issued + d } else { a with issued := a.issued - k.htime }
    let k := { k with
      helm := st.stream, helmSt := st.helm, handler := none, trapped := none, escalated := none
      stopped := false, flights := shiftFlights d st.flights ++ own, accesses := acc, htime := 0 }
    let s := match st.info.st with
      | .crossing => (s.setCore c k).resumeXing c r
      | _ => s.setCore c (k.resumeAt (bits (b 0 2) 11 9) (b 8 8) (b 16 8) (b 24 8))
    match k.lid with
    | some lid => s.modLaunch lid fun l => { l with owing := l.owing.filter (· != c) }
    | none => s

end Sys2Proof.Machine
end

