-- ==== Sys2Proof/Machine/Flags.lean ====
section
/-! DEFINITION. The checks at issue: the verdict of rows 4 to 7 of R36 with R442 and R443, and what a word does with it. -/

namespace Sys2Proof.Machine

/-- What the checks of a word give (02 R36): it issues; it meets a condition that timed mode raises as `code` and elastic
mode waits out (rows 2, 4, 5, 6); or it raises `code` in both modes (row 7, R442). -/
inductive Verdict where
  | ok
  | wait (code : Nat)
  | fault (code : Nat)
  deriving DecidableEq, Repr

/-- The first verdict that is not `ok`. -/
def Verdict.and : Verdict → Verdict → Verdict
  | .ok, v => v
  | v, _ => v

/-- The verdicts of a list of checks, in order. -/
def verdicts : List Verdict → Verdict
  | [] => .ok
  | v :: t => v.and (verdicts t)

/-- A check that raises `code` when `bad` holds. -/
def bar (bad : Bool) (code : Nat) : Verdict := if bad then .fault code else .ok

/-- A check that waits, or raises `code`, until `good` holds. -/
def need (good : Bool) (code : Nat) : Verdict := if good then .ok else .wait code

/-- Conditions b of class 0 (12 R381). -/
def unassignedC : Nat := 0
/-- See `unassignedC`. -/
def reservedC : Nat := 1
/-- See `unassignedC`. -/
def rangeC : Nat := 2
/-- See `unassignedC`. -/
def alignC : Nat := 3
/-- See `unassignedC`. -/
def controlC : Nat := 4
/-- See `unassignedC`. -/
def softC : Nat := 5
/-- See `unassignedC`. -/
def privC : Nat := 6
/-- See `unassignedC`. -/
def arithC : Nat := 7

/-- Conditions b of class 2 (12 R381). -/
def emptyC : Nat := 0
/-- See `emptyC`. -/
def tagC : Nat := 1
/-- See `emptyC`. -/
def fullC : Nat := 2
/-- See `emptyC`. -/
def deadlineC : Nat := 3
/-- See `emptyC`. -/
def boundC : Nat := 4
/-- See `emptyC`. -/
def quietC : Nat := 5
/-- See `emptyC`. -/
def straddleC : Nat := 6
/-- See `emptyC`. -/
def loopC : Nat := 7

/-- Whether the issuing word's stream stalls rather than faults: elastic mode (02 R37, R42). -/
def State.stalls (s : State) : Bool := match s.cur.st with
  | .crossing => match s.launch? s.cur.core with
    | some l => !l.timedNow
    | none => true
  | _ => !s.timedAt s.cur.core

/-- Issue a word: its verdict, then its effect. A word that stalls or faults changes nothing of its own (02 R36, R37, R42). -/
def State.perform (s : State) (v : Verdict) (eff : State → State) : Host.Outcome State Fault Refusal := match v with
  | .ok => .next (eff s)
  | .wait code => if s.stalls then .next s else .next (s.fault code)
  | .fault code => .next (s.fault code)

/-- A word of core registers: results in flight at one latency, then the next slot. -/
def State.write (s : State) (lat : Nat) (effs : List Eff) : State := (s.emit lat effs).advance

/-- A predicate source is full (02 R36 row 4). -/
def State.needP (s : State) (r : PReg) : Verdict := need (s.me.pIsFull r) (cause2 s.cur.st emptyC)

/-- A handoff source, not consumed. -/
def State.needQ (s : State) (r : BitVec 5) : Verdict := need (s.me.qIsFull r) (cause2 s.cur.st emptyC)

/-- A handoff source that the word consumes. -/
def State.takeQ (s : State) (r : BitVec 5) : Verdict := need (s.me.qCanTake r) (cause2 s.cur.st emptyC)

/-- A handoff destination is empty and not pending (02 R36 row 5). -/
def State.freeQ (s : State) (r : BitVec 5) : Verdict := need (s.me.qIsEmpty r) (cause2 s.cur.st fullC)

/-- A tile-register source, destination, and accumulator, likewise. -/
def State.needT (s : State) (r : BitVec 4) : Verdict := need (s.me.tIsFull r) (cause2 s.cur.st emptyC)
/-- See `State.needT`. -/
def State.takeT (s : State) (r : BitVec 4) : Verdict := need (s.me.tCanTake r) (cause2 s.cur.st emptyC)
/-- See `State.needT`. -/
def State.freeT (s : State) (r : BitVec 4) : Verdict := need (s.me.tIsEmpty r) (cause2 s.cur.st fullC)
/-- See `State.needT`. -/
def State.needA (s : State) (r : BitVec 2) : Verdict := need (s.me.aIsFull r) (cause2 s.cur.st emptyC)
/-- See `State.needT`. -/
def State.takeA (s : State) (r : BitVec 2) : Verdict := need (s.me.aCanTake r) (cause2 s.cur.st emptyC)
/-- See `State.needT`. -/
def State.freeA (s : State) (r : BitVec 2) : Verdict := need (s.me.aIsEmpty r) (cause2 s.cur.st fullC)

/-- A class 0 fault of the issuing stream when `bad` holds (row 7, R442). -/
def State.bad0 (s : State) (bad : Bool) (b : Nat) : Verdict := bar bad (cause0 s.cur.st b)

/-- A vector-stream word keeps clear of the occupancy of the word before it (06 R180); other streams have no such rule here. -/
def State.occupied (s : State) : Verdict := match s.cur.st with
  | .vector => need (decide (s.me.vbusy ≤ s.cyc)) (cause2 .vector fullC)
  | _ => .ok

/-- The issue cycle lies in a phase, from PHASEB's cycle to PHASEC's, both included (13 R394). -/
def Core.inPhase (c : Core) : Bool := c.phase.isSome || c.flights.any fun f => f.eff == .phase

/-- A word that a phase may not hold (13 R395). -/
def State.noPhase (s : State) : Verdict := s.bad0 s.me.inPhase rangeC

end Sys2Proof.Machine
end

