-- ==== Sys2Proof/Machine/HelmInt.lean ====
section
/-! DEFINITION. Helm integer, logic, multiply, divide, bit-field and constant-bank words (05 R133-R138, R155). -/

namespace Sys2Proof.Machine

/-- A scalar as the helm reads it at issue (05 R134). -/
def State.sr (s : State) (r : SReg) : Word := s.me.sreg .helm r

/-- A helm word that writes one scalar at latency `lat` and has no check of rows 4 to 7. -/
def State.setS (s : State) (lat : Nat) (rd : SReg) (v : Word) : Host.Outcome State Fault Refusal :=
  s.perform .ok fun s => s.write lat [.s rd v]

/-- A signed 25-bit immediate (05 R136). -/
def simm25 (i : BitVec 25) : Word := i.signExtend 64

/-- A truth value as a scalar. -/
def ofB (b : Bool) : Word := if b then 1 else 0

/-- ADD (05 R135). -/
def execAdd (rd ra rb : SReg) (s : State) := s.setS 1 rd (s.sr ra + s.sr rb)
/-- SUB (05 R135). -/
def execSub (rd ra rb : SReg) (s : State) := s.setS 1 rd (s.sr ra - s.sr rb)
/-- AND (05 R135). -/
def execAnd (rd ra rb : SReg) (s : State) := s.setS 1 rd (s.sr ra &&& s.sr rb)
/-- OR (05 R135). -/
def execOr (rd ra rb : SReg) (s : State) := s.setS 1 rd (s.sr ra ||| s.sr rb)
/-- XOR (05 R135). -/
def execXor (rd ra rb : SReg) (s : State) := s.setS 1 rd (s.sr ra ^^^ s.sr rb)
/-- ANDN (05 R135). -/
def execAndn (rd ra rb : SReg) (s : State) := s.setS 1 rd (s.sr ra &&& ~~~s.sr rb)
/-- The shift amount b[5..0] (05 R135). -/
def shiftOf (b : Word) : Nat := b.toNat % 64
/-- SLL (05 R135). -/
def execSll (rd ra rb : SReg) (s : State) := s.setS 1 rd (s.sr ra <<< shiftOf (s.sr rb))
/-- SRL (05 R135). -/
def execSrl (rd ra rb : SReg) (s : State) := s.setS 1 rd (s.sr ra >>> shiftOf (s.sr rb))
/-- SRA (05 R135). -/
def execSra (rd ra rb : SReg) (s : State) := s.setS 1 rd ((s.sr ra).sshiftRight (shiftOf (s.sr rb)))
/-- MUL (05 R135). -/
def execMul (rd ra rb : SReg) (s : State) := s.setS 4 rd (s.sr ra * s.sr rb)
/-- MULH: the high half of the exact signed product (05 R135). -/
def execMulh (rd ra rb : SReg) (s : State) :=
  s.setS 4 rd (BitVec.ofInt 64 ((s.sr ra).toInt * (s.sr rb).toInt / 2 ^ 64))
/-- MULHU: the high half of the exact unsigned product (05 R135). -/
def execMulhu (rd ra rb : SReg) (s : State) :=
  s.setS 4 rd (BitVec.ofNat 64 ((s.sr ra).toNat * (s.sr rb).toNat / 2 ^ 64))

/-- A divide word: a zero divisor raises the arithmetic trap at issue (05 R137). -/
def State.divide (s : State) (rd : SReg) (b v : Word) : Host.Outcome State Fault Refusal :=
  s.perform (s.bad0 (b == 0) arithC) fun s => s.write 34 [.s rd v]

/-- DIV: rounded toward zero (05 R135, R137). -/
def execDiv (rd ra rb : SReg) (s : State) :=
  s.divide rd (s.sr rb) (BitVec.ofInt 64 (Int.tdiv (s.sr ra).toInt (s.sr rb).toInt))
/-- DIVU (05 R135, R137). -/
def execDivu (rd ra rb : SReg) (s : State) :=
  s.divide rd (s.sr rb) (BitVec.ofNat 64 ((s.sr ra).toNat / (s.sr rb).toNat))
/-- REM (05 R135, R137). -/
def execRem (rd ra rb : SReg) (s : State) :=
  s.divide rd (s.sr rb)
    (BitVec.ofInt 64 ((s.sr ra).toInt - (s.sr rb).toInt * Int.tdiv (s.sr ra).toInt (s.sr rb).toInt))
/-- REMU (05 R135, R137). -/
def execRemu (rd ra rb : SReg) (s : State) :=
  s.divide rd (s.sr rb) (BitVec.ofNat 64 ((s.sr ra).toNat % (s.sr rb).toNat))

/-- ADDI (05 R136). -/
def execAddi (rd ra : SReg) (imm : BitVec 25) (s : State) := s.setS 1 rd (s.sr ra + simm25 imm)
/-- ANDI: the immediate is zero-extended (05 R136). -/
def execAndi (rd ra : SReg) (imm : BitVec 25) (s : State) := s.setS 1 rd (s.sr ra &&& imm.setWidth 64)
/-- ORI (05 R136). -/
def execOri (rd ra : SReg) (imm : BitVec 25) (s : State) := s.setS 1 rd (s.sr ra ||| imm.setWidth 64)
/-- XORI (05 R136). -/
def execXori (rd ra : SReg) (imm : BitVec 25) (s : State) := s.setS 1 rd (s.sr ra ^^^ imm.setWidth 64)

/-- An immediate shift: 64 and above raise operand range (05 R136). -/
def State.shiftImm (s : State) (rd : SReg) (imm : BitVec 25) (v : Word) : Host.Outcome State Fault Refusal :=
  s.perform (s.bad0 (decide (64 ≤ imm.toNat)) rangeC) fun s => s.write 1 [.s rd v]

/-- SLLI (05 R136). -/
def execSlli (rd ra : SReg) (imm : BitVec 25) (s : State) := s.shiftImm rd imm (s.sr ra <<< imm.toNat)
/-- SRLI (05 R136). -/
def execSrli (rd ra : SReg) (imm : BitVec 25) (s : State) := s.shiftImm rd imm (s.sr ra >>> imm.toNat)
/-- SRAI (05 R136). -/
def execSrai (rd ra : SReg) (imm : BitVec 25) (s : State) := s.shiftImm rd imm ((s.sr ra).sshiftRight imm.toNat)
/-- LDI: the immediate is signed (05 R136). -/
def execLdi (rd : SReg) (imm : BitVec 31) (s : State) := s.setS 1 rd (imm.signExtend 64)
/-- SETH: RD is read at issue and moved up by 31 bits (05 R136). -/
def execSeth (rd : SReg) (imm : BitVec 31) (s : State) := s.setS 1 rd ((s.sr rd <<< 31) + imm.setWidth 64)
/-- SLT (05 R135). -/
def execSlt (rd ra rb : SReg) (s : State) := s.setS 1 rd (ofB ((s.sr ra).slt (s.sr rb)))
/-- SLTU (05 R135). -/
def execSltu (rd ra rb : SReg) (s : State) := s.setS 1 rd (ofB ((s.sr ra).ult (s.sr rb)))
/-- SLTI (05 R136). -/
def execSlti (rd ra : SReg) (imm : BitVec 25) (s : State) := s.setS 1 rd (ofB ((s.sr ra).slt (simm25 imm)))
/-- MIN (05 R135). -/
def execMin (rd ra rb : SReg) (s : State) :=
  s.setS 1 rd (if (s.sr ra).slt (s.sr rb) then s.sr ra else s.sr rb)
/-- MAX (05 R135). -/
def execMax (rd ra rb : SReg) (s : State) :=
  s.setS 1 rd (if (s.sr ra).slt (s.sr rb) then s.sr rb else s.sr ra)
/-- MINU (05 R135). -/
def execMinu (rd ra rb : SReg) (s : State) :=
  s.setS 1 rd (if (s.sr ra).ult (s.sr rb) then s.sr ra else s.sr rb)
/-- MAXU (05 R135). -/
def execMaxu (rd ra rb : SReg) (s : State) :=
  s.setS 1 rd (if (s.sr ra).ult (s.sr rb) then s.sr rb else s.sr ra)

/-- The count of leading zeros of the low `w` bits of `v`. -/
def leadZeros : Nat → Nat → Nat
  | 0, _ => 0
  | w + 1, v => if v.testBit w then 0 else 1 + leadZeros w v

/-- The count of trailing zeros of `v`, at most `w`. -/
def trailZeros : Nat → Nat → Nat
  | 0, _ => 0
  | w + 1, v => if v.testBit 0 then 0 else 1 + trailZeros w (v / 2)

/-- The count of ones of the low `w` bits of `v`. -/
def onesCount : Nat → Nat → Nat
  | 0, _ => 0
  | w + 1, v => v % 2 + onesCount w (v / 2)

/-- CLZ (05 R138). -/
def execClz (rd ra : SReg) (s : State) := s.setS 1 rd (BitVec.ofNat 64 (leadZeros 64 (s.sr ra).toNat))
/-- CTZ (05 R138). -/
def execCtz (rd ra : SReg) (s : State) := s.setS 1 rd (BitVec.ofNat 64 (trailZeros 64 (s.sr ra).toNat))
/-- POPC (05 R138). -/
def execPopc (rd ra : SReg) (s : State) := s.setS 1 rd (BitVec.ofNat 64 (onesCount 64 (s.sr ra).toNat))
/-- BREV (05 R138). -/
def execBrev (rd ra : SReg) (s : State) := s.setS 1 rd (s.sr ra).reverse

/-- The word whose low `n` bits are one. -/
def lowOnes (n : Nat) : Word := BitVec.ofNat 64 (2 ^ n - 1)

/-- A bit-field word: LEN 1 to 64 and POS + LEN at most 64, or operand range (05 R138). -/
def State.field (s : State) (rd : SReg) (pos : BitVec 6) (len : BitVec 7) (v : Word) : Host.Outcome State Fault Refusal :=
  s.perform (s.bad0 (decide (len.toNat = 0 ∨ 64 < len.toNat ∨ 64 < pos.toNat + len.toNat)) rangeC) fun s => s.write 1 [.s rd v]

/-- BEXT (05 R138). -/
def execBext (rd ra : SReg) (pos : BitVec 6) (len : BitVec 7) (s : State) :=
  s.field rd pos len ((s.sr ra >>> pos.toNat) &&& lowOnes len.toNat)
/-- BEXTS (05 R138). -/
def execBexts (rd ra : SReg) (pos : BitVec 6) (len : BitVec 7) (s : State) :=
  s.field rd pos len (((s.sr ra >>> pos.toNat) <<< (64 - len.toNat)).sshiftRight (64 - len.toNat))
/-- BINS: the other bits of RD keep their value read at issue (05 R138). -/
def execBins (rd ra : SReg) (pos : BitVec 6) (len : BitVec 7) (s : State) :=
  s.field rd pos len
    ((s.sr rd &&& ~~~(lowOnes len.toNat <<< pos.toNat)) ||| ((s.sr ra &&& lowOnes len.toNat) <<< pos.toNat))

/-- A funnel word: LEN must be zero (05 R138). -/
def State.funnel (s : State) (o : HBf) (v : Word) : Host.Outcome State Fault Refusal :=
  s.perform (s.bad0 (o.len != 0) rangeC) fun s => s.write 1 [.s o.rd v]

/-- FSHL (05 R138). -/
def execFshl (o : HBf) (s : State) :=
  s.funnel o (((s.sr o.ra ++ s.sr o.rb : BitVec 128) <<< o.pos.toNat).extractLsb' 64 64)
/-- FSHR (05 R138). -/
def execFshr (o : HBf) (s : State) :=
  s.funnel o (((s.sr o.ra ++ s.sr o.rb : BitVec 128) >>> o.pos.toNat).extractLsb' 0 64)

/-- A constant-bank word as a stream reads it (03 R84). -/
def Core.constWord (c : Core) (i : Nat) : BitVec 32 := vAt c.cbank i

/-- LDC: the bank word at s[RA] + IMM, zero-extended, after two cycles (05 R155). -/
def execLdc (rd ra : SReg) (imm : BitVec 25) (s : State) : Host.Outcome State Fault Refusal :=
  let i := (s.sr ra).toNat + imm.toNat
  s.perform (s.bad0 (decide (256 ≤ i)) rangeC) fun s => s.write 2 [.s rd ((s.me.constWord i).setWidth 64)]

/-- NOP of any stream: its slot and nothing more (03 R70). -/
def execNop (s : State) : Host.Outcome State Fault Refusal := s.perform s.occupied State.advance

end Sys2Proof.Machine
end

