-- ==== Sys2Proof/Machine/HelmPred.lean ====
section
/-! DEFINITION. Helm compares, predicate words and handoff reads (05 R139, R140, R156). -/

namespace Sys2Proof.Machine

/-- The second source of a compare; an immediate is sign-extended (05 R139). -/
def State.cmpSrc (s : State) : CmpSrc → Word
  | .reg rb => s.sr rb
  | .imm v => v.signExtend 64

/-- A word that writes one predicate at latency 1, its predicate sources full (05 R140). -/
def State.setP (s : State) (v : Verdict) (pd : PReg) (b : Bool) : Host.Outcome State Fault Refusal :=
  s.perform v fun s => s.write 1 [.p pd b]

/-- CMPEQ (05 R139). -/
def execCmpeq (pd : PReg) (ra : SReg) (b : CmpSrc) (s : State) := s.setP .ok pd (s.sr ra == s.cmpSrc b)
/-- CMPNE (05 R139). -/
def execCmpne (pd : PReg) (ra : SReg) (b : CmpSrc) (s : State) := s.setP .ok pd (s.sr ra != s.cmpSrc b)
/-- CMPLT (05 R139). -/
def execCmplt (pd : PReg) (ra : SReg) (b : CmpSrc) (s : State) := s.setP .ok pd ((s.sr ra).slt (s.cmpSrc b))
/-- CMPLTU (05 R139). -/
def execCmpltu (pd : PReg) (ra : SReg) (b : CmpSrc) (s : State) := s.setP .ok pd ((s.sr ra).ult (s.cmpSrc b))
/-- CMPLE (05 R139). -/
def execCmple (pd : PReg) (ra : SReg) (b : CmpSrc) (s : State) := s.setP .ok pd ((s.sr ra).sle (s.cmpSrc b))
/-- CMPLEU (05 R139). -/
def execCmpleu (pd : PReg) (ra : SReg) (b : CmpSrc) (s : State) := s.setP .ok pd ((s.sr ra).ule (s.cmpSrc b))

/-- PAND (05 R140). -/
def execPand (pd pa pb : PReg) (s : State) :=
  s.setP (verdicts [s.needP pa, s.needP pb]) pd (s.me.preg pa && s.me.preg pb)
/-- POR (05 R140). -/
def execPor (pd pa pb : PReg) (s : State) :=
  s.setP (verdicts [s.needP pa, s.needP pb]) pd (s.me.preg pa || s.me.preg pb)
/-- PXOR (05 R140). -/
def execPxor (pd pa pb : PReg) (s : State) :=
  s.setP (verdicts [s.needP pa, s.needP pb]) pd (s.me.preg pa ^^ s.me.preg pb)
/-- PNOT (05 R140). -/
def execPnot (pd pa : PReg) (s : State) := s.setP (s.needP pa) pd (!s.me.preg pa)
/-- PSET: a value above 1 raises operand range (05 R140). -/
def execPset (pd v : PReg) (s : State) := s.setP (s.bad0 (decide (1 < v.toNat)) rangeC) pd (v == 1)
/-- PCLR: the predicate becomes empty at the end of the issue cycle (05 R140). -/
def execPclr (pd : PReg) (s : State) : Host.Outcome State Fault Refusal := s.perform .ok fun s => s.write 1 [.pEmpty pd]
/-- PTOS: PD names the source predicate and RA the destination scalar (05 R140). -/
def execPtos (pd : PReg) (ra : SReg) (s : State) : Host.Outcome State Fault Refusal :=
  s.perform (s.needP pd) fun s => s.write 1 [.s ra (ofB (s.me.preg pd))]
/-- PFROM (05 R140). -/
def execPfrom (pd : PReg) (ra : SReg) (s : State) := s.setP .ok pd (s.sr ra != 0)

/-- The q number of a 6-bit field, whose values 32 to 63 are outside the file (03 R73). -/
def qField (q : SReg) : BitVec 5 := q.setWidth 5

/-- The check of a 6-bit q field, before rows 4 to 7 (02 R442). -/
def State.qInFile (s : State) (q : SReg) : Verdict := s.bad0 (decide (32 ≤ q.toNat)) rangeC

/-- QRECV: the value of a full handoff register, which becomes empty (05 R156). -/
def execQrecv (rd qn : SReg) (s : State) : Host.Outcome State Fault Refusal :=
  s.perform (verdicts [s.qInFile qn, s.takeQ (qField qn)]) fun s =>
    s.write 1 [.qEmpty (qField qn), .s rd (vGet (qField qn) s.me.qregs)]

/-- QPEEK: the same, leaving it full (05 R156). -/
def execQpeek (rd qn : SReg) (s : State) : Host.Outcome State Fault Refusal :=
  s.perform (verdicts [s.qInFile qn, s.needQ (qField qn)]) fun s =>
    s.write 1 [.s rd (vGet (qField qn) s.me.qregs)]

end Sys2Proof.Machine
end

