-- ==== Sys2Proof/Machine/HelmBranch.lean ====
section
/-! DEFINITION. Helm branches, calls, TRAP and EXIT (05 R141-R149). -/

namespace Sys2Proof.Machine

/-- The target of an HBR word (05 R141). -/
def State.target (s : State) (off : BitVec 30) : Word := s.mine.pc + off.signExtend 64 * 8

/-- Whether an address is a word of the stream's image. A purser core has no image (DESIGN CHOICE, notes/assumptions/7.md). -/
def State.inImage (s : State) (a : Word) : Bool :=
  isPurser s.cur.core || decide (s.mine.base.toNat ≤ a.toNat ∧ a.toNat < s.mine.base.toNat + 8 * s.mine.words)

/-- A displacement branch stays in the image, or raises control integrity at its issue (05 R143). -/
def State.staysIn (s : State) (off : BitVec 30) : Verdict := s.bad0 (!s.inImage (s.target off)) controlC

/-- The helm after a not-taken branch that annuls both its slots (05 R142). -/
def State.annul (s : State) : State := s.advance.modMe fun c => { c with helmSt := { c.helmSt with ncount := 2 } }

/-- BR (05 R141, R143). -/
def execBr (off : BitVec 30) (s : State) : Host.Outcome State Fault Refusal :=
  s.perform (s.staysIn off) fun s => s.branchTo (s.target off)
/-- BRT: when not taken its slots execute (05 R141, R144). -/
def execBrt (pr : PReg) (off : BitVec 30) (s : State) : Host.Outcome State Fault Refusal :=
  s.perform (verdicts [s.needP pr, s.staysIn off]) fun s =>
    if s.me.preg pr then s.branchTo (s.target off) else s.advance
/-- BRF (05 R141, R144). -/
def execBrf (pr : PReg) (off : BitVec 30) (s : State) : Host.Outcome State Fault Refusal :=
  s.perform (verdicts [s.needP pr, s.staysIn off]) fun s =>
    if s.me.preg pr then s.advance else s.branchTo (s.target off)
/-- BRTN: when not taken both its slots are annulled (05 R141, R142). -/
def execBrtn (pr : PReg) (off : BitVec 30) (s : State) : Host.Outcome State Fault Refusal :=
  s.perform (verdicts [s.needP pr, s.staysIn off]) fun s =>
    if s.me.preg pr then s.branchTo (s.target off) else s.annul
/-- BRFN (05 R141, R142). -/
def execBrfn (pr : PReg) (off : BitVec 30) (s : State) : Host.Outcome State Fault Refusal :=
  s.perform (verdicts [s.needP pr, s.staysIn off]) fun s =>
    if s.me.preg pr then s.annul else s.branchTo (s.target off)
/-- JMPR: any address; a bad one faults when it is fetched (05 R141, R143). -/
def execJmpr (ra : SReg) (s : State) : Host.Outcome State Fault Refusal := s.perform .ok fun s => s.branchTo (s.sr ra)

/-- The shadow stack has room (05 R147). -/
def State.shadowRoom (s : State) : Verdict := s.bad0 (decide (64 ≤ s.me.helmSt.shadow.length)) controlC

/-- CALL (05 R141, R147). -/
def execCall (off : BitVec 30) (s : State) : Host.Outcome State Fault Refusal :=
  s.perform (verdicts [s.staysIn off, s.shadowRoom]) fun s => (s.branchTo (s.target off)).modMe fun c =>
    { c with helmSt := { c.helmSt with shadow := (s.mine.pc + 24) :: c.helmSt.shadow } }
/-- CALLR (05 R141, R147). -/
def execCallr (ra : SReg) (s : State) : Host.Outcome State Fault Refusal :=
  s.perform s.shadowRoom fun s => (s.branchTo (s.sr ra)).modMe fun c =>
    { c with helmSt := { c.helmSt with shadow := (s.mine.pc + 24) :: c.helmSt.shadow } }
/-- RET: the newest return address (05 R141, R147). -/
def execRet (s : State) : Host.Outcome State Fault Refusal :=
  s.perform (s.bad0 s.me.helmSt.shadow.isEmpty controlC) fun s =>
    (s.branchTo (s.me.helmSt.shadow.headD 0)).modMe fun c =>
      { c with helmSt := { c.helmSt with shadow := c.helmSt.shadow.tail } }

/-- TRAP: counts as executed, and takes the software trap with IMM as status (05 R148). -/
def execTrap (imm : BitVec 31) (s : State) : Host.Outcome State Fault Refusal :=
  s.perform .ok fun s => s.advance.faultWith { s.info (cause0 .helm softC) with stat := imm.setWidth 32 }

/-- Whether an atomic of the helm has still to land, or a FENCE to complete. -/
def Core.owesExit (c : Core) : Bool := c.accesses.any fun a => !a.captured && !a.late && a.fault.isNone && (match a.kind with
  | .aadd | .aaddf | .aswap | .acas | .amin | .amax | .abump => true
  | .fence _ => !a.performed
  | _ => false)

/-- EXIT: the helm ends, and its loads in flight are discarded (05 R149, 02 R61). In elastic mode it waits for the values of atomics and for
FENCEs (15 R430, R431; DEDUCED, notes/assumptions/49.md). -/
def execExit (s : State) : Host.Outcome State Fault Refusal :=
  if s.stalls && s.me.owesExit then .next s
  else s.perform .ok fun s => s.advance.modMe fun c =>
    { c with helm := { c.helm with ended := true }
             accesses := c.accesses.filter fun a => match a.kind with | .load _ _ => false | _ => true }

end Sys2Proof.Machine
end

