-- ==== Sys2Proof/Machine/Translate.lean ====
section
/-! DEFINITION. Physical space, events, page-table walks, translation units and snapshot epochs (08 R231, R232,
12 R365-R370, R385, 13 R404, R406). -/

namespace Sys2Proof.Machine

/-- Whether an address of package physical space is backed by a stack (08 R232). -/
def backed (pa : Nat) : Bool := decide (pa < regSpace ∧ pa % 2 ^ 36 < 64000000000)

/-- Queue an event record for a ring; ring 16 is the physical function's (12 R385). -/
def State.post (s : State) (ring code place stat : Nat) : State :=
  { s with events := s.events ++ [(ring, code, place, stat)] }

/-- Queue an event for the supervisor (12 R385: without a context). -/
def State.postSup (s : State) (code place stat : Nat) : State := s.post 16 code place stat

/-- Set a bit of PKSTAT, and report the loss (13 R417). -/
def State.replaceRequested (s : State) (code place : Nat) : State :=
  { s with pkstat := s.pkstat ||| 1#4 }.postSup code place 0

/-! ## Walks -/

/-- Conditions b of class 1 (12 R381). -/
def notMappedC : Nat := 0
/-- See `notMappedC`. -/
def permC : Nat := 1
/-- See `notMappedC`. -/
def unreachC : Nat := 2
/-- See `notMappedC`. -/
def remoteAtomicC : Nat := 3
/-- See `notMappedC`. -/
def bondC : Nat := 4
/-- See `notMappedC`. -/
def lsRangeC : Nat := 5
/-- See `notMappedC`. -/
def tagTableC : Nat := 6
/-- See `notMappedC`. -/
def cowC : Nat := 7
/-- What stands for a condition of class 1 where a walk meets poison, or an error beyond correction, in a table (13 R388, R391). -/
def poisonC : Nat := 8

/-- The cause of an access of axis `axis` whose translation fails with condition `b`: class 1, or class 5, HBM, uncorrected and consumed, where the
walk met poison (12 R381, 13 R388). -/
def walkCause (axis b : Nat) : Nat := if b = poisonC then cause 5 4 1 else cause 1 axis b

/-- Axes a of class 1. -/
def loadA : Nat := 0
/-- See `loadA`. -/
def storeA : Nat := 1
/-- See `loadA`. -/
def atomicA : Nat := 2
/-- See `loadA`. -/
def copyReadA : Nat := 3
/-- See `loadA`. -/
def copyWriteA : Nat := 4
/-- See `loadA`. -/
def remoteA : Nat := 5
/-- See `loadA`. -/
def mstoreA : Nat := 6
/-- See `loadA`. -/
def nearA : Nat := 7

/-- What a walk gives: a leaf, or the condition of its fault. -/
inductive Walk where
  | ok (l : Leaf)
  | bad (b : Nat)
  deriving DecidableEq, Repr

/-- The levels of the tables below the one being read: the shift of its index, the entries, the page size of a leaf (12 R365). -/
def levels : List (Nat × Nat × Nat) := [(39, 512, 2 ^ 39), (30, 512, 2 ^ 30), (21, 512, 2 ^ 21), (16, 32, 2 ^ 16)]

/-- The address of a leaf's page (12 R366). -/
def Leaf.page (l : Leaf) : Nat := bits l.entry 55 16 * 65536
/-- A leaf's aperture. -/
def Leaf.ap (l : Leaf) : Nat := bits l.entry 63 56
/-- A leaf's EPOCH. -/
def Leaf.epoch (l : Leaf) : BitVec 8 := l.entry.extractLsb' 8 8
/-- The translated address of a virtual address through the leaf. -/
def Leaf.pa (l : Leaf) (va : Nat) : Nat := l.page + va % l.size
/-- The key in `State.mem` of a virtual address through the leaf. -/
def Leaf.key (l : Leaf) (va : Nat) : Nat := pkey l.ap (l.pa va)

/-- The non-leaf entry that a tile's unit holds for the region of `size` bytes of a context that has `va` (12 R369). -/
def TileSt.dirAt (t : TileSt) (ctx va size : Nat) : Option Word :=
  (t.dir.find? fun e => e.ctx == ctx && e.size == size && e.base == va / size * size).map (·.entry)

/-- The entry at `at_` that a walk reads: as the unit holds it, or from its home stack; `none` where the home gives poison (12 R369, 13 R391,
R413). -/
def State.walkEntry (s : State) (tile ctx va size at_ : Nat) : Option Word := match (s.tile tile).dirAt ctx va size with
  | some e => some e
  | none => if s.readBad (pkey 0 at_) 8 then none else some (BitVec.ofNat 64 (memRead s.mem (pkey 0 at_) 8))

/-- A valid entry of a table whose leaves would map `size` bytes breaks R366: a reserved bit, a leaf of level 3 or of an address that is no
multiple of its page, or a non-leaf entry with bits that only a leaf has (12 R365, R366). -/
def entryIllegal (e : Word) (size : Nat) : Bool :=
  e.getLsbD 6 || e.getLsbD 7 || if e.getLsbD 3 then size == 2 ^ 39 || bits e 55 16 * 65536 % size != 0
    else bits e 2 1 != 0 || bits e 5 4 != 0 || bits e 63 56 != 0

/-- Walk the tables from the table at `table` (12 R365-R367, first row): what it gives, and the non-leaf entries it passed. -/
def State.walkPath (s : State) (tile ctx va : Nat) : List (Nat × Nat × Nat) → Nat → Walk × List DirEntry
  | [], _ => (.bad notMappedC, [])
  | (sh, n, size) :: rest, table =>
    let at_ := table + 8 * ((va >>> sh) % n)
    match s.walkEntry tile ctx va size at_ with
    | none => (.bad poisonC, [])
    | some e =>
      if !e.getLsbD 0 then (.bad notMappedC, [])
      else if entryIllegal e size then (.bad notMappedC, [])
      else if e.getLsbD 3 then (.ok ⟨e, size, at_⟩, [])
      else if rest.isEmpty then (.bad notMappedC, [])
      else
        let r := s.walkPath tile ctx va rest (bits e 55 8 * 256)
        (r.1, ⟨ctx, va / size * size, size, e⟩ :: r.2)

/-- A whole walk for a context. -/
def State.walk (s : State) (tile ctx va : Nat) : Walk × List DirEntry :=
  let root := (s.ctx ctx).root
  if root.getLsbD 0 then s.walkPath tile ctx va levels (root.toNat / 4096 * 4096) else (.bad notMappedC, [])

/-- The entries that a walk reads from their home stacks (12 R369). -/
def State.walkReads (s : State) (tile ctx va : Nat) : List (Nat × Nat × Nat) → Nat → List Nat
  | [], _ => []
  | (sh, n, size) :: rest, table =>
    let at_ := table + 8 * ((va >>> sh) % n)
    let here := if ((s.tile tile).dirAt ctx va size).isSome then [] else [at_]
    match s.walkEntry tile ctx va size at_ with
    | none => here
    | some e =>
      if !e.getLsbD 0 || entryIllegal e size || e.getLsbD 3 || rest.isEmpty then here
      else here ++ s.walkReads tile ctx va rest (bits e 55 8 * 256)

/-- Whether an access still waits for its translation. -/
def Access.untranslated (a : Access) : Bool := a.leaf.isNone && a.fault.isNone && !a.performed && (match a.kind with
  | .fence _ | .mstore _ => false
  | _ => true)

/-- The leaf that a tile's unit holds for an address. -/
def State.hit (s : State) (tile ctx va : Nat) : Option Leaf :=
  ((s.tile tile).tu.find? fun e => e.1 == ctx && decide (e.2.1 ≤ va ∧ va < e.2.1 + e.2.2.size)).map (·.2.2)

/-- A translation for a context through a tile's unit: a held leaf, or a walk (12 R369, R370). -/
def State.lookup (s : State) (tile ctx va : Nat) : Walk :=
  if 2 ^ 48 ≤ va then .bad notMappedC
  else match s.hit tile ctx va with
    | some l => .ok l
    | none => (s.walk tile ctx va).1


/-- The walks of a tile's unit that wait for their results: translations asked for whose leaves it does not hold (12 R369). -/
def State.walking (s : State) (tile : Nat) : Nat :=
  (s.cores.filter fun p => tileOf p.1 == tile).foldl (fun n p =>
    let miss := fun (va : Nat) => (s.hit tile (s.ctxOf p.1) va).isNone
    n + (p.2.accesses.filter fun a => a.untranslated && miss a.va.toNat).length
      + ((p.2.copies.filter fun k => k.virt && !k.xlated && !k.finished).map fun k => ((k.reads ++ k.writes).filter miss).length).sum) 0

/-- The bounds of the cycles that a translation takes: 64 for a hit, 512 for a walk, longer only behind more than 32 walks
(12 R369). -/
def State.xlatBound (s : State) (tile ctx va : Nat) : Nat :=
  if (s.hit tile ctx va).isSome then 63 else 511 + 512 * (s.walking tile / 32)

/-- What an access asks of a leaf; a near-memory command both reads and writes its destination (08 R258). -/
inductive Need where
  | read | write | update | atomic (host : Bool)
  deriving DecidableEq, Repr

/-- Whether an aperture names a peer that can be reached now (12 R367, R368; 10 R334). -/
def State.reachable (s : State) (ap : Nat) : Bool :=
  if ap = 0 ∨ ap = 255 then true
  else match tabGet s.apertures ap with
    | some e => e.valid && !e.revoked && !s.expired
    | none => false

/-- The peer of an aperture refuses this package's accesses now (12 R368, R372; notes/assumptions/53.md). -/
def State.peerRefuses (s : State) (ap : Nat) : Bool := decide (1 ≤ ap ∧ ap ≤ 254) && Config.peerRefuses s.freeCtr ap

/-- The rows of R367 for an access at `va` through a leaf; `sup` is the purser's privilege. The result is the condition of
the fault, if there is one. -/
def State.leafFault (s : State) (l : Leaf) (va : Nat) (n : Need) (sup : Bool) : Option Nat :=
  let isSup := l.entry.getLsbD 5
  if l.ap = 0 ∧ !backed (l.pa va) ∧ !(isSup && decide (regSpace ≤ l.pa va)) then some notMappedC
  else if isSup && !sup then some permC
  else if (match n with | .write => false | _ => true) && !l.entry.getLsbD 1 then some permC
  else if (match n with | .read => false | _ => true) && !l.entry.getLsbD 2 then some permC
  else if !s.reachable l.ap || s.peerRefuses l.ap then some unreachC
  else match n with
    | .atomic hostOk => if l.ap ≠ 0 ∧ (!l.entry.getLsbD 4 ∨ (l.ap = 255 ∧ !hostOk)) then some remoteAtomicC else none
    | _ => none

/-- Translate an access: its leaf, or the condition of its fault. -/
def State.translate (s : State) (tile ctx va : Nat) (n : Need) (sup : Bool) : Walk := match s.lookup tile ctx va with
  | .bad b => .bad b
  | .ok l => match s.leafFault l va n sup with
    | some b => .bad b
    | none => .ok l

/-! ## Snapshot epochs -/

/-- Whether a write to a page of EPOCH `e` is a first write, in a context of epoch `k` (12 R367, 13 R406). -/
def olderEpoch (k e : BitVec 8) : Bool := decide (1 ≤ (k - e).toNat ∧ (k - e).toNat ≤ 127)

/-- The root word of a context's root record, at `snroot` (13 R404). -/
def State.rootWord (s : State) (ctx : Nat) : Word := BitVec.ofNat 64 (memRead s.mem (pkey 0 (s.ctx ctx).snroot.toNat) 8)

/-- VALID of the root word. -/
def State.rootValid (s : State) (ctx : Nat) : Bool := (s.rootWord ctx).getLsbD 16

/-- Whether the first write to a leaf calls for the copy to the shadow (13 R406). -/
def State.copyDue (s : State) (ctx : Nat) (l : Leaf) : Bool :=
  let x := s.ctx ctx
  l.ap = 0 && l.epoch == x.epoch - 1 && (x.active || s.rootValid ctx)

/-- Set a leaf's EPOCH at its home and in every translation unit together (13 R406). -/
def State.setEpoch (s : State) (ctx va : Nat) (l : Leaf) (k : BitVec 8) : State :=
  let e : Word := (l.entry &&& ~~~0xFF00#64) ||| (k.setWidth 64 <<< 8)
  let base := va / l.size * l.size
  { s.writeHome (pkey 0 l.home) (toBytes 8 e.toNat) with
    tiles := s.tiles.map fun t => { t with tu := t.tu.map fun x =>
      if x.1 == ctx && x.2.1 == base then (x.1, x.2.1, { x.2.2 with entry := e }) else x } }

/-- A leaf with the EPOCH that stands at its home, which the engine changes under the commands that hold the leaf (08 R247, 13 R406). -/
def State.fresh (s : State) (l : Leaf) : Leaf :=
  { l with entry := (l.entry &&& ~~~0xFF00#64) ||| (BitVec.ofNat 64 (256 * memRead s.mem (pkey 0 l.home + 1) 1)) }

/-- The listed bytes of physical memory in a range, by offset. -/
def State.cells (s : State) (key len : Nat) : List Host.Cell :=
  (s.mem.filter fun c => decide (key ≤ c.1 ∧ c.1 < key + len)).map fun c => (c.1 - key, c.2)

/-- Replace a range of physical memory by listed bytes. -/
def State.restoreCells (s : State) (key len : Nat) (cs : List Host.Cell) : State :=
  let takes := fun (a : Nat) => !s.mappedOut (a / 64)
  let rest := s.mem.filter fun c => !(decide (key ≤ c.1 ∧ c.1 < key + len) && takes c.1)
  { s with mem := cs.foldl (fun m c => if takes (key + c.1) then memSet m (key + c.1) c.2 else m) rest }

/-- The 64 KiB pages of a leaf. -/
def Leaf.units (l : Leaf) : Nat := l.size / 65536

/-- The cycles a copy to the shadow takes (08 R247). -/
def Leaf.copyCycles (l : Leaf) : Nat := 4096 * l.units

/-! ## Reads and writes at a home -/

/-- A corrected error of a granule: it is reported and counted, and the count's threshold raises its own event (13 R391,
R413). -/
def State.noteCorrected (s : State) (g : Nat) : State :=
  let st := stackOf (64 * g)
  let pc := channelOf g
  let n := (tabGet (s.stack st).corrected pc).getD 0 + 1
  let s := (s.modStack st fun x => { x with corrected := tabSet x.corrected pc n }).postSup (cause 5 4 0) st 0
  if n = (s.stack st).hcethr then s.postSup (cause 5 4 5) st pc else s

/-- What a read leaves behind: an uncorrectable granule becomes poison, a corrected one is rewritten and reported (13 R391). -/
def State.readEffects (s : State) (key n : Nat) : State :=
  (granulesOf key n).foldl (fun s g =>
    if s.bad.contains (g, false) then
      { s with bad := s.bad.filter (·.1 != g), poison := addOnce s.poison g }
    else if s.bad.contains (g, true) then
      { s with bad := s.bad.filter (·.1 != g) }.noteCorrected g
    else s) s

/-- What the walk of an access leaves behind at the tables' homes, where the unit does not hold its leaf (12 R369, 13 R391). -/
def State.walkEffects (s : State) (tile ctx va : Nat) : State :=
  let root := (s.ctx ctx).root
  if (s.hit tile ctx va).isSome || !root.getLsbD 0 || decide (2 ^ 48 ≤ va) then s
  else (s.walkReads tile ctx va levels (root.toNat / 4096 * 4096)).foldl (fun (s : State) a => s.readEffects (pkey 0 a) 8) s

/-- The unit keeps the leaf of a walk, up to 8,192 of them, and the non-leaf entries it passed (12 R369). -/
def State.cacheLeaf (s : State) (tile ctx va : Nat) (l : Leaf) : State :=
  let base := va / l.size * l.size
  let path := (s.walk tile ctx va).2
  (s.walkEffects tile ctx va).modTile tile fun t =>
    if t.tu.any (fun e => e.1 == ctx && e.2.1 == base) || decide (8192 ≤ t.tu.length) then t
    else { t with tu := t.tu ++ [(ctx, base, l)], dir := t.dir ++ path.filter fun e => (t.dirAt e.ctx e.base e.size).isNone }

end Sys2Proof.Machine
end

