-- ==== Sys2Proof/Machine/HelmMem.lean ====
section
/-! DEFINITION. Helm loads, stores, atomics, FENCE, bonds, QSEND and MSTORE at issue (05 R150-R157, 09 R266-R291). -/

namespace Sys2Proof.Machine

/-- Whether an access counts against the 32 of R152. -/
def AccKind.counts : AccKind → Bool
  | .fence _ => false
  | _ => true

/-- A place among the 32 outstanding helm accesses (05 R152, 02 R443). -/
def State.roomForAccess (s : State) : Verdict :=
  need (decide ((s.me.accesses.filter fun a => a.kind.counts).length < 32)) (cause2 .helm fullC)

/-- The width of an access in bytes. -/
def AccKind.width : AccKind → Nat
  | .load w _ => w
  | .store w => w
  | .aaddf => 4
  | _ => 8

/-- The class 1 axis of an access (05 R153, 09 R270, R282). -/
def AccKind.axis : AccKind → Nat
  | .store _ | .rel => storeA
  | .aadd | .aaddf | .aswap | .acas | .amin | .amax | .abump => atomicA
  | .mstore _ => mstoreA
  | _ => loadA

/-- Whether an access is a store or an atomic, which writes at its home. -/
def AccKind.writes : AccKind → Bool
  | .store _ | .aadd | .aaddf | .aswap | .acas | .amin | .amax | .abump => true
  | _ => false

/-- The condition that a write to bytes `a..a+n-1` breaks in a bond table: a closed region, or a bond word (09 R273, R274). -/
def bondBroken (bs : List Bond) (a n : Nat) : Bool :=
  bs.any fun b => (!b.isOpen && overlaps a n b.base b.len) || overlaps a n b.bond 8

/-- The words of a group's table entry: its fields (09 R284). -/
def Group.word (g : Group) (i : Nat) : Word := g.words.getD i 0
/-- VALID. -/
def Group.valid (g : Group) : Bool := (g.word 0).getLsbD 4
/-- OWNER. -/
def Group.owner (g : Group) : Nat := bits (g.word 0) 3 0
/-- Whether the group is granted to a context (09 R284, 12 R363). -/
def Group.ownedBy (g : Group) (ctx : Nat) : Bool := g.owner == ctx && !g.revoked
/-- APPEND. -/
def Group.append (g : Group) : Bool := (g.word 0).getLsbD 5
/-- The number of members. -/
def Group.count (g : Group) : Nat := bits (g.word 0) 9 6 + 1
/-- BASE of member `m`. -/
def Group.base (g : Group) (m : Nat) : Nat := bits (g.word (1 + 2 * m)) 47 0
/-- LSZ. -/
def Group.lsz (g : Group) : Nat := bits (g.word 1) 53 48
/-- PK of member `m`. -/
def Group.pk (g : Group) (m : Nat) : Nat := bits (g.word (2 + 2 * m)) 7 0
/-- The core of member `m`. -/
def Group.coreOf (g : Group) (m : Nat) : Nat := coreAt (bits (g.word (2 + 2 * m)) 13 8) (bits (g.word (2 + 2 * m)) 20 16)
/-- MV of member `m`. -/
def Group.inForce (g : Group) (m : Nat) : Bool := decide (m < g.count) && (g.word (2 + 2 * m)).getLsbD 63
/-- The members in force. -/
def Group.members (g : Group) : List Nat := (List.range g.count).filter g.inForce
/-- The applied count of member `m`. -/
def Group.appliedOf (g : Group) (m : Nat) : Nat := (tabGet g.applied m).getD 0
/-- Whether the group is bound at a tick (09 R285, 10 R311). -/
def Group.bound (g : Group) (now : Nat) : Bool := g.home.isSome && decide (g.boundAt ≤ now)

/-- Where store `h` goes in member `m`'s area, and the bytes (09 R289). -/
def Group.target (x : Group) (m : Nat) (h : MStore) : Nat × List Byte :=
  if x.append then
    let k := (h.n - 1) % 2 ^ (x.lsz - 4)
    (x.base m + 16 * k, toBytes 8 h.n ++ toBytes 8 h.v.toNat)
  else (x.base m + h.off, toBytes 8 h.v.toNat)

/-- The home of a group lies in another package (09 R285, R287). -/
def State.mstoreFar (s : State) (g : Nat) : Bool := (s.group g).home.any (· != 0)

/-- The fault found at the issue of an access: a bond that its core's own table keeps, or a home that an MSTORE cannot reach (09 R273,
R286). -/
def State.issueFault (s : State) (k : AccKind) (va : Word) : Option Nat := match k with
  | .mstore g => match (s.group g).home with
    | some pk => if pk ≠ 0 ∧ !s.reachable pk then some (cause 1 mstoreA unreachC) else none
    | none => none
  | _ => if k.writes && bondBroken s.me.bonds va.toNat k.width then some (cause 1 k.axis bondC) else none

/-- R292 bounds an MSTORE: its home and members are in this package, and no store or atomic of the helm is under way. -/
def State.mstoreBound (s : State) (g : Nat) : Bool :=
  let x := s.group g
  x.home == some 0 && x.members.all (fun m => x.pk m == 0) &&
    !s.me.accesses.any fun a => !a.performed && a.fault.isNone && a.kind.writes

/-- Send a helm access on its way. Its translation takes place at a free cycle within the bounds of R369 (notes/assumptions/4.md);
a fault found at issue is reported at issue + 512 (05 R153, 09 R273). -/
def State.startAccess (s : State) (k : AccKind) (va : Word) (ac : BitVec 3) (rd : SReg) (v c : Word) (pool : Pool := .none) : State :=
  let me := s.me
  let f : Option TrapInfo := (s.issueFault k va).map fun code => { s.info code with va := va, cmd := s.mine.pc.toNat % 2 ^ 48 }
  let a : Access :=
    { id := me.nextAcc, kind := k, va := va, ac := ac, rd := rd, v := v, c := c, issued := s.cyc, pos := s.cur.pos
      window := match k with | .mstore g => if s.mstoreFar g then 1048576 else 512 | _ => 512
      xlatAt := s.choice (s.cyc + 1) (s.cyc + s.xlatBound (tileOf s.cur.core) (s.ctxOf s.cur.core) va.toNat)
      fault := f, fenceNo := me.fences, tick := s.now, pc := s.mine.pc, step := s.mine.step
      bounded := match k with | .mstore g => s.mstoreBound g | _ => false
      bank := me.handler.isSome, pool := pool }
  s.chosen.modMe fun x => { x with accesses := x.accesses ++ [a], nextAcc := x.nextAcc + 1 }

/-- The effective address of an HMEM word (05 R150). -/
def State.hmemVa (s : State) (o : HMem) : Word := s.sr o.rb + o.off.signExtend 64

/-- A load (05 R150). -/
def State.load (s : State) (o : HMem) (w : Nat) (signed : Bool) : Host.Outcome State Fault Refusal :=
  let va := s.hmemVa o
  s.perform (verdicts [s.roomForAccess, s.bad0 (decide (va.toNat % w ≠ 0)) alignC]) fun s =>
    (s.startAccess (.load w signed) va o.ac o.rt 0 0).advance

/-- A store (05 R150; 13 R395). -/
def State.store (s : State) (o : HMem) (w : Nat) : Host.Outcome State Fault Refusal :=
  let va := s.hmemVa o
  s.perform (verdicts [s.roomForAccess, s.noPhase, s.bad0 (decide (va.toNat % w ≠ 0)) alignC]) fun s =>
    (s.startAccess (.store w) va o.ac 0 (s.sr o.rt) 0).advance

/-- LD8 (05 R150). -/
def execLd8 (o : HMem) (s : State) := s.load o 1 false
/-- LD8S (05 R150). -/
def execLd8s (o : HMem) (s : State) := s.load o 1 true
/-- LD16 (05 R150). -/
def execLd16 (o : HMem) (s : State) := s.load o 2 false
/-- LD16S (05 R150). -/
def execLd16s (o : HMem) (s : State) := s.load o 2 true
/-- LD32 (05 R150). -/
def execLd32 (o : HMem) (s : State) := s.load o 4 false
/-- LD32S (05 R150). -/
def execLd32s (o : HMem) (s : State) := s.load o 4 true
/-- LD64 (05 R150). -/
def execLd64 (o : HMem) (s : State) := s.load o 8 false
/-- ST8 (05 R150). -/
def execSt8 (o : HMem) (s : State) := s.store o 1
/-- ST16 (05 R150). -/
def execSt16 (o : HMem) (s : State) := s.store o 2
/-- ST32 (05 R150). -/
def execSt32 (o : HMem) (s : State) := s.store o 4
/-- ST64 (05 R150). -/
def execSt64 (o : HMem) (s : State) := s.store o 8

/-- An atomic: RD is also ACAS's compare value (09 R280-R282; 13 R395). -/
def State.atomic (s : State) (k : AccKind) (rd ra rb : SReg) : Host.Outcome State Fault Refusal :=
  let va := s.sr ra
  s.perform (verdicts [s.roomForAccess, s.noPhase, s.bad0 (decide (va.toNat % k.width ≠ 0)) alignC]) fun s =>
    (s.startAccess k va 0 rd (s.sr rb) (s.sr rd)).advance

/-- AADD (09 R280). -/
def execAadd (rd ra rb : SReg) (s : State) := s.atomic .aadd rd ra rb
/-- AADDF (09 R280). -/
def execAaddf (rd ra rb : SReg) (s : State) := s.atomic .aaddf rd ra rb
/-- ASWAP (09 R280). -/
def execAswap (rd ra rb : SReg) (s : State) := s.atomic .aswap rd ra rb
/-- ACAS (09 R280). -/
def execAcas (rd ra rb : SReg) (s : State) := s.atomic .acas rd ra rb
/-- AMIN (09 R280). -/
def execAmin (rd ra rb : SReg) (s : State) := s.atomic .amin rd ra rb
/-- AMAX (09 R280). -/
def execAmax (rd ra rb : SReg) (s : State) := s.atomic .amax rd ra rb
/-- ABUMP (09 R280). -/
def execAbump (rd ra rb : SReg) (s : State) := s.atomic .abump rd ra rb

/-- The window of a FENCE at its issue; system scope grows with the apertures it covers (09 R276). -/
def fenceWindow : Nat → Nat
  | 0 => 8
  | 1 => 64
  | _ => 512

/-- Whether an earlier access still to be performed, of those that `of` takes, lies behind apertures 1 to 255. -/
def State.farAccess (s : State) (of : AccKind → Bool) : Bool :=
  s.me.accesses.any fun a => of a.kind && !a.performed && (match a.kind, a.leaf with
    | .mstore g, _ => s.mstoreFar g
    | _, some l => l.ap != 0
    | _, none => false)

/-- What a REL waits for: earlier stores, atomics and MSTOREs (09 R271). -/
def AccKind.released : AccKind → Bool
  | .mstore _ => true
  | k => k.writes

/-- FENCE: a scope above 3 raises operand range. At core and tile scope the earlier accesses under way that nothing holds
at the core reach their point at a free cycle of the window (09 R275, R276; DEDUCED, notes/assumptions/48.md). -/
def execFence (scope : BitVec 13) (s : State) : Host.Outcome State Fault Refusal :=
  let n := scope.toNat
  s.perform (s.bad0 (decide (3 < n)) rangeC) fun s =>
    let w := if 2 ≤ n ∧ s.farAccess (fun _ => true) then 1048576 else fenceWindow n
    let idle := s.me.accesses.all (·.performed)
    (s.chosen.modMe fun x =>
      { x with
        accesses := x.accesses ++ [{ id := x.nextAcc, kind := .fence n, va := 0, issued := s.cyc, pos := s.cur.pos
                                     window := w, homeAt := if idle then s.cyc else s.choice s.cyc (s.cyc + w - 1)
                                     xlatAt := s.cyc, fenceNo := x.fences, tick := s.now, pc := s.mine.pc, step := s.mine.step }]
        nextAcc := x.nextAcc + 1, fences := x.fences + 1 }).advance

/-- What BIND checks after alignment (09 R269): the table with the entry added or removed is legal. -/
def bindLegal (bs : List Bond) (base len bond : Nat) : Bool :=
  if len = 0 then bs.any fun b => b.base == base && !b.isOpen
  else decide (base + len ≤ 2 ^ 48 ∧ len ≤ 2 ^ 40 ∧ bs.length < 16) &&
    !(bs.any fun b => overlaps base len b.base b.len || overlaps base len b.bond 8 || overlaps bond 8 b.base b.len) &&
    !overlaps base len bond 8

/-- BIND: RD the base, RA the length, RB the bond (09 R268, R269; 13 R395). -/
def execBind (rd ra rb : SReg) (s : State) : Host.Outcome State Fault Refusal :=
  let b := (s.sr rd).toNat
  let l := (s.sr ra).toNat
  let w := (s.sr rb).toNat
  s.perform (verdicts [s.noPhase, s.bad0 (decide (b % 64 ≠ 0 ∨ l % 64 ≠ 0 ∨ w % 8 ≠ 0)) alignC,
    s.bad0 (!bindLegal s.me.bonds b l w) rangeC]) fun s => s.write 1 [.bond b l w]

/-- An address names the bond of an entry, or operand range (09 R270, R271). -/
def State.namesBond (s : State) (ra : SReg) : Verdict :=
  s.bad0 (!s.me.bonds.any fun b => b.bond == (s.sr ra).toNat) rangeC

/-- ACQ (09 R270). -/
def execAcq (ra : SReg) (s : State) : Host.Outcome State Fault Refusal :=
  s.perform (verdicts [s.roomForAccess, s.namesBond ra]) fun s => (s.startAccess .acq (s.sr ra) 0 0 0 0).advance

/-- REL: the entries close at the end of the issue cycle, and the increment follows the helm's earlier writes (09 R271). -/
def execRel (ra : SReg) (s : State) : Host.Outcome State Fault Refusal :=
  s.perform (verdicts [s.roomForAccess, s.noPhase, s.namesBond ra]) fun s =>
    let far := s.farAccess AccKind.released
    let s := s.startAccess .rel (s.sr ra) 0 0 0 0
    let long := fun (a : Access) => { a with window := 1048576 }
    let s := if far then s.modMe fun x => { x with accesses := x.accesses.dropLast ++ (x.accesses.getLast?.map long).toList } else s
    s.write 1 [.close (s.sr ra).toNat]

/-! ## QSEND -/

/-- The core a QSEND operand or a PEER field names; `none` when a bit outside x and y is set (05 R157). -/
def coreOfWord (v : Nat) : Option Nat :=
  if v / 8192 = 0 ∧ v / 64 % 4 = 0 ∧ v / 256 < 32 then some (coreAt (v % 64) (v / 256)) else none

/-- The latency of a QSEND (05 R157). -/
def qsendLatency (src dst : Nat) : Nat :=
  if tileOf src = tileOf dst then 32 else 64 + 32 * hops (tileOf src) (tileOf dst)

/-- Whether a launch of the issuing core holds the core. -/
def State.inLaunch (s : State) (c : Nat) : Bool := match s.launchOf s.cur.core with
  | some l => l.has c
  | none => false

/-- QSEND: the value arrives at the target's count of the arrival cycle (05 R157; 13 R395). -/
def execQsend (qn ra rb : SReg) (s : State) : Host.Outcome State Fault Refusal :=
  let t := coreOfWord (s.sr ra).toNat
  let ok := match t with | some c => s.inLaunch c | none => false
  -- a value that waits at its target in elastic mode has arrived and counts no more (DESIGN CHOICE, notes/assumptions/39.md)
  let flying := (s.qsends.filter fun x => x.src == s.cur.core && !x.waiting).length
  s.perform (verdicts [s.qInFile qn, need (decide (flying < 32)) (cause2 .helm fullC), s.noPhase, s.bad0 (!ok) rangeC]) fun s =>
    let dst := t.getD 0
    let m : QSend := { id := s.nextQ, src := s.cur.core, dst := dst, q := qField qn, v := s.sr rb
                       due := (s.core dst).cyc + qsendLatency s.cur.core dst - 1 }
    { s with qsends := s.qsends ++ [m], nextQ := s.nextQ + 1 }.advance

/-! ## Multicast -/

/-- MSTORE: RD the value, RA the offset, RB the group, checked in the order of R286 (13 R395). -/
def execMstore (rd ra rb : SReg) (s : State) : Host.Outcome State Fault Refusal :=
  let n := (s.sr rb).toNat
  let g := s.group n
  let off := (s.sr ra).toNat
  s.perform (verdicts [s.roomForAccess, s.noPhase, s.bad0 (decide (64 ≤ n)) rangeC,
      bar (!g.valid || !g.bound s.now) (cause 1 mstoreA notMappedC),
      bar (!g.ownedBy (s.ctxOf s.cur.core)) (cause 1 mstoreA permC),
      s.bad0 (!g.append && decide (off % 8 ≠ 0)) alignC,
      s.bad0 (if g.append then decide (off ≠ 0) else decide (2 ^ g.lsz ≤ off)) rangeC]) fun s =>
    (s.startAccess (.mstore n) (s.sr ra) 0 0 (s.sr rd) 0).advance

/-- The member of a group whose core is the issuing core (09 R284, R291). -/
def State.memberHere (s : State) (g : Group) : Option Nat :=
  g.members.find? fun m => g.pk m == 0 && g.coreOf m == s.cur.core

/-- MWAIT: the member's applied count is at least s[RA] (09 R291, 02 R442). -/
def execMwait (ra : SReg) (gi : BitVec 25) (s : State) : Host.Outcome State Fault Refusal :=
  let g := s.group gi.toNat
  let n := (s.sr ra).toNat
  let m := if g.valid then s.memberHere g else none
  s.perform (verdicts [s.bad0 (decide (64 ≤ gi.toNat)) rangeC, s.bad0 (decide (2 ^ 48 ≤ n)) rangeC, s.bad0 m.isNone rangeC,
    need (decide (n ≤ g.appliedOf (m.getD 0))) (cause2 .helm emptyC)]) State.advance

end Sys2Proof.Machine
end

