-- ==== Sys2Proof/Machine/Waits.lean ====
section
/-! DEFINITION. Teams, barriers and deadline waits (02 R38-R43, R49, R54-R60, R441; 05 R159, R160, R171, R172; 11 R348). -/

namespace Sys2Proof.Machine

/-! ## Teams -/

/-- The team that a descriptor names for a core: its launch-relative origin and size (02 R54, R55). -/
def Launch.team (l : Launch) (c d : Nat) : Option (Nat × Nat × Nat × Nat) :=
  let lw := d % 8
  let lh := d / 8 % 8
  if d / 64 % 2 = 1 then (if lw = 0 ∧ lh = 0 then some (0, 0, l.w, l.h) else none)
  else if lw = 7 ∨ 6 ≤ lh then none
  else
    let ox := (coreX c - l.x0) / 2 ^ lw * 2 ^ lw
    let oy := (coreY c - l.y0) / 2 ^ lh * 2 ^ lh
    if ox + 2 ^ lw ≤ l.w ∧ oy + 2 ^ lh ≤ l.h then some (ox, oy, 2 ^ lw, 2 ^ lh) else none

/-- A team as a key: its rectangle, whichever descriptor names it (02 R54, R55, 11 R357; DEDUCED, notes/assumptions/31.md). -/
def teamKey (t : Nat × Nat × Nat × Nat) : Nat := t.1 + 64 * (t.2.1 + 64 * (t.2.2.1 + 128 * t.2.2.2))

/-- The cores of a team, in ascending member order (02 R54). -/
def Launch.teamCores (l : Launch) : Nat × Nat × Nat × Nat → List Nat
  | (ox, oy, w, h) => (List.range (w * h)).map fun i => coreAt (l.x0 + ox + i % w) (l.y0 + oy + i / w)

/-- The cycles from the last arrival to the release of a barrier (02 R57). -/
def Launch.barLatency (l : Launch) (t : Nat × Nat × Nat × Nat) : Nat :=
  let cs := l.teamCores t
  if cs.all fun c => tileOf c == tileOf (cs.headD 0) then 24 else 192

/-- Whether a barrier's team is the whole launch. -/
def Launch.whole (l : Launch) (t : Nat × Nat × Nat × Nat) : Bool := t == (0, 0, l.w, l.h)

/-- Every store and atomic with aperture 0 that the helm issued before access number `n` has reached its home (09 R279).
One not yet translated may have aperture 0. -/
def Core.storesHome (c : Core) (n : Nat) : Bool :=
  !c.accesses.any fun a => decide (a.id < n) && a.kind.writes && !a.performed && a.fault.isNone &&
    (match a.leaf with | some l => l.ap == 0 | none => true)

/-- All members of an episode have arrived, and the latency has passed; a resynchronising release of a timed launch in its
elastic interval waits for the largest deadline too (02 R49, R57). -/
def State.barReady (s : State) (b : Bar) : Bool := match s.launch? b.lid with
  | none => false
  | some l =>
    let cs := l.teamCores b.team
    let last := (b.arrived.map fun a => a.at_.getD 0).foldl max 0
    let dl := (b.arrived.map (·.deadline)).foldl max 0
    (cs.all fun c => b.arrived.any fun a => a.core == c && a.at_.isSome) &&
      decide (last + l.barLatency b.team ≤ l.count) &&
      (!(b.sync && l.whole b.team && l.timed && l.elastic) || decide (dl ≤ l.count))

/-- The barrier's release resynchronises a timed launch (02 R49). -/
def State.barResync (s : State) (b : Bar) : Bool := match s.launch? b.lid with
  | none => false
  | some l => b.sync && l.whole b.team && l.timed && l.elastic

/-! ## Conditions and their waits -/

/-- The launch a completion identifier of a context names has completed: assigned, and neither waiting, running nor
pre-empted, its record written (05 R159, 12 R385). A launch leaves the list with its completion record. -/
def State.launchDone (s : State) (ctx cid : Nat) : Bool :=
  decide (0 < cid ∧ cid ≤ (s.ctx ctx).assigned) &&
    !s.launches.any fun l => l.ctx == ctx && l.cid == cid

/-- Whether the condition of a wait holds now, for a core's stream (02 R38). -/
def State.waitHolds (s : State) (c : Nat) : WaitKind → Bool
  | .time => true
  | .full rk rn =>
    let x := s.core c
    if rk = 0 then x.pIsFull rn else if rk = 1 then x.qIsFull (rn.setWidth 5) else x.tIsFull (rn.setWidth 4)
  | .channel ch n => decide (n ≤ vAt (s.core c).chst ch)
  | .launch cid _ => s.launchDone (s.ctxOf c) cid
  | .bar _ _ => false
  | .hour _ => false

/-- Move the positions of a stream's results in flight by `d` (02 R441). -/
def Core.moveFlights (c : Core) (st : Stream) (p d : Nat) : Core :=
  { c with
    flights := c.flights.map fun f => if f.st == st && decide (p < f.pos) then { f with pos := f.pos + d } else f
    accesses := if st = .helm then c.accesses.map fun a => if decide (p < a.pos + a.window) then { a with pos := a.pos + d } else a
      else c.accesses }

/-- End the wait at the issuing stream's word: the next word counts from D, and issues after this cycle (02 R39, R43, R441). -/
def State.endWait (s : State) (w : Wait) : State :=
  ({ s with cur := { s.cur with pos := w.pos } }.leave).modMine fun x =>
    { x with wait := none, issueBase := w.since + 1, notBefore := s.cyc }

/-- Whether a wait is a word of the stream itself, whose own position slips: every wait but a barrier's (02 R39). -/
def WaitKind.slips : WaitKind → Bool
  | .bar _ _ => false
  | _ => true

/-- The issuing stream's own landings move with it where a wait issues after its position (02 R39). -/
def State.slipFlights (s : State) (k : WaitKind) : State :=
  if k.slips ∧ s.cur.pos < s.cyc ∧ s.cur.st ≠ .crossing then
    s.modMe fun c => c.moveFlights s.cur.st s.cur.pos (s.cyc - s.cur.pos)
  else s

/-- Begin a deadline wait whose deadline D is the cycle `d`, `holds` saying that its condition holds at the start of this
cycle. A wait whose deadline has come is decided at once: it ends, or in timed mode raises deadline passed (02 R39, R43). -/
def State.beginWait (s : State) (k : WaitKind) (d : Nat) (holds : Bool) : State :=
  let w : Wait := ⟨k, d, d, s.cyc, holds⟩
  let s := s.slipFlights k
  if d ≤ s.cyc then
    if holds then (s.emitLoop.endWait w).modMine fun x => { x with notBefore := 0 }
    else if s.stalls then s.emitLoop.modMine fun x => { x with wait := some w }
    else s.fault (cause2 s.cur.st deadlineC)
  else s.emitLoop.modMine fun x => { x with wait := some w }

/-- Whether a core's program runs: neither frozen nor stopped; its helm also runs a handler in a launch that its trap has frozen, and no
stream runs through any other freeze (02 R46, 12 R375). -/
def Core.runs (c : Core) (st : Stream) : Bool :=
  c.trap.isNone && c.inHandlerFault.isNone && !c.phaseWait && !c.held &&
    (if c.handler.isSome then st == .helm else !c.frozen && !c.stopped)

/-- Whether a wait of a core's stream is due to end, or to fault, at the start of this cycle: at D (02 R39, R43). A wait that stands past
its D when a release returns the launch to timed mode meets no D any more: it goes on until its condition holds (DESIGN CHOICE,
notes/assumptions/22.md). -/
def State.deadlineDue (s : State) (c : Nat) (st : Stream) : Bool :=
  let x := s.core c
  x.runs st && match (x.stream st).wait with
    | some w => decide (w.due = x.time) && (w.held || s.timedAt c) && (match w.kind with | .hour _ => false | _ => true)
    | none => false

/-- Whether a wait of a core's stream past its deadline ends at the start of this cycle, its condition having come to hold
(02 R43). -/
def State.lateEndDue (s : State) (c : Nat) (st : Stream) : Bool :=
  let x := s.core c
  x.runs st && match (x.stream st).wait with
    | some w => decide (w.due < x.time) && w.held && (match w.kind with | .hour _ => false | _ => true)
    | none => false

/-- The same for the crossing program of a launch. -/
def State.xDeadlineDue (s : State) (lid : Nat) : Bool := match s.launch? lid with
  | some l => match l.xing with
    | some x => !x.stopped && l.frozenUntil.isNone && l.stage == .running && (match x.prog.wait with
      | some w => decide (w.due ≤ l.count) && (match w.kind with | .hour _ => false | _ => true)
      | none => false)
    | none => false
  | none => false

/-- End a wait: a plain TBAR's next word counts from its release (05 R160). -/
def State.finishWait (s : State) (w : Wait) : State := match w.kind with
  | .bar _ true => s.endWait { w with pos := s.cyc }
  | _ => s.endWait w

/-- DEADLINE_REACHED: the wait ends at D when its condition has held, and raises deadline passed in timed mode otherwise;
the wait is then issued again on resume (02 R39, R43; 10 R305 for the crossing program). `core` names the launch of a
crossing program. -/
def execDeadlineReached (s : State) : Host.Outcome State Fault Refusal :=
  let core := s.on.a
  let st := s.on.st
  let due := match st with | .crossing => s.xDeadlineDue core | _ => s.deadlineDue core st
  let s' := { s with cur := ⟨core, st, 0⟩ }
  match due, s'.mine.wait with
  | true, some w =>
    if w.held || st == .crossing then .next (s'.finishWait w)
    else .next ((s'.fault (cause2 st deadlineC)).modMine fun x => { x with wait := none })
  | _, _ => .fault .eventNotDue

/-- ELASTIC_WAIT_END: a wait past its deadline ends once its condition has come to hold (02 R43, R441). -/
def execElasticWaitEnd (s : State) : Host.Outcome State Fault Refusal :=
  let core := s.on.a
  let st := s.on.st
  let s' := { s with cur := ⟨core, st, 0⟩ }
  match s.lateEndDue core st, s'.mine.wait with
  | true, some w => .next (s'.finishWait w)
  | _, _ => .fault .eventNotDue

/-! ## Wait words -/

/-- TWAIT of the helm (05 R159). -/
def execTwait (n : BitVec 31) (s : State) : Host.Outcome State Fault Refusal :=
  s.perform .ok fun s => s.beginWait .time (s.cyc + n.toNat) true

/-- TWAIT of an engine stream (05 R171). -/
def execEngineTwait (n : BitVec 31) (s : State) : Host.Outcome State Fault Refusal :=
  s.perform s.occupied fun s => s.beginWait .time (s.cyc + n.toNat) true

/-- WAITID, channel form (05 R159). -/
def execWaitid (ch ra : SReg) (n : BitVec 25) (s : State) : Host.Outcome State Fault Refusal :=
  let k : WaitKind := .channel ch.toNat ((s.sr ra).toNat % 2 ^ 48)
  s.perform (s.bad0 (decide (4 < ch.toNat)) rangeC) fun s => s.beginWait k (s.cyc + n.toNat) (s.waitHolds s.cur.core k)

/-- WAITID, launch form (05 R159). -/
def execWaitidLaunch (ra : SReg) (n : BitVec 25) (s : State) : Host.Outcome State Fault Refusal :=
  let id := (s.sr ra).toNat
  let k : WaitKind := .launch id false
  s.perform (s.bad0 (decide (id = 0 ∨ 2 ^ 48 ≤ id ∨ (s.ctx (s.ctxOf s.cur.core)).assigned < id)) rangeC) fun s =>
    s.beginWait k (s.cyc + n.toNat) (s.waitHolds s.cur.core k)

/-- WAITQ (05 R159). -/
def execWaitq (qn : SReg) (n : BitVec 25) (s : State) : Host.Outcome State Fault Refusal :=
  let k : WaitKind := .full 1 (qn.setWidth 7)
  s.perform (s.qInFile qn) fun s => s.beginWait k (s.cyc + n.toNat) (s.waitHolds s.cur.core k)

/-- WAITF (05 R171). -/
def execWaitf (rk : BitVec 2) (rn : BitVec 7) (n : BitVec 28) (s : State) : Host.Outcome State Fault Refusal :=
  let bad := decide (rk = 3 ∨ (rk = 1 ∧ 32 ≤ rn.toNat) ∨ (rk = 2 ∧ 16 ≤ rn.toNat))
  s.perform (.and (s.bad0 bad rangeC) s.occupied) fun s =>
    s.beginWait (.full rk rn) (s.cyc + n.toNat) (s.waitHolds s.cur.core (.full rk rn))

/-- Enter the episode of a barrier: the open one of the team, or a new one. A second issue of a failed TBAR rejoins its episode, with the deadline
that it now holds; where that episode has been released meanwhile it opens a new one, in which it alone has arrived (02 R49, R56; DESIGN CHOICE,
notes/assumptions/9.md). -/
def State.arrive (s : State) (l : Launch) (t : Nat × Nat × Nat × Nat) (sync : Bool) (dl : Nat) : State × Nat :=
  let c := s.cur.core
  let a : Arrival := { core := c, at_ := if s.me.storesHome s.me.nextAcc then some l.count else none, deadline := dl }
  match s.bars.find? fun b => b.lid == l.lid && b.team == t with
  | some b =>
    let add := if b.arrived.any (·.core == c) then updIf (·.core == c) (fun x => { x with deadline := dl }) b.arrived else b.arrived ++ [a]
    ({ s with bars := updIf (·.id == b.id) (fun b => { b with arrived := add, sync := b.sync || sync }) s.bars }, b.id)
  | none => ({ s with bars := s.bars ++ [⟨s.nextBar, l.lid, t, sync, [a]⟩], nextBar := s.nextBar + 1 }, s.nextBar)

/-- A TBAR of either flag (05 R159, R160; 02 R38, R56; 13 R395). -/
def State.tbar (s : State) (ra : SReg) (desc : BitVec 7) (dl : BitVec 1) (sync : Bool) : Host.Outcome State Fault Refusal :=
  let l := (s.launchOf s.cur.core).getD { lid := 0, ctx := 0 }
  let t := l.team s.cur.core desc.toNat
  let bad := t.isNone || (s.launchOf s.cur.core).isNone || (dl == 0 && (sync || ra != 0 || l.timedNow))
  s.perform (verdicts [s.noPhase, s.bad0 bad rangeC]) fun s =>
    let d := if dl = 0 then s.cyc else (s.sr ra).toNat
    let r := s.arrive l (t.getD (0, 0, 1, 1)) sync d
    let k : WaitKind := .bar r.2 (dl == 0)
    if s.stalls ∧ d ≤ s.cyc then r.1.modMine fun x => { x with wait := some ⟨k, d, d, s.cyc, false⟩ }
    else r.1.beginWait k d false

/-- TBAR (05 R159). -/
def execTbar (ra : SReg) (desc : BitVec 7) (dl : BitVec 1) (s : State) := s.tbar ra desc dl false
/-- TBAR with the resynchronise flag (05 R159, 02 R49). -/
def execTbarSync (ra : SReg) (desc : BitVec 7) (dl : BitVec 1) (s : State) := s.tbar ra desc dl true

/-- YIELDPT, plain form: the helm's side of a retirement point; no-op in handler mode (02 R58, 11 R348, 12 R375, 13 R395). -/
def execYieldpt (rd ra : SReg) (n : BitVec 24) (s : State) : Host.Outcome State Fault Refusal :=
  s.perform (verdicts [s.noPhase, s.bad0 (rd != 0 || ra != 0 || n != 0) rangeC]) fun s =>
    (if s.me.handler.isSome then s else s.modMe fun c => { c with yieldAt := some c.time }).advance

/-- YIELDPT, hold form: a wait for a joined child, standing at a retirement point; no-op in handler mode (02 R38, R59, R66, 11 R348, 12 R375). -/
def execYieldptHold (ra : SReg) (n : BitVec 24) (s : State) : Host.Outcome State Fault Refusal :=
  let id := (s.sr ra).toNat
  let k : WaitKind := .launch id true
  if s.me.handler.isSome then s.perform s.noPhase fun s => s.advance
  else s.perform (verdicts [s.noPhase, s.bad0 (!s.me.children.contains id) rangeC]) fun s =>
    (s.modMe fun c => { c with yieldAt := some c.time }).beginWait k (s.cyc + n.toNat) (s.waitHolds s.cur.core k)

/-- RETIRE: a live accumulator raises full-register overwrite (02 R58, 05 R172, 07 R230, 13 R395). -/
def execRetire (s : State) : Host.Outcome State Fault Refusal :=
  let live := (List.range 4).any fun i => !s.me.aIsEmpty (BitVec.ofNat 2 i)
  s.perform (verdicts [s.noPhase, bar live (cause2 .matrix fullC)]) fun s =>
    (s.modMe fun c => { c with retireAt := some c.time }).advance

/-! ## Release -/

/-- Re-base a stream at a resynchronisation: everything still to come moves by `j`, and the next word stands where it would
issue (02 R49). -/
def StreamSt.rebase (x : StreamSt) (j : Int) (now : Nat) : StreamSt :=
  let mv := fun (n : Nat) => ((n : Int) + j).toNat
  { x with
    posBase := max (mv x.posBase) (mv x.issueBase)
    posMin := now + 1
    issueBase := 0
    notBefore := 0
    wait := x.wait.map fun w => { w with due := mv w.due, pos := mv w.pos, since := mv w.since } }

/-- A stream whose count moves by `j`, and nothing else: the helm of a handler. -/
def StreamSt.shift (x : StreamSt) (j : Int) : StreamSt :=
  let mv := fun (n : Nat) => ((n : Int) + j).toNat
  { x with
    posBase := mv x.posBase, posMin := mv x.posMin, issueBase := mv x.issueBase, notBefore := mv x.notBefore
    wait := x.wait.map fun w => { w with due := mv w.due, pos := mv w.pos, since := mv w.since } }

/-- A trap's saved helm at the release of a resynchronising barrier: its wait has ended, from which the word after it counts, and it moves on when the
core returns (02 R49). -/
def Stopped.resync (t : Stopped) (j : Int) (n : Nat) : Stopped :=
  let mv := fun (k : Nat) => ((k : Int) + j).toNat
  { t with
    stream := { t.stream with wait := t.stream.wait.map fun w => { w with
      kind := match w.kind with | .bar i _ => .bar i false | k => k
      due := n, pos := n, since := n, held := true } }
    flights := t.flights.map fun f => { f with issued := mv f.issued, due := mv f.due, pos := mv f.pos }
    at_ := mv t.at_ }

/-- The wait of a stream at a barrier has its condition (02 R38). -/
def StreamSt.holdBar (x : StreamSt) (bar : Nat) : StreamSt := { x with wait := x.wait.map fun w => match w.kind with
  | .bar i _ => if i = bar then { w with held := true } else w
  | _ => w }

/-- A barrier has released a core, whose wait a trap may have saved (02 R43, R57). -/
def Core.holdBar (c : Core) (bar : Nat) : Core :=
  let saved := fun (t : Stopped) => { t with stream := t.stream.holdBar bar }
  { c with helm := c.helm.holdBar bar, handler := c.handler.map saved, trapped := c.trapped.map saved }

/-- The core at the release of a resynchronising barrier: its count becomes `n`, its helm's wait ends, and every stream is
re-based (02 R49). -/
def Core.resync (c : Core) (n : Nat) : Core :=
  let j : Int := (n : Int) - c.cyc
  let mv := fun (k : Nat) => ((k : Int) + j).toNat
  { c with
    cyc := n
    vec := c.vec.rebase j n, mat := c.mat.rebase j n, cpy := c.cpy.rebase j n
    flights := c.flights.map fun f => { f with issued := mv f.issued, due := mv f.due, pos := mv f.pos }
    accesses := c.accesses.map fun a => { a with issued := mv a.issued, pos := mv a.pos, xlatAt := mv a.xlatAt, homeAt := mv a.homeAt }
    copies := c.copies.map fun k => { k with
      issued := mv k.issued, xlatAt := mv k.xlatAt, ready := k.ready.map mv, bound := k.bound.map mv, doneAt := k.doneAt.map mv
      before := { k.before with posBase := mv k.before.posBase, posMin := mv k.before.posMin, issueBase := mv k.before.issueBase
                                notBefore := mv k.before.notBefore } }
    helm := if c.handler.isSome then c.helm.shift j else c.helm
    handler := c.handler.map fun t => t.resync j n
    trapped := c.trapped.map fun t => t.resync j n
    phase := c.phase.map fun p => { p with start := mv p.start }
    pathFree := c.pathFree.map fun p => (p.1, mv p.2)
    vbusy := mv c.vbusy, mbusy := c.mbusy.map mv }

/-- BARRIER_RELEASE: every member's condition holds from now on; the release of a resynchronising barrier sets every count
to the sequencer's and returns the launch to timed mode (02 R49, R57). -/
def execBarrierRelease (s : State) : Host.Outcome State Fault Refusal :=
  let bar := s.on.a
  match s.bars.find? (·.id == bar) with
  | none => .fault .eventNotDue
  | some b =>
    if !s.barReady b then .fault .eventNotDue
    else
      let l := (s.launch? b.lid).getD { lid := 0, ctx := 0 }
      let s1 := { s with bars := s.bars.filter (·.id != bar) }
      if s.barResync b then
        .next <| ((l.cores.foldl (fun (s : State) c =>
          let old := (s.core c).cyc
          let s := { s with qsends := s.qsends.map fun (q : QSend) => if q.dst = c then { q with due := q.due + l.count - old } else q }
          let s := s.modCore c fun x => x.resync l.count
          let s := { s with cur := ⟨c, .helm, 0⟩ }
          match s.mine.wait with
          | some w => if s.me.handler.isSome || s.me.trapped.isSome then s else s.endWait { w with pos := l.count, since := l.count }
          | none => s) s1).modLaunch b.lid fun l => { l with elastic := false })
      else .next <| b.arrived.foldl (fun (s : State) a => s.modCore a.core fun c => c.holdBar bar) s1

end Sys2Proof.Machine
end

