-- ==== Sys2Proof/Machine/Copy.lean ====
section
/-! DEFINITION. Copy words at issue: records, checks, identifiers, CFENCE, CWAIT, CCONST, CNMC (08 R239-R257). -/

namespace Sys2Proof.Machine

/-- A signed 32-bit field. -/
def sint32 (n : Nat) : Int := (BitVec.ofNat 32 n).toInt

/-- The number in bytes `o` to `o + n - 1` of a record. -/
def recField (r : List Byte) (o n : Nat) : Nat := ofBytes ((r.drop o).take n)

/-- A box record (08 R242). -/
structure Box where
  src : Nat
  dst : Nat
  sk : Nat
  dk : Nat
  nd : Nat
  peer : Nat
  e : Nat × Nat × Nat × Nat
  ss : Int × Int × Int
  ds : Int × Int × Int
  deriving DecidableEq, Repr

/-- Read a box record. -/
def boxOf (r : List Byte) : Box :=
  let k := recField r 16 4
  { src := recField r 0 8, dst := recField r 8 8, sk := k % 8, dk := k / 8 % 8, nd := k / 64 % 4, peer := recField r 20 4
    e := (recField r 24 4, recField r 28 4, recField r 32 4, recField r 36 4)
    ss := (sint32 (recField r 40 4), sint32 (recField r 44 4), sint32 (recField r 48 4))
    ds := (sint32 (recField r 52 4), sint32 (recField r 56 4), sint32 (recField r 60 4)) }

/-- E(d), 1 beyond the box's dimensions (08 R244). -/
def Box.ext (b : Box) : Nat × Nat × Nat × Nat :=
  (b.e.1, if 1 ≤ b.nd then b.e.2.1 else 1, if 2 ≤ b.nd then b.e.2.2.1 else 1, if 3 ≤ b.nd then b.e.2.2.2 else 1)

/-- Whether a box is a zero-extent box (08 R243). -/
def Box.isZero (b : Box) : Bool := let e := b.ext; e.1 == 0 || e.2.1 == 0 || e.2.2.1 == 0 || e.2.2.2 == 0

/-- The rows of a box in loop order: the source and destination of each row's first byte (08 R244). -/
def Box.rows (b : Box) : List (Int × Int) :=
  let e := b.ext
  (List.range e.2.2.2).flatMap fun (i3 : Nat) => (List.range e.2.2.1).flatMap fun (i2 : Nat) => (List.range e.2.1).map fun (i1 : Nat) =>
    ((b.src : Int) + (i1 : Int) * b.ss.1 + (i2 : Int) * b.ss.2.1 + (i3 : Int) * b.ss.2.2,
      (b.dst : Int) + (i1 : Int) * b.ds.1 + (i2 : Int) * b.ds.2.1 + (i3 : Int) * b.ds.2.2)

/-- The total bytes of a box. -/
def Box.total (b : Box) : Nat := let e := b.ext; e.1 * e.2.1 * e.2.2.1 * e.2.2.2

/-- Whether an address of a kind has a reserved bit set (08 R242). -/
def addrReserved (k a : Nat) : Bool :=
  if k = 0 ∨ k = 1 then decide (2 ^ 22 ≤ a) else if k = 3 then decide (16 ≤ a) else false

/-- A reserved field of a box record is nonzero (08 R242, R243). -/
def Box.reserved (b : Box) (r : List Byte) : Bool :=
  decide (256 ≤ recField r 16 4) || decide (8192 ≤ b.peer) || decide (b.peer / 64 % 4 ≠ 0)
    || addrReserved b.sk b.src || addrReserved b.dk b.dst
    || (decide (b.nd < 1) && (b.e.2.1 != 0 || b.ss.1 != 0 || b.ds.1 != 0))
    || (decide (b.nd < 2) && (b.e.2.2.1 != 0 || b.ss.2.1 != 0 || b.ds.2.1 != 0))
    || (decide (b.nd < 3) && (b.e.2.2.2 != 0 || b.ss.2.2 != 0 || b.ds.2.2 != 0))

/-- A virtual address from an exact sum: 64 bits (00 R7). -/
def va64 (i : Int) : Nat := (i % (2 ^ 64 : Int)).toNat

/-- The 64 KiB blocks of a run of virtual bytes. -/
def blocksOf (a n : Nat) : List Nat :=
  if n = 0 then [] else (List.range ((a + n - 1) / 65536 - a / 65536 + 1)).map fun i => a / 65536 + i

/-- The distinct blocks of runs, in order of first use. -/
def blocksIn (l : List (Nat × Nat)) : List Nat := l.foldl (fun acc x => (blocksOf x.1 x.2).foldl addOnce acc) []

/-- The first byte that a run of virtual bytes touches in each 64 KiB block. -/
def startsOf (a n : Nat) : List Nat := (blocksOf a n).map fun b => max a (b * 65536)

/-- The byte by which runs first touch each distinct block, in order of first use. -/
def startsIn (l : List (Nat × Nat)) : List Nat := l.foldl (fun acc x => (startsOf x.1 x.2).foldl (fun (acc : List Nat) v =>
  if acc.any fun w => w / 65536 == v / 65536 then acc else acc ++ [v]) acc) []

/-- A local store row lies in 0 to 0x3F_FFFF. -/
def inStore (a : Int) (n : Nat) : Bool := decide (0 ≤ a ∧ a + n ≤ (0x400000 : Int))

/-- The range checks of a box record (08 R243); `legal` says that a PEER core may be named. E1 to E3 above R242's limit raise operand range, as E0 does
(DESIGN CHOICE, notes/assumptions/57.md). -/
def Box.outOfRange (b : Box) (zr : Bool) (legal : Nat → Bool) : Bool :=
  let peerBad := decide (b.sk = 1 ∨ b.dk = 1) && !(match coreOfWord b.peer with | some c => legal c | none => false)
  let e0 := b.ext.1
  decide (4 ≤ b.sk ∨ 4 ≤ b.dk ∨ (b.sk = 1 ∧ b.dk = 1)) || decide (0x1000000 < b.e.1)
    || decide (0xFFFF < b.e.2.1 ∨ 0xFFFF < b.e.2.2.1 ∨ 0xFFFF < b.e.2.2.2) || peerBad
    || (zr && (decide (b.src % 64 ≠ 0 ∨ b.dst % 64 ≠ 0 ∨ b.e.1 % 64 ≠ 0)
        || [b.ss.1, b.ss.2.1, b.ss.2.2, b.ds.1, b.ds.2.1, b.ds.2.2].any fun x => x % 64 != 0))
    || (!b.isZero &&
      ((decide (b.sk < 2) && b.rows.any fun r => !inStore r.1 e0) || (decide (b.dk < 2) && b.rows.any fun r => !inStore r.2 e0)
        || (decide (b.sk = 3 ∨ b.dk = 3) && decide (b.total ≠ 4096))
        || decide (1024 < (blocksIn ((if b.sk = 2 then b.rows.map fun r => (va64 r.1, e0) else [])
              ++ (if b.dk = 2 then b.rows.map fun r => (va64 r.2, e0) else []))).length)))

/-- The spans of a box: a tile register is bytes 0 to 4,095, its number the span's base times 4,096 (08 R244). -/
def Box.spans (b : Box) : List Span :=
  if b.isZero then [] else
    (b.rows.zipIdx).map fun x =>
      { src := if b.sk = 2 then va64 x.1.1 else if b.sk = 3 then x.2 * b.ext.1 else x.1.1.toNat
        dst := if b.dk = 2 then va64 x.1.2 else if b.dk = 3 then x.2 * b.ext.1 else x.1.2.toNat
        len := b.ext.1 }

/-- The interval from the lowest to the highest byte of runs (08 R249). -/
def hull (l : List (Nat × Nat)) : Option (Nat × Nat) :=
  match l with
  | [] => none
  | x :: t => some (t.foldl (fun acc y => (min acc.1 y.1, max acc.2 (y.1 + y.2))) (x.1, x.1 + x.2))

/-- The register number that RG gives through KG (03 R80). -/
def rgBad (kg : BitVec 1) (rg : BitVec 6) : Bool := kg == 1 && decide (32 ≤ rg.toNat)

/-- The value of the register that a copy word names: a scalar, or a handoff register (03 R80). -/
def State.rgValue (s : State) (kg : BitVec 1) (rg : BitVec 6) : Word :=
  if kg = 0 then s.me.sreg .copy rg else vGet (rg.setWidth 5) s.me.qregs

/-- The copies of a channel that have issued and not completed (08 R241). -/
def Core.onChannel (c : Core) (ch : Nat) : Nat := (c.copies.filter fun k => k.ch == ch && !k.finished).length

/-- The checks of a copy command before its record: fields first (02 R442), then rows 4 and 5 (08 R243). -/
def State.copyRows (s : State) (o : CRecOp) : Verdict :=
  verdicts [s.bad0 (rgBad o.kg o.rg) rangeC, s.bad0 (decide (1 ≤ o.idq.toNat ∧ o.idq.toNat < 32)) rangeC,
    if o.kg = 1 then s.takeQ (o.rg.setWidth 5) else .ok,
    if o.idq = 0 then .ok else s.freeQ (o.idq.setWidth 5),
    need (decide (s.me.onChannel o.ch.toNat < 64)) (cause2 .copy fullC),
    s.bad0 (decide (2 ^ 48 ≤ vAt s.me.chIssued o.ch.toNat + 1)) rangeC]

/-- The address checks of a record, and poison that reading it meets (08 R243, 13 R390; DEDUCED, notes/assumptions/20.md). -/
def State.recordAddr (s : State) (a : Nat) : Verdict :=
  verdicts [s.bad0 (decide (a % 64 ≠ 0)) alignC, s.bad0 (decide (0x400000 ≤ a)) rangeC, bar (s.me.poisoned a 64) (cause 5 0 1)]

/-- The record at a local store address of the issuing core. -/
def State.recordAt (s : State) (a : Nat) : List Byte := memBytes s.me.ls a 64

/-- The new command of the issuing word, before its kind's operands. -/
def State.newCopy (s : State) (k : CopyKind) (o : CRecOp) : CopyCmd :=
  { id := s.me.nextCopy, kind := k, ch := o.ch.toNat, ident := vAt s.me.chIssued o.ch.toNat + 1, tick := s.now, issued := s.cyc
    before := s.mine, fence := s.me.cfences }

/-- The cycle in which the tile's unit gives the translations of the pages of a new command, by the bytes that first touch them: free within
the unit's bound, past issue + 512 only behind more than 32 walks (08 R246, 12 R369; notes/assumptions/4.md). -/
def State.copyXlat (s : State) (starts : List Nat) : Nat :=
  s.choice (s.cyc + 1) (s.cyc + (starts.map (s.xlatBound (tileOf s.cur.core) (s.ctxOf s.cur.core))).foldl max 1)

/-- Whether a collective command has joined its collective. -/
def CopyCmd.joined (k : CopyCmd) : Bool := k.kind == .coll && k.taken.isSome

/-! ## Order (08 R248-R250) -/

/-- Whether the later command `k` may move data only after the earlier `j` completes (08 R249, R250). -/
def CopyCmd.after (k j : CopyCmd) : Bool :=
  decide (j.fence < k.fence)
    || (j.ranges.any fun a => k.ranges.any fun b => (a.2.2 || b.2.2) && decide (a.1 < b.2.1 ∧ b.1 < a.2.1))
    || (j.tiles.any fun a => k.tiles.any fun b => (a.2 || b.2) && a.1 == b.1)

/-- The cycle at whose end a command completes, as it is known: its own, or else its bound. -/
def CopyCmd.planned (k : CopyCmd) : Option Nat := k.doneAt.or k.bound

/-- The bound of Ready for a command, from the earlier commands of its stream; one that has completed with no bound of its own counts from its
completion (08 R248). -/
def Core.readyOf (c : Core) (k : CopyCmd) : Nat :=
  c.copies.foldl (fun n j =>
    if j.id < k.id then
      let n := if j.virt then max n (j.ready.getD 0) else n
      if k.after j then max n (((j.bound.or j.doneAt).map (· + 1)).getD 0) else n
    else n) (k.issued + if k.virt then 512 else 1)

/-- Whether a command has passed translation: its pages are translated and its destination pages may be written, and CBIN has its bins' as well
(08 R246, R247, R254). -/
def CopyCmd.passed (k : CopyCmd) : Bool := !k.virt || (k.xlated && k.gated && (k.kind != .bin || k.taken.isSome))

/-- Whether a command waits until it or an earlier command of its stream passes translation (08 R246). -/
def Core.beforeXlat (c : Core) (k : CopyCmd) : Bool := c.copies.any fun j => decide (j.id ≤ k.id) && !j.passed && !j.finished

/-- Whether an earlier command of its stream keeps `k` from moving data in cycle `t`: one that has not passed translation, or one that R249 or a
CFENCE orders before it and that has not completed before this cycle. -/
def Core.holdsBack (c : Core) (k : CopyCmd) (t : Nat) : Bool :=
  c.beforeXlat k || c.copies.any fun j => decide (j.id < k.id) && k.after j && (!j.finished || j.doneAt == some t)

/-- The opcode of a logged kind (13 R396, 03 R91). -/
def CopyKind.op : CopyKind → Nat
  | .box => 1 | .ragged => 2 | .gath => 3 | .scat => 4 | .bin => 5 | .send => 6 | .recv => 7 | .nmc => 8 | .coll => 9 | .const => 12

/-- The slots that a run of local store bytes touches. -/
def slotsIn (a n : Nat) : List Nat := if n = 0 then [] else (List.range ((a + n - 1) / 1024 - a / 1024 + 1)).map fun i => a / 1024 + i

/-- Whether a command is logged: in a phase, on a channel of CHMASK, with a destination in the local store of this core, which is core `me`
(13 R396). -/
def Core.logs (c : Core) (me : Nat) (k : CopyCmd) : Bool := match c.phase with
  | none => false
  | some p => p.chmask.testBit k.ch && (k.dk == 0 || (k.dk == 1 && k.peer == me)) &&
      (match k.kind with | .box | .ragged | .gath | .recv => true | _ => false)

/-- Log a command in the next entry, or make the phase unrecoverable when the log is full (13 R396). -/
def Core.logCopy (c : Core) (k : CopyCmd) : Core := match c.phase with
  | none => c
  | some p =>
    let at_ := p.logAt + 128 * p.log.length
    if p.log.length < p.logn then
      { c.putBytes at_ (k.record ++ toBytes 1 k.kind.op ++ toBytes 1 k.ch ++ toBytes 6 0 ++ toBytes 6 k.ident ++ toBytes 50 0) with
        phase := some { p with log := p.log ++ [k.id] } }
    else { c with phase := some { p with unrecoverable := true } }

/-- Issue a command: it takes the channel's next identifier, which is written to IDQ at latency 1, and empties a handoff
register named through KG (08 R240, 03 R80). -/
def State.issueCopy (s : State) (o : CRecOp) (k : CopyCmd) : State :=
  let effs := (if o.kg = 1 then [Eff.qEmpty (o.rg.setWidth 5)] else [])
    ++ (if o.idq = 0 then [] else [Eff.q (o.idq.setWidth 5) (BitVec.ofNat 64 k.ident)])
  ((s.emit 1 effs).modMe fun c =>
    let logs := c.logs s.cur.core k
    let c := if logs then c.logCopy k else c
    { c with copies := c.copies ++ [{ k with logged := logs }], nextCopy := c.nextCopy + 1
             chIssued := vPut c.chIssued o.ch.toNat k.ident }).advance

/-- The states of the tile registers that a record names (08 R243, last row), and the parity of a source (13 R390). -/
def State.tileStates (s : State) (sk src dk dst : Nat) : Verdict :=
  verdicts [if sk = 3 then s.needT (BitVec.ofNat 4 src) else .ok, if dk = 3 then s.freeT (BitVec.ofNat 4 dst) else .ok,
    bar (sk == 3 && s.me.tBad.contains (src % 16)) (cause 5 1 1)]

/-- The checks of a box record, in the order of R243. -/
def State.boxChecks (s : State) (a : Nat) (zr : Bool) : Verdict :=
  let r := s.recordAt a
  let b := boxOf r
  verdicts [s.recordAddr a, s.bad0 (b.reserved r) reservedC, s.bad0 (b.outOfRange zr s.inLaunch) rangeC]

/-- The ranges of a box command of core `me` in its own local store, named as its own or as a PEER's, for the range checker: whether each is
written (08 R249). -/
def boxRanges (me : Nat) (b : Box) (spans : List Span) : List (Nat × Nat × Bool) :=
  let own := fun (kind : Nat) => kind == 0 || (kind == 1 && coreOfWord b.peer == some me)
  (if own b.sk then ((hull (spans.map fun x => (x.src, b.ext.1))).toList.map fun h => (h.1, h.2, false)) else [])
    ++ (if own b.dk then ((hull (spans.map fun x => (x.dst, b.ext.1))).toList.map fun h => (h.1, h.2, true)) else [])

/-- The bond violation of a command whose destination is virtual, found at issue; a write of no bytes breaks none (09 R273). -/
def State.copyBond (s : State) (writes : List (Nat × Nat)) (axis : Nat) : Option TrapInfo :=
  let writes := writes.filter (·.2 != 0)
  if writes.any fun w => bondBroken s.me.bonds w.1 w.2 then
    some { s.info (cause 1 axis bondC) with va := BitVec.ofNat 64 ((writes.headD (0, 0)).1) }
  else none

/-- The command of a box record (08 R242-R249). -/
def State.boxCopy (s : State) (o : CRecOp) (a : Nat) (nt : Bool) : CopyCmd :=
  let r := s.recordAt a
  let b := boxOf r
  let sp := b.spans
  { s.newCopy .box o with
    record := r, recAddr := a, nt := nt, sk := b.sk, dk := b.dk, peer := (coreOfWord b.peer).getD 0, spans := sp
    srcTile := if b.sk = 3 then some (vGet (BitVec.ofNat 4 b.src) s.me.tregs).data else none
    granules := (b.total + 63) / 64
    reads := if b.sk = 2 then startsIn (sp.map fun x => (x.src, x.len)) else []
    writes := if b.dk = 2 then startsIn (sp.map fun x => (x.dst, x.len)) else []
    ranges := boxRanges s.cur.core b sp
    tiles := (if b.sk = 3 then [(b.src % 16, false)] else []) ++ (if b.dk = 3 then [(b.dst % 16, true)] else [])
    virt := !b.isZero && decide (b.sk = 2 ∨ b.dk = 2), zero := b.isZero
    xlatAt := s.copyXlat ((if b.sk = 2 then sp.map (·.src) else []) ++ if b.dk = 2 then sp.map (·.dst) else [])
    fault := if b.dk = 2 then s.copyBond (sp.map fun x => (x.dst, x.len)) copyWriteA else none }

/-- CPY (08 R239-R249). -/
def execCpy (o : CRecOp) (zr nt : BitVec 1) (s : State) : Host.Outcome State Fault Refusal :=
  let a := (s.rgValue o.kg o.rg).toNat
  let b := boxOf (s.recordAt a)
  s.perform (verdicts [s.copyRows o, s.boxChecks a (zr == 1),
      if b.isZero then .ok else s.tileStates b.sk (b.src % 16) b.dk (b.dst % 16)]) fun s =>
    s.chosen.issueCopy o (s.boxCopy o a (nt == 1))

/-- A list record (08 R253). -/
structure ListRec where
  base : Nat
  ladr : Nat
  idx : Nat
  n : Nat
  rb : Nat
  str : Int
  deriving DecidableEq, Repr

/-- Read a list record. -/
def listOf (r : List Byte) : ListRec :=
  ⟨recField r 0 8, recField r 8 4, recField r 12 4, recField r 16 4, recField r 20 4, sint32 (recField r 24 4)⟩

/-- The INT32 indices at a local store address. -/
def State.indices (s : State) (a n : Nat) : List Int :=
  (List.range n).map fun i => sint32 (memRead s.me.ls (a + 4 * i) 4)

/-- The virtual address of an indexed row (08 R253). -/
def ListRec.row (l : ListRec) (i : Int) : Nat := va64 (l.base + i * l.str)

/-- The checks of a list record (08 R243, R253). -/
def State.listChecks (s : State) (a : Nat) : Verdict :=
  let r := s.recordAt a
  let l := listOf r
  verdicts [s.recordAddr a,
    s.bad0 ((r.drop 28).any (· != 0) || decide (2 ^ 22 ≤ l.ladr)) reservedC,
    s.bad0 (decide (l.idx % 4 ≠ 0 ∨ 65535 < l.n ∨ l.rb = 0 ∨ 65536 < l.rb)
      || (decide (l.n ≠ 0) && (!inStore l.ladr (l.n * l.rb) || !inStore l.idx (4 * l.n)))) rangeC,
    bar (decide (l.n ≠ 0) && s.me.poisoned l.idx (4 * l.n)) (cause 5 0 1),
    s.bad0 (decide (l.n ≠ 0) && decide (1024 < (blocksIn ((s.indices l.idx l.n).map fun i => (l.row i, l.rb))).length)) rangeC]

/-- The command of a list record: `toStore` for CGATH, the other way for CSCAT (08 R253). -/
def State.listCopy (s : State) (o : CRecOp) (a : Nat) (nt toStore : Bool) : CopyCmd :=
  let r := s.recordAt a
  let l := listOf r
  let far := (s.indices l.idx l.n).map l.row
  let sp := (far.zipIdx).map fun x =>
    if toStore then ({ src := x.1, dst := l.ladr + x.2 * l.rb, len := l.rb } : Span)
    else { src := l.ladr + x.2 * l.rb, dst := x.1, len := l.rb }
  let bl := startsIn (far.map fun x => (x, l.rb))
  { s.newCopy (if toStore then .gath else .scat) o with
    record := r, recAddr := a, nt := nt, sk := if toStore then 2 else 0, dk := if toStore then 0 else 2, spans := sp
    granules := l.n * ((l.rb + 63) / 64)
    reads := if toStore then bl else [], writes := if toStore then [] else bl
    ranges := if l.n = 0 then [] else [(l.ladr, l.ladr + l.n * l.rb, toStore)]
    virt := decide (l.n ≠ 0), zero := decide (l.n = 0)
    xlatAt := s.copyXlat bl
    fault := if toStore then none else s.copyBond (far.map fun x => (x, l.rb)) copyWriteA }

/-- CGATH (08 R253). -/
def execCgath (o : CRecOp) (nt : BitVec 1) (s : State) : Host.Outcome State Fault Refusal :=
  let a := (s.rgValue o.kg o.rg).toNat
  s.perform (verdicts [s.copyRows o, s.listChecks a]) fun s => s.chosen.issueCopy o (s.listCopy o a (nt == 1) true)

/-- CSCAT (08 R253). -/
def execCscat (o : CRecOp) (nt : BitVec 1) (s : State) : Host.Outcome State Fault Refusal :=
  let a := (s.rgValue o.kg o.rg).toNat
  s.perform (verdicts [s.copyRows o, s.listChecks a]) fun s => s.chosen.issueCopy o (s.listCopy o a (nt == 1) false)

/-- A bin record (08 R254). -/
structure BinRec where
  ladr : Nat
  idx : Nat
  n : Nat
  rb : Nat
  tab : Nat
  nb : Nat
  deriving DecidableEq, Repr

/-- Read a bin record. -/
def binOf (r : List Byte) : BinRec :=
  ⟨recField r 0 4, recField r 4 4, recField r 8 4, recField r 12 4, recField r 16 8, recField r 24 4⟩

/-- The checks of a bin record (08 R243, R254). -/
def State.binChecks (s : State) (a : Nat) : Verdict :=
  let r := s.recordAt a
  let b := binOf r
  verdicts [s.recordAddr a,
    s.bad0 ((r.drop 28).any (· != 0)) reservedC,
    s.bad0 (decide (b.idx % 4 ≠ 0 ∨ 65535 < b.n ∨ b.rb = 0 ∨ 65536 < b.rb ∨ b.tab % 32 ≠ 0 ∨ b.nb = 0 ∨ 4096 < b.nb)
      || (decide (b.n ≠ 0) && (!inStore b.ladr (b.n * b.rb) || !inStore b.idx (4 * b.n)))) rangeC,
    bar (decide (b.n ≠ 0) && s.me.poisoned b.idx (4 * b.n)) (cause 5 0 1)]

/-- CBIN (08 R254). -/
def execCbin (o : CRecOp) (nt : BitVec 1) (s : State) : Host.Outcome State Fault Refusal :=
  let a := (s.rgValue o.kg o.rg).toNat
  s.perform (verdicts [s.copyRows o, s.binChecks a]) fun s =>
    let r := s.recordAt a
    let b := binOf r
    s.chosen.issueCopy o { s.newCopy .bin o with
      record := r, recAddr := a, nt := nt == 1, dk := 2, granules := b.n * ((b.rb + 63) / 64 + 1)
      reads := startsOf b.tab (32 * (b.nb + 1)), idx := s.indices b.idx b.n, bonds := s.me.bonds
      ranges := if b.n = 0 then [] else [(b.ladr, b.ladr + b.n * b.rb, false)]
      virt := decide (b.n ≠ 0), zero := decide (b.n = 0), xlatAt := s.copyXlat (startsOf b.tab (32 * (b.nb + 1))) }

/-- A near-memory command record (08 R256). -/
structure NearRec where
  opc : Nat
  type : Nat
  count : Nat
  x : Nat
  y : Nat
  a : Nat
  b : Nat
  f : Nat
  deriving DecidableEq, Repr

/-- Read a command record. -/
def nearOf (r : List Byte) : NearRec :=
  ⟨recField r 0 1, recField r 1 1, recField r 4 4, recField r 8 8, recField r 16 8, recField r 24 4, recField r 28 4,
    recField r 32 4⟩

/-- The width of an element of the destination, and of X, in bytes (08 R256, R258). -/
def NearRec.yw (n : NearRec) : Nat := if n.type = 2 ∧ n.opc ≠ 1 ∧ n.opc ≠ 3 then 2 else 4
/-- See `NearRec.yw`. -/
def NearRec.xw (n : NearRec) : Nat := if n.type = 2 then 2 else 4

/-- The bytes of the destination and of X. -/
def NearRec.ylen (n : NearRec) : Nat := n.count * n.yw
/-- See `NearRec.ylen`. -/
def NearRec.xlen (n : NearRec) : Nat := if n.opc = 4 then 0 else n.count * n.xw

/-- The number of chunks of 256 bytes of the destination (08 R258). -/
def NearRec.chunks (n : NearRec) : Nat := (n.ylen + 255) / 256

/-- The checks of a command record at issue, raised for the near-memory command (08 R257). -/
def State.nearChecks (s : State) (a : Nat) : Verdict :=
  let r := s.recordAt a
  let n := nearOf r
  verdicts [s.recordAddr a,
    bar ((r.drop 2).take 2 |>.any (· != 0)) (cause 0 7 reservedC),
    bar (((r.drop 36).take 12).any (· != 0) || ((r.drop 56).take 8).any (· != 0) || (decide (n.opc = 4) && decide (n.x ≠ 0)))
      (cause 0 7 reservedC),
    bar (decide (n.opc = 0 ∨ 5 < n.opc ∨ (n.type ≠ 0 ∧ n.type ≠ 2 ∧ n.type ≠ 4) ∨ (n.opc = 1 ∧ n.type = 4)
      ∨ n.x % 64 ≠ 0 ∨ n.y % 64 ≠ 0 ∨ 0x4000000 < n.count)) (cause 0 7 rangeC)]

/-- CNMC (08 R256, R257). -/
def execCnmc (o : CRecOp) (s : State) : Host.Outcome State Fault Refusal :=
  let a := (s.rgValue o.kg o.rg).toNat
  s.perform (verdicts [s.copyRows o, s.nearChecks a]) fun s =>
    let r := s.recordAt a
    let n := nearOf r
    s.chosen.issueCopy o { s.newCopy .nmc o with
      record := r, recAddr := a, granules := n.chunks * (if n.opc = 4 then 4 else if n.opc = 5 then 8 else 12)
      reads := startsOf n.x n.xlen, writes := startsOf n.y n.ylen, ranges := [(a, a + 64, true)]
      virt := decide (n.count ≠ 0), zero := decide (n.count = 0)
      xlatAt := s.copyXlat (startsOf n.x n.xlen ++ startsOf n.y n.ylen)
      fault := s.copyBond [(n.y, n.ylen)] nearA }

/-- CWAIT: `chst` has reached the identifier in bits 47..0, as a full/empty source, and bits 63..48 are zero (08 R251, 02 R36 rows 4
and 7). -/
def execCwait (ch : BitVec 2) (kg : BitVec 1) (rg : BitVec 6) (s : State) : Host.Outcome State Fault Refusal :=
  let v := (s.rgValue kg rg).toNat
  s.perform (verdicts [s.bad0 (rgBad kg rg) rangeC, if kg = 1 then s.takeQ (rg.setWidth 5) else .ok,
      need (decide (v % 2 ^ 48 ≤ vAt s.me.chst ch.toNat)) (cause2 .copy emptyC), s.bad0 (decide (2 ^ 48 ≤ v)) rangeC]) fun s =>
    s.write 1 (if kg = 1 then [.qEmpty (rg.setWidth 5)] else [])

/-- CFENCE: no later command begins before every earlier one has completed (08 R250). -/
def execCfence (s : State) : Host.Outcome State Fault Refusal :=
  s.perform .ok fun s => (s.modMe fun c => { c with cfences := c.cfences + 1 }).advance

/-- CCONST: its register is the descriptor (08 R255). -/
def execCconst (o : CRecOp) (s : State) : Host.Outcome State Fault Refusal :=
  let v := s.rgValue o.kg o.rg
  let a := bits v 21 0
  let f := bits v 39 32
  let m := bits v 48 40
  let junk := bits v 31 22 ≠ 0 ∨ bits v 63 49 ≠ 0
  s.perform (verdicts [s.copyRows o, s.bad0 (decide (a % 4 ≠ 0)) alignC,
      s.bad0 (decide (junk ∨ m = 0 ∨ 256 < f + m ∨ 0x400000 < a + 4 * m)) rangeC]) fun s =>
    s.issueCopy o { s.newCopy .const o with
      recAddr := a, spans := [⟨a, f, m⟩], ranges := [(a, a + 4 * m, false)] }

end Sys2Proof.Machine
end

