-- ==== Sys2Proof/Machine/CopySend.lean ====
section
/-! DEFINITION. CSEND, CRECVB and CCOLL at issue (10 R313-R319, R332; 11 R353-R357). -/

namespace Sys2Proof.Machine

/-- Whether a landing is a fibre landing (01 R19). -/
def isFibre (l : Nat) : Bool := decide (128 ≤ l ∧ l ≤ 131)

/-- Whether a landing is a service landing (01 R19). -/
def isService (l : Nat) : Bool := decide (l < 128 ∧ l % 16 = 15)

/-- The tile of a tile landing. -/
def landingTile (l : Nat) : Nat := l / 16

/-- The launch of a context that holds its crossing program (10 R299). -/
def State.xingLaunch (s : State) (ctx : Nat) : Option Launch :=
  s.launches.find? fun l => l.ctx == ctx && l.xing.isSome &&
    (match l.stage with | .running | .preempting | .preempted | .resuming | .loading => true | _ => false)

/-- The issuing core belongs to the launch that holds its context's crossing program (10 R299). -/
def State.holdsXing (s : State) : Bool := match s.launchOf s.cur.core with
  | some l => l.xing.isSome
  | none => false

/-- Class 3, operation, send without live crossing (12 R381). -/
def sendC : Nat := cause 3 7 6
/-- Class 3, operation, settle or hour violation (12 R381). -/
def hourC : Nat := cause 3 7 7

/-- The cycles a landing takes for a number of granules: 0.32 each, rounded up (10 R318). -/
def sendCycles (g : Nat) : Nat := (8 * g + 24) / 25

/-- Whether `dayc` lies in a program portion for every rack time within the remaining correction (10 R330, R332). -/
def State.inProgram (s : State) : Bool :=
  let e := s.dayError.natAbs
  !s.expired && decide (3000 + e ≤ s.hourOff ∧ s.hourOff + e < 20000)

/-- Whether a transfer that leaves a landing by cycle `free` of the sequencer's count, now `count`, leaves it before the hour
ends (10 R330, R332). -/
def State.fitsHour (s : State) (count free : Nat) : Bool :=
  decide (210 * (s.hourOff + s.dayError.natAbs) + (free - count) * (840 / s.clock) < 210 * 20000)

/-- The record of a CSEND breaks R242 as R314 changes it. -/
def sendReserved (b : Box) (r : List Byte) : Bool :=
  decide (256 ≤ recField r 16 4) || decide (8192 ≤ b.peer) || decide (b.peer / 64 % 4 ≠ 0) || addrReserved b.sk b.src || decide (2 ^ 32 ≤ b.dst)
    || (decide (b.nd < 1) && (b.e.2.1 != 0 || b.ss.1 != 0 || b.ds.1 != 0))
    || (decide (b.nd < 2) && (b.e.2.2.1 != 0 || b.ss.2.1 != 0 || b.ds.2.1 != 0))
    || (decide (b.nd < 3) && (b.e.2.2.2 != 0 || b.ss.2.2 != 0 || b.ds.2.2 != 0))

/-- The range checks of a CSEND's record: R243 without the destination's range, which is an offset (10 R314). -/
def Box.sendRange (b : Box) (zr : Bool) : Bool :=
  decide (4 ≤ b.sk ∨ b.sk = 1 ∨ b.dk ≠ 0) || decide (0x1000000 < b.e.1)
    || decide (0xFFFF < b.e.2.1 ∨ 0xFFFF < b.e.2.2.1 ∨ 0xFFFF < b.e.2.2.2)
    || (zr && (decide (b.src % 64 ≠ 0 ∨ b.dst % 64 ≠ 0 ∨ b.e.1 % 64 ≠ 0)
        || [b.ss.1, b.ss.2.1, b.ss.2.2, b.ds.1, b.ds.2.1, b.ds.2.2].any fun x => x % 64 != 0))
    || (!b.isZero &&
      ((b.sk == 0 && b.rows.any fun r => !inStore r.1 b.ext.1) || (b.sk == 3 && b.total != 4096)
        || (b.sk == 2 && decide (1024 < (blocksIn (b.rows.map fun r => (va64 r.1, b.ext.1))).length))))

/-- A copy command of a core by number. -/
def Core.copy? (c : Core) (id : Nat) : Option CopyCmd := c.copies.find? (·.id == id)

/-- S(k) of R318 for a CSEND of core `q` on a handle whose Free is `free`, on the sequencer's count `count`. -/
def Core.sendStart (q : Core) (k : CopyCmd) (count free : Nat) : Nat := max (count + (q.readyOf k - q.time)) free

/-- Free(h) over every CSEND accepted on a handle, those not yet scheduled too (10 R318, R332). -/
def State.freeOf (s : State) (x : Handle) (count : Nat) : Nat :=
  x.sends.foldl (fun free q => match (s.core q.1).copy? q.2 with
    | some k => if k.arriveAt = 0 ∧ !k.zero then (s.core q.1).sendStart k count free + sendCycles k.granules else free
    | none => free) x.free

/-- The handle checks of a CSEND `k`, in the order of R314. -/
def State.sendChecks (s : State) (h : Nat) (k : CopyCmd) : Verdict :=
  let x := s.handle h
  let count := match s.launchOf s.cur.core with | some l => l.count | none => 0
  let fibre := x.dsts.any isFibre
  verdicts [s.bad0 (x.owner != some (s.ctxOf s.cur.core)) rangeC,
    bar (x.st == .free) sendC,
    s.bad0 (isFibre x.src || landingTile x.src != tileOf s.cur.core) rangeC,
    bar (!s.holdsXing || (match x.st with | .windowed | .draining | .lost => true | _ => false)) sendC,
    need (x.st == .live) sendC,
    bar (fibre && !(s.inProgram && s.fitsHour count (s.me.sendStart k count (s.freeOf x count) + sendCycles k.granules))) hourC]

/-- The trap of a CSEND names the crossing sequencer and the handle (12 R376), and a send refused or an hour broken is an event of the landing's
tile as well (10 R327). -/
def State.performH (s : State) (h : Nat) (v : Verdict) (eff : State → State) : Host.Outcome State Fault Refusal :=
  let t := fun code => { s.info code with engine := if causeClass code = 3 then 4 else 3, unit := if causeClass code = 3 then h else 0 }
  let bad := fun code => if causeClass code = 3 then (s.faultWith (t code)).postSup code (s.handle h).src 0 else s.faultWith (t code)
  match v with
  | .ok => .next (eff s)
  | .wait code => if s.stalls then .next s else .next (bad code)
  | .fault code => .next (bad code)

/-- The command of a CSEND: the box of its record, its destinations being offsets in a binding (10 R314). -/
def State.sendCopy (s : State) (o : CRecOp) (a h : Nat) (nt : Bool) : CopyCmd :=
  let b := boxOf (s.recordAt a)
  let k := s.boxCopy o a nt
  { k with
    kind := .send, dk := 4, peer := 0, writes := [], fault := none, handle := h, granules := (b.total + 63) / 64
    tiles := k.tiles.filter (!·.2), ranges := boxRanges s.cur.core { b with dk := 4 } k.spans, virt := !b.isZero && b.sk == 2, left := (s.handle h).dsts
    xlatAt := s.copyXlat k.reads
    spans := (b.rows.zipIdx).map fun y =>
      { src := if b.sk = 2 then va64 y.1.1 else if b.sk = 3 then y.2 * b.ext.1 else y.1.1.toNat
        dst := va64 y.1.2, len := b.ext.1 } }

/-- CSEND (10 R313, R314, R317, R318). -/
def execCsend (o : CRecOp) (zr nt : BitVec 1) (hd : BitVec 6) (s : State) : Host.Outcome State Fault Refusal :=
  let a := (s.rgValue o.kg o.rg).toNat
  let r := s.recordAt a
  let b := boxOf r
  let h := hd.toNat
  s.performH h (verdicts [s.copyRows o, s.recordAddr a, s.bad0 (sendReserved b r) reservedC,
      s.bad0 (b.sendRange (zr == 1)) rangeC,
      s.sendChecks h (s.sendCopy o a h (nt == 1)),
      if b.isZero then .ok else s.tileStates b.sk (b.src % 16) 0 0]) fun s =>
    let k := s.sendCopy o a h (nt == 1)
    (s.chosen.issueCopy o k).modHandle h fun x => { x with sends := x.sends ++ [(s.cur.core, k.id)] }

/-- A receive record (10 R315). -/
structure RecvRec where
  dst : Nat
  dk : Nat
  peer : Nat
  len : Nat
  exp : Nat
  srcpk : Nat
  deriving DecidableEq, Repr

/-- Read a receive record. -/
def recvOf (r : List Byte) : RecvRec :=
  ⟨recField r 0 8, recField r 8 4 % 8, recField r 12 4, recField r 16 4, recField r 20 4, recField r 24 1⟩

/-- The queue of bindings of a handle's destination landing (10 R316). One that was issued while the handle was free waits at its tile's. -/
def State.bindingsAt (s : State) (h dl : Nat) : List (Nat × Nat) :=
  (s.handle h).bindings.filter fun b => tileOf b.1 == landingTile dl && (match (s.core b.1).copy? b.2 with
    | some k => k.left.isEmpty || k.left == [dl]
    | none => false)

/-- The destination landing of a handle whose queue a CRECVB of a tile joins: the one with the fewest bindings, the lowest of equals
(DESIGN CHOICE, notes/assumptions/33.md: a CRECVB names no landing). -/
def State.queueFor (s : State) (h tile : Nat) : Option Nat :=
  minBy? (fun l => (s.bindingsAt h l).length) ((s.handle h).dsts.filter fun l => !isFibre l && landingTile l == tile)

/-- The length of the queue that a CRECVB of a tile joins. -/
def State.queued (s : State) (h tile : Nat) : Nat := (s.bindingsAt h ((s.queueFor h tile).getD (16 * tile))).length

/-- The command of a receive record at `a`, for the queues `left` (10 R315, R316). With EXP 0 nothing is written, so that no bond keeps it. -/
def State.recvCopy (s : State) (o : CRecOp) (a h : Nat) (left : List Nat) : CopyCmd :=
  let r := s.recordAt a
  let v := recvOf r
  let zero := v.exp == 0
  let peer := coreOfWord v.peer
  let own := v.dk == 0 || (v.dk == 1 && peer == some s.cur.core)
  { s.newCopy .recv o with
    record := r, recAddr := a, handle := h, dk := v.dk, peer := peer.getD 0, zero := zero, left := left
    writes := if v.dk = 2 ∧ !zero then startsOf v.dst v.len else []
    ranges := if own && !zero then [(v.dst, v.dst + v.len, true)] else []
    tiles := if v.dk = 3 ∧ !zero then [(v.dst % 16, true)] else []
    virt := v.dk == 2 && !zero, xlatAt := s.copyXlat (startsOf v.dst v.len)
    fault := if v.dk = 2 ∧ !zero then s.copyBond [(v.dst, v.len)] copyWriteA else none }

/-- The local store slots that a command writes in one core, every row of a box and every byte of a binding counted (07 R217, 08 R237). -/
def CopyCmd.boxSlots (k : CopyCmd) : List Nat :=
  let sp := if k.kind = .ragged then (boxOf k.record).spans
    else if k.kind = .recv then [⟨0, (recvOf k.record).dst, (recvOf k.record).len⟩] else k.spans
  if k.dk < 2 then (sp.flatMap fun x => slotsIn x.dst x.len).foldl addOnce [] else []

/-- CRECVB (10 R313, R315, R316). -/
def execCrecvb (o : CRecOp) (hd : BitVec 6) (s : State) : Host.Outcome State Fault Refusal :=
  let a := (s.rgValue o.kg o.rg).toNat
  let r := s.recordAt a
  let v := recvOf r
  let h := hd.toNat
  let x := s.handle h
  let me := tileOf s.cur.core
  let peer := coreOfWord v.peer
  s.performH h (verdicts [s.copyRows o, s.recordAddr a,
      s.bad0 (decide (8 ≤ recField r 8 4 ∨ 8192 ≤ v.peer ∨ v.peer / 64 % 4 ≠ 0) || (r.drop 25).any (· != 0) || addrReserved v.dk v.dst) reservedC,
      s.bad0 (decide (4 ≤ v.dk ∨ v.len = 0 ∨ 0x1000000 < v.len ∨ v.len < v.exp ∨ (v.dk = 3 ∧ v.len ≠ 4096))
        || (v.dk == 1 && !(match peer with | some c => s.inLaunch c && tileOf c == me | none => false))
        || (decide (v.dk < 2) && !inStore v.dst v.len)
        || (v.dk == 2 && decide (1024 < (blocksOf v.dst v.len).length))) rangeC,
      s.bad0 (x.owner != some (s.ctxOf s.cur.core) || (x.st != .free && !x.dsts.any fun l => !isFibre l && landingTile l == me)) rangeC,
      bar (!s.holdsXing) sendC,
      need (decide (s.queued h me < 4) || v.exp == 0) (cause2 .copy fullC),
      if v.dk = 3 ∧ v.exp ≠ 0 then s.freeT (BitVec.ofNat 4 v.dst) else .ok]) fun s =>
    let k := s.recvCopy o a h (if x.st = .free then [] else (s.queueFor h me).toList)
    (s.chosen.issueCopy o k).modHandle h fun x =>
      if v.exp = 0 then x else { x with bindings := x.bindings ++ [(s.cur.core, k.id)] }

/-! ## CCOLL -/

/-- A collective record (11 R354). -/
structure CollRec where
  opc : Nat
  type : Nat
  team : Nat
  npk : Nat
  srcl : Nat
  dstl : Nat
  d0 : Nat
  d1 : Nat
  src : Nat
  dst : Nat
  deadline : Nat
  pkl : List Nat
  deriving DecidableEq, Repr

/-- Read a collective record. -/
def collOf (r : List Byte) : CollRec :=
  { opc := recField r 0 1, type := recField r 1 1, team := recField r 2 1, npk := recField r 3 1, srcl := recField r 4 2
    dstl := recField r 6 2, d0 := recField r 8 4, d1 := recField r 12 4, src := recField r 16 8, dst := recField r 24 8
    deadline := recField r 32 8, pkl := (r.drop 48).map (·.toNat) }

/-- The layout code of axis 0 (X), 1 (Y) or 2 (P) (11 R354). -/
def layoutOf (l ax : Nat) : Nat := l / 4 ^ ax % 4

/-- The sizes of the axes X, Y and P (11 R355). -/
def CollRec.axes (c : CollRec) (t : Nat × Nat × Nat × Nat) : List Nat := [t.2.2.1, t.2.2.2, c.npk + 1]

/-- The product of the sizes of the axes that shard a dimension, 2 for rows and 3 for columns (11 R355). -/
def shardCount (l code : Nat) (axes : List Nat) : Nat :=
  (axes.zipIdx.map fun a => if layoutOf l a.2 = code then a.1 else 1).foldl (· * ·) 1

/-- The width of a collective's elements in bits. -/
def CollRec.width (c : CollRec) : Nat := match ElemType.ofCode c.type with
  | some t => t.width
  | none => 8

/-- The rows and columns of a shard (11 R355). -/
def CollRec.shard (c : CollRec) (l : Nat) (axes : List Nat) : Nat × Nat :=
  (c.d0 / shardCount l 2 axes, c.d1 / shardCount l 3 axes)

/-- The bytes of a shard (11 R355). -/
def CollRec.shardLen (c : CollRec) (l : Nat) (axes : List Nat) : Nat :=
  ((c.shard l axes).1 * (c.shard l axes).2 * c.width + 7) / 8

/-- The pairs of bits of a layout field that no axis uses (11 R354, R356). -/
def unusedPairs (l : Nat) : List Nat := (List.range 5).map fun i => layoutOf l (i + 3)

/-- The range checks of a collective record (11 R354-R356). -/
def CollRec.outOfRange (c : CollRec) (team : Option (Nat × Nat × Nat × Nat)) : Bool :=
  let axes := c.axes (team.getD (0, 0, 1, 1))
  let codes := fun l => [layoutOf l 0, layoutOf l 1, layoutOf l 2]
  team.isNone || [c.srcl, c.dstl].any (fun l => (unusedPairs l).contains 3) || decide (c.opc = 0 ∨ 4 < c.opc) || (c.opc == 4 && decide (10 < c.type))
    || (c.opc != 4 && decide (c.type ≠ 0 ∧ c.type ≠ 2 ∧ c.type ≠ 4))
    || decide (c.d0 = 0 ∨ 2 ^ 24 < c.d0 ∨ c.d1 = 0 ∨ 2 ^ 24 < c.d1 ∨ c.src % 64 ≠ 0 ∨ c.dst % 64 ≠ 0)
    || (c.opc == 4 && (codes c.srcl).contains 1)
    || [2, 3].any (fun d => [c.srcl, c.dstl].any fun l =>
        decide ((if d = 2 then c.d0 else c.d1) % shardCount l d axes ≠ 0))

/-- The reserved bits of a collective record (11 R354); 0b11 in the unused bits of a layout is a matter of range (R356). -/
def CollRec.reserved (c : CollRec) : Bool :=
  decide (16 ≤ c.npk ∨ 128 ≤ c.team ∨ 2 ^ 48 ≤ c.src ∨ 2 ^ 48 ≤ c.dst)
    || [c.srcl, c.dstl].any (fun l => (unusedPairs l).any fun p => p == 1 || p == 2)
    || (c.pkl.drop (c.npk + 1)).any (· != 0)

/-- CCOLL (11 R353-R357). -/
def execCcoll (o : CRecOp) (s : State) : Host.Outcome State Fault Refusal :=
  let a := (s.rgValue o.kg o.rg).toNat
  let r := s.recordAt a
  let c := collOf r
  let team := (s.launchOf s.cur.core).bind fun l => l.team s.cur.core c.team
  s.perform (verdicts [s.copyRows o, s.recordAddr a, s.bad0 c.reserved reservedC, s.bad0 (c.outOfRange team) rangeC]) fun s =>
    let axes := c.axes (team.getD (0, 0, 1, 1))
    s.chosen.issueCopy o { s.newCopy .coll o with
      record := r, recAddr := a, reads := startsOf c.src (c.shardLen c.srcl axes), writes := startsOf c.dst (c.shardLen c.dstl axes)
      spans := [⟨c.src, 0, c.shardLen c.srcl axes⟩, ⟨0, c.dst, c.shardLen c.dstl axes⟩], ranges := [(a, a + 64, true)], virt := true
      xlatAt := s.copyXlat (startsOf c.src (c.shardLen c.srcl axes) ++ startsOf c.dst (c.shardLen c.dstl axes))
      fault := s.copyBond [(c.dst, c.shardLen c.dstl axes)] copyWriteA }

end Sys2Proof.Machine
end

