-- ==== Sys2Proof/Machine/VecOps.lean ====
section
/-! DEFINITION. What the vector words share: the format table, types, operands, masks, rounding, checks and results
(03 R74-R78, 04 R104, R114, R119-R121, 06 R174-R180). -/

namespace Sys2Proof.Machine

/-- The table that an effect writes. -/
def Eff.table? : Eff → Option (List (BitVec 32))
  | .fmt x => some x
  | _ => none

/-- The format table as a stream of the core reads it: a plain register (02 R34, 03 R83). -/
def Core.fmtOf (c : Core) (st : Stream) : Vector (BitVec 32) 16 := match c.overlay st Eff.table? with
  | some x => Vector.ofFn fun i => x.getD i.val 0
  | none => c.fmt

/-- The current format-table entry of a stream: index lc1 mod 16 (04 R121). -/
def Core.fmtEntry (c : Core) (st : Stream) (x : StreamSt) : BitVec 32 := vAt (c.fmtOf st) x.lc1.toNat

/-- The issuing stream's current entry. -/
def State.entry (s : State) : BitVec 32 := s.me.fmtEntry s.cur.st s.mine

/-- The element type of an entry (04 R119). -/
def entryType (e : BitVec 32) : Option ElemType := ElemType.ofCode (e.toNat % 16)

/-- The element type of the field T (03 R76). -/
def State.vtype (s : State) (t : BitVec 3) : Option ElemType :=
  if t = 7 then entryType s.entry else ElemType.ofCode t.toNat

/-- The elements of a type in a vector register (03 R76). -/
def ElemType.count (t : ElemType) : Nat := 4096 / t.width

/-- Class F (06 R175). -/
def isF : ElemType → Bool
  | .fp32 | .fp64 | .bf16 | .fp16 => true
  | _ => false
/-- Class F3. -/
def isF3 : ElemType → Bool
  | .fp32 | .bf16 | .fp16 => true
  | _ => false
/-- Class I. -/
def isI (t : ElemType) : Bool := t.isInt
/-- Classes F and I. -/
def isFI (t : ElemType) : Bool := isF t || t.isInt
/-- Class X. -/
def isX (t : ElemType) : Bool := isFI t || t == .e4m3 || t == .e5m2

/-- Element `e` of width `w` of a register of bits (06 R174). -/
def elemAt {n : Nat} (v : BitVec n) (w e : Nat) : Nat := (v.toNat >>> (w * e)) % 2 ^ w

/-- The bits of a list of elements, each a number and a value. -/
def packElems (w : Nat) (l : List (Nat × Nat)) : BitVec 4096 :=
  BitVec.ofNat 4096 (l.foldl (fun acc x => acc ||| (x.2 % 2 ^ w) <<< (w * x.1)) 0)

/-- The bits that a list of elements covers. -/
def coverElems (w : Nat) (l : List (Nat × Nat)) : BitVec 4096 :=
  BitVec.ofNat 4096 (l.foldl (fun acc x => acc ||| (2 ^ w - 1) <<< (w * x.1)) 0)

/-- Whether a lane mask governs element `e` of `n` (03 R78). -/
def governs (k : BitVec 128) (n e : Nat) : Bool := k.getLsbD (e * 128 / n)

/-- A lane mask as a word reads it; k0 governs all lanes (03 R78). -/
def State.mask (s : State) (mk : BitVec 4) : BitVec 128 := if mk = 0 then BitVec.allOnes 128 else vGet mk s.me.kregs

/-- A vector register (06 R174). -/
def State.vr (s : State) (r : BitVec 6) : BitVec 4096 := vGet r s.me.vregs

/-- The elements that a mask governs. -/
def State.governed (s : State) (mk : BitVec 4) (n : Nat) : List Nat := (List.range n).filter (governs (s.mask mk) n)

/-- A subnormal BF16 or FP16 element read as a zero of its sign (04 R104). -/
def flushElem (t : ElemType) (b : Nat) : Nat :=
  let f := t.ffmt
  if (b >>> f.man) % 2 ^ f.ebits = 0 then b / 2 ^ (f.man + f.ebits) * 2 ^ (f.man + f.ebits) else b

/-- Whether a word with field T flushes sources of type `src` (04 R104). The moves and the bit operations, which copy patterns, flush nothing
(DEDUCED, notes/assumptions/55.md). -/
def State.flushes (s : State) (t : BitVec 3) (src : ElemType) : Bool :=
  let half := fun (x : ElemType) => x == .bf16 || x == .fp16
  t == 7 && s.entry.getLsbD 9 && (match entryType s.entry with | some e => half e | none => false) && half src

/-- An operand's element before any flush (03 R75, 06 R177). Of a word of the constant bank an INT64 element takes the 32 bits and zeros above them
(DESIGN CHOICE, notes/assumptions/56.md). -/
def State.rawSrc (s : State) (k : BitVec 2) (a : BitVec 8) (t : ElemType) (e : Nat) : Nat :=
  if k = 0 then elemAt (s.vr (a.setWidth 6)) t.width e
  else if k = 1 then (s.me.sreg .vector (a.setWidth 6)).toNat % 2 ^ t.width
  else if k = 2 then
    let w := (s.me.constWord a.toNat).toNat
    if t.isInt then w % 2 ^ t.width else convert .fp32 t .rne false w
  else if t.isInt then (a.toInt % (2 ^ t.width : Int)).toNat else convert .e4m3 t .rne false a.toNat

/-- An operand's element, flushed when the word flushes (06 R177). -/
def State.src (s : State) (fl : Bool) (k : BitVec 2) (a : BitVec 8) (t : ElemType) (e : Nat) : Nat :=
  if fl then flushElem t (s.rawSrc k a t e) else s.rawSrc k a t e

/-- The random value of stochastic rounding (04 R114). -/
def srBits (seed : Word) (i n : Nat) : Nat :=
  let z : Word := seed ^^^ (BitVec.ofNat 64 i * 0x9E3779B97F4A7C15#64) ^^^ (BitVec.ofNat 64 n * 0xD1B54A32D192ED03#64)
  let z : Word := (z ^^^ (z >>> 30)) * 0xBF58476D1CE4E5B9#64
  let z : Word := (z ^^^ (z >>> 27)) * 0x94D049BB133111EB#64
  let z : Word := z ^^^ (z >>> 31)
  z.toNat >>> 32

/-- The rounding of the field RM for the rounding of index `i` of the issuing word (03 R77, 04 R114, R121). -/
def State.rmode (s : State) (rm : BitVec 3) (i : Nat) : RMode :=
  match if rm = 5 then bits (s.entry.setWidth 64) 8 6 else rm.toNat with
  | 0 => .rne
  | 1 => .rtz
  | 2 => .rup
  | 3 => .rdn
  | _ => .sto (srBits s.me.seed i s.mine.step)

/-- The mode RDN, for the sign of an exact zero sum (04 R102). -/
def RMode.down : RMode → Bool
  | .rdn => true
  | _ => false

/-- An RM that the word may not carry (03 R77). -/
def rmBad (rm : BitVec 3) (intTyped : Bool) : Bool := decide (6 ≤ rm.toNat) || (intTyped && rm != 0)

/-- A register field out of range for its kind (03 R75). -/
def srcBad (k : BitVec 2) (a : BitVec 8) : Bool := decide (k.toNat < 2 ∧ 64 ≤ a.toNat)

/-- The checks of R178 in order: the type and its class, register fields, RM and SAT; `own` holds the instruction's own
operand-range conditions. A word counts as integer-typed, and must carry RM = 0, by its element type alone: R77 leaves open whether a word of
a floating type in which nothing is rounded is integer-typed (DESIGN CHOICE, notes/assumptions/37.md). -/
def State.vchecks (s : State) (t : BitVec 3) (cls : ElemType → Bool) (regs : Bool) (rm : BitVec 3) (sat satOk : Bool)
    (own : Bool) : Verdict :=
  let f := s.vtype t
  verdicts [s.bad0 (match f with | some f => !cls f | none => true) rangeC, s.bad0 regs rangeC,
    s.bad0 (rmBad rm ((f.getD .fp32).isInt) || (sat && !satOk)) rangeC, s.bad0 own rangeC]

/-- The resolved type of a word that has passed its checks. -/
def State.vt (s : State) (t : BitVec 3) : ElemType := (s.vtype t).getD .fp32

/-- The containers of 32 bits that element `e` of width `w` stands in. -/
def containersOf (w e : Nat) : List Nat := if w = 64 then [2 * e, 2 * e + 1] else [w * e / 32]

/-- A vector operand has a container, among those of the elements, whose stored residue does not match (13 R389). -/
def State.badIn (s : State) (k : BitVec 2) (a : BitVec 8) (w : Nat) (es : List Nat) : Bool :=
  k == 0 && es.any fun e => (containersOf w e).any fun i => s.me.vBad.contains (128 * (a.setWidth 6).toNat + i)

/-- The containers into which a word that moves elements copies one whose residue does not match: for each element written, the operand and the
element that it comes from (13 R389; DEDUCED, notes/assumptions/54.md). -/
def State.spoilt (s : State) (w : Nat) (l : List (Nat × BitVec 2 × BitVec 8 × Nat)) : List Nat :=
  (l.filter fun x => s.badIn x.2.1 x.2.2.1 w [x.2.2.2]).flatMap fun x => containersOf w x.1

/-- A word that a residue covers reads a container whose stored residue does not match: its result's own will not (04 R132, 13 R389). -/
def State.mismatch (s : State) (hit : Bool) : State :=
  if hit then s.modMe fun c => { c with residueBad := addOnce c.residueBad s.mine.step } else s

/-- Put results in flight that a residue covers (04 R131), with the bad residues that they copy. -/
def State.emitChecked (s : State) (lat : Nat) (covered : Bool) (effs : List Eff) (sp : List Nat) : State :=
  s.modMe fun c => { c with flights := c.flights ++ effs.map fun e => { s.flight lat e with checked := covered, spoilt := sp } }

/-- A vector word's results: in flight at latency `lat`, the unit busy for `occ` cycles (06 R179, R180). -/
def State.vdone (s : State) (lat occ : Nat) (covered : Bool) (effs : List Eff) (sp : List Nat := []) : State :=
  ((s.emitChecked lat covered effs sp).modMe fun c => { c with vbusy := s.cyc + occ }).advance

/-- The write of elements of a vector register; the others keep their values (06 R176). -/
def velems (vd : BitVec 6) (w : Nat) (l : List (Nat × Nat)) : Eff := .v vd (coverElems w l) (packElems w l)

end Sys2Proof.Machine
end

