-- ==== Sys2Proof/Machine/Shapes.lean ====
section
/-! DEFINITION. Shape records, slots and their generations, windows and valid rows (07 R195-R207). -/

namespace Sys2Proof.Machine

/-- The number in bytes `o` to `o + n - 1` of a record. -/
def field (r : List Byte) (o n : Nat) : Nat := ofBytes ((r.drop o).take n)

/-- A shape record's fields (07 R196). -/
structure Shape where
  etype : Nat
  fault : Bool
  policy : Nat
  gen : Nat
  rows : Nat
  cols : Nat
  nseg : Nat
  tbl : Nat
  bounds : List Nat
  deriving DecidableEq, Repr

/-- The generation that a buffer holds. -/
def ShapeBuf.shape (b : ShapeBuf) : Shape :=
  let w := field b.record 0 4
  { etype := w % 16, fault := w.testBit 4, policy := w / 32 % 4, gen := field b.record 4 4, rows := field b.record 8 4
    cols := field b.record 12 4, nseg := field b.record 16 4, tbl := field b.record 20 4, bounds := b.bounds }

/-- The buffer of a slot in a state. -/
def ShapeSlot.inState (z : ShapeSlot) (st : BufState) : Option ShapeBuf :=
  if z.b0.st = st then some z.b0 else if z.b1.st = st then some z.b1 else none

/-- Change the first buffer of a slot in a state. -/
def ShapeSlot.mod (z : ShapeSlot) (st : BufState) (f : ShapeBuf → ShapeBuf) : ShapeSlot :=
  if z.b0.st = st then { z with b0 := f z.b0 } else if z.b1.st = st then { z with b1 := f z.b1 } else z

/-- Change the buffer of a number of a slot. -/
def ShapeSlot.modBuf (z : ShapeSlot) (i : Nat) (f : ShapeBuf → ShapeBuf) : ShapeSlot :=
  if i = 0 then { z with b0 := f z.b0 } else { z with b1 := f z.b1 }

/-- The buffer of a number of a slot. -/
def ShapeSlot.buf (z : ShapeSlot) (i : Nat) : ShapeBuf := if i = 0 then z.b0 else z.b1

/-- The free buffer that a load takes: its number (07 R198, R200). -/
def ShapeSlot.freeBuf (z : ShapeSlot) : Nat := if z.b0.st = .free then 0 else 1

/-- A load is cancelled, and will land without checks and without effect (07 R201). -/
def ShapeBuf.cancel (b : ShapeBuf) : ShapeBuf := if b.st = .loading then { b with record := [] } else b

/-- A slot of a core. -/
def Core.slot (c : Core) (z : Nat) : ShapeSlot := vAt c.shapes z

/-- Change a slot of a core. -/
def Core.modSlot (c : Core) (z : Nat) (f : ShapeSlot → ShapeSlot) : Core := { c with shapes := vPut c.shapes z (f (c.slot z)) }

/-- The current generation of a slot, `none` when the slot is unloaded (07 R198). -/
def Core.shape? (c : Core) (z : Nat) : Option Shape := ((c.slot z).inState .current).map (·.shape)

/-- A buffer that is no longer current: draining while a word uses it, else free (07 R198, R199). -/
def ShapeBuf.supersede (b : ShapeBuf) : ShapeBuf := if b.users.isEmpty then {} else { b with st := .draining }

/-- A word of a stream, or a copy command, is bound to the current generation of a slot (07 R202). -/
def Core.bindTo (c : Core) (z : Nat) (u : Stream × Nat) : Core :=
  c.modSlot z fun s => s.mod .current fun b => { b with users := b.users ++ [u] }

/-- A bound word has completed; a draining buffer that nothing uses is free (07 R198, R202). -/
def Core.unbind (c : Core) (u : Stream × Nat) : Core :=
  let f := fun (b : ShapeBuf) =>
    let b := { b with users := b.users.filter (· != u) }
    if b.st = .draining ∧ b.users.isEmpty then {} else b
  { c with shapes := c.shapes.map fun s => { b0 := f s.b0, b1 := f s.b1 } }

/-- The issuing word is bound to a slot until its result lands (07 R202). -/
def State.bindWord (s : State) (z : Nat) : State := s.modMe fun c => c.bindTo z (s.cur.st, s.mine.step)

/-! ## Loading -/

/-- The words of the boundary table that a record gives, when it lies in the local store (07 R196). -/
def readBounds (m : Memory) (r : List Byte) : List Nat :=
  let n := field r 16 4
  let t := field r 20 4
  if n ≤ 4096 ∧ t + 4 * (n + 1) ≤ 0x400000 then (List.range (n + 1)).map fun i => memRead m (t + 4 * i) 4 else []

/-- Boundaries rise, strictly under REJECT (07 R197). -/
def boundsRise (strict : Bool) : List Nat → Bool
  | a :: b :: t => (if strict then decide (a < b) else decide (a ≤ b)) && boundsRise strict (b :: t)
  | _ => true

/-- The check of a loaded record: the condition it breaks (07 R197). -/
def Shape.check (x : Shape) (r : List Byte) : Option Nat :=
  if 128 ≤ field r 0 4 ∨ (r.drop 24).any (· != 0) ∨ x.policy = 3 then some reservedC
  else if x.etype = 15 ∨ 0x7FFFFFFF < x.rows ∨ x.cols = 0 ∨ 65535 < x.cols ∨ x.nseg = 0 ∨ 4096 < x.nseg ∨ x.tbl % 4 ≠ 0
      ∨ 0x400000 < x.tbl + 4 * (x.nseg + 1) ∨ x.bounds.head? ≠ some 0 ∨ x.bounds.getLast? ≠ some x.rows
      ∨ !boundsRise (x.policy == 2) x.bounds then some rangeC
  else none

/-- A slot field of a helm word, 0 to 7 (02 R442). -/
def State.slotField (s : State) (z : SReg) : Verdict := s.bad0 (decide (8 ≤ z.toNat)) rangeC

/-- SHLD: a load into a free buffer, read at its issue, which the spec leaves to any cycle up to issue + 263 (07 R199, R200;
DESIGN CHOICE, notes/assumptions/5.md). -/
def execShld (z ra : SReg) (s : State) : Host.Outcome State Fault Refusal :=
  let a := (s.sr ra).toNat
  let n := z.toNat
  let r := memBytes s.me.ls a 64
  let tlen := if field r 16 4 ≤ 4096 then 4 * (field r 16 4 + 1) else 0
  let busy := ((s.me.slot n).inState .free).isNone
  s.perform (verdicts [s.slotField z, need (!busy) (cause2 .helm fullC), s.noPhase,
      s.bad0 (decide (a % 64 ≠ 0)) alignC, s.bad0 (decide (0x3FFFC0 ≤ a)) rangeC,
      bar (s.me.poisoned a 64 || s.me.poisoned (field r 20 4) tlen) (cause 5 0 1)]) fun s =>
    (s.modMe fun c => c.modSlot n fun sl => sl.mod .free fun _ =>
      { st := .loading, record := r, bounds := readBounds c.ls r }).write 264 [.shape (n + 16 * (s.me.slot n).freeBuf)]

/-- SHINV: the slot is unloaded at the end of the issue cycle; a load in flight is cancelled (07 R201). A word of another
stream in the same cycle still binds: the helm issues first, so the change takes effect through a result in flight. -/
def execShinv (z : SReg) (s : State) : Host.Outcome State Fault Refusal :=
  s.perform (verdicts [s.slotField z, s.noPhase]) fun s => s.write 1 [.shape (8 + z.toNat)]

/-- What a landed shape effect does: number z + 16 b lands the load of buffer b of slot z, number 8 + z invalidates slot z
(07 R199, R201). A load whose check fails leaves its slot and is to raise its fault in the next cycle. -/
def Core.landShape (c : Core) (n : Nat) : Core × Option Nat :=
  if 8 ≤ n % 16 then
    (c.modSlot (n % 16 - 8) fun s =>
      let s := s.mod .current ShapeBuf.supersede
      { b0 := s.b0.cancel, b1 := s.b1.cancel }, none)
  else
    let z := n % 16
    let i := n / 16
    let b := (c.slot z).buf i
    if b.st ≠ .loading then (c, none)
    else if b.record.isEmpty then (c.modSlot z fun s => s.modBuf i fun _ => {}, none)
    else match b.shape.check b.record with
      | some k => (c.modSlot z fun s => s.modBuf i fun _ => {}, some (cause0 .helm k))
      | none => (c.modSlot z fun s =>
          (s.mod .current ShapeBuf.supersede).modBuf i fun b => { b with st := .current }, none)

/-- SHAPE_LOAD_LANDING: the shape loads and invalidations of a core that land at the end of this cycle (07 R199). -/
def State.shapeDue (s : State) (c : Nat) : Bool :=
  !(s.core c).held && (s.core c).flights.any fun f => !f.arrived && f.due == (s.core c).time && (match f.eff with | .shape _ => true | _ => false)

/-- See `State.shapeDue`. -/
def execShapeLoadLanding (s : State) : Host.Outcome State Fault Refusal :=
  let c := s.on.a
  let k := s.core c
  let isDue := fun (f : Flight) => !f.arrived && f.due == k.time && (match f.eff with | .shape _ => true | _ => false)
  if !s.shapeDue c then .fault .eventNotDue
  else .next <| s.setCore c <| (k.flights.filter isDue).foldl (fun (k : Core) f => match f.eff with
    | .shape n =>
      let r := k.landShape n
      match r.2 with
      | none => r.1
      | some code => { r.1 with flights := r.1.flights ++ [{ f with due := f.due + 1, eff := .raise code }] }
    | _ => k) { k with flights := k.flights.filter fun f => !isDue f }

/-! ## Windows -/

/-- The window origin of a word that names slot `z` (07 R203). -/
def State.origin (s : State) (z : Nat) : Nat :=
  let w := s.me.sreg s.cur.st (BitVec.ofNat 6 (56 + z))
  bits w 31 0 + bits w 63 32 * s.mine.lc0.toNat

/-- The segment that holds row `r`, below ROWS (07 R195). -/
def Shape.segOf (x : Shape) (r : Nat) : Option Nat :=
  (List.range x.nseg).find? fun j => decide (x.bounds.getD j 0 ≤ r ∧ r < x.bounds.getD (j + 1) 0)

/-- A row below ROWS and below the valid count (07 R204, first part). -/
def Shape.rowIn (x : Shape) (vc r : Nat) : Bool := decide (r < x.rows ∧ r < vc)

/-- The rows of a window, and the segment of its first valid row (07 R206). -/
def Shape.firstSeg (x : Shape) (vc o n : Nat) : Option Nat :=
  ((List.range n).find? fun e => x.rowIn vc (o + e)).bind fun e => x.segOf (o + e)

/-- Whether the valid rows of a window lie in more than one segment (07 R206). -/
def Shape.straddles (x : Shape) (vc o n : Nat) : Bool := match x.firstSeg vc o n with
  | none => false
  | some j => (List.range n).any fun e => x.rowIn vc (o + e) && x.segOf (o + e) != some j

/-- Whether row `o + e` is valid for a word that clips: in the segment of the window's first valid row (07 R204, R206). -/
def Shape.validClip (x : Shape) (vc o n e : Nat) : Bool :=
  x.rowIn vc (o + e) && x.segOf (o + e) == x.firstSeg vc o n

/-- The segments of a window (07 R207). -/
def Shape.segments (x : Shape) (o n : Nat) : List Nat :=
  (List.range x.nseg).filter fun j =>
    let b := x.bounds.getD j 0
    let e := x.bounds.getD (j + 1) 0
    decide ((b < o + n ∧ o < e) ∨ (b = e ∧ o ≤ b ∧ b < o + n))

end Sys2Proof.Machine
end

