-- ==== Sys2Proof/Machine/Phase.lean ====
section
/-! DEFINITION. Phases: PHASEB, PHASEC, cancellation and the rerun (13 R393-R398). -/

namespace Sys2Proof.Machine

/-- A phase descriptor's fields (13 R393). -/
structure PhaseDesc where
  buf0 : Nat
  buf1 : Nat
  blen : Nat
  sx : Nat
  front : Nat
  log : Nat
  logn : Nat
  deriving DecidableEq, Repr

/-- Read a phase descriptor. -/
def phaseDescOf (r : List Byte) : PhaseDesc :=
  { buf0 := field r 0 4, buf1 := field r 4 4, blen := field r 8 4, sx := field r 12 1, front := field r 13 1
    log := field r 16 4, logn := field r 20 4 }

/-- A reserved bit of a descriptor is set (13 R393). -/
def phaseReserved (r : List Byte) : Bool :=
  let d := phaseDescOf r
  decide (2 ^ 22 ≤ d.buf0 ∨ 2 ^ 22 ≤ d.buf1 ∨ 64 ≤ d.sx ∨ 2 ≤ d.front ∨ 16 ≤ field r 14 1 ∨ field r 15 1 ≠ 0 ∨ 2 ^ 22 ≤ d.log)
    || (r.drop 28).any (· != 0)

/-- A field of a descriptor lies outside R393. Reserved bits are not part of the fields. -/
def PhaseDesc.outside (d : PhaseDesc) (at_ : Nat) : Bool :=
  let b0 := d.buf0 % 2 ^ 22
  let b1 := d.buf1 % 2 ^ 22
  let lg := d.log % 2 ^ 22
  let n := 128 * d.logn
  decide (b0 % 1024 ≠ 0 ∨ b1 % 1024 ≠ 0 ∨ d.blen % 1024 ≠ 0 ∨ d.blen = 0 ∨ 0x200000 < d.blen ∨ d.sx % 64 = 0
      ∨ lg % 128 ≠ 0 ∨ d.logn = 0 ∨ 512 < d.logn ∨ 0x400000 < b0 + d.blen ∨ 0x400000 < b1 + d.blen ∨ 0x400000 < lg + n)
    || overlaps b0 d.blen b1 d.blen || overlaps b0 d.blen lg n || overlaps b1 d.blen lg n
    || overlaps at_ 64 b0 d.blen || overlaps at_ 64 b1 d.blen || overlaps at_ 64 lg n

/-- Every tile register and accumulator is empty and not pending. -/
def Core.tilesEmpty (c : Core) : Bool :=
  (List.range 16).all (fun i => c.tIsEmpty (BitVec.ofNat 4 i)) && (List.range 4).all fun i => c.aIsEmpty (BitVec.ofNat 2 i)

/-- An access whose result a scalar is still to take. -/
def AccKind.owesValue : AccKind → Bool
  | .fence _ | .store _ | .rel | .acq | .mstore _ => false
  | _ => true

/-- A scalar, predicate or handoff register is pending: a result in flight, or an access whose value has not landed (13 R394). -/
def Core.spqPending (c : Core) : Bool :=
  c.pending (fun e => match e with | .s _ _ | .p _ _ | .q _ _ => true | _ => false) && (c.flights.any fun f => !f.arrived &&
    decide (f.issued < c.time) && (match f.eff with | .s _ _ | .p _ _ | .q _ _ => true | _ => false))
    || c.accesses.any (·.kind.owesValue)

/-- Record the start of a phase (13 R394). -/
def Core.recordPhase (c : Core) (desc : Nat) : Phase :=
  let view := c.flights.foldl (fun k f => if f.arrived then k.commitOf f else k) c
  let r := memBytes c.ls desc 64
  { desc := desc, chmask := field r 14 1, logAt := (phaseDescOf r).log, logn := (phaseDescOf r).logn
    start := c.time, sregs := view.sregs, pregs := c.pregs, pfull := c.pfull, qregs := c.qregs, qfull := c.qfull
    helm := c.helmSt, helmS := c.helm, vecS := c.vec, matS := c.mat, carry := c.carry }

/-- The phase opens at the end of PHASEB's cycle, with what its issue recorded of the descriptor and what the copies of that cycle have logged
(13 R394, R396). -/
def Core.openPhase (c : Core) : Core :=
  { c with phase := c.phase.map fun p => { c.recordPhase p.desc with
      start := p.start, chmask := p.chmask, logAt := p.logAt, logn := p.logn, log := p.log, unrecoverable := p.unrecoverable } }

/-- PHASEB; reserved bits of the descriptor come before its fields (13 R394, 00 R9). -/
def execPhaseb (ra : SReg) (s : State) : Host.Outcome State Fault Refusal :=
  let a := (s.sr ra).toNat
  let r := memBytes s.me.ls a 64
  let d := phaseDescOf r
  s.perform (verdicts [s.bad0 (decide (a % 64 ≠ 0)) alignC,
      s.bad0 (decide (0x3FFFC0 ≤ a)) rangeC, s.bad0 (phaseReserved r) reservedC,
      s.bad0 (d.outside a || s.me.phase.isSome || !s.me.tilesEmpty) rangeC,
      need (!s.me.spqPending) (cause2 .helm fullC)]) fun s =>
    let back : Word := BitVec.ofNat 64 (if d.front % 2 = 0 then d.buf1 else d.buf0)
    ((s.modMe fun c => { c with phase := some (c.recordPhase a) }).emit 1 [.phase]).write 8 [.s (BitVec.ofNat 6 d.sx) back]

/-- A result of a helm, vector or matrix word that issued inside the phase is pending (13 R397). -/
def Core.phasePending (c : Core) (start : Nat) : Bool :=
  (c.flights.any fun f => !f.arrived && f.st != .copy && decide (start ≤ f.issued ∧ f.issued < c.time)
    && f.eff != .phase) ||
    c.accesses.any fun a => decide (start ≤ a.issued) && (match a.kind with | .fence _ => false | _ => true)

/-- PHASEC (13 R397). -/
def execPhasec (ra : SReg) (s : State) : Host.Outcome State Fault Refusal :=
  let p := s.me.phase
  let desc := (p.map (·.desc)).getD 0
  let start := (p.map (·.start)).getD 0
  let front := memGet s.me.ls (desc + 13)
  s.perform (verdicts [s.bad0 (p.isNone || decide ((s.sr ra).toNat ≠ desc) || !s.me.tilesEmpty) rangeC,
      need (!s.me.phasePending start) (cause2 .helm emptyC)]) fun s =>
    s.write 1 [.bytes (desc + 13) [1 - front], .phaseEnd]

/-- Whether a fault is one that a recoverable phase absorbs: a local store sector or a tile register consumed, or a residue
mismatch (13 R398). -/
def phaseError (code : Nat) : Bool :=
  code == cause 5 0 1 || code == cause 5 1 1 || code == cause 5 2 4

/-- Whether the phase of a core is cancelled by a fault, of a word that issued inside it, in place of its trap (13 R394, R398). -/
def Core.cancels (c : Core) (t : TrapInfo) : Bool := phaseError t.code && (match t.st with | .helm | .vector | .matrix => true | _ => false) &&
  (match c.phase with | some p => !p.unrecoverable && decide (p.cancels < 3 ∧ p.start ≤ t.cyc) | none => false) && c.handler.isNone

/-- Cancel the phase of a core: its helm, vector and matrix streams stop and the pending results of the words that issued in it are
discarded; what issued before it goes on. CANCELS grows, and the event is raised (13 R398). -/
def State.cancelPhase (s : State) (c : Nat) (t : TrapInfo) : State :=
  let s := s.modCore c fun k =>
    let desc := (k.phase.map (·.desc)).getD 0
    let start := (k.phase.map (·.start)).getD 0
    let n := memRead k.ls (desc + 24) 4
    { k.putBytes (desc + 24) (toBytes 4 (min (n + 1) 0xFFFFFFFF)) with
      flights := k.flights.filter fun f => f.st == .copy || decide (f.issued < start)
      accesses := k.accesses.filter fun a => decide (a.issued < start)
      phase := k.phase.map fun p => { p with cancels := p.cancels + 1 }
      phaseWait := true, yieldAt := none, retireAt := none }
  let s := s.post (s.ctxOf c) t.code c 0
  match (s.core c).lid with
  | some lid => s.modLaunch lid fun l => { l with elastic := l.elastic || l.timed }
  | none => s


/-- The rerun of a cancelled phase: due once every logged command has completed (13 R398). -/
def Core.rerunDue (c : Core) : Bool := c.phaseWait && !c.frozen && !c.stopped && (match c.phase with
  | some p => c.copies.all fun k => !p.log.contains k.id || k.finished
  | none => false)

/-- The stream at its recorded word, its next position the current cycle plus 1 (13 R398). -/
def StreamSt.rerun (x : StreamSt) (now : Nat) : StreamSt := { x with posAt := some now, posBase := now, issueBase := 0, notBefore := 0 }

/-- The command that a log entry at `at_` holds, as `k` was logged in it: its record, and the channel and identifier that it saved. An entry does
not name the slot of a CPYR, whose valid rows stay (13 R396, R398; DEDUCED, notes/assumptions/51.md). -/
def State.fromEntry (s : State) (c : Nat) (k : CopyCmd) (at_ : Nat) : CopyCmd :=
  let s := { s with cur := ⟨c, .copy, 0⟩ }
  let e := memBytes s.me.ls at_ 128
  let o : CRecOp := ⟨BitVec.ofNat 2 (recField e 65 1), 0, 0, 0⟩
  let n : CopyCmd := match k.kind with
    | .box => { s.boxCopy o at_ k.nt with srcTile := k.srcTile }
    | .gath => s.listCopy o at_ k.nt true
    | .recv => s.recvCopy o at_ k.handle k.left
    | _ => { k with issued := s.cyc, tick := s.now, ch := o.ch.toNat, fence := s.me.cfences, xlatAt := s.copyXlat (k.reads ++ k.writes) }
  { n with ident := recField e 72 6, before := k.before, fault := none }

/-- A logged command as it is reissued (13 R398). -/
def CopyCmd.reissue (k : CopyCmd) (id : Nat) : CopyCmd :=
  { k with id := id, pages := [], xlated := false, gated := false, ready := none, bound := none, taken := none
           doneAt := none, finished := false, started := false, logged := true, reissued := true, count := 0 }

/-- Restore the recorded registers and streams and reissue the log (13 R398). -/
def State.rerunPhase (s : State) (c : Nat) : State :=
  let k := s.core c
  match k.phase with
  | none => s
  | some p =>
    let now := k.time
    let again := (p.log.zipIdx).filterMap fun i => (k.copies.find? (·.id == i.1)).map fun j => (j, p.logAt + 128 * i.2)
    let new := (again.zipIdx).map fun x => (s.fromEntry c x.1.1 x.1.2).reissue (k.nextCopy + x.2)
    let ids := again.map (·.1.id)
    let k := { k with
      sregs := p.sregs, pregs := p.pregs, pfull := p.pfull, qregs := p.qregs, qfull := p.qfull, helmSt := p.helm
      helm := p.helmS.rerun now, vec := p.vecS.rerun now, mat := p.matS.rerun now, carry := p.carry
      vbusy := 0, mbusy := Vector.replicate 3 0
      tfull := Vector.replicate 16 false, afull := Vector.replicate 4 false, tBad := [], aBad := []
      copies := (k.copies.filter fun x => !ids.contains x.id) ++ new
      nextCopy := k.nextCopy + new.length
      phaseWait := false
      phase := some { p with log := new.map (·.id), refetch := (new.flatMap (·.boxSlots)).foldl addOnce [] } }
    let s := s.chosen.setCore c k
    new.foldl (fun s x => if x.kind = .recv then s.modHandle x.handle fun h => { h with bindings := h.bindings ++ [(c, x.id)] } else s) s

/-- PHASE_RERUN (13 R398). -/
def execPhaseRerun (s : State) : Host.Outcome State Fault Refusal :=
  let c := s.on.a
  if (s.core c).rerunDue then .next (s.rerunPhase c) else .fault .eventNotDue

end Sys2Proof.Machine
end

