-- ==== Sys2Proof/Machine/Stacks.lean ====
section
/-! DEFINITION. HBM stacks: row trackers, the eye monitor, counts, scrubbing and the stack registers (01 R18, 13 R392,
R410-R413). -/

namespace Sys2Proof.Machine

/-- What one activation of row `r` does to a bank's counters, and whether its neighbours are refreshed, with threshold `t`
(13 R411). -/
def misraGries (cs : List (Nat × Nat)) (r t : Nat) : List (Nat × Nat) × Bool :=
  let cs :=
    if cs.any (·.1 == r) then cs.map fun c => if c.1 = r then (c.1, c.2 + 1) else c
    else if cs.length < 16 then cs ++ [(r, 1)]
    else (cs.map fun c => (c.1, c.2 - 1)).filter (·.2 != 0)
  if cs.any fun c => c.1 == r && decide (t ≤ c.2) then (cs.map fun c => if c.1 = r then (c.1, 0) else c, true) else (cs, false)

/-- The row buffers of a bank, the last used first: each a row and whether it is dirty (13 R410). -/
def Stack.buffers (x : Stack) (bank : Nat) : List (Nat × Bool) := (tabGet x.rows bank).getD []

/-- A refresh of row `r` of a bank: a dirty buffer of it is written back and stays, clean (13 R410). -/
def Stack.refreshRow (x : Stack) (bank r : Nat) : Stack :=
  let bs := x.buffers bank
  if bs.contains (r, true) then { x with rows := tabSet x.rows bank (updIf (· == (r, true)) (fun b => (b.1, false)) bs), backs := x.backs ++ [(bank, r)] }
  else x

/-- Row `r` of a bank takes a buffer, or its own comes first: of four the one used longest ago goes, and is written back where it is dirty
(13 R410). -/
def Stack.useRow (x : Stack) (bank r : Nat) (write : Bool) : Stack :=
  let bs := x.buffers bank
  let dirty := write || bs.contains (r, true)
  let rest := bs.filter (·.1 != r)
  { x with
    rows := tabSet x.rows bank ((r, dirty) :: rest.take 3)
    backs := x.backs ++ ((rest.drop 3).filter (·.2)).map fun b => (bank, b.1) }

/-- The rows that a full counter of row `r` has refreshed (13 R411). -/
def neighbours (r : Nat) : List Nat := ([2, 1].filter (· ≤ r)).map (r - ·) ++ [r + 1, r + 2]

/-- An activation of row `r` of a bank: its counters, and the refreshes that follow, which write dirty buffers back (13 R410, R411). -/
def Stack.activate (x : Stack) (bank r : Nat) : Stack :=
  let m := misraGries ((tabGet x.mg bank).getD []) r x.hmgthr
  let x := { x with mg := tabSet x.mg bank m.1 }
  if m.2 then (neighbours r).foldl (fun (x : Stack) n => x.refreshRow bank n)
      { x with refreshes := x.refreshes ++ (neighbours r).map fun n => (bank, n) }
  else x

/-- MISRA_GRIES_ACTIVATION: an access to row `c` of bank `b` of stack `a`, with `flag` a write. A row that no buffer of the bank holds is
activated; a hit is no activation (13 R410, R411). In which bank and row an address lies the spec does not say, so that the use of a row comes
as an event (DEDUCED, notes/assumptions/46.md). -/
def execMisraGriesActivation (s : State) : Host.Outcome State Fault Refusal :=
  let bank := s.on.b
  let r := s.on.c
  .next <| s.modStack s.on.a fun x =>
    let hit := (x.buffers bank).any (·.1 == r)
    (if hit then x else x.activate bank r).useRow bank r s.on.flag

/-- Every dirty buffer of a stack is written back (13 R410). -/
def Stack.clean (x : Stack) : Stack :=
  { x with
    rows := x.rows.map fun b => (b.1, b.2.map fun r => (r.1, false))
    backs := x.backs ++ x.rows.flatMap fun b => (b.2.filter (·.2)).map fun r => (b.1, r.1) }

/-- REFRESH_WINDOW: the counters of every bank are cleared, and with the window every row has been refreshed, so that no buffer is dirty. Within a
window, `flag` is bank `b`'s refresh of row `c`, and `flag2` the stack's entry into self-refresh (13 R410, R411; notes/assumptions/46.md). -/
def execRefreshWindow (s : State) : Host.Outcome State Fault Refusal :=
  .next (s.modStack s.on.a fun x =>
    if s.on.flag then x.refreshRow s.on.b s.on.c
    else if s.on.flag2 then x.clean
    else { { x with backs := [] }.clean with mg := [], refreshes := [] })

/-- What a measurement of the margin of a pin does (13 R413). -/
def State.measure (s : State) (st pin m : Nat) : State :=
  let x := s.stack st
  let armed := !x.disarmed.contains pin
  let low := armed && decide (m < x.heye)
  let s := s.modStack st fun x => { x with
    eyeMin := if m < x.eyeMin.1 then (m, pin) else x.eyeMin
    disarmed := if low then addOnce x.disarmed pin
      else if min (x.heye + 8) 255 ≤ m then x.disarmed.filter (· != pin) else x.disarmed }
  if low then s.postSup (cause 5 4 5) st (pin + 65536 * m) else s

/-- EYE_MARGIN_MEASUREMENT of a pin, or, with `flag`, of every pin of a stack, each with a free margin (13 R413; notes/assumptions/4.md). -/
def execEyeMarginMeasurement (s : State) : Host.Outcome State Fault Refusal :=
  let st := s.on.a
  .next (if s.on.flag then (List.range 2048).foldl (fun (s : State) pin => s.measure st pin (255 - Config.eyeLoss s.wall st pin % 256)) s
    else s.measure st s.on.b s.on.c)

/-- Map out a pseudo-channel: the package sets replace-requested and reports it (01 R18, 13 R413, R417). -/
def State.mapOut (s : State) (st pc : Nat) : State :=
  if 64 ≤ pc then s else (s.modStack st fun x => { x with mapped := addOnce x.mapped pc }).replaceRequested (cause 5 4 6) st

/-- HPCOUT (01 R18, 13 R413). -/
def execHpcout (s : State) : Host.Outcome State Fault Refusal := .next (s.mapOut s.on.a s.on.b)

/-- The value of HEYEMIN (13 R413). -/
def Stack.heyemin (x : Stack) : Word := BitVec.ofNat 64 (x.eyeMin.1 % 256 + 256 * (x.eyeMin.2 % 2048))

/-- A read of HEYEMIN sets the margin field to 255 (13 R413). -/
def State.readEye (s : State) (st : Nat) : State := s.modStack st fun x => { x with eyeMin := (255, x.eyeMin.2) }

/-- HEYEMIN (13 R413). -/
def execHeyemin (s : State) : Host.Outcome State Fault Refusal := .next (s.readEye s.on.a)

/-- The largest count of a table and its key; the lowest key of equals. -/
def largest (t : Tab Nat) : Nat × Nat := t.foldl (fun acc x => if acc.1 < x.2 then (x.2, x.1) else acc) (0, 0)

/-- CORRECTED_COUNT_HOUR: HCECNT takes the largest count of the hour, and the counts start again (13 R413). -/
def execCorrectedCountHour (s : State) : Host.Outcome State Fault Refusal :=
  .next (s.modStack s.on.a fun x => { x with hcecnt := largest x.corrected, corrected := [] })

/-- PATROL_SCRUB of a granule with a latent error, with `flag` a correctable one; a demand write that came between its read and its write (`flag2`)
cancels the write-back and the marking, and what was bad and has not been written whole stays so (13 R392, R388). -/
def execPatrolScrub (s : State) : Host.Outcome State Fault Refusal :=
  let g := s.on.a
  let st := stackOf (64 * g)
  let s1 := { s with bad := s.bad.filter (·.1 != g) }
  .next <|
    if s.on.flag2 then s
    else if s.on.flag then s1.noteCorrected g
    else { s1 with poison := addOnce s1.poison g }.postSup (cause 5 4 2) st 0

/-- LOCAL_STORE_SCRUB of a sector of a core, as PATROL_SCRUB (13 R392, R388). -/
def execLocalStoreScrub (s : State) : Host.Outcome State Fault Refusal :=
  let c := s.on.a
  let found := s.modCore c fun k => { k with lsPoison := addOnce k.lsPoison s.on.b, lsLatent := k.lsLatent.filter (· != s.on.b) }
  .next <|
    if s.on.flag2 then s
    else if s.on.flag then s.post (s.ctxOf c) (cause 5 0 0) c 0
    else found.post (s.ctxOf c) (cause 5 0 2) c 0

/-- A read of a stack controller register (13 R413). -/
def Stack.reg (x : Stack) (off : Nat) : Word := match off with
  | 0x00 => BitVec.ofNat 64 x.hcethr
  | 0x08 => BitVec.ofNat 64 x.hmgthr
  | 0x10 => BitVec.ofNat 64 x.heye
  | 0x20 => BitVec.ofNat 64 (x.hcecnt.1 % 65536 + 65536 * (x.hcecnt.2 % 64))
  | 0x28 => x.heyemin
  | _ => 0

/-- A write of a stack controller register; a value outside its range is ignored (13 R413). -/
def State.stackWrite (s : State) (st off : Nat) (v : Word) : State :=
  let n := v.toNat
  match off with
  | 0x00 => if 1 ≤ n ∧ n ≤ 65535 then s.modStack st fun x => { x with hcethr := n } else s
  | 0x08 => if 256 ≤ n ∧ n ≤ 65535 then s.modStack st fun x => { x with hmgthr := n } else s
  | 0x10 => if 1 ≤ n ∧ n ≤ 255 then s.modStack st fun x => { x with heye := n } else s
  | 0x18 => s.mapOut st n
  | _ => s

end Sys2Proof.Machine
end

