-- ==== Sys2Proof/WellFormed.lean ====
section
/-! DEFINITION. Which streams an instruction stands in, and which operand values some word encodes: the few fields whose
values a format restricts by its reserved bits or by sharing an opcode with another row (03 R72-R93, 07 R222). Events have no word. -/

namespace Sys2Proof

/-- The opcode maps that list an instruction (03 R88-R93); none for an event. -/
def Instr.streams : Instr → List Stream
  | .add _ _ _ => [.helm]
  | .sub _ _ _ => [.helm]
  | .and _ _ _ => [.helm]
  | .or _ _ _ => [.helm]
  | .xor _ _ _ => [.helm]
  | .andn _ _ _ => [.helm]
  | .sll _ _ _ => [.helm]
  | .srl _ _ _ => [.helm]
  | .sra _ _ _ => [.helm]
  | .mul _ _ _ => [.helm]
  | .mulh _ _ _ => [.helm]
  | .mulhu _ _ _ => [.helm]
  | .div _ _ _ => [.helm]
  | .divu _ _ _ => [.helm]
  | .rem _ _ _ => [.helm]
  | .remu _ _ _ => [.helm]
  | .addi _ _ _ => [.helm]
  | .andi _ _ _ => [.helm]
  | .ori _ _ _ => [.helm]
  | .xori _ _ _ => [.helm]
  | .slli _ _ _ => [.helm]
  | .srli _ _ _ => [.helm]
  | .srai _ _ _ => [.helm]
  | .ldi _ _ => [.helm]
  | .seth _ _ => [.helm]
  | .slt _ _ _ => [.helm]
  | .sltu _ _ _ => [.helm]
  | .slti _ _ _ => [.helm]
  | .min _ _ _ => [.helm]
  | .max _ _ _ => [.helm]
  | .minu _ _ _ => [.helm]
  | .maxu _ _ _ => [.helm]
  | .clz _ _ => [.helm]
  | .ctz _ _ => [.helm]
  | .popc _ _ => [.helm]
  | .brev _ _ => [.helm]
  | .bext _ _ _ _ => [.helm]
  | .bexts _ _ _ _ => [.helm]
  | .bins _ _ _ _ => [.helm]
  | .fshl _ => [.helm]
  | .fshr _ => [.helm]
  | .cmpeq _ _ _ => [.helm]
  | .cmpne _ _ _ => [.helm]
  | .cmplt _ _ _ => [.helm]
  | .cmpltu _ _ _ => [.helm]
  | .cmple _ _ _ => [.helm]
  | .cmpleu _ _ _ => [.helm]
  | .pand _ _ _ => [.helm]
  | .por _ _ _ => [.helm]
  | .pxor _ _ _ => [.helm]
  | .pnot _ _ => [.helm]
  | .pset _ _ => [.helm]
  | .pclr _ => [.helm]
  | .ptos _ _ => [.helm]
  | .pfrom _ _ => [.helm]
  | .br _ => [.helm]
  | .brt _ _ => [.helm]
  | .brf _ _ => [.helm]
  | .brtn _ _ => [.helm]
  | .brfn _ _ => [.helm]
  | .jmpr _ => [.helm]
  | .call _ => [.helm]
  | .callr _ => [.helm]
  | .ret => [.helm]
  | .trap _ => [.helm]
  | .exit => [.helm]
  | .ld8 _ => [.helm]
  | .ld8s _ => [.helm]
  | .ld16 _ => [.helm]
  | .ld16s _ => [.helm]
  | .ld32 _ => [.helm]
  | .ld32s _ => [.helm]
  | .ld64 _ => [.helm]
  | .st8 _ => [.helm]
  | .st16 _ => [.helm]
  | .st32 _ => [.helm]
  | .st64 _ => [.helm]
  | .ldc _ _ _ => [.helm]
  | .qsend _ _ _ => [.helm]
  | .qrecv _ _ => [.helm]
  | .qpeek _ _ => [.helm]
  | .aadd _ _ _ => [.helm]
  | .aaddf _ _ _ => [.helm]
  | .aswap _ _ _ => [.helm]
  | .acas _ _ _ => [.helm]
  | .amin _ _ _ => [.helm]
  | .amax _ _ _ => [.helm]
  | .abump _ _ _ => [.helm]
  | .fence _ => [.helm]
  | .bind _ _ _ => [.helm]
  | .acq _ => [.helm]
  | .rel _ => [.helm]
  | .mstore _ _ _ => [.helm]
  | .mwait _ _ => [.helm]
  | .taglk _ _ => [.helm]
  | .tagset _ _ => [.helm]
  | .tagclr _ => [.helm]
  | .shld _ _ => [.helm]
  | .shinv _ => [.helm]
  | .phaseb _ => [.helm]
  | .phasec _ => [.helm]
  | .tstart _ => [.helm]
  | .twait _ => [.helm]
  | .waitid _ _ _ => [.helm]
  | .waitidLaunch _ _ => [.helm]
  | .waitq _ _ => [.helm]
  | .tbar _ _ _ => [.helm]
  | .tbarSync _ _ _ => [.helm]
  | .launch _ _ _ => [.helm]
  | .yieldpt _ _ _ => [.helm]
  | .yieldptHold _ _ => [.helm]
  | .csrr _ _ => [.helm]
  | .csrw _ _ => [.helm]
  | .syscall _ => [.helm]
  | .hret => [.helm]
  | .hesc => [.helm]
  | .vadd _ => [.vector]
  | .vsub _ => [.vector]
  | .vmul _ => [.vector]
  | .vfma _ => [.vector]
  | .vfms _ => [.vector]
  | .vfnma _ => [.vector]
  | .vmin _ => [.vector]
  | .vmax _ => [.vector]
  | .vabs _ => [.vector]
  | .vneg _ => [.vector]
  | .vdiv _ => [.vector]
  | .vsqrt _ => [.vector]
  | .vrcp _ => [.vector]
  | .vrsq _ => [.vector]
  | .vexp2 _ => [.vector]
  | .vlog2 _ => [.vector]
  | .vand _ => [.vector]
  | .vor _ => [.vector]
  | .vxor _ => [.vector]
  | .vshl _ => [.vector]
  | .vshr _ => [.vector]
  | .vsra _ => [.vector]
  | .vbext _ => [.vector]
  | .vfsh _ => [.vector]
  | .vpopc _ => [.vector]
  | .vclz _ => [.vector]
  | .vcmp _ => [.vector]
  | .vsel _ => [.vector]
  | .vpart _ => [.vector]
  | .viota _ => [.vector]
  | .vbcast _ => [.vector]
  | .vperm _ => [.vector]
  | .vmov _ => [.vector]
  | .vextr _ => [.vector]
  | .vcvt _ => [.vector]
  | .vpack _ => [.vector]
  | .vunpack _ => [.vector]
  | .vquant _ => [.vector]
  | .vdeq _ => [.vector]
  | .vrsum _ => [.vector]
  | .vrmax _ => [.vector]
  | .vrmin _ => [.vector]
  | .vscan _ => [.vector]
  | .vrnorm _ => [.vector]
  | .vrsmax _ => [.vector]
  | .vldr _ => [.vector]
  | .vld _ => [.vector]
  | .vst _ => [.vector]
  | .vlds _ => [.vector]
  | .vsts _ => [.vector]
  | .vgath _ => [.vector]
  | .vscat _ => [.vector]
  | .mldt _ => [.matrix]
  | .mstt _ => [.matrix]
  | .mlds _ => [.matrix]
  | .mzero _ _ _ => [.matrix]
  | .mzeroRelease _ => [.matrix]
  | .mma _ => [.matrix]
  | .mmar _ => [.matrix]
  | .mout _ => [.matrix]
  | .moutq _ _ => [.matrix]
  | .mlda _ => [.matrix]
  | .msta _ => [.matrix]
  | .mtrn _ _ => [.matrix]
  | .mband _ _ => [.matrix]
  | .cpy _ _ _ => [.copy]
  | .cpyr _ _ _ _ => [.copy]
  | .cgath _ _ => [.copy]
  | .cscat _ _ => [.copy]
  | .cbin _ _ => [.copy]
  | .csend _ _ _ _ => [.copy]
  | .crecvb _ _ => [.copy]
  | .cnmc _ => [.copy]
  | .ccoll _ => [.copy]
  | .cwait _ _ _ => [.copy]
  | .cfence => [.copy]
  | .cconst _ => [.copy]
  | .loop _ _ _ => [.vector, .matrix, .copy]
  | .loops _ _ _ _ _ => [.vector, .matrix, .copy]
  | .endStream => [.vector, .matrix, .copy]
  | .setvc _ => [.vector, .matrix, .copy]
  | .fmtld _ => [.vector, .matrix]
  | .engineTwait _ => [.vector, .matrix, .copy]
  | .waitf _ _ _ => [.vector, .matrix, .copy]
  | .retire => [.matrix]
  | .xest _ _ _ => [.crossing]
  | .xestm _ _ _ _ => [.crossing]
  | .xdrop _ => [.crossing]
  | .xstep _ => [.crossing]
  | .xstepAt _ => [.crossing]
  | .xhour _ => [.crossing]
  | .xrelay _ _ _ => [.crossing]
  | .xgroup _ _ => [.crossing]
  | .xwin _ _ => [.crossing]
  | .xloop _ _ => [.crossing]
  | .xjmp _ => [.crossing]
  | .xend => [.crossing]
  | .xretrain _ => [.crossing]
  | .nop => [.helm, .vector, .matrix, .copy, .crossing]
  | .resultLanding => []
  | .deadlineReached => []
  | .elasticWaitEnd => []
  | .quietDeadlock => []
  | .retirementBoundExceeded => []
  | .barrierRelease => []
  | .shapeLoadLanding => []
  | .qsendArrival => []
  | .helmAccessAtHome => []
  | .accessWindowExpiry => []
  | .acqLanding => []
  | .relIncrement => []
  | .fenceComplete => []
  | .translationResult => []
  | .copyTranslation => []
  | .copyCompletion => []
  | .snapshotCopyOnWrite => []
  | .nmupd => []
  | .nmaxpby => []
  | .nmred => []
  | .nmcpy => []
  | .nmfill => []
  | .nearMemoryCompletion => []
  | .csendDelivery => []
  | .csendAck => []
  | .handleLive => []
  | .drainEnd => []
  | .windowEnd => []
  | .flitReceive => []
  | .replayRequest => []
  | .flitAck => []
  | .retrainingPause => []
  | .pauseBoundExceeded => []
  | .backpressureLimit => []
  | .retrainingPauseEnd => []
  | .laserPowerLow => []
  | .ringTuningOutOfRange => []
  | .bringUpStageEnd => []
  | .bringUpTimeout => []
  | .dawnPulse => []
  | .daycCorrection => []
  | .holdoverStart => []
  | .holdoverExpiry => []
  | .xhourEnd => []
  | .serviceMessage => []
  | .relayArrival => []
  | .relayForward => []
  | .relayTimeout => []
  | .orderPointStamp => []
  | .mstoreAck => []
  | .multicastApply => []
  | .orderGap => []
  | .memberResend => []
  | .xgroupAck => []
  | .launchPacket => []
  | .noopPacket => []
  | .placementTurn => []
  | .poolEntryFreed => []
  | .agingStep => []
  | .heldCandidate => []
  | .startBroadcast => []
  | .launchRetirement => []
  | .completionRecord => []
  | .preemptionStop => []
  | .preemptedResume => []
  | .trapResume => []
  | .eventRecord => []
  | .msixInterrupt => []
  | .trapDelivery => []
  | .interruptTaken => []
  | .phaseRerun => []
  | .thermalOrPower => []
  | .clockChange => []
  | .clockRestore => []
  | .thermalTrap => []
  | .rotationScanStep => []
  | .rotationMigration => []
  | .scanPass => []
  | .scanFail => []
  | .snapshotBeginPoint => []
  | .snapshotDrain => []
  | .snapshotCommit => []
  | .snapshotRestoreEnd => []
  | .sncmdRestore => []
  | .sncmdCommitUnverified => []
  | .sncmdBegin => []
  | .patrolScrub => []
  | .localStoreScrub => []
  | .misraGriesActivation => []
  | .refreshWindow => []
  | .correctedCountHour => []
  | .eyeMarginMeasurement => []
  | .hpcout => []
  | .heyemin => []
  | .coldBoot => []
  | .warmReset => []
  | .collectiveDigest => []
  | .collectiveSum => []
  | .collectiveMax => []
  | .collectiveMin => []
  | .collectiveMove => []
  | .deadlineRelease => []
  | .chunkRerun => []
  | .collectiveCompletion => []
  | .collectiveDeadline => []
  | .memberLost => []
  | .shootdownComplete => []
  | .peerUnreachable => []
  | .pendingInvalidationReplay => []
  | .remoteAccessRequest => []
  | .bar2Access => []
  | .hostFetchadd => []
  | .pshoot => []
  | .presume => []
  | .pterm => []
  | .ppre => []
  | .pintr => []
  | .ptrapq => []
  | .pcdat => []
  | .pgrantLanding => []
  | .prevokeLanding => []
  | .pgrantHandle => []
  | .prevokeHandle => []
  | .pgrantGroup => []
  | .prevokeGroup => []
  | .pgrantQuay => []
  | .prevokeQuay => []
  | .registerWrite => []
  | .unassignedOpcode => []
  | .supervisorRetrain => []
  | .groupTableWrite => []
  | .bar0Access => []
  | .contextRootChange => []

/-- The restrictions on operand values that a word of the row obeys: VRED words with SG = 0 carry ZS = 0 (03 R74), the
release form of MZERO has a row of its own and the accumulator form names no tile (07 R222), WAITID with channel field 4 is
the launch form (05 R159). Every other field of every form takes every value. -/
def Instr.operandsOk : Instr → Bool
  | .vrsum o | .vrmax o | .vrmin o | .vscan o | .vrnorm o | .vrsmax o => o.sg == 1#1 || o.zs == 0#3
  | .mzero _ ta tb => tb != 1#4 && (tb != 0#4 || ta == 0#4)
  | .waitid ch _ _ => ch != 4#6
  | _ => true

/-- An instruction that some word of a stream encodes. -/
def Instr.wf (st : Stream) (i : Instr) : Bool := i.streams.contains st && i.operandsOk

end Sys2Proof
end

