-- ==== Sys2Proof/Decode.lean ====
section
/-! DEFINITION. The decoder of the five opcode maps and the encoder beside it (03 R68-R93). The decoder reads the fields of
the word its opcode names and accepts the word when the encoder gives its operand bits back, so that every bit no field
carries must be zero (00 R9). -/

namespace Sys2Proof

/-- Bits `lo + n - 1 .. lo` of a word. -/
def fld (w : Word) (lo n : Nat) : BitVec n := w.extractLsb' lo n

/-- Why a word is no instruction: R36 row 1. -/
inductive DecodeError where
  | unassignedOpcode
  | reservedBits
  deriving DecidableEq, Repr

/-- A word's common fields and its instruction (03 R68). -/
structure Decoded where
  idle : BitVec 10
  gm : BitVec 2
  gp : PReg
  instr : Instr
  deriving DecidableEq, Repr

/-- The count field of LOOP, LOOPS and SETVC: KC in bit 35 (03 R81). -/
def countField (w : Word) : Count :=
  if fld w 35 1 = 0#1 then .imm (fld w 19 16) else .reg (fld w 19 6)

/-- Bits 35..19 of a word with a count field. -/
def countBits : Count → BitVec 17
  | .imm n => 0#1 ++ n
  | .reg s => 1#1 ++ 0#10 ++ s

/-- Bits 23..0 of a helm compare. -/
def cmpBits : CmpSrc → BitVec 24
  | .reg rb => 0#1 ++ rb ++ 0#17
  | .imm v => 1#1 ++ v

/-- The operand bits of SETVC. -/
def vcBits : VcSrc → BitVec 37
  | .count c => 0#1 ++ countBits c ++ 0#19
  | .shape zs => 1#1 ++ 0#33 ++ zs

/-- An instruction word with no IDLE and no guard. -/
def enc (op : BitVec 8) (operands : BitVec 37) : Word := 0#19 ++ op ++ operands

/-- The helm map (03 R88). -/
def parseHelm (w : Word) : Option Instr :=
  match (fld w 37 8).toNat with
  | 0x00 => some (.nop)
  | 0x01 => some (.add (fld w 31 6) (fld w 25 6) (fld w 19 6))
  | 0x02 => some (.sub (fld w 31 6) (fld w 25 6) (fld w 19 6))
  | 0x03 => some (.and (fld w 31 6) (fld w 25 6) (fld w 19 6))
  | 0x04 => some (.or (fld w 31 6) (fld w 25 6) (fld w 19 6))
  | 0x05 => some (.xor (fld w 31 6) (fld w 25 6) (fld w 19 6))
  | 0x06 => some (.andn (fld w 31 6) (fld w 25 6) (fld w 19 6))
  | 0x07 => some (.sll (fld w 31 6) (fld w 25 6) (fld w 19 6))
  | 0x08 => some (.srl (fld w 31 6) (fld w 25 6) (fld w 19 6))
  | 0x09 => some (.sra (fld w 31 6) (fld w 25 6) (fld w 19 6))
  | 0x0A => some (.mul (fld w 31 6) (fld w 25 6) (fld w 19 6))
  | 0x0B => some (.mulh (fld w 31 6) (fld w 25 6) (fld w 19 6))
  | 0x0C => some (.mulhu (fld w 31 6) (fld w 25 6) (fld w 19 6))
  | 0x0D => some (.div (fld w 31 6) (fld w 25 6) (fld w 19 6))
  | 0x0E => some (.divu (fld w 31 6) (fld w 25 6) (fld w 19 6))
  | 0x0F => some (.rem (fld w 31 6) (fld w 25 6) (fld w 19 6))
  | 0x10 => some (.remu (fld w 31 6) (fld w 25 6) (fld w 19 6))
  | 0x18 => some (.addi (fld w 31 6) (fld w 25 6) (fld w 0 25))
  | 0x19 => some (.andi (fld w 31 6) (fld w 25 6) (fld w 0 25))
  | 0x1A => some (.ori (fld w 31 6) (fld w 25 6) (fld w 0 25))
  | 0x1B => some (.xori (fld w 31 6) (fld w 25 6) (fld w 0 25))
  | 0x1C => some (.slli (fld w 31 6) (fld w 25 6) (fld w 0 25))
  | 0x1D => some (.srli (fld w 31 6) (fld w 25 6) (fld w 0 25))
  | 0x1E => some (.srai (fld w 31 6) (fld w 25 6) (fld w 0 25))
  | 0x1F => some (.ldi (fld w 31 6) (fld w 0 31))
  | 0x20 => some (.seth (fld w 31 6) (fld w 0 31))
  | 0x21 => some (.slt (fld w 31 6) (fld w 25 6) (fld w 19 6))
  | 0x22 => some (.sltu (fld w 31 6) (fld w 25 6) (fld w 19 6))
  | 0x23 => some (.slti (fld w 31 6) (fld w 25 6) (fld w 0 25))
  | 0x24 => some (.min (fld w 31 6) (fld w 25 6) (fld w 19 6))
  | 0x25 => some (.max (fld w 31 6) (fld w 25 6) (fld w 19 6))
  | 0x26 => some (.minu (fld w 31 6) (fld w 25 6) (fld w 19 6))
  | 0x27 => some (.maxu (fld w 31 6) (fld w 25 6) (fld w 19 6))
  | 0x30 => some (.clz (fld w 31 6) (fld w 25 6))
  | 0x31 => some (.ctz (fld w 31 6) (fld w 25 6))
  | 0x32 => some (.popc (fld w 31 6) (fld w 25 6))
  | 0x33 => some (.brev (fld w 31 6) (fld w 25 6))
  | 0x34 => some (.bext (fld w 31 6) (fld w 25 6) (fld w 13 6) (fld w 6 7))
  | 0x35 => some (.bexts (fld w 31 6) (fld w 25 6) (fld w 13 6) (fld w 6 7))
  | 0x36 => some (.bins (fld w 31 6) (fld w 25 6) (fld w 13 6) (fld w 6 7))
  | 0x37 => some (.fshl ⟨fld w 31 6, fld w 25 6, fld w 19 6, fld w 13 6, fld w 6 7⟩)
  | 0x38 => some (.fshr ⟨fld w 31 6, fld w 25 6, fld w 19 6, fld w 13 6, fld w 6 7⟩)
  | 0x40 => some (if fld w 23 1 = 0#1 then .cmpeq (fld w 30 7) (fld w 24 6) (.reg (fld w 17 6)) else .cmpeq (fld w 30 7) (fld w 24 6) (.imm (fld w 0 23)))
  | 0x41 => some (if fld w 23 1 = 0#1 then .cmpne (fld w 30 7) (fld w 24 6) (.reg (fld w 17 6)) else .cmpne (fld w 30 7) (fld w 24 6) (.imm (fld w 0 23)))
  | 0x42 => some (if fld w 23 1 = 0#1 then .cmplt (fld w 30 7) (fld w 24 6) (.reg (fld w 17 6)) else .cmplt (fld w 30 7) (fld w 24 6) (.imm (fld w 0 23)))
  | 0x43 => some (if fld w 23 1 = 0#1 then .cmpltu (fld w 30 7) (fld w 24 6) (.reg (fld w 17 6)) else .cmpltu (fld w 30 7) (fld w 24 6) (.imm (fld w 0 23)))
  | 0x44 => some (if fld w 23 1 = 0#1 then .cmple (fld w 30 7) (fld w 24 6) (.reg (fld w 17 6)) else .cmple (fld w 30 7) (fld w 24 6) (.imm (fld w 0 23)))
  | 0x45 => some (if fld w 23 1 = 0#1 then .cmpleu (fld w 30 7) (fld w 24 6) (.reg (fld w 17 6)) else .cmpleu (fld w 30 7) (fld w 24 6) (.imm (fld w 0 23)))
  | 0x46 => some (.pand (fld w 30 7) (fld w 23 7) (fld w 16 7))
  | 0x47 => some (.por (fld w 30 7) (fld w 23 7) (fld w 16 7))
  | 0x48 => some (.pxor (fld w 30 7) (fld w 23 7) (fld w 16 7))
  | 0x49 => some (.pnot (fld w 30 7) (fld w 23 7))
  | 0x4A => some (.pset (fld w 30 7) (fld w 16 7))
  | 0x4B => some (.pclr (fld w 30 7))
  | 0x4C => some (.ptos (fld w 30 7) (fld w 24 6))
  | 0x4D => some (.pfrom (fld w 30 7) (fld w 24 6))
  | 0x50 => some (.br (fld w 0 30))
  | 0x51 => some (.brt (fld w 30 7) (fld w 0 30))
  | 0x52 => some (.brf (fld w 30 7) (fld w 0 30))
  | 0x53 => some (.brtn (fld w 30 7) (fld w 0 30))
  | 0x54 => some (.brfn (fld w 30 7) (fld w 0 30))
  | 0x55 => some (.jmpr (fld w 25 6))
  | 0x56 => some (.call (fld w 0 30))
  | 0x57 => some (.callr (fld w 25 6))
  | 0x58 => some (.ret)
  | 0x59 => some (.trap (fld w 0 31))
  | 0x5A => some (.exit)
  | 0x60 => some (.ld8 ⟨fld w 31 6, fld w 25 6, fld w 22 3, fld w 0 22⟩)
  | 0x61 => some (.ld8s ⟨fld w 31 6, fld w 25 6, fld w 22 3, fld w 0 22⟩)
  | 0x62 => some (.ld16 ⟨fld w 31 6, fld w 25 6, fld w 22 3, fld w 0 22⟩)
  | 0x63 => some (.ld16s ⟨fld w 31 6, fld w 25 6, fld w 22 3, fld w 0 22⟩)
  | 0x64 => some (.ld32 ⟨fld w 31 6, fld w 25 6, fld w 22 3, fld w 0 22⟩)
  | 0x65 => some (.ld32s ⟨fld w 31 6, fld w 25 6, fld w 22 3, fld w 0 22⟩)
  | 0x66 => some (.ld64 ⟨fld w 31 6, fld w 25 6, fld w 22 3, fld w 0 22⟩)
  | 0x67 => some (.st8 ⟨fld w 31 6, fld w 25 6, fld w 22 3, fld w 0 22⟩)
  | 0x68 => some (.st16 ⟨fld w 31 6, fld w 25 6, fld w 22 3, fld w 0 22⟩)
  | 0x69 => some (.st32 ⟨fld w 31 6, fld w 25 6, fld w 22 3, fld w 0 22⟩)
  | 0x6A => some (.st64 ⟨fld w 31 6, fld w 25 6, fld w 22 3, fld w 0 22⟩)
  | 0x6B => some (.ldc (fld w 31 6) (fld w 25 6) (fld w 0 25))
  | 0x6C => some (.qsend (fld w 31 6) (fld w 25 6) (fld w 19 6))
  | 0x6D => some (.qrecv (fld w 31 6) (fld w 25 6))
  | 0x6E => some (.qpeek (fld w 31 6) (fld w 25 6))
  | 0x70 => some (.aadd (fld w 31 6) (fld w 25 6) (fld w 19 6))
  | 0x71 => some (.aaddf (fld w 31 6) (fld w 25 6) (fld w 19 6))
  | 0x72 => some (.aswap (fld w 31 6) (fld w 25 6) (fld w 19 6))
  | 0x73 => some (.acas (fld w 31 6) (fld w 25 6) (fld w 19 6))
  | 0x74 => some (.amin (fld w 31 6) (fld w 25 6) (fld w 19 6))
  | 0x75 => some (.amax (fld w 31 6) (fld w 25 6) (fld w 19 6))
  | 0x76 => some (.abump (fld w 31 6) (fld w 25 6) (fld w 19 6))
  | 0x77 => some (.fence (fld w 0 13))
  | 0x78 => some (.bind (fld w 31 6) (fld w 25 6) (fld w 19 6))
  | 0x79 => some (.acq (fld w 25 6))
  | 0x7A => some (.rel (fld w 25 6))
  | 0x7B => some (.mstore (fld w 31 6) (fld w 25 6) (fld w 19 6))
  | 0x7C => some (.mwait (fld w 25 6) (fld w 0 25))
  | 0x80 => some (.taglk (fld w 31 6) (fld w 25 6))
  | 0x81 => some (.tagset (fld w 25 6) (fld w 19 6))
  | 0x82 => some (.tagclr (fld w 25 6))
  | 0x83 => some (.shld (fld w 31 6) (fld w 25 6))
  | 0x84 => some (.shinv (fld w 31 6))
  | 0x85 => some (.phaseb (fld w 25 6))
  | 0x86 => some (.phasec (fld w 25 6))
  | 0x90 => some (.tstart (fld w 25 6))
  | 0x91 => some (.twait (fld w 0 31))
  | 0x92 => some (if fld w 31 6 = 4#6 then .waitidLaunch (fld w 25 6) (fld w 0 25) else .waitid (fld w 31 6) (fld w 25 6) (fld w 0 25))
  | 0x93 => some (.waitq (fld w 31 6) (fld w 0 25))
  | 0x94 => some (if fld w 9 1 = 1#1 then .tbarSync (fld w 25 6) (fld w 0 7) (fld w 8 1) else .tbar (fld w 25 6) (fld w 0 7) (fld w 8 1))
  | 0x95 => some (.launch (fld w 31 6) (fld w 25 6) (fld w 0 1))
  | 0x96 => some (if fld w 24 1 = 1#1 then .yieldptHold (fld w 25 6) (fld w 0 24) else .yieldpt (fld w 31 6) (fld w 25 6) (fld w 0 24))
  | 0x97 => some (.csrr (fld w 31 6) (fld w 19 12))
  | 0x98 => some (.csrw (fld w 19 12) (fld w 13 6))
  | 0x99 => some (.syscall (fld w 0 13))
  | 0x9A => some (.hret)
  | 0x9B => some (.hesc)
  | _ => none

/-- The vector map (03 R89). -/
def parseVectorOnly (w : Word) : Option Instr :=
  match (fld w 37 8).toNat with
  | 0x01 => some (.vadd ⟨fld w 31 6, fld w 28 3, fld w 26 2, fld w 18 8, fld w 16 2, fld w 8 8, fld w 4 4, fld w 1 3, fld w 0 1⟩)
  | 0x02 => some (.vsub ⟨fld w 31 6, fld w 28 3, fld w 26 2, fld w 18 8, fld w 16 2, fld w 8 8, fld w 4 4, fld w 1 3, fld w 0 1⟩)
  | 0x03 => some (.vmul ⟨fld w 31 6, fld w 28 3, fld w 26 2, fld w 18 8, fld w 16 2, fld w 8 8, fld w 4 4, fld w 1 3, fld w 0 1⟩)
  | 0x04 => some (.vfma ⟨fld w 31 6, fld w 28 3, fld w 26 2, fld w 18 8, fld w 16 2, fld w 8 8, fld w 4 4, fld w 1 3, fld w 0 1⟩)
  | 0x05 => some (.vfms ⟨fld w 31 6, fld w 28 3, fld w 26 2, fld w 18 8, fld w 16 2, fld w 8 8, fld w 4 4, fld w 1 3, fld w 0 1⟩)
  | 0x06 => some (.vfnma ⟨fld w 31 6, fld w 28 3, fld w 26 2, fld w 18 8, fld w 16 2, fld w 8 8, fld w 4 4, fld w 1 3, fld w 0 1⟩)
  | 0x07 => some (.vmin ⟨fld w 31 6, fld w 28 3, fld w 26 2, fld w 18 8, fld w 16 2, fld w 8 8, fld w 4 4, fld w 1 3, fld w 0 1⟩)
  | 0x08 => some (.vmax ⟨fld w 31 6, fld w 28 3, fld w 26 2, fld w 18 8, fld w 16 2, fld w 8 8, fld w 4 4, fld w 1 3, fld w 0 1⟩)
  | 0x09 => some (.vabs ⟨fld w 31 6, fld w 28 3, fld w 26 2, fld w 18 8, fld w 4 4, fld w 1 3, fld w 0 1⟩)
  | 0x0A => some (.vneg ⟨fld w 31 6, fld w 28 3, fld w 26 2, fld w 18 8, fld w 4 4, fld w 1 3, fld w 0 1⟩)
  | 0x0B => some (.vdiv ⟨fld w 31 6, fld w 28 3, fld w 26 2, fld w 18 8, fld w 16 2, fld w 8 8, fld w 4 4, fld w 1 3, fld w 0 1⟩)
  | 0x0C => some (.vsqrt ⟨fld w 31 6, fld w 28 3, fld w 26 2, fld w 18 8, fld w 4 4, fld w 1 3, fld w 0 1⟩)
  | 0x0D => some (.vrcp ⟨fld w 31 6, fld w 28 3, fld w 26 2, fld w 18 8, fld w 4 4, fld w 1 3, fld w 0 1⟩)
  | 0x0E => some (.vrsq ⟨fld w 31 6, fld w 28 3, fld w 26 2, fld w 18 8, fld w 4 4, fld w 1 3, fld w 0 1⟩)
  | 0x0F => some (.vexp2 ⟨fld w 31 6, fld w 28 3, fld w 26 2, fld w 18 8, fld w 4 4, fld w 1 3, fld w 0 1⟩)
  | 0x10 => some (.vlog2 ⟨fld w 31 6, fld w 28 3, fld w 26 2, fld w 18 8, fld w 4 4, fld w 1 3, fld w 0 1⟩)
  | 0x20 => some (.vand ⟨fld w 31 6, fld w 28 3, fld w 26 2, fld w 18 8, fld w 16 2, fld w 8 8, fld w 4 4, fld w 1 3, fld w 0 1⟩)
  | 0x21 => some (.vor ⟨fld w 31 6, fld w 28 3, fld w 26 2, fld w 18 8, fld w 16 2, fld w 8 8, fld w 4 4, fld w 1 3, fld w 0 1⟩)
  | 0x22 => some (.vxor ⟨fld w 31 6, fld w 28 3, fld w 26 2, fld w 18 8, fld w 16 2, fld w 8 8, fld w 4 4, fld w 1 3, fld w 0 1⟩)
  | 0x23 => some (.vshl ⟨fld w 31 6, fld w 28 3, fld w 26 2, fld w 18 8, fld w 16 2, fld w 8 8, fld w 4 4, fld w 1 3, fld w 0 1⟩)
  | 0x24 => some (.vshr ⟨fld w 31 6, fld w 28 3, fld w 26 2, fld w 18 8, fld w 16 2, fld w 8 8, fld w 4 4, fld w 1 3, fld w 0 1⟩)
  | 0x25 => some (.vsra ⟨fld w 31 6, fld w 28 3, fld w 26 2, fld w 18 8, fld w 16 2, fld w 8 8, fld w 4 4, fld w 1 3, fld w 0 1⟩)
  | 0x26 => some (.vbext ⟨fld w 31 6, fld w 28 3, fld w 26 2, fld w 18 8, fld w 16 2, fld w 8 8, fld w 4 4, fld w 1 3, fld w 0 1⟩)
  | 0x27 => some (.vfsh ⟨fld w 31 6, fld w 28 3, fld w 26 2, fld w 18 8, fld w 16 2, fld w 8 8, fld w 4 4, fld w 1 3, fld w 0 1⟩)
  | 0x28 => some (.vpopc ⟨fld w 31 6, fld w 28 3, fld w 26 2, fld w 18 8, fld w 4 4, fld w 1 3, fld w 0 1⟩)
  | 0x29 => some (.vclz ⟨fld w 31 6, fld w 28 3, fld w 26 2, fld w 18 8, fld w 4 4, fld w 1 3, fld w 0 1⟩)
  | 0x30 => some (.vcmp ⟨fld w 31 4, fld w 28 3, fld w 26 2, fld w 18 8, fld w 16 2, fld w 8 8, fld w 4 4, fld w 0 4⟩)
  | 0x31 => some (.vsel ⟨fld w 31 6, fld w 28 3, fld w 26 2, fld w 18 8, fld w 16 2, fld w 8 8, fld w 4 4, fld w 1 3, fld w 0 1⟩)
  | 0x32 => some (.vpart ⟨fld w 31 6, fld w 28 3, fld w 26 2, fld w 18 8, fld w 16 2, fld w 8 8, fld w 4 4, fld w 1 3, fld w 0 1⟩)
  | 0x33 => some (.viota ⟨fld w 31 6, fld w 28 3, fld w 26 2, fld w 18 8, fld w 4 4, fld w 1 3, fld w 0 1⟩)
  | 0x34 => some (.vbcast ⟨fld w 31 6, fld w 28 3, fld w 26 2, fld w 18 8, fld w 16 2, fld w 8 8, fld w 4 4, fld w 1 3, fld w 0 1⟩)
  | 0x35 => some (.vperm ⟨fld w 31 6, fld w 28 3, fld w 26 2, fld w 18 8, fld w 16 2, fld w 8 8, fld w 4 4, fld w 1 3, fld w 0 1⟩)
  | 0x36 => some (.vmov ⟨fld w 31 6, fld w 28 3, fld w 26 2, fld w 18 8, fld w 4 4, fld w 1 3, fld w 0 1⟩)
  | 0x37 => some (.vextr ⟨fld w 31 5, fld w 28 3, fld w 26 2, fld w 18 8, fld w 16 2, fld w 8 8, fld w 4 4, fld w 1 3, fld w 0 1⟩)
  | 0x40 => some (.vcvt ⟨fld w 31 6, fld w 28 3, fld w 26 2, fld w 18 8, fld w 16 2, fld w 12 3, fld w 8 4, fld w 4 4, fld w 1 3, fld w 0 1⟩)
  | 0x41 => some (.vpack ⟨fld w 31 6, fld w 28 3, fld w 26 2, fld w 18 8, fld w 16 2, fld w 12 3, fld w 8 4, fld w 4 4, fld w 1 3, fld w 0 1⟩)
  | 0x42 => some (.vunpack ⟨fld w 31 6, fld w 28 3, fld w 26 2, fld w 18 8, fld w 16 2, fld w 12 3, fld w 8 4, fld w 4 4, fld w 1 3, fld w 0 1⟩)
  | 0x43 => some (.vquant ⟨fld w 31 6, fld w 28 3, fld w 26 2, fld w 18 8, fld w 16 2, fld w 12 3, fld w 8 4, fld w 4 4, fld w 1 3, fld w 0 1⟩)
  | 0x44 => some (.vdeq ⟨fld w 31 6, fld w 28 3, fld w 26 2, fld w 18 8, fld w 16 2, fld w 12 3, fld w 8 4, fld w 4 4, fld w 1 3, fld w 0 1⟩)
  | 0x50 => some (.vrsum ⟨fld w 31 6, fld w 28 3, fld w 26 2, fld w 18 8, fld w 12 6, fld w 9 3, fld w 8 1, fld w 4 4, fld w 1 3, fld w 0 1⟩)
  | 0x51 => some (.vrmax ⟨fld w 31 6, fld w 28 3, fld w 26 2, fld w 18 8, fld w 12 6, fld w 9 3, fld w 8 1, fld w 4 4, fld w 1 3, fld w 0 1⟩)
  | 0x52 => some (.vrmin ⟨fld w 31 6, fld w 28 3, fld w 26 2, fld w 18 8, fld w 12 6, fld w 9 3, fld w 8 1, fld w 4 4, fld w 1 3, fld w 0 1⟩)
  | 0x53 => some (.vscan ⟨fld w 31 6, fld w 28 3, fld w 26 2, fld w 18 8, fld w 12 6, fld w 9 3, fld w 8 1, fld w 4 4, fld w 1 3, fld w 0 1⟩)
  | 0x54 => some (.vrnorm ⟨fld w 31 6, fld w 28 3, fld w 26 2, fld w 18 8, fld w 12 6, fld w 9 3, fld w 8 1, fld w 4 4, fld w 1 3, fld w 0 1⟩)
  | 0x55 => some (.vrsmax ⟨fld w 31 6, fld w 28 3, fld w 26 2, fld w 18 8, fld w 12 6, fld w 9 3, fld w 8 1, fld w 4 4, fld w 1 3, fld w 0 1⟩)
  | 0x56 => some (.vldr ⟨fld w 31 6, fld w 28 3, fld w 22 6, fld w 8 14, fld w 4 4, fld w 3 1, fld w 0 3⟩)
  | 0x60 => some (.vld ⟨fld w 31 6, fld w 28 3, fld w 22 6, fld w 8 14, fld w 4 4, fld w 3 1⟩)
  | 0x61 => some (.vst ⟨fld w 31 6, fld w 28 3, fld w 22 6, fld w 8 14, fld w 4 4⟩)
  | 0x62 => some (.vlds ⟨fld w 31 6, fld w 28 3, fld w 22 6, fld w 16 6, fld w 4 4, fld w 3 1⟩)
  | 0x63 => some (.vsts ⟨fld w 31 6, fld w 28 3, fld w 22 6, fld w 16 6, fld w 4 4⟩)
  | 0x64 => some (.vgath ⟨fld w 31 6, fld w 28 3, fld w 22 6, fld w 16 6, fld w 4 4, fld w 3 1⟩)
  | 0x65 => some (.vscat ⟨fld w 31 6, fld w 28 3, fld w 22 6, fld w 16 6, fld w 4 4⟩)
  | _ => none

/-- The matrix map (03 R90). -/
def parseMatrixOnly (w : Word) : Option Instr :=
  match (fld w 37 8).toNat with
  | 0x01 => some (.mldt ⟨fld w 33 4, fld w 27 6, fld w 13 14, fld w 12 1⟩)
  | 0x02 => some (.mstt ⟨fld w 33 4, fld w 27 6, fld w 13 14⟩)
  | 0x03 => some (.mlds ⟨fld w 33 4, fld w 27 6, fld w 13 14, fld w 12 1⟩)
  | 0x04 => some (if fld w 27 4 = 1#4 then .mzeroRelease (fld w 31 4) else .mzero (fld w 35 2) (fld w 31 4) (fld w 27 4))
  | 0x05 => some (.mma ⟨fld w 35 2, fld w 31 4, fld w 27 4, fld w 16 3, fld w 15 1⟩)
  | 0x06 => some (.mmar ⟨fld w 35 2, fld w 31 4, fld w 27 4, fld w 24 3, fld w 21 3, fld w 19 2, fld w 16 3, fld w 15 1⟩)
  | 0x07 => some (.mout ⟨fld w 35 2, fld w 31 4, fld w 27 4, fld w 16 3, fld w 15 1⟩)
  | 0x08 => some (.moutq ⟨fld w 35 2, fld w 31 4, fld w 27 4, fld w 16 3, fld w 15 1⟩ (fld w 10 5))
  | 0x09 => some (.mlda ⟨fld w 33 4, fld w 27 6, fld w 13 14, fld w 12 1⟩)
  | 0x0A => some (.msta ⟨fld w 33 4, fld w 27 6, fld w 13 14⟩)
  | 0x0B => some (.mtrn (fld w 31 4) (fld w 27 4))
  | 0x0C => some (.mband (fld w 31 4) (fld w 27 4))
  | _ => none

/-- The copy map (03 R91). -/
def parseCopyOnly (w : Word) : Option Instr :=
  match (fld w 37 8).toNat with
  | 0x01 => some (.cpy ⟨fld w 35 2, fld w 34 1, fld w 28 6, fld w 22 6⟩ (fld w 14 1) (fld w 15 1))
  | 0x02 => some (.cpyr ⟨fld w 35 2, fld w 34 1, fld w 28 6, fld w 22 6⟩ (fld w 14 1) (fld w 15 1) (fld w 5 3))
  | 0x03 => some (.cgath ⟨fld w 35 2, fld w 34 1, fld w 28 6, fld w 22 6⟩ (fld w 15 1))
  | 0x04 => some (.cscat ⟨fld w 35 2, fld w 34 1, fld w 28 6, fld w 22 6⟩ (fld w 15 1))
  | 0x05 => some (.cbin ⟨fld w 35 2, fld w 34 1, fld w 28 6, fld w 22 6⟩ (fld w 15 1))
  | 0x06 => some (.csend ⟨fld w 35 2, fld w 34 1, fld w 28 6, fld w 22 6⟩ (fld w 14 1) (fld w 15 1) (fld w 8 6))
  | 0x07 => some (.crecvb ⟨fld w 35 2, fld w 34 1, fld w 28 6, fld w 22 6⟩ (fld w 8 6))
  | 0x08 => some (.cnmc ⟨fld w 35 2, fld w 34 1, fld w 28 6, fld w 22 6⟩)
  | 0x09 => some (.ccoll ⟨fld w 35 2, fld w 34 1, fld w 28 6, fld w 22 6⟩)
  | 0x0A => some (.cwait (fld w 35 2) (fld w 34 1) (fld w 28 6))
  | 0x0B => some (.cfence)
  | 0x0C => some (.cconst ⟨fld w 35 2, fld w 34 1, fld w 28 6, fld w 22 6⟩)
  | _ => none

/-- NOP and the stream-control opcodes of the engine streams (03 R92); FMTLD and RETIRE are limited by `parse`. -/
def parseControl (w : Word) : Option Instr :=
  match (fld w 37 8).toNat with
  | 0x00 => some (.nop)
  | 0xF0 => some (.loop (fld w 36 1) (countField w) (fld w 10 9))
  | 0xF1 => some (.loops (fld w 36 1) (countField w) (fld w 10 9) (fld w 7 3) (fld w 0 7))
  | 0xF2 => some (.endStream)
  | 0xF3 => some (if fld w 36 1 = 0#1 then .setvc (.count (countField w)) else .setvc (.shape (fld w 0 3)))
  | 0xF4 => some (.fmtld (fld w 31 6))
  | 0xF5 => some (.engineTwait (fld w 0 31))
  | 0xF6 => some (.waitf (fld w 35 2) (fld w 28 7) (fld w 0 28))
  | 0xF7 => some (.retire)
  | _ => none

/-- The crossing map (03 R93). -/
def parseCrossing (w : Word) : Option Instr :=
  match (fld w 37 8).toNat with
  | 0x00 => some (.nop)
  | 0x01 => some (.xest (fld w 31 6) (fld w 23 8) (fld w 15 8))
  | 0x02 => some (.xestm (fld w 31 6) (fld w 23 8) (fld w 20 3) (fld w 0 20))
  | 0x03 => some (.xdrop (fld w 31 6))
  | 0x04 => some (if fld w 36 1 = 1#1 then .xstepAt (fld w 0 36) else .xstep (fld w 0 36))
  | 0x05 => some (.xhour (fld w 33 4))
  | 0x06 => some (.xrelay (fld w 31 6) (fld w 23 8) (fld w 21 2))
  | 0x07 => some (.xgroup (fld w 31 6) (fld w 23 8))
  | 0x08 => some (.xwin (fld w 31 6) (fld w 0 31))
  | 0x09 => some (.xloop (fld w 21 16) (fld w 0 21))
  | 0x0A => some (.xjmp (fld w 0 37))
  | 0x0B => some (.xend)
  | 0x0C => some (.xretrain (fld w 29 8))
  | _ => none

/-- The instruction a word's opcode and fields name in a stream's map, before the reserved bits are checked. -/
def parse (st : Stream) (w : Word) : Option Instr :=
  match st with
  | .helm => parseHelm w
  | .vector => if fld w 37 8 = 0xF7#8 then none else (parseVectorOnly w).or (parseControl w)
  | .matrix => (parseMatrixOnly w).or (parseControl w)
  | .copy => if fld w 37 8 = 0xF7#8 ∨ fld w 37 8 = 0xF4#8 then none else (parseCopyOnly w).or (parseControl w)
  | .crossing => parseCrossing w

/-- The word of an instruction, with IDLE 0 and no guard. An event has no word. -/
def encode : Instr → Word
  | .add rd ra rb => enc 0x01#8 (rd ++ ra ++ rb ++ 0#19)
  | .sub rd ra rb => enc 0x02#8 (rd ++ ra ++ rb ++ 0#19)
  | .and rd ra rb => enc 0x03#8 (rd ++ ra ++ rb ++ 0#19)
  | .or rd ra rb => enc 0x04#8 (rd ++ ra ++ rb ++ 0#19)
  | .xor rd ra rb => enc 0x05#8 (rd ++ ra ++ rb ++ 0#19)
  | .andn rd ra rb => enc 0x06#8 (rd ++ ra ++ rb ++ 0#19)
  | .sll rd ra rb => enc 0x07#8 (rd ++ ra ++ rb ++ 0#19)
  | .srl rd ra rb => enc 0x08#8 (rd ++ ra ++ rb ++ 0#19)
  | .sra rd ra rb => enc 0x09#8 (rd ++ ra ++ rb ++ 0#19)
  | .mul rd ra rb => enc 0x0A#8 (rd ++ ra ++ rb ++ 0#19)
  | .mulh rd ra rb => enc 0x0B#8 (rd ++ ra ++ rb ++ 0#19)
  | .mulhu rd ra rb => enc 0x0C#8 (rd ++ ra ++ rb ++ 0#19)
  | .div rd ra rb => enc 0x0D#8 (rd ++ ra ++ rb ++ 0#19)
  | .divu rd ra rb => enc 0x0E#8 (rd ++ ra ++ rb ++ 0#19)
  | .rem rd ra rb => enc 0x0F#8 (rd ++ ra ++ rb ++ 0#19)
  | .remu rd ra rb => enc 0x10#8 (rd ++ ra ++ rb ++ 0#19)
  | .addi rd ra imm => enc 0x18#8 (rd ++ ra ++ imm)
  | .andi rd ra imm => enc 0x19#8 (rd ++ ra ++ imm)
  | .ori rd ra imm => enc 0x1A#8 (rd ++ ra ++ imm)
  | .xori rd ra imm => enc 0x1B#8 (rd ++ ra ++ imm)
  | .slli rd ra imm => enc 0x1C#8 (rd ++ ra ++ imm)
  | .srli rd ra imm => enc 0x1D#8 (rd ++ ra ++ imm)
  | .srai rd ra imm => enc 0x1E#8 (rd ++ ra ++ imm)
  | .ldi rd imm => enc 0x1F#8 (rd ++ imm)
  | .seth rd imm => enc 0x20#8 (rd ++ imm)
  | .slt rd ra rb => enc 0x21#8 (rd ++ ra ++ rb ++ 0#19)
  | .sltu rd ra rb => enc 0x22#8 (rd ++ ra ++ rb ++ 0#19)
  | .slti rd ra imm => enc 0x23#8 (rd ++ ra ++ imm)
  | .min rd ra rb => enc 0x24#8 (rd ++ ra ++ rb ++ 0#19)
  | .max rd ra rb => enc 0x25#8 (rd ++ ra ++ rb ++ 0#19)
  | .minu rd ra rb => enc 0x26#8 (rd ++ ra ++ rb ++ 0#19)
  | .maxu rd ra rb => enc 0x27#8 (rd ++ ra ++ rb ++ 0#19)
  | .clz rd ra => enc 0x30#8 (rd ++ ra ++ 0#25)
  | .ctz rd ra => enc 0x31#8 (rd ++ ra ++ 0#25)
  | .popc rd ra => enc 0x32#8 (rd ++ ra ++ 0#25)
  | .brev rd ra => enc 0x33#8 (rd ++ ra ++ 0#25)
  | .bext rd ra pos len => enc 0x34#8 (rd ++ ra ++ 0#6 ++ pos ++ len ++ 0#6)
  | .bexts rd ra pos len => enc 0x35#8 (rd ++ ra ++ 0#6 ++ pos ++ len ++ 0#6)
  | .bins rd ra pos len => enc 0x36#8 (rd ++ ra ++ 0#6 ++ pos ++ len ++ 0#6)
  | .fshl o => enc 0x37#8 (o.rd ++ o.ra ++ o.rb ++ o.pos ++ o.len ++ 0#6)
  | .fshr o => enc 0x38#8 (o.rd ++ o.ra ++ o.rb ++ o.pos ++ o.len ++ 0#6)
  | .cmpeq pd ra src => enc 0x40#8 (pd ++ ra ++ cmpBits src)
  | .cmpne pd ra src => enc 0x41#8 (pd ++ ra ++ cmpBits src)
  | .cmplt pd ra src => enc 0x42#8 (pd ++ ra ++ cmpBits src)
  | .cmpltu pd ra src => enc 0x43#8 (pd ++ ra ++ cmpBits src)
  | .cmple pd ra src => enc 0x44#8 (pd ++ ra ++ cmpBits src)
  | .cmpleu pd ra src => enc 0x45#8 (pd ++ ra ++ cmpBits src)
  | .pand pd pa pb => enc 0x46#8 (pd ++ pa ++ pb ++ 0#16)
  | .por pd pa pb => enc 0x47#8 (pd ++ pa ++ pb ++ 0#16)
  | .pxor pd pa pb => enc 0x48#8 (pd ++ pa ++ pb ++ 0#16)
  | .pnot pd pa => enc 0x49#8 (pd ++ pa ++ 0#23)
  | .pset pd v => enc 0x4A#8 (pd ++ 0#7 ++ v ++ 0#16)
  | .pclr pd => enc 0x4B#8 (pd ++ 0#30)
  | .ptos pd ra => enc 0x4C#8 (pd ++ ra ++ 0#24)
  | .pfrom pd ra => enc 0x4D#8 (pd ++ ra ++ 0#24)
  | .br off => enc 0x50#8 (0#7 ++ off)
  | .brt pr off => enc 0x51#8 (pr ++ off)
  | .brf pr off => enc 0x52#8 (pr ++ off)
  | .brtn pr off => enc 0x53#8 (pr ++ off)
  | .brfn pr off => enc 0x54#8 (pr ++ off)
  | .jmpr ra => enc 0x55#8 (0#6 ++ ra ++ 0#25)
  | .call off => enc 0x56#8 (0#7 ++ off)
  | .callr ra => enc 0x57#8 (0#6 ++ ra ++ 0#25)
  | .ret => enc 0x58#8 (0#37)
  | .trap imm => enc 0x59#8 (0#6 ++ imm)
  | .exit => enc 0x5A#8 (0#37)
  | .ld8 o => enc 0x60#8 (o.rt ++ o.rb ++ o.ac ++ o.off)
  | .ld8s o => enc 0x61#8 (o.rt ++ o.rb ++ o.ac ++ o.off)
  | .ld16 o => enc 0x62#8 (o.rt ++ o.rb ++ o.ac ++ o.off)
  | .ld16s o => enc 0x63#8 (o.rt ++ o.rb ++ o.ac ++ o.off)
  | .ld32 o => enc 0x64#8 (o.rt ++ o.rb ++ o.ac ++ o.off)
  | .ld32s o => enc 0x65#8 (o.rt ++ o.rb ++ o.ac ++ o.off)
  | .ld64 o => enc 0x66#8 (o.rt ++ o.rb ++ o.ac ++ o.off)
  | .st8 o => enc 0x67#8 (o.rt ++ o.rb ++ o.ac ++ o.off)
  | .st16 o => enc 0x68#8 (o.rt ++ o.rb ++ o.ac ++ o.off)
  | .st32 o => enc 0x69#8 (o.rt ++ o.rb ++ o.ac ++ o.off)
  | .st64 o => enc 0x6A#8 (o.rt ++ o.rb ++ o.ac ++ o.off)
  | .ldc rd ra imm => enc 0x6B#8 (rd ++ ra ++ imm)
  | .qsend qn ra rb => enc 0x6C#8 (qn ++ ra ++ rb ++ 0#19)
  | .qrecv rd qn => enc 0x6D#8 (rd ++ qn ++ 0#25)
  | .qpeek rd qn => enc 0x6E#8 (rd ++ qn ++ 0#25)
  | .aadd rd ra rb => enc 0x70#8 (rd ++ ra ++ rb ++ 0#19)
  | .aaddf rd ra rb => enc 0x71#8 (rd ++ ra ++ rb ++ 0#19)
  | .aswap rd ra rb => enc 0x72#8 (rd ++ ra ++ rb ++ 0#19)
  | .acas rd ra rb => enc 0x73#8 (rd ++ ra ++ rb ++ 0#19)
  | .amin rd ra rb => enc 0x74#8 (rd ++ ra ++ rb ++ 0#19)
  | .amax rd ra rb => enc 0x75#8 (rd ++ ra ++ rb ++ 0#19)
  | .abump rd ra rb => enc 0x76#8 (rd ++ ra ++ rb ++ 0#19)
  | .fence scope => enc 0x77#8 (0#24 ++ scope)
  | .bind rd ra rb => enc 0x78#8 (rd ++ ra ++ rb ++ 0#19)
  | .acq ra => enc 0x79#8 (0#6 ++ ra ++ 0#25)
  | .rel ra => enc 0x7A#8 (0#6 ++ ra ++ 0#25)
  | .mstore rd ra rb => enc 0x7B#8 (rd ++ ra ++ rb ++ 0#19)
  | .mwait ra g => enc 0x7C#8 (0#6 ++ ra ++ g)
  | .taglk rd ra => enc 0x80#8 (rd ++ ra ++ 0#25)
  | .tagset ra rb => enc 0x81#8 (0#6 ++ ra ++ rb ++ 0#19)
  | .tagclr ra => enc 0x82#8 (0#6 ++ ra ++ 0#25)
  | .shld z ra => enc 0x83#8 (z ++ ra ++ 0#25)
  | .shinv z => enc 0x84#8 (z ++ 0#31)
  | .phaseb ra => enc 0x85#8 (0#6 ++ ra ++ 0#25)
  | .phasec ra => enc 0x86#8 (0#6 ++ ra ++ 0#25)
  | .tstart ra => enc 0x90#8 (0#6 ++ ra ++ 0#25)
  | .twait n => enc 0x91#8 (0#6 ++ n)
  | .waitid ch ra n => enc 0x92#8 (ch ++ ra ++ n)
  | .waitidLaunch ra n => enc 0x92#8 (4#6 ++ ra ++ n)
  | .waitq qn n => enc 0x93#8 (qn ++ 0#6 ++ n)
  | .tbar ra desc dl => enc 0x94#8 (0#6 ++ ra ++ 0#15 ++ 0#1 ++ dl ++ 0#1 ++ desc)
  | .tbarSync ra desc dl => enc 0x94#8 (0#6 ++ ra ++ 0#15 ++ 1#1 ++ dl ++ 0#1 ++ desc)
  | .launch rd ra joined => enc 0x95#8 (rd ++ ra ++ 0#24 ++ joined)
  | .yieldpt rd ra n => enc 0x96#8 (rd ++ ra ++ 0#1 ++ n)
  | .yieldptHold ra n => enc 0x96#8 (0#6 ++ ra ++ 1#1 ++ n)
  | .csrr rd csr => enc 0x97#8 (rd ++ csr ++ 0#19)
  | .csrw csr ra => enc 0x98#8 (0#6 ++ csr ++ ra ++ 0#13)
  | .syscall n => enc 0x99#8 (0#24 ++ n)
  | .hret => enc 0x9A#8 (0#37)
  | .hesc => enc 0x9B#8 (0#37)
  | .vadd o => enc 0x01#8 (o.vd ++ o.t ++ o.ka ++ o.a ++ o.kb ++ o.b ++ o.msk ++ o.rm ++ o.sat)
  | .vsub o => enc 0x02#8 (o.vd ++ o.t ++ o.ka ++ o.a ++ o.kb ++ o.b ++ o.msk ++ o.rm ++ o.sat)
  | .vmul o => enc 0x03#8 (o.vd ++ o.t ++ o.ka ++ o.a ++ o.kb ++ o.b ++ o.msk ++ o.rm ++ o.sat)
  | .vfma o => enc 0x04#8 (o.vd ++ o.t ++ o.ka ++ o.a ++ o.kb ++ o.b ++ o.msk ++ o.rm ++ o.sat)
  | .vfms o => enc 0x05#8 (o.vd ++ o.t ++ o.ka ++ o.a ++ o.kb ++ o.b ++ o.msk ++ o.rm ++ o.sat)
  | .vfnma o => enc 0x06#8 (o.vd ++ o.t ++ o.ka ++ o.a ++ o.kb ++ o.b ++ o.msk ++ o.rm ++ o.sat)
  | .vmin o => enc 0x07#8 (o.vd ++ o.t ++ o.ka ++ o.a ++ o.kb ++ o.b ++ o.msk ++ o.rm ++ o.sat)
  | .vmax o => enc 0x08#8 (o.vd ++ o.t ++ o.ka ++ o.a ++ o.kb ++ o.b ++ o.msk ++ o.rm ++ o.sat)
  | .vabs o => enc 0x09#8 (o.vd ++ o.t ++ o.ka ++ o.a ++ 0#10 ++ o.msk ++ o.rm ++ o.sat)
  | .vneg o => enc 0x0A#8 (o.vd ++ o.t ++ o.ka ++ o.a ++ 0#10 ++ o.msk ++ o.rm ++ o.sat)
  | .vdiv o => enc 0x0B#8 (o.vd ++ o.t ++ o.ka ++ o.a ++ o.kb ++ o.b ++ o.msk ++ o.rm ++ o.sat)
  | .vsqrt o => enc 0x0C#8 (o.vd ++ o.t ++ o.ka ++ o.a ++ 0#10 ++ o.msk ++ o.rm ++ o.sat)
  | .vrcp o => enc 0x0D#8 (o.vd ++ o.t ++ o.ka ++ o.a ++ 0#10 ++ o.msk ++ o.rm ++ o.sat)
  | .vrsq o => enc 0x0E#8 (o.vd ++ o.t ++ o.ka ++ o.a ++ 0#10 ++ o.msk ++ o.rm ++ o.sat)
  | .vexp2 o => enc 0x0F#8 (o.vd ++ o.t ++ o.ka ++ o.a ++ 0#10 ++ o.msk ++ o.rm ++ o.sat)
  | .vlog2 o => enc 0x10#8 (o.vd ++ o.t ++ o.ka ++ o.a ++ 0#10 ++ o.msk ++ o.rm ++ o.sat)
  | .vand o => enc 0x20#8 (o.vd ++ o.t ++ o.ka ++ o.a ++ o.kb ++ o.b ++ o.msk ++ o.rm ++ o.sat)
  | .vor o => enc 0x21#8 (o.vd ++ o.t ++ o.ka ++ o.a ++ o.kb ++ o.b ++ o.msk ++ o.rm ++ o.sat)
  | .vxor o => enc 0x22#8 (o.vd ++ o.t ++ o.ka ++ o.a ++ o.kb ++ o.b ++ o.msk ++ o.rm ++ o.sat)
  | .vshl o => enc 0x23#8 (o.vd ++ o.t ++ o.ka ++ o.a ++ o.kb ++ o.b ++ o.msk ++ o.rm ++ o.sat)
  | .vshr o => enc 0x24#8 (o.vd ++ o.t ++ o.ka ++ o.a ++ o.kb ++ o.b ++ o.msk ++ o.rm ++ o.sat)
  | .vsra o => enc 0x25#8 (o.vd ++ o.t ++ o.ka ++ o.a ++ o.kb ++ o.b ++ o.msk ++ o.rm ++ o.sat)
  | .vbext o => enc 0x26#8 (o.vd ++ o.t ++ o.ka ++ o.a ++ o.kb ++ o.b ++ o.msk ++ o.rm ++ o.sat)
  | .vfsh o => enc 0x27#8 (o.vd ++ o.t ++ o.ka ++ o.a ++ o.kb ++ o.b ++ o.msk ++ o.rm ++ o.sat)
  | .vpopc o => enc 0x28#8 (o.vd ++ o.t ++ o.ka ++ o.a ++ 0#10 ++ o.msk ++ o.rm ++ o.sat)
  | .vclz o => enc 0x29#8 (o.vd ++ o.t ++ o.ka ++ o.a ++ 0#10 ++ o.msk ++ o.rm ++ o.sat)
  | .vcmp o => enc 0x30#8 (0#2 ++ o.kd ++ o.t ++ o.ka ++ o.a ++ o.kb ++ o.b ++ o.msk ++ o.cc)
  | .vsel o => enc 0x31#8 (o.vd ++ o.t ++ o.ka ++ o.a ++ o.kb ++ o.b ++ o.msk ++ o.rm ++ o.sat)
  | .vpart o => enc 0x32#8 (o.vd ++ o.t ++ o.ka ++ o.a ++ o.kb ++ o.b ++ o.msk ++ o.rm ++ o.sat)
  | .viota o => enc 0x33#8 (o.vd ++ o.t ++ o.ka ++ o.a ++ 0#10 ++ o.msk ++ o.rm ++ o.sat)
  | .vbcast o => enc 0x34#8 (o.vd ++ o.t ++ o.ka ++ o.a ++ o.kb ++ o.b ++ o.msk ++ o.rm ++ o.sat)
  | .vperm o => enc 0x35#8 (o.vd ++ o.t ++ o.ka ++ o.a ++ o.kb ++ o.b ++ o.msk ++ o.rm ++ o.sat)
  | .vmov o => enc 0x36#8 (o.vd ++ o.t ++ o.ka ++ o.a ++ 0#10 ++ o.msk ++ o.rm ++ o.sat)
  | .vextr o => enc 0x37#8 (0#1 ++ o.qd ++ o.t ++ o.ka ++ o.a ++ o.kb ++ o.b ++ o.msk ++ o.rm ++ o.sat)
  | .vcvt o => enc 0x40#8 (o.vd ++ o.t ++ o.ka ++ o.a ++ o.kb ++ 0#1 ++ o.p ++ o.s ++ o.msk ++ o.rm ++ o.sat)
  | .vpack o => enc 0x41#8 (o.vd ++ o.t ++ o.ka ++ o.a ++ o.kb ++ 0#1 ++ o.p ++ o.s ++ o.msk ++ o.rm ++ o.sat)
  | .vunpack o => enc 0x42#8 (o.vd ++ o.t ++ o.ka ++ o.a ++ o.kb ++ 0#1 ++ o.p ++ o.s ++ o.msk ++ o.rm ++ o.sat)
  | .vquant o => enc 0x43#8 (o.vd ++ o.t ++ o.ka ++ o.a ++ o.kb ++ 0#1 ++ o.p ++ o.s ++ o.msk ++ o.rm ++ o.sat)
  | .vdeq o => enc 0x44#8 (o.vd ++ o.t ++ o.ka ++ o.a ++ o.kb ++ 0#1 ++ o.p ++ o.s ++ o.msk ++ o.rm ++ o.sat)
  | .vrsum o => enc 0x50#8 (o.vd ++ o.t ++ o.ka ++ o.a ++ o.eq ++ o.zs ++ o.sg ++ o.msk ++ o.rm ++ o.sat)
  | .vrmax o => enc 0x51#8 (o.vd ++ o.t ++ o.ka ++ o.a ++ o.eq ++ o.zs ++ o.sg ++ o.msk ++ o.rm ++ o.sat)
  | .vrmin o => enc 0x52#8 (o.vd ++ o.t ++ o.ka ++ o.a ++ o.eq ++ o.zs ++ o.sg ++ o.msk ++ o.rm ++ o.sat)
  | .vscan o => enc 0x53#8 (o.vd ++ o.t ++ o.ka ++ o.a ++ o.eq ++ o.zs ++ o.sg ++ o.msk ++ o.rm ++ o.sat)
  | .vrnorm o => enc 0x54#8 (o.vd ++ o.t ++ o.ka ++ o.a ++ o.eq ++ o.zs ++ o.sg ++ o.msk ++ o.rm ++ o.sat)
  | .vrsmax o => enc 0x55#8 (o.vd ++ o.t ++ o.ka ++ o.a ++ o.eq ++ o.zs ++ o.sg ++ o.msk ++ o.rm ++ o.sat)
  | .vldr o => enc 0x56#8 (o.vd ++ o.t ++ o.sb ++ o.off ++ o.msk ++ o.tg ++ o.zs)
  | .vld o => enc 0x60#8 (o.vd ++ o.t ++ o.sb ++ o.off ++ o.msk ++ o.tg ++ 0#3)
  | .vst o => enc 0x61#8 (o.vd ++ o.t ++ o.sb ++ o.off ++ o.msk ++ 0#4)
  | .vlds o => enc 0x62#8 (o.vd ++ o.t ++ o.sb ++ o.sx ++ 0#8 ++ o.msk ++ o.tg ++ 0#3)
  | .vsts o => enc 0x63#8 (o.vd ++ o.t ++ o.sb ++ o.sx ++ 0#8 ++ o.msk ++ 0#4)
  | .vgath o => enc 0x64#8 (o.vd ++ o.t ++ o.sb ++ o.sx ++ 0#8 ++ o.msk ++ o.tg ++ 0#3)
  | .vscat o => enc 0x65#8 (o.vd ++ o.t ++ o.sb ++ o.sx ++ 0#8 ++ o.msk ++ 0#4)
  | .mldt o => enc 0x01#8 (o.d ++ o.sb ++ o.off ++ o.tg ++ 0#12)
  | .mstt o => enc 0x02#8 (o.d ++ o.sb ++ o.off ++ 0#13)
  | .mlds o => enc 0x03#8 (o.d ++ o.sb ++ o.off ++ o.tg ++ 0#12)
  | .mzero ad ta tb => enc 0x04#8 (ad ++ ta ++ tb ++ 0#27)
  | .mzeroRelease ta => enc 0x04#8 (0#2 ++ ta ++ 1#4 ++ 0#27)
  | .mma o => enc 0x05#8 (o.ad ++ o.ta ++ o.tb ++ 0#8 ++ o.rm ++ o.sat ++ 0#15)
  | .mmar o => enc 0x06#8 (o.ad ++ o.ta ++ o.tb ++ o.za ++ o.zb ++ o.mv ++ o.rm ++ o.sat ++ 0#15)
  | .mout o => enc 0x07#8 (o.ad ++ o.ta ++ o.tb ++ 0#8 ++ o.rm ++ o.sat ++ 0#15)
  | .moutq o qd => enc 0x08#8 (o.ad ++ o.ta ++ o.tb ++ 0#8 ++ o.rm ++ o.sat ++ qd ++ 0#10)
  | .mlda o => enc 0x09#8 (o.d ++ o.sb ++ o.off ++ o.tg ++ 0#12)
  | .msta o => enc 0x0A#8 (o.d ++ o.sb ++ o.off ++ 0#13)
  | .mtrn ta tb => enc 0x0B#8 (0#2 ++ ta ++ tb ++ 0#27)
  | .mband ta tb => enc 0x0C#8 (0#2 ++ ta ++ tb ++ 0#27)
  | .cpy o zr nt => enc 0x01#8 (o.ch ++ o.kg ++ o.rg ++ o.idq ++ 0#6 ++ nt ++ zr ++ 0#14)
  | .cpyr o zr nt zs => enc 0x02#8 (o.ch ++ o.kg ++ o.rg ++ o.idq ++ 0#6 ++ nt ++ zr ++ 0#6 ++ zs ++ 0#5)
  | .cgath o nt => enc 0x03#8 (o.ch ++ o.kg ++ o.rg ++ o.idq ++ 0#6 ++ nt ++ 0#15)
  | .cscat o nt => enc 0x04#8 (o.ch ++ o.kg ++ o.rg ++ o.idq ++ 0#6 ++ nt ++ 0#15)
  | .cbin o nt => enc 0x05#8 (o.ch ++ o.kg ++ o.rg ++ o.idq ++ 0#6 ++ nt ++ 0#15)
  | .csend o zr nt hd => enc 0x06#8 (o.ch ++ o.kg ++ o.rg ++ o.idq ++ 0#6 ++ nt ++ zr ++ hd ++ 0#8)
  | .crecvb o hd => enc 0x07#8 (o.ch ++ o.kg ++ o.rg ++ o.idq ++ 0#8 ++ hd ++ 0#8)
  | .cnmc o => enc 0x08#8 (o.ch ++ o.kg ++ o.rg ++ o.idq ++ 0#22)
  | .ccoll o => enc 0x09#8 (o.ch ++ o.kg ++ o.rg ++ o.idq ++ 0#22)
  | .cwait ch kg rg => enc 0x0A#8 (ch ++ kg ++ rg ++ 0#28)
  | .cfence => enc 0x0B#8 (0#37)
  | .cconst o => enc 0x0C#8 (o.ch ++ o.kg ++ o.rg ++ o.idq ++ 0#22)
  | .loop lv n len => enc 0xF0#8 (lv ++ countBits n ++ len ++ 0#10)
  | .loops lv n len stg ps => enc 0xF1#8 (lv ++ countBits n ++ len ++ stg ++ ps)
  | .endStream => enc 0xF2#8 (0#37)
  | .setvc src => enc 0xF3#8 (vcBits src)
  | .fmtld sb => enc 0xF4#8 (sb ++ 0#31)
  | .engineTwait n => enc 0xF5#8 (0#6 ++ n)
  | .waitf rk rn n => enc 0xF6#8 (rk ++ rn ++ n)
  | .retire => enc 0xF7#8 (0#37)
  | .xest h sl dl => enc 0x01#8 (h ++ sl ++ dl ++ 0#15)
  | .xestm h sl nd list => enc 0x02#8 (h ++ sl ++ nd ++ list)
  | .xdrop h => enc 0x03#8 (h ++ 0#31)
  | .xstep n => enc 0x04#8 (0#1 ++ n)
  | .xstepAt n => enc 0x04#8 (1#1 ++ n)
  | .xhour hr => enc 0x05#8 (hr ++ 0#33)
  | .xrelay h pk fl => enc 0x06#8 (h ++ pk ++ fl ++ 0#21)
  | .xgroup g pk => enc 0x07#8 (g ++ pk ++ 0#23)
  | .xwin h len => enc 0x08#8 (h ++ len)
  | .xloop n off => enc 0x09#8 (n ++ off)
  | .xjmp off => enc 0x0A#8 (off)
  | .xend => enc 0x0B#8 (0#37)
  | .xretrain l => enc 0x0C#8 (l ++ 0#29)
  | .nop => enc 0x00#8 (0#37)
  | .resultLanding => 0
  | .deadlineReached => 0
  | .elasticWaitEnd => 0
  | .quietDeadlock => 0
  | .retirementBoundExceeded => 0
  | .barrierRelease => 0
  | .shapeLoadLanding => 0
  | .qsendArrival => 0
  | .helmAccessAtHome => 0
  | .accessWindowExpiry => 0
  | .acqLanding => 0
  | .relIncrement => 0
  | .fenceComplete => 0
  | .translationResult => 0
  | .copyTranslation => 0
  | .copyCompletion => 0
  | .snapshotCopyOnWrite => 0
  | .nmupd => 0
  | .nmaxpby => 0
  | .nmred => 0
  | .nmcpy => 0
  | .nmfill => 0
  | .nearMemoryCompletion => 0
  | .csendDelivery => 0
  | .csendAck => 0
  | .handleLive => 0
  | .drainEnd => 0
  | .windowEnd => 0
  | .flitReceive => 0
  | .replayRequest => 0
  | .flitAck => 0
  | .retrainingPause => 0
  | .pauseBoundExceeded => 0
  | .backpressureLimit => 0
  | .retrainingPauseEnd => 0
  | .laserPowerLow => 0
  | .ringTuningOutOfRange => 0
  | .bringUpStageEnd => 0
  | .bringUpTimeout => 0
  | .dawnPulse => 0
  | .daycCorrection => 0
  | .holdoverStart => 0
  | .holdoverExpiry => 0
  | .xhourEnd => 0
  | .serviceMessage => 0
  | .relayArrival => 0
  | .relayForward => 0
  | .relayTimeout => 0
  | .orderPointStamp => 0
  | .mstoreAck => 0
  | .multicastApply => 0
  | .orderGap => 0
  | .memberResend => 0
  | .xgroupAck => 0
  | .launchPacket => 0
  | .noopPacket => 0
  | .placementTurn => 0
  | .poolEntryFreed => 0
  | .agingStep => 0
  | .heldCandidate => 0
  | .startBroadcast => 0
  | .launchRetirement => 0
  | .completionRecord => 0
  | .preemptionStop => 0
  | .preemptedResume => 0
  | .trapResume => 0
  | .eventRecord => 0
  | .msixInterrupt => 0
  | .trapDelivery => 0
  | .interruptTaken => 0
  | .phaseRerun => 0
  | .thermalOrPower => 0
  | .clockChange => 0
  | .clockRestore => 0
  | .thermalTrap => 0
  | .rotationScanStep => 0
  | .rotationMigration => 0
  | .scanPass => 0
  | .scanFail => 0
  | .snapshotBeginPoint => 0
  | .snapshotDrain => 0
  | .snapshotCommit => 0
  | .snapshotRestoreEnd => 0
  | .sncmdRestore => 0
  | .sncmdCommitUnverified => 0
  | .sncmdBegin => 0
  | .patrolScrub => 0
  | .localStoreScrub => 0
  | .misraGriesActivation => 0
  | .refreshWindow => 0
  | .correctedCountHour => 0
  | .eyeMarginMeasurement => 0
  | .hpcout => 0
  | .heyemin => 0
  | .coldBoot => 0
  | .warmReset => 0
  | .collectiveDigest => 0
  | .collectiveSum => 0
  | .collectiveMax => 0
  | .collectiveMin => 0
  | .collectiveMove => 0
  | .deadlineRelease => 0
  | .chunkRerun => 0
  | .collectiveCompletion => 0
  | .collectiveDeadline => 0
  | .memberLost => 0
  | .shootdownComplete => 0
  | .peerUnreachable => 0
  | .pendingInvalidationReplay => 0
  | .remoteAccessRequest => 0
  | .bar2Access => 0
  | .hostFetchadd => 0
  | .pshoot => 0
  | .presume => 0
  | .pterm => 0
  | .ppre => 0
  | .pintr => 0
  | .ptrapq => 0
  | .pcdat => 0
  | .pgrantLanding => 0
  | .prevokeLanding => 0
  | .pgrantHandle => 0
  | .prevokeHandle => 0
  | .pgrantGroup => 0
  | .prevokeGroup => 0
  | .pgrantQuay => 0
  | .prevokeQuay => 0
  | .registerWrite => 0
  | .unassignedOpcode => 0
  | .supervisorRetrain => 0
  | .groupTableWrite => 0
  | .bar0Access => 0
  | .contextRootChange => 0

/-- Decoding in a stream: R36 row 1, R68, R69, R87. An opcode the map does not list is reported before reserved bits. -/
def decode (st : Stream) (w : Word) : Except DecodeError Decoded :=
  match parse st w with
  | none => .error .unassignedOpcode
  | some i =>
    if fld (encode i) 0 37 ≠ fld w 0 37 then .error .reservedBits
    else if i.operandsOk = false then .error .reservedBits
    else if fld w 52 2 = 3#2 then .error .reservedBits
    else if fld w 52 2 = 0#2 ∧ fld w 45 7 ≠ 0#7 then .error .reservedBits
    else if st = .crossing ∧ fld w 52 2 ≠ 0#2 then .error .reservedBits
    else .ok { idle := fld w 54 10, gm := fld w 52 2, gp := fld w 45 7, instr := i }

/-- The word with the common fields of a decoded instruction (03 R68). -/
def encodeDecoded (d : Decoded) : Word :=
  d.idle ++ d.gm ++ d.gp ++ fld (encode d.instr) 0 45

/-- The stream that `decodeTableWord` and `State.withFetchWord` take a numbered word for: bits above 63 name it, in the
order of 02 R28, so that a plain 64-bit word is a helm word (DESIGN CHOICE, notes/assumptions/45.md). -/
def tableStream (w : Nat) : Stream :=
  match w / 2 ^ 64 % 8 with
  | 1 => .vector
  | 2 => .matrix
  | 3 => .copy
  | 4 => .crossing
  | _ => .helm

/-- The instruction this decoder reads from a word whose bits are `w`. Every instruction of this machine is one word. -/
def decodeTableWord (_nbits w : Nat) : Option Instr :=
  match decode (tableStream w) (BitVec.ofNat 64 w) with
  | .ok d => some d.instr
  | .error _ => none

end Sys2Proof
end

