-- ==== Sys2Proof/Machine/Fetch.lean ====
section
/-! DEFINITION. Fetching the words of a stream's image (03 R71, 05 R145, 13 R391). -/

namespace Sys2Proof.Machine

/-- What a fetch gives: a word, or the cause of its fault. -/
inductive Fetched where
  | word (w : Word)
  | fault (code : Nat)
  deriving DecidableEq, Repr

/-- The key in memory of a virtual address of a launch, through its pinned pages. -/
def State.pinned (l : Launch) (a : Nat) : Option Nat :=
  (l.pins.find? fun p => decide (p.va ≤ a ∧ a < p.va + p.leaf.size)).map fun p => p.leaf.key a

/-- Whether an address is a word of a stream's image. -/
def StreamSt.holds (x : StreamSt) (a : Nat) : Bool :=
  decide (x.base.toNat ≤ a ∧ a < x.base.toNat + 8 * x.words)

/-- The word at a key in memory; one that is poison is consumed by the stream that fetches it (13 R388, R391, R413). -/
def State.wordAt (s : State) (key : Nat) : Fetched := match s.homeBytes key 8 with
  | some b => .word (BitVec.ofNat 64 (ofBytes b))
  | none => .fault (cause 5 4 1)

/-- The key in memory of the word that a stream's pc names, or the cause of the fetch's fault. An engine stream or a crossing program stays in
its image, or raises control integrity; a helm fetch outside its image is an ordinary one (03 R71). A pc that is no multiple of 8 raises
class 0, helm, alignment, in whichever stream (05 R145, 12 R377). -/
def State.fetchKey (s : State) (c : Nat) (st : Stream) (x : StreamSt) : Except Nat Nat :=
  let a := x.pc.toNat
  let l := match st with | .crossing => s.launch? c | _ => s.launchOf c
  let pin := if x.holds a then l.bind fun l => State.pinned l a else none
  if a % 8 ≠ 0 then .error (cause0 .helm alignC)
  else match pin, st with
    | some k, _ => .ok k
    | none, .helm => match s.translate (tileOf c) (s.ctxOf c) a .read (isPurser c) with
      | .ok lf => .ok (lf.key a)
      | .bad b => .error (walkCause loadA b)
    | none, st => .error (cause0 st controlC)

/-- Fetch a word of a core's stream, or of a launch's crossing program. -/
def State.fetch (s : State) (c : Nat) (st : Stream) (x : StreamSt) : Fetched := match s.fetchKey c st x with
  | .ok k => s.wordAt k
  | .error code => .fault code

/-- What the read of a fetched word, and of the tables on its way, leaves behind at their homes (13 R391). -/
def State.fetchEffects (s : State) (c : Nat) (st : Stream) (x : StreamSt) : State :=
  let t := if st = .helm ∧ !x.holds x.pc.toNat then s.walkEffects (tileOf c) (s.ctxOf c) x.pc.toNat else s
  match s.fetchKey c st x with
  | .ok k => t.readEffects k 8
  | .error _ => t

end Sys2Proof.Machine
end

