-- ==== Sys2Proof/Machine/Crossing.lean ====
section
/-! DEFINITION. The crossing program's words and the events of handles (10 R296-R312, R335; 02 R47). -/

namespace Sys2Proof.Machine

/-- SETTLE, in cycles (10 R298). -/
def settleCycles : Nat := 1536

/-- The context of the issuing crossing program. -/
def State.xctx (s : State) : Nat := match s.launch? s.cur.core with
  | some l => l.ctx
  | none => 0

/-- A class 0 fault of the crossing program. -/
def xbad (bad : Bool) (b : Nat) : Verdict := bar bad (cause0 .crossing b)

/-- The handle is granted to the program's context (10 R296). -/
def State.ownsHandle (s : State) (h : Nat) : Verdict := xbad ((s.handle h).owner != some s.xctx) privC

/-- Whether a landing is granted to the program's context. -/
def State.ownsLanding (s : State) (l : Nat) : Bool := (s.landing l).owner == some s.xctx

/-- A handle that holds landing sides: every state but free (10 R297, R298). -/
def Handle.holds (h : Handle) : Bool := h.st != .free

/-- Whether some handle holds the transmit side of `sl` or the receive side of one of `dls`. -/
def State.sidesHeld (s : State) (sl : Nat) (dls : List Nat) : Bool :=
  s.handles.toList.any fun h => h.holds && (h.src == sl || h.dsts.any dls.contains)

/-- Row 1 of R303: the landing numbers. -/
def badLandings (sl : Nat) (dls : List Nat) (multi : Bool) : Bool :=
  (sl :: dls).any (fun l => decide (131 < l) || isService l) || dls.contains sl
    || (isFibre sl && dls.any isFibre) || (multi && dls.any isFibre)

/-- Strictly ascending. -/
def ascending : List Nat → Bool
  | a :: b :: t => decide (a < b) && ascending (b :: t)
  | _ => true

/-- Rows 2 to 5 of R303. -/
def State.establishChecks (s : State) (h sl : Nat) (dls : List Nat) : Verdict :=
  let ls := sl :: dls
  let failed := (ls.find? fun l => (s.landing l).failed).map fun l => (s.landing l).lastFail
  verdicts [s.ownsHandle h, xbad (!ls.all s.ownsLanding) privC,
    match failed with | some code => .fault code | none => .ok,
    need (ls.all fun l => (s.landing l).trained) (cause2 .crossing emptyC),
    need (!(s.handle h).holds && !s.sidesHeld sl dls) (cause2 .crossing fullC)]

/-- The flits of a new crossing count from 0 at both its ends (10 R320). -/
def State.countAnew (s : State) (sl : Nat) (dls : List Nat) : State :=
  dls.foldl (fun (s : State) d => s.modLanding d fun x => { x with expect := 0, discarding := false })
    (s.modLanding sl fun x => { x with nextFlit := 0, acked := 0, sent := 0, stored := 0, full := none })

/-- Establish a crossing: settling now, live 1,536 cycles later (10 R303). Bindings that wait on the handle stay. -/
def State.establish (s : State) (h sl : Nat) (dls : List Nat) : State :=
  (s.countAnew sl dls).modHandle h fun x => { x with
    st := .settling, lid := s.cur.core, src := sl, dsts := dls, liveAt := s.cyc + settleCycles, window := none, relay := none
    free := 0, lastDone := 0, sends := [] }

/-- XEST (10 R303). -/
def execXest (h : BitVec 6) (sl dl : BitVec 8) (s : State) : Host.Outcome State Fault Refusal :=
  s.perform (verdicts [xbad (badLandings sl.toNat [dl.toNat] false) rangeC, s.establishChecks h.toNat sl.toNat [dl.toNat]])
    fun s => (s.establish h.toNat sl.toNat [dl.toNat]).advance

/-- XESTM: its destinations stand in the list word of the image (10 R303). -/
def execXestm (h : BitVec 6) (sl : BitVec 8) (nd : BitVec 3) (list : BitVec 20) (s : State) :
    Host.Outcome State Fault Refusal :=
  let x := s.mine
  let a := x.base + BitVec.ofNat 64 (8 * list.toNat)
  let w := match s.fetch s.cur.core .crossing { x with pc := a } with
    | .word w => w
    | .fault _ => 0
  let bs := (toBytes 8 w.toNat).map (·.toNat)
  let n := nd.toNat + 1
  let dls := bs.take n
  let bad := decide (x.words ≤ list.toNat) || badLandings sl.toNat dls true || !ascending dls || (bs.drop n).any (· != 255)
  s.perform (verdicts [xbad bad rangeC, s.establishChecks h.toNat sl.toNat dls]) fun s =>
    (s.establish h.toNat sl.toNat dls).advance

/-- A handle becomes free: its sides go, and a binding that still waits is dropped incomplete (10 R298, R316). -/
def Handle.freed (h : Handle) : Handle := { owner := h.owner }

/-- A handle becomes free: its bindings that still wait are dropped, and their identifiers never complete (10 R316; DEDUCED,
notes/assumptions/34.md). -/
def State.freeHandle (s : State) (h : Nat) : State :=
  ((s.handle h).bindings.foldl (fun (s : State) b => s.modCore b.1 fun c => { c with copies := c.copies.filter (·.id != b.2) }) s).modHandle h
    Handle.freed

/-- XDROP (10 R304, R298). -/
def execXdrop (h : BitVec 6) (s : State) : Host.Outcome State Fault Refusal :=
  let x := s.handle h.toNat
  s.perform (verdicts [s.ownsHandle h.toNat,
      xbad (match x.st with | .windowed | .free | .draining => true | _ => false) rangeC]) fun s =>
    let done := x.st == .settling || x.st == .lost ||
      (x.sends.isEmpty && (x.lastDone == 0 || decide (x.lastDone + 64 ≤ s.cyc)))
    (if done then s.freeHandle h.toNat else s.modHandle h.toNat fun x => { x with st := .draining }).advance

/-- XSTEP: a deadline wait with no condition (10 R305). -/
def execXstep (n : BitVec 36) (s : State) : Host.Outcome State Fault Refusal :=
  s.perform .ok fun s => s.beginWait .time (s.cyc + n.toNat) true

/-- XSTEP.AT: an absolute deadline (10 R305). -/
def execXstepAt (n : BitVec 36) (s : State) : Host.Outcome State Fault Refusal :=
  s.perform (if !s.stalls && decide (n.toNat < s.cyc) then .fault (cause2 .crossing deadlineC) else .ok) fun s =>
    s.beginWait .time (max n.toNat s.cyc) true

/-- XHOUR: to the program portion of an hour (10 R306, R330, R334). -/
def execXhour (hr : BitVec 4) (s : State) : Host.Outcome State Fault Refusal :=
  s.perform (bar s.expired hourC) fun s =>
    if s.inProgram ∧ s.hourNow = hr.toNat then s.beginWait .time s.cyc true
    else s.modMine fun x => { x with wait := some ⟨.hour hr.toNat, s.cyc, s.cyc, s.cyc, false⟩ }

/-- XRELAY: the mark of a relay handle (10 R312). -/
def execXrelay (h : BitVec 6) (pk : BitVec 8) (fl : BitVec 2) (s : State) : Host.Outcome State Fault Refusal :=
  let x := s.handle h.toNat
  let ok := x.dsts.all isFibre && !x.dsts.isEmpty && (x.st == .settling || x.st == .live)
  s.perform (verdicts [s.ownsHandle h.toNat, xbad (!ok || pk == 0 || pk == 255) rangeC]) fun s =>
    (s.modHandle h.toNat fun x => { x with relay := some (pk.toNat, 128 + fl.toNat) }).advance

/-- The count of a binding that no acknowledgment has ended. -/
def neverBound : Nat := 2 ^ 64

/-- XGROUP: bind a group to its home (10 R311, 09 R285). A peer home is asked, and acknowledges, in service minutes. -/
def execXgroup (g : BitVec 6) (pk : BitVec 8) (s : State) : Host.Outcome State Fault Refusal :=
  let x := s.group g.toNat
  s.perform (verdicts [xbad (pk == 255) rangeC, xbad (!x.valid) rangeC, xbad (!x.ownedBy s.xctx) privC,
      xbad (x.home.any (· != pk.toNat)) rangeC]) fun s =>
    let t := s.modGroup g.toNat fun x => if x.home.isSome then x
      else { x with home := some pk.toNat, boundAt := if pk = 0 then s.now + 512 else neverBound }
    (if x.home.isSome ∨ pk = 0 then t else { t with outbox := t.outbox ++ [(pk.toNat, .groupAsk g.toNat)] }).advance

/-- XWIN: the handle is the collective engine's for LEN cycles, 1 at least (10 R310, 03 R82). -/
def execXwin (h : BitVec 6) (len : BitVec 31) (s : State) : Host.Outcome State Fault Refusal :=
  let x := s.handle h.toNat
  let ok := (x.st == .settling || x.st == .live) && x.window.isNone
  s.perform (verdicts [s.ownsHandle h.toNat, xbad (!ok || len == 0) rangeC]) fun s =>
    let start := max s.cyc x.liveAt
    (s.modHandle h.toNat fun x => { x with
      window := some (start, start + len.toNat), st := if x.st = .live then .windowed else x.st }).advance

/-- A displacement of XLOOP or XJMP in words. -/
def xtarget {n : Nat} (pc : Word) (off : BitVec n) : Word := pc + off.signExtend 64 * 8

/-- Go to a word of the crossing program's image. -/
def State.xgo (s : State) (target : Word) (loops : List Loop) : State :=
  s.advance.modMine fun x => { x with pc := target, loops := loops }

/-- The loop stack and the next word after an XLOOP (10 R307): an entry's `first` is its XLOOP's address, its `iter` the
remaining count. -/
def xloopNext (pc target : Word) (n : Nat) (loops : List Loop) : Word × List Loop :=
  let l := match loops with
    | top :: rest => if top.first = pc then { top with iter := top.iter - 1 } :: rest
      else ⟨0, pc, target, n - 1, n, none⟩ :: loops
    | [] => [⟨0, pc, target, n - 1, n, none⟩]
  match l with
  | top :: rest => if 0 < top.iter then (target, l) else (pc + 8, rest)
  | [] => (pc + 8, [])

/-- XLOOP (10 R307). A count of 0 is outside 1 to 65,535 and raises operand range. -/
def execXloop (n : BitVec 16) (off : BitVec 21) (s : State) : Host.Outcome State Fault Refusal :=
  let x := s.mine
  let t := xtarget x.pc off
  let mine := match x.loops with | top :: _ => top.first == x.pc | [] => false
  s.perform (verdicts [xbad (n == 0) rangeC, xbad (!off.slt 0 || !x.holds t.toNat) controlC,
      bar (!mine && decide (4 ≤ x.loops.length)) (cause2 .crossing loopC)]) fun s =>
    let r := xloopNext x.pc t n.toNat x.loops
    s.xgo r.1 r.2

/-- XJMP (10 R308). -/
def execXjmp (off : BitVec 37) (s : State) : Host.Outcome State Fault Refusal :=
  let x := s.mine
  s.perform (xbad (!x.holds (xtarget x.pc off).toNat) controlC) fun s => s.xgo (xtarget x.pc off) x.loops

/-- XEND (10 R308, 02 R62). -/
def execXend (s : State) : Host.Outcome State Fault Refusal :=
  s.perform .ok fun s => s.advance.modMine fun x => { x with ended := true }

/-! ## Bring-up -/

/-- The timeouts of the seven stages of bring-up, in nanoseconds (10 R324). -/
def stageTimeouts : List Nat := [100000, 2000000, 50000, 20000, 10000, 20000, 5000]

/-- Enter stage `k` of bring-up of a landing. Whether and when it ends within the stage's timeout is free, and what else it
finds (notes/assumptions/4.md). -/
def State.enterStage (s : State) (l k : Nat) : State :=
  let top := stageTimeouts.getD k 1
  let t := s.choice 1 (2 * top)
  let b := s.chosen.choice 0 2
  let s := s.chosen.chosen.modLanding l fun x => { x with stage := some k, stageAt := s.wall, trained := false }
  if t ≤ top then s.alarm t .bringUpStageEnd { a := l } else s.alarm top .bringUpTimeout { a := l, b := b }

/-- Begin a full bring-up of a landing (10 R324). -/
def State.bringUp (s : State) (l : Nat) : State := s.enterStage l 0

/-- XRETRAIN (10 R309). -/
def execXretrain (l : BitVec 8) (s : State) : Host.Outcome State Fault Refusal :=
  let n := l.toNat
  let held := s.handles.toList.any fun h =>
    (match h.st with | .settling | .live | .windowed | .draining => true | _ => false) && (h.src == n || h.dsts.contains n)
  s.perform (verdicts [xbad (decide (131 < n) || isService n) rangeC, xbad (!s.ownsLanding n) privC, xbad held rangeC]) fun s =>
    (s.bringUp n).advance

/-! ## Events of handles -/

/-- The sequencer's count of the launch that holds a handle. -/
def State.handleCount (s : State) (h : Nat) : Nat := match s.launch? (s.handle h).lid with
  | some l => l.count
  | none => 0

/-- The cores that hold an incomplete CSEND or binding on a handle. -/
def Handle.holders (h : Handle) : List Nat := ((h.sends ++ h.bindings).map (·.1)).foldl addOnce []

/-- Complete the copy commands `ids` of a core without their effect (10 R328). -/
def Core.abandon (c : Core) (ids : List Nat) : Core :=
  { c with
    copies := updIf (fun k => ids.contains k.id) (fun k => { k with finished := true, doneAt := some c.time }) c.copies
    chDone := Vector.ofFn fun i => (vAt c.chDone i.val) ++
      ((c.copies.filter fun k => ids.contains k.id && !k.finished && k.ch == i.val).map (·.ident)) }

/-- Advance `chst` of each channel over the identifiers that have completed (08 R240). -/
def Core.advanceChst (c : Core) : Core :=
  let go := fun (ch : Nat) =>
    let done := vAt c.chDone ch
    (List.range (done.length + 1)).foldl (fun n _ => if done.contains (n + 1) then n + 1 else n) (vAt c.chst ch)
  { c with
    chst := Vector.ofFn fun i => go i.val
    chDone := Vector.ofFn fun i => (vAt c.chDone i.val).filter fun n => decide (go i.val < n) }

/-- A windowed handle is lost: the collectives of its launch whose data is moving on it rerun chunks (11 R361). -/
def State.rerunOn (s : State) (x : Handle) : State :=
  if x.st = .windowed then (s.colls.filter fun q => q.lid == x.lid && q.digested && q.status.isNone).foldl (fun (s : State) q =>
    s.plan 0 .chunkRerun { a := q.id, flag := true, list := x.src :: x.dsts }) s
  else s

/-- A handle becomes lost: its incomplete CSENDs and bindings complete without what was not delivered, each core that held one
is to trap at its copy stream's next slot, and its landings enter a full bring-up (10 R328). -/
def State.loseHandle (s : State) (h : Nat) : State :=
  let x := s.handle h
  let all := x.sends ++ x.bindings
  let s := x.holders.foldl (fun (s : State) c =>
    (s.modCore c fun k => (k.abandon ((all.filter (·.1 == c)).map (·.2))).advanceChst).owe c
      { code := cause 3 7 5, st := .copy, engine := 4, unit := h, cyc := (s.core c).time }) (s.rerunOn x)
  let s := s.modHandle h fun x => { x with st := .lost, sends := [], bindings := [], window := none }
  (x.src :: x.dsts).foldl (fun s l => s.bringUp l) s

/-- HANDLE_LIVE: at S + 1,536 the handle is live, or windowed when an XWIN waits for it; one whose relock has not completed is
lost and the crossing program faults (10 R298, R310, R326). -/
def execHandleLive (s : State) : Host.Outcome State Fault Refusal :=
  let h := s.on.a
  let relocked := s.on.flag
  let x := s.handle h
  if x.st != .settling || decide (s.handleCount h < x.liveAt) then .fault .eventNotDue
  else if relocked then
    .next (s.modHandle h fun x => { x with st := if x.window.isSome then .windowed else .live, free := 0 })
  else
    let s' := { s with cur := ⟨x.lid, .crossing, 0⟩ }
    .next (((s'.loseHandle h).faultWith { s'.info hourC with unit := h }).postSup hourC x.src h)

/-- DRAIN_END: 64 cycles after the last CSEND completed, a draining handle is free with its sides (10 R298). -/
def execDrainEnd (s : State) : Host.Outcome State Fault Refusal :=
  let h := s.on.a
  let x := s.handle h
  if x.st != .draining || !x.sends.isEmpty || decide (s.handleCount h + x.aged < x.lastDone + 64) then .fault .eventNotDue
  else .next (s.freeHandle h)

/-- XHOUR_END: the program portion of the named hour has begun for every rack time within the remaining error (10 R306, R330). -/
def State.xhourDue (s : State) (lid : Nat) : Bool := match s.launch? lid with
  | some l => match l.xing with
    | some x => !x.stopped && l.frozenUntil.isNone && l.stage == .running && (match x.prog.wait with
      | some w => (match w.kind with | .hour n => s.inProgram && decide (s.hourNow = n) | _ => false)
      | none => false)
    | none => false
  | none => false

/-- See `State.xhourDue`: the next word counts from the cycle it ends in. -/
def execXhourEnd (s : State) : Host.Outcome State Fault Refusal :=
  let lid := s.on.a
  let s' := { s with cur := ⟨lid, .crossing, 0⟩ }
  match s.xhourDue lid, s'.mine.wait with
  | true, some w => .next (s'.endWait { w with pos := s'.cyc })
  | _, _ => .fault .eventNotDue

/-- XGROUP_ACK: the home's acknowledgment has arrived (10 R311). -/
def execXgroupAck (s : State) : Host.Outcome State Fault Refusal :=
  let g := s.on.a
  match (s.group g).home with
  | some pk => if pk = 0 ∨ (s.group g).boundAt ≠ neverBound then .fault .eventNotDue
      else .next (s.modGroup g fun x => { x with boundAt := s.now })
  | none => .fault .eventNotDue

end Sys2Proof.Machine
end

