-- ==== Sys2Proof/Machine/Snapshot.lean ====
section
/-! DEFINITION. Snapshots of a context's memory (13 R402-R409). -/

namespace Sys2Proof.Machine

/-! ## Leaves -/

/-- The leaves below the table at `table`, with their virtual addresses, ascending: those that a walk finds (12 R365, R366). -/
def State.leavesFrom (s : State) (va : Nat) : List (Nat × Nat × Nat) → Nat → List (Nat × Leaf)
  | [], _ => []
  | (sh, n, size) :: rest, table => (List.range n).flatMap fun i =>
    let at_ := table + 8 * i
    let e : Word := BitVec.ofNat 64 (memRead s.mem (pkey 0 at_) 8)
    if !e.getLsbD 0 || s.readBad (pkey 0 at_) 8 || entryIllegal e size then []
    else if e.getLsbD 3 then [(va + i * 2 ^ sh, ⟨e, size, at_⟩)]
    else s.leavesFrom (va + i * 2 ^ sh) rest (bits e 55 8 * 256)

/-- The leaves of a context, in ascending virtual address. -/
def State.leavesOf (s : State) (ctx : Nat) : List (Nat × Leaf) :=
  let root := (s.ctx ctx).root
  if root.getLsbD 0 then s.leavesFrom 0 levels (root.toNat / 4096 * 4096) else []

/-- The writable aperture-0 leaves of a context, in ascending virtual address (13 R406). -/
def State.writableLeaves (s : State) (ctx : Nat) : List (Nat × Leaf) :=
  (s.leavesOf ctx).filter fun x => x.2.entry.getLsbD 2 && x.2.ap == 0

/-- A launch of the context that runs or holds its cores (13 R405, R409). -/
def Launch.holdsCores (l : Launch) : Bool := match l.stage with
  | .loading | .running | .preempting | .resuming => true
  | _ => false

/-- The running launches of a context. -/
def State.runningOf (s : State) (ctx : Nat) : List Launch := s.launches.filter fun l => l.ctx == ctx && l.holdsCores

/-! ## Begin -/

/-- SNCMD begin: refused, or a begin point to come (13 R405). -/
def State.sncmdBegin (s : State) (ctx k : Nat) : State :=
  let x := s.ctx ctx
  if BitVec.ofNat 8 k ≠ x.epoch + 1 ∨ x.active ∨ x.restoring ∨ x.failed then s.modCtx ctx fun x => { x with refusedCmd := true }
  else s.modCtx ctx fun x =>
    { x with refusedCmd := false, pendingBegin := some (BitVec.ofNat 8 k), imageOps := []
             beginPts := (s.runningOf ctx).flatMap (·.cores) }

/-- SNCMD_BEGIN (13 R405). -/
def execSncmdBegin (s : State) : Host.Outcome State Fault Refusal := .next (s.sncmdBegin s.on.a s.on.b)

/-- Whether a physical core will not be scanned again: its tile has no spare and no scan in progress (13 R403, R408). Physical core `p` of tile `t`
is numbered `257 t + p`. -/
def State.uncoveredCore (s : State) (n : Nat) : Bool := !(s.tile (n / 257)).coverage

/-- Whether every producer at the begin point has passed a scan since (13 R407). -/
def Context.allScanned (x : Context) : Bool := x.activeProducers.all x.scanned.contains

/-- Whether a write belongs to the image of the context's epoch: its core had it before its begin point (13 R405). -/
def Context.inImage (x : Context) (core id : Nat) (copy : Bool) : Bool :=
  x.imageOps.any fun o => o.1 == core && decide (id < if copy then o.2.2 else o.2.1)

/-- A core has passed its begin point, and others have still to reach theirs: what it issues from there on is not of the image (13 R405). -/
def Context.beyondPoint (x : Context) (core id : Nat) (copy : Bool) : Bool :=
  x.pendingBegin.isSome && x.imageOps.any fun o => o.1 == core && decide ((if copy then o.2.2 else o.2.1) ≤ id)

/-- The commands of a context that are not of the image and not complete are to pass their snapshot gate anew (08 R247, 13 R406). -/
def State.regate (s : State) (ctx : Nat) : State :=
  { s with cores := s.cores.map fun p => if s.ctxOf p.1 = ctx then
      (p.1, { p.2 with copies := p.2.copies.map fun k =>
        if k.finished || (s.ctx ctx).inImage p.1 k.id true then k else { k with gated := false } }) else p }

/-- SNAPSHOT_BEGIN_POINT: every core has passed its retirement point; the epoch advances and the producer set restarts
(13 R405, R408). -/
def State.beginDue (s : State) (ctx : Nat) : Bool := (s.ctx ctx).pendingBegin.isSome && (s.ctx ctx).beginPts.isEmpty

/-- See `State.beginDue`. -/
def execSnapshotBeginPoint (s : State) : Host.Outcome State Fault Refusal :=
  let ctx := s.on.a
  let x := s.ctx ctx
  match x.pendingBegin with
  | none => .fault .eventNotDue
  | some k =>
    if !s.beginDue ctx then .fault .eventNotDue
    else
      let un := x.producers.any s.uncoveredCore
      let leaves := s.writableLeaves ctx
      let left := ((leaves.filter fun l => l.2.epoch == k - 1).map fun l => l.2.units).sum
      let s := (s.regate ctx).modCtx ctx fun x => { x with
        pendingBegin := none, epoch := k, active := true, drained := false, uncovered := un, scanned := []
        verified := x.producers.isEmpty, activeProducers := x.producers, producers := [], beginDayc := s.dayc, beginAt := s.now, pagesLeft := left
        drainNext := none, drainAt := s.now }
      .next (if un then s.post ctx (cause 5 3 6) 0 0 else s)

/-- Every write of the image has been performed: no access or command that a core had before its begin point is unfinished
(13 R405). -/
def State.imageDone (s : State) (ctx : Nat) : Bool :=
  (s.ctx ctx).imageOps.all fun o =>
    let c := s.core o.1
    !(c.accesses.any fun a => decide (a.id < o.2.1) && !a.performed && a.fault.isNone &&
        (match a.kind with | .load _ _ | .acq | .fence _ | .launch _ => false | _ => true)) &&
      !(c.copies.any fun k => decide (k.id < o.2.2) && !k.finished)

/-! ## Copies to the shadow -/

/-- The bytes that a shadow slot of a context holds begin at this key (13 R404). -/
def Context.slotKey (x : Context) (sh : Shadow) : Nat := pkey 0 (x.snpool.toNat + 65536 * sh.at_)

/-- Copy a range of physical memory, granules whole: what is poison, bad or mapped out arrives as poison, and what the reads find is noted
(08 R260, 13 R391, R406, R413). -/
def State.copyRange (s : State) (src dst len : Nat) : State :=
  let within := fun (k g : Nat) => decide (k ≤ 64 * g ∧ 64 * g < k + len)
  let s := ((s.bad.map (·.1)).filter (within src)).foldl (fun (s : State) g => s.readEffects (64 * g) 64) s
  let out := if (s.stack (stackOf src)).mapped.isEmpty then [] else (granulesOf src len).filter s.mappedOut
  let marks := (s.poison.filter (within src) ++ out).map fun g => g + dst / 64 - src / 64
  let s := s.restoreCells dst len (s.cells src len)
  { s with poison := marks.foldl addOnce (s.poison.filter fun g => !within dst g), bad := s.bad.filter fun x => !within dst x.1 }

/-- The 64 KiB pool pages of a context's map: 32 bytes for each 64 KiB of its writable pages (13 R404). -/
def State.mapPages (s : State) (ctx : Nat) : Nat := (((s.writableLeaves ctx).map (·.2.units)).sum * 32 + 65535) / 65536

/-- The pool pages that slots hold, as first page and count. -/
def slotsHeld (ps : List ShadowPage) : List (Nat × Nat) :=
  ps.flatMap fun p => (p.a.toList ++ p.b.toList).map fun sh => (sh.at_, p.units)

/-- A place in the pool for a new slot of `n` pages, clear of the other slots and of the map, which stands at the pool's end (13 R404;
DESIGN CHOICE, notes/assumptions/47.md). -/
def State.slotPlace (s : State) (ctx n : Nat) : Option Nat :=
  let x := s.ctx ctx
  let held := slotsHeld x.slots
  minBy? id ((0 :: held.map fun h => h.1 + h.2).filter fun i =>
    !held.any (fun h => overlaps i n h.1 h.2) && decide (i + n + s.mapPages ctx ≤ x.snpsz.toNat))

/-- CopyToShadow: the page goes to its empty slot, allocated now, else to the slot with the older label, labelled `k`; `none` when the pool has
no place (13 R404, R406). -/
def State.copyToShadow (s : State) (ctx va : Nat) (l : Leaf) (k : BitVec 8) : Option State :=
  let x := s.ctx ctx
  let base := va / l.size * l.size
  let page : ShadowPage := (x.slots.find? (·.va == base)).getD { va := base, units := l.units }
  let others := x.slots.filter (·.va != base)
  let put := fun (at_ : Nat) (f : Shadow → ShadowPage) =>
    (s.copyRange (pkey l.ap l.page) (x.slotKey ⟨k, at_⟩) l.size).modCtx ctx fun x => { x with slots := others ++ [f ⟨k, at_⟩] }
  match page.a, page.b with
  | none, _ => (s.slotPlace ctx l.units).map fun i => put i fun sh => { page with a := some sh }
  | some _, none => (s.slotPlace ctx l.units).map fun i => put i fun sh => { page with b := some sh }
  | some a, some b => some (if (k - a.label).toNat ≥ (k - b.label).toNat then put a.at_ fun sh => { page with a := some sh }
      else put b.at_ fun sh => { page with b := some sh })

/-- SNAPSHOT_COPY_ON_WRITE: the page of a first write has been copied to its shadow, its leaf carries the epoch, and the write
may proceed (08 R247, 13 R406). It begins once the image is complete. -/
def State.cowDue (s : State) (ctx va : Nat) : Option State := match s.lookup 0 ctx va with
  | .bad _ => none
  | .ok l =>
    let l := s.fresh l
    if s.copyDue ctx l && s.imageDone ctx then
      (s.copyToShadow ctx va l (s.ctx ctx).epoch).map fun s' =>
        (s'.setEpoch ctx va l (s.ctx ctx).epoch).modCtx ctx fun x =>
          { x with cows := tabDel x.cows (va / l.size * l.size), pagesLeft := x.pagesLeft - l.units }
    else none

/-- See `State.cowDue`. -/
def execSnapshotCopyOnWrite (s : State) : Host.Outcome State Fault Refusal := match s.cowDue s.on.a s.on.b with
  | some s' => .next s'
  | none => .fault .eventNotDue

/-- What a write to a page finds before it: it may proceed, it waits for a copy to the shadow, or no shadow space can be
allocated (08 R247). -/
inductive Gate where
  | go (s : State)
  | wait (s : State)
  | full (s : State) (va : Nat)
  deriving DecidableEq, Repr

/-- The first write to a page of an older epoch sets its EPOCH, at once or after the copy of R406. `op` names the access or command of a core
that writes. One that its core issued past its begin point waits for T_k; after T_k one of the image writes in the epoch before, and any other
waits for the image (08 R247, 12 R367, 13 R405, R406). -/
def State.gate (s : State) (ctx va : Nat) (l : Leaf) (op : Option (Nat × Nat × Bool)) : Gate :=
  let x := s.ctx ctx
  let l := s.fresh l
  let page := va / l.size * l.size
  let first := olderEpoch x.epoch l.epoch
  if l.ap ≠ 0 then .go s
  else if op.any fun o => x.beyondPoint o.1 o.2.1 o.2.2 then .wait s
  else if x.pendingBegin.isNone && op.any fun o => x.inImage o.1 o.2.1 o.2.2 then
    .go (if olderEpoch (x.epoch - 1) l.epoch then s.setEpoch ctx va l (x.epoch - 1) else s)
  else if !first then .go s
  else if x.active && !s.imageDone ctx then .wait s
  else if !s.copyDue ctx l then .go (s.setEpoch ctx va l x.epoch)
  else match tabGet x.cows page with
    | none => .wait ((s.modCtx ctx fun x => { x with cows := tabSet x.cows page (s.now + l.copyCycles) }).plan l.copyCycles
        .snapshotCopyOnWrite { a := ctx, b := page })
    | some t => if s.now ≤ t then .wait s else .full (s.modCtx ctx fun x => { x with cows := tabDel x.cows page }) va

/-- The drain, from the first leaf on: leaves that are not copied are done at once; the copy of `busy` ends, and that of the next page of EPOCH
k - 1 begins (13 R406). -/
def State.drainFrom (s : State) (ctx : Nat) (k : BitVec 8) (busy : Option Nat) : List (Nat × Leaf) → Option State
  | [] => some (s.modCtx ctx fun x => { x with drained := true, pagesLeft := 0, drainNext := none })
  | x :: rest =>
    if x.2.epoch = k - 1 then
      if busy = some x.1 then (s.copyToShadow ctx x.1 x.2 k).bind fun s => (s.setEpoch ctx x.1 x.2 (k - 2)).drainFrom ctx k none rest
      else some (s.modCtx ctx fun c => { c with
        drainNext := some x.1, drainAt := s.now + x.2.copyCycles
        pagesLeft := (((x :: rest).filter fun l => l.2.epoch == k - 1).map (·.2.units)).sum })
    else (if x.2.epoch = k then s else s.setEpoch ctx x.1 x.2 (k - 2)).drainFrom ctx k busy rest

/-- The state after the drain's next step; `none` where the pool has no room for its page, which holds the drain there (13 R406;
notes/assumptions/47.md). -/
def State.drained (s : State) (ctx : Nat) : Option State :=
  s.drainFrom ctx (s.ctx ctx).epoch (s.ctx ctx).drainNext (s.writableLeaves ctx)

/-- Whether a drain may go on: the image is complete and the copy under way has had its time (13 R406). -/
def State.drainReady (s : State) (ctx : Nat) : Bool :=
  let x := s.ctx ctx
  x.active && !x.drained && decide (x.drainAt ≤ s.now) && s.imageDone ctx

/-- SNAPSHOT_DRAIN (13 R406). -/
def execSnapshotDrain (s : State) : Host.Outcome State Fault Refusal :=
  let ctx := s.on.a
  if !s.drainReady ctx then .fault .eventNotDue
  else match s.drained ctx with
    | some s' => .next s'
    | none => .fault .eventNotDue

/-! ## Commit and restore -/

/-- Commit the active snapshot: descriptor 1 - SEL, then the root word (13 R407, R408). -/
def State.commitSnapshot (s : State) (ctx : Nat) (unverified : Bool) : State :=
  let x := s.ctx ctx
  let base := x.snroot.toNat
  let sel := (s.rootWord ctx).getLsbD 0
  let d := if sel then 16 else 32
  let w := (if sel then 0 else 1) + 256 * x.epoch.toNat + 65536 + if unverified then 131072 else 0
  let s := (s.writeHome (pkey 0 (base + d)) (toBytes 8 x.epoch.toNat ++ toBytes 8 x.beginDayc)).writeHome (pkey 0 base) (toBytes 8 w)
  s.modCtx ctx fun x => { x with active := false, committed := x.epoch, commitValid := true }

/-- SNAPSHOT_COMMIT (13 R407). -/
def execSnapshotCommit (s : State) : Host.Outcome State Fault Refusal :=
  let x := s.ctx s.on.a
  if x.active && x.drained && x.verified && !x.failed then .next (s.commitSnapshot s.on.a false) else .fault .eventNotDue

/-- SNCMD commit unverified (13 R408). -/
def State.sncmdCommit (s : State) (ctx : Nat) : State :=
  let x := s.ctx ctx
  if x.active ∧ x.drained ∧ !x.failed then (s.commitSnapshot ctx true).modCtx ctx fun x => { x with refusedCmd := false }
  else s.modCtx ctx fun x => { x with refusedCmd := true }

/-- SNCMD_COMMIT_UNVERIFIED (13 R408). -/
def execSncmdCommitUnverified (s : State) : Host.Outcome State Fault Refusal := .next (s.sncmdCommit s.on.a)

/-- SNCMD restore: refused while a launch of the context holds its cores or no snapshot is committed (13 R409). -/
def State.sncmdRestore (s : State) (ctx : Nat) : State :=
  if !(s.runningOf ctx).isEmpty ∨ !s.rootValid ctx then s.modCtx ctx fun x => { x with refusedCmd := true }
  else s.modCtx ctx fun x => { x with
    refusedCmd := false, restoring := true, pagesLeft := (x.slots.map (·.units)).sum }

/-- SNCMD_RESTORE (13 R409). -/
def execSncmdRestore (s : State) : Host.Outcome State Fault Refusal := .next (s.sncmdRestore s.on.a)

/-- Whether number `x` is at or below `k` (13 R404). -/
def atOrBelow (k x : BitVec 8) : Bool := decide ((k - x).toNat ≤ 127)

/-- The later of two slots at or below `c`. -/
def laterSlot (c : BitVec 8) (a b : Option Shadow) : Option Shadow :=
  let ok := fun (o : Option Shadow) => o.filter fun s => atOrBelow c s.label
  match ok a, ok b with
  | some x, some y => if (c - x.label).toNat ≤ (c - y.label).toNat then some x else some y
  | x, y => x.or y

/-- SNAPSHOT_RESTORE_END: each page has its slot with the latest label at or below c, later slots are empty, every leaf's
EPOCH is c - 2, and the epoch is c (13 R409). -/
def execSnapshotRestoreEnd (s : State) : Host.Outcome State Fault Refusal :=
  let ctx := s.on.a
  let x := s.ctx ctx
  if !x.restoring then .fault .eventNotDue
  else
    let c : BitVec 8 := (s.rootWord ctx).extractLsb' 8 8
    let leaves := s.writableLeaves ctx
    let s := leaves.foldl (fun (s : State) l =>
      let s := match (x.slots.find? (·.va == l.1)).bind fun p => laterSlot c p.a p.b with
        | some sh => s.copyRange (x.slotKey sh) (pkey 0 l.2.page) l.2.size
        | none => s
      s.setEpoch ctx l.1 l.2 (c - 2)) s
    let keep := fun (o : Option Shadow) => o.filter fun sh => atOrBelow c sh.label
    .next (s.modCtx ctx fun x => { x with
      slots := x.slots.map fun p => { p with a := keep p.a, b := keep p.b }
      epoch := c, producers := [], active := false, failed := false, restoring := false, pagesLeft := 0, pendingBegin := none
      beginPts := [], imageOps := [], committed := c, commitValid := true })

/-! ## Registers (13 R404) -/

/-- SNST. -/
def Context.snst (x : Context) : Word :=
  let b := fun (v : Bool) (i : Nat) => if v then 2 ^ i else 0
  BitVec.ofNat 64 (b x.active 0 + b x.drained 1 + b x.verified 2 + b x.failed 3 + b x.restoring 4 + b x.refusedCmd 5
    + b x.uncovered 6 + 2 ^ 8 * x.epoch.toNat + 2 ^ 16 * x.committed.toNat + b x.commitValid 24 + 2 ^ 32 * (x.pagesLeft % 2 ^ 32))

/-- A write of SNCMD; a command that is none of the three is refused (13 R404). -/
def State.sncmd (s : State) (ctx : Nat) (v : Word) : State :=
  if bits v 1 0 = 1 then s.sncmdBegin ctx (bits v 15 8)
  else if bits v 1 0 = 2 then s.sncmdRestore ctx
  else if bits v 1 0 = 3 then s.sncmdCommit ctx
  else s.modCtx ctx fun x => { x with refusedCmd := true }

end Sys2Proof.Machine
end

