-- ==== Sys2Proof/Machine/Scan.lean ====
section
/-! DEFINITION. The rotation scan (13 R400-R403, R416, R417; 02 R46). -/

namespace Sys2Proof.Machine

/-- The visible core at scan coordinate `k` of a tile (13 R400). -/
def scanCore (tile k : Nat) : Nat := coreAt (16 * (tile % 4) + k % 16) (16 * (tile / 4) + k / 16)

/-- The scan coordinate of a visible core. -/
def scanCoord (c : Nat) : Nat := 16 * (coreY c % 16) + coreX c % 16

/-- The physical core, 0 to 256, behind a coordinate of a tile (01 R13, 13 R400). -/
def TileSt.phys (t : TileSt) (k : Nat) : Nat := (tabGet t.map k).getD k

/-- The number of the physical core behind a visible core. -/
def State.physCore (s : State) (c : Nat) : Nat := 257 * tileOf c + (s.tile (tileOf c)).phys (scanCoord c)

/-- Every core of a launch stands from now to a time of the wall clock (02 R46). -/
def State.holdLaunch (s : State) (l : Launch) (until_ : Nat) : State :=
  l.cores.foldl (fun (s : State) c => s.modCore c fun k => { k with frozen := true, held := true })
    (s.modLaunch l.lid fun l => { l with frozenUntil := some (max until_ (l.frozenUntil.getD 0)) })

/-- Whether every core of a launch stands at a retirement point, so that a launch-wide stop may begin (02 R60). -/
def State.atCommonPoint (s : State) (l : Launch) : Bool := l.cores.all fun c => (s.core c).atRetire

/-- The move of a coordinate to the spare: the scan of its physical core begins, and ends at a free time within 50 ms with a free
result (13 R400; notes/assumptions/4.md). -/
def State.moveCoord (s : State) (tile : Nat) : State :=
  let t := s.tile tile
  let p := t.phys t.scanNext
  match t.spare with
  | none => s
  | some sp =>
    let ev : Instr := if s.choice 0 1 = 0 then .scanPass else .scanFail
    let s := s.chosen
    ((s.modTile tile fun t => { t with
      map := tabSet t.map t.scanNext sp, spare := none, scanning := some (p, s.now), migrating := none
      scanNext := (t.scanNext + 1) % 256, scanAt := t.scanAt + nsUnits 50000000 }).alarm (s.choice 1 49999999) ev { a := tile }).chosen

/-- Whether a tile's scan controller takes its step (13 R400). -/
def State.scanDue (s : State) (tile : Nat) : Bool :=
  let t := s.tile tile
  s.booted && t.coverage && t.spare.isSome && t.scanning.isNone && t.migrating.isNone && decide (t.scanAt ≤ s.wall)

/-- ROTATION_SCAN_STEP: a coordinate of no running launch moves at once; another waits for its launch's retirement point
(13 R400, R401). -/
def execRotationScanStep (s : State) : Host.Outcome State Fault Refusal :=
  let tile := s.on.a
  if !s.scanDue tile then .fault .eventNotDue
  else
    let c := scanCore tile (s.tile tile).scanNext
    match s.launchOf c with
    | some l => if l.stage = .running then .next (s.modTile tile fun t => { t with migrating := some c }) else .next (s.moveCoord tile)
    | none => .next (s.moveCoord tile)

/-- Whether the migration a tile waits for may run: its launch stands at a retirement point, or no longer runs (13 R401). -/
def State.migrationDue (s : State) (tile : Nat) : Bool := match (s.tile tile).migrating with
  | none => false
  | some c => match s.launchOf c with
    | some l => l.stage != .running || (l.frozenUntil.isNone && s.atCommonPoint l)
    | none => true

/-- SCAN_PASS: the physical core becomes the spare, and the results it produced before the scan began are verified
(13 R400, R402, R407). -/
def execScanPass (s : State) : Host.Outcome State Fault Refusal :=
  let tile := s.on.a
  match (s.tile tile).scanning with
  | none => .fault .eventNotDue
  | some (p, start) =>
    .next { (s.modTile tile fun t => { t with scanning := none, spare := some p }) with
      contexts := s.contexts.map fun x =>
        if x.active ∧ x.beginAt ≤ start then
          let x := { x with scanned := addOnce x.scanned (257 * tile + p) }
          { x with verified := x.verified || x.allScanned }
        else x }

/-- SCAN_FAIL: the physical core is mapped out, the tile's scanning stops, and the contexts it produced for hear of it
(13 R403, R416, R417). -/
def execScanFail (s : State) : Host.Outcome State Fault Refusal :=
  let tile := s.on.a
  match (s.tile tile).scanning with
  | none => .fault .eventNotDue
  | some (p, _) =>
    let n := 257 * tile + p
    let s := s.modTile tile fun t => { t with scanning := none, spare := none, coverage := false, badCores := addOnce t.badCores p }
    let s := (s.postSup (cause 5 3 3) tile p).replaceRequested (cause 5 3 6) tile
    .next <| (List.range 16).foldl (fun (s : State) i =>
      let x := s.ctx i
      if x.producers.contains n ∨ (x.active ∧ x.activeProducers.contains n) then
        (s.modCtx i fun x => { x with failed := x.failed || x.active }).post i (cause 5 3 3) tile p
      else s) s

end Sys2Proof.Machine
end

