-- ==== Sys2Proof/Machine/Launches.lean ====
section
/-! DEFINITION. Launch packets, their checks, LAUNCH, placement, start, retirement and completion records (02 R50-R67,
11 R336-R348, R444). -/

namespace Sys2Proof.Machine

/-! ## Packets and descriptors -/

/-- The runs of virtual memory within pages, as key and length, that a launch unit of a tile reads; `none` when a page is not mapped
readable. -/
def State.vruns (s : State) (tile ctx va n : Nat) : Option (List (Nat × Nat)) :=
  (blocksOf va n).foldl (fun (o : Option (List (Nat × Nat))) b => o.bind fun l =>
    let lo := max va (b * 65536)
    match s.translate tile ctx lo .read false with
    | .ok lf => some (l ++ [(lf.key lo, min (va + n) ((b + 1) * 65536) - lo)])
    | .bad _ => none) (some [])

/-- Read virtual memory as the launch unit of a tile does; `none` when a page is not mapped readable, or meets poison (notes/assumptions/6.md). -/
def State.vread (s : State) (tile ctx va n : Nat) : Option (List Byte) :=
  (s.vruns tile ctx va n).bind fun rs => rs.foldl (fun (o : Option (List Byte)) r => o.bind fun l =>
    (s.homeBytes r.1 r.2).map (l ++ ·)) (some [])

/-- Whether a range is mapped readable. -/
def State.vmapped (s : State) (tile ctx va n : Nat) : Bool :=
  (blocksOf va n).all fun b => match s.translate tile ctx (max va (b * 65536)) .read false with
    | .ok _ => true
    | .bad _ => false

/-- A launch packet's fields (11 R339). -/
structure Packet where
  type : Nat
  timed : Bool
  any : Bool
  percore : Bool
  cancel : Bool
  ctx : Nat
  seq : Nat
  x0 : Nat
  y0 : Nat
  w : Nat
  h : Nat
  bound : Nat
  desc : Nat
  seed : Nat
  dep : Nat
  params : Nat
  evtag : Nat
  bmap : Nat
  deriving DecidableEq, Repr

/-- Read a packet. -/
def packetOf (r : List Byte) : Packet :=
  let f := recField r 0 4
  let g := recField r 8 4
  { type := f % 256, timed := f.testBit 8, any := f.testBit 9, percore := f.testBit 10, cancel := f.testBit 11
    ctx := f / 65536 % 16, seq := recField r 4 4, x0 := g % 64, y0 := g / 256 % 32, w := g / 65536 % 128, h := g / 16777216 % 64
    bound := recField r 12 4, desc := recField r 16 8, seed := recField r 24 8, dep := recField r 32 6, params := recField r 40 8
    evtag := recField r 48 8, bmap := recField r 56 8 }

/-- A reserved bit of a packet is set (11 R339). -/
def packetReserved (r : List Byte) : Bool :=
  let f := recField r 0 4
  let g := recField r 8 4
  decide (f / 4096 % 16 ≠ 0 ∨ f / 1048576 ≠ 0 ∨ g / 64 % 4 ≠ 0 ∨ g / 8192 % 8 ≠ 0 ∨ g / 8388608 % 2 ≠ 0 ∨ g / 1073741824 ≠ 0
    ∨ recField r 38 2 ≠ 0)

/-- A field of a packet lies outside R50 or R339; `id` is the identifier just assigned. -/
def Packet.outside (p : Packet) (id : Nat) : Bool :=
  decide (p.w = 0 ∨ 64 < p.w ∨ p.h = 0 ∨ 32 < p.h ∨ 64 < p.x0 + p.w ∨ 32 < p.y0 + p.h ∨ p.bound < 1024 ∨ p.desc % 64 ≠ 0
    ∨ id ≤ p.dep) || (p.any && decide (p.x0 ≠ 0 ∨ p.y0 ≠ 0))

/-- The image of stream `i` in a descriptor: its address and its length in words (11 R340). -/
def imgOf (d : List Byte) (i : Nat) : Nat × Nat := (recField d (16 * i) 8, recField d (16 * i + 8) 4)

/-- A reserved field of a descriptor is nonzero (11 R340). -/
def descReserved (d : List Byte) : Bool :=
  (List.range 5).any (fun i => recField d (16 * i + 12) 4 != 0) || recField d 92 4 != 0 || (d.drop 104).any (· != 0)

/-- The images of the cores of a launch, one list of four per core: shared, or each core's own entries (11 R340). -/
def State.imagesOf (s : State) (tile ctx : Nat) (d : List Byte) (percore : Bool) (cores : Nat) : Option (List (List (Nat × Nat))) :=
  if percore then
    let tabs := (List.range 4).map fun i => if (imgOf d i).1 = 0 then some [] else s.vread tile ctx (imgOf d i).1 (16 * cores)
    if tabs.any (·.isNone) then none
    else some <| (List.range cores).map fun c => tabs.map fun t =>
      let e := ((t.getD []).drop (16 * c)).take 16
      (recField e 0 8, recField e 8 4)
  else some (List.replicate cores ((List.range 4).map (imgOf d)))

/-- A reserved field of a per-core image table is nonzero (11 R340). -/
def State.tablesReserved (s : State) (tile ctx : Nat) (d : List Byte) (percore : Bool) (cores : Nat) : Bool :=
  percore && (List.range 4).any fun i => (imgOf d i).1 != 0 && match s.vread tile ctx (imgOf d i).1 (16 * cores) with
    | some t => (List.range cores).any fun c => recField t (16 * c + 12) 4 != 0
    | none => false

/-- An image of a launch is legal: none, or 1 to 2^24 words at a multiple of 64, mapped readable (03 R71, 11 R340, R341). -/
def State.imageOk (s : State) (tile ctx : Nat) (i : Nat × Nat) : Bool :=
  i.1 == 0 || (decide (1 ≤ i.2 ∧ i.2 ≤ 2 ^ 24 ∧ i.1 % 64 = 0) && s.vmapped tile ctx i.1 (8 * i.2))

/-- A data block: source, local store address and length (11 R340). -/
def State.blocks (s : State) (tile ctx : Nat) (d : List Byte) : Option (List (Nat × Nat × Nat)) :=
  let n := recField d 88 4
  if n = 0 then some []
  else (s.vread tile ctx (recField d 80 8) (16 * n)).map fun t => (List.range n).map fun i =>
    let e := (t.drop (16 * i)).take 16
    (recField e 0 8, recField e 8 4, recField e 12 4)

/-- The landings and handles that a word of a crossing image names (11 R341). -/
def crossingNames (image : List Byte) (w : Word) : List Nat × List Nat := match parseCrossing w with
  | some (.xest h sl dl) => ([sl.toNat, dl.toNat], [h.toNat])
  | some (.xestm h sl nd list) => (sl.toNat :: ((image.drop (8 * list.toNat)).take (nd.toNat + 1)).map (·.toNat), [h.toNat])
  | some (.xdrop h) => ([], [h.toNat])
  | some (.xwin h _) => ([], [h.toNat])
  | some (.xrelay h _ _) => ([], [h.toNat])
  | some (.xretrain l) => ([l.toNat], [])
  | _ => ([], [])

/-- A crossing image names only landings and handles granted to the context (10 R296, 11 R341). -/
def State.crossingOk (s : State) (tile ctx : Nat) (i : Nat × Nat) : Bool :=
  match s.vread tile ctx i.1 (8 * i.2) with
  | none => false
  | some b => (List.range i.2).all fun k =>
      let n := crossingNames b (BitVec.ofNat 64 (recField b (8 * k) 8))
      n.1.all (fun l => decide (l ≤ 131) && !isService l && (s.landing l).owner == some ctx) &&
        n.2.all fun h => (s.handle h).owner == some ctx

/-- The checks of R341 on a packet's body and its descriptor, for identifier `id`: the condition it breaks. A launch with no helm
image at all is rejected (02 R29). -/
def State.packetFault (s : State) (tile ctx id : Nat) (r : List Byte) : Option Nat :=
  let p := packetOf r
  if packetReserved r ∨ (p.type ≠ 1 ∧ p.type ≠ 2) then some reservedC
  else match s.vread tile ctx p.desc 128 with
  | none => some rangeC
  | some d =>
    if descReserved d then some reservedC
    else if p.outside id then some rangeC
    else
      let n := p.w * p.h
      let imgs := s.imagesOf tile ctx d p.percore n
      let bl := if 256 < recField d 88 4 then none else s.blocks tile ctx d
      let x := imgOf d 4
      if ((bl.getD []).any fun b => decide (2 ^ 22 ≤ b.2.1)) || s.tablesReserved tile ctx d p.percore n then some reservedC
      else if !(match imgs with | some l => l.all fun c => c.all (s.imageOk tile ctx) | none => false)
        || ((imgs.getD []).all fun c => (c.getD 0 (0, 0)).1 == 0) || !s.imageOk tile ctx x || (x.1 != 0 && !s.crossingOk tile ctx x)
        || !(match bl with
          | some l => l.all fun b => decide (b.2.1 + b.2.2 ≤ 0x400000) && s.vmapped tile ctx b.1 b.2.2
          | none => false)
        || (recField d 96 8 != 0 && !s.vmapped tile ctx (recField d 96 8) 1024)
        || (p.params != 0 && !s.vmapped tile ctx p.params (8 * n)) then some rangeC
      else none

/-- The launch of an accepted packet, before it is placed (11 R341, R343). -/
def State.launchFrom (s : State) (tile ctx cid : Nat) (r : List Byte) : Launch :=
  let p := packetOf r
  let d := (s.vread tile ctx p.desc 128).getD []
  { lid := s.nextLid, ctx := ctx, cid := cid, timed := p.timed, any := p.any, x0 := p.x0, y0 := p.y0, w := p.w, h := p.h
    bound := p.bound, seed := BitVec.ofNat 64 p.seed, packet := r, desc := d, dep := p.dep, cancel := p.cancel, params := p.params
    evtag := BitVec.ofNat 64 p.evtag, bmap := p.bmap, tile := tile, seq := s.nextLid, headAt := s.wall }

/-- Assign the next completion identifier of a context and put its launch in the list. -/
def State.accept (s : State) (l : Launch) : State :=
  { s.modCtx l.ctx fun x => { x with assigned := x.assigned + 1 } with launches := s.launches ++ [l], nextLid := s.nextLid + 1 }

/-! ## Quays -/

/-- The physical address of the header of quay `n`. The spec gives no address; DESIGN CHOICE, notes/assumptions/3.md. -/
def quayHeader (n : Nat) : Nat := 64000000000 - 65536 - 4096 + 64 * n

/-- The bytes of a quay's header (11 R336). -/
def State.quay (s : State) (n : Nat) : List Byte := memBytes s.mem (pkey 0 (quayHeader n)) 64

/-- A reserved bit of a quay's header is set (11 R336). -/
def State.headerReserved (s : State) (n : Nat) : Bool :=
  let h := s.quay n
  decide (4 ≤ recField h 25 1 ∨ 16 ≤ recField h 26 1 ∨ 8 ≤ recField h 27 1) || (h.drop 28).any (· != 0)

/-- The owner of a registered quay: the CTX of its header (11 R336, 12 R363). -/
def State.quayCtx (s : State) (n : Nat) : Option Nat :=
  if s.quays.any (·.1 == n) then some (recField (s.quay n) 26 1 % 16) else none

/-- The tile whose launch unit serves a quay. -/
def State.quayTile (s : State) (n : Nat) : Nat := recField (s.quay n) 27 1 % 8

/-- The key in memory of the slot that a quay's launch unit reads next, and its 64 bytes, when the slot is ready (11 R338). A header or a
slot that meets poison is never ready, nor one whose header has a reserved bit set (11 R336, 00 R9; notes/assumptions/6.md). -/
def State.readySlot (s : State) (n : Nat) : Option (Nat × List Byte) := match s.quayCtx n with
  | none => none
  | some ctx =>
    let h := s.quay n
    let ridx := recField h 8 8
    let va := recField h 16 8 + 64 * (ridx % 2 ^ recField h 24 1)
    if s.headerReserved n || s.readBad (pkey 0 (quayHeader n)) 64 then none
    else match s.lookup (s.quayTile n) ctx va with
    | .bad _ => none
    | .ok l => (s.homeBytes (l.key va) 64).bind fun r =>
      if l.ap = 0 ∧ recField r 0 1 ≠ 0 ∧ recField r 4 4 = ridx % 2 ^ 32 then some (l.key va, r) else none

/-- Consume the slot: word 0 becomes 0, then RIDX rises (11 R338). -/
def State.consume (s : State) (n key : Nat) : State :=
  let ridx := recField (s.quay n) 8 8
  (s.writeHome key (toBytes 8 0)).writeHome (pkey 0 (quayHeader n) + 8) (toBytes 8 (ridx + 1))

/-- A quay's packet has been consumed and its launch has not started: it is the quay's head (11 R342, R343;
DEDUCED, notes/assumptions/11.md). -/
def State.hasHead (s : State) (n : Nat) : Bool := s.launches.any fun l => l.quay == some n && l.stage == .waiting

/-- Whether a quay holds a packet of a type that its launch unit may consume. -/
def State.packetDue (s : State) (n : Nat) (noop : Bool) : Bool := s.booted && !s.hasHead n && (match s.readySlot n with
  | some (_, r) => (recField r 0 1 == 2) == noop
  | none => false)

/-- The end of a launch that took no core: rejected or cancelled, its record to be written (11 R341, R342). -/
def Launch.ended (l : Launch) (status code : Nat) : Launch :=
  { l with stage := .retired, status := status, cause := code }

/-- LAUNCH_PACKET: a launch packet is consumed, takes its identifier and is checked (11 R338, R341). -/
def execLaunchPacket (s : State) : Host.Outcome State Fault Refusal :=
  let n := s.on.a
  if !s.packetDue n false then .fault .eventNotDue
  else match s.readySlot n with
  | none => .fault .eventNotDue
  | some (key, r) =>
    let ctx := (s.quayCtx n).getD 0
    let tile := s.quayTile n
    let cid := (s.ctx ctx).assigned + 1
    let bad := if packetReserved r then some reservedC
      else if (packetOf r).ctx ≠ ctx then some rangeC else s.packetFault tile ctx cid r
    let prio := recField (s.quay n) 25 1 % 4
    let l : Launch := { s.launchFrom tile ctx cid r with
      quay := some n, prio := prio, level := prio, level3 := if prio = 3 then some s.wall else none }
    .next ((s.consume n key).accept (match bad with | some b => l.ended 2 (cause 0 6 b) | none => l))

/-- NOOP_PACKET (11 R339). -/
def execNoopPacket (s : State) : Host.Outcome State Fault Refusal :=
  let n := s.on.a
  match s.packetDue n true, s.readySlot n with
  | true, some (key, _) => .next (s.consume n key)
  | _, _ => .fault .eventNotDue

/-! ## LAUNCH -/

/-- The LAUNCHes under way at the cores that `p` takes which hold a place of a kind for their children. -/
def State.placesHeld (s : State) (pool : Pool) (p : Nat → Bool) : Nat :=
  s.cores.foldl (fun n c => if p c.1 then n + (c.2.accesses.filter fun a => a.pool == pool && a.fault.isNone).length else n) 0

/-- The on-chip entries of a tile in use, of a kind: by pending children, and by LAUNCHes that have issued (02 R64). -/
def State.inPool (s : State) (tile : Nat) (p : Pool) : Nat :=
  (s.launches.filter fun l => l.tile == tile && l.pool == p && l.stage == .waiting).length + s.placesHeld p fun c => tileOf c == tile

/-- The entries of a context's overflow queue in use. -/
def State.inOverflow (s : State) (ctx : Nat) : Nat :=
  (s.launches.filter fun l => l.ctx == ctx && l.pool == .overflow && l.stage == .waiting).length
    + s.placesHeld .overflow fun c => s.ctxOf c == ctx

/-- Where a pending child waits, by the rows of R64. The 240 entries of its first row are the unreserved ones, whatever the 16 reserved ones
hold (DESIGN CHOICE, notes/assumptions/27.md). -/
def State.poolFor (s : State) (tile ctx : Nat) (joined : Bool) : Option Pool :=
  if s.inPool tile .unreserved < 240 then some .unreserved
  else if joined ∧ s.inPool tile .reserved < 16 then some .reserved
  else if s.inOverflow ctx < Config.overflowEntries then some .overflow
  else none

/-- LAUNCH at issue: it takes its child's place (11 R347, 02 R64, notes/assumptions/27.md; 13 R395). -/
def execLaunch (rd ra : SReg) (joined : BitVec 1) (s : State) : Host.Outcome State Fault Refusal :=
  let va := s.sr ra
  let place := s.poolFor (tileOf s.cur.core) (s.ctxOf s.cur.core) (joined == 1)
  s.perform (verdicts [s.roomForAccess, need place.isSome (cause 2 7 fullC),
      s.noPhase, s.bad0 (decide (va.toNat % 64 ≠ 0)) alignC]) fun s =>
    (s.startAccess (.launch (joined == 1)) va 0 rd 0 0 (place.getD .none)).advance

/-- Whether two rectangles meet. -/
def rectsMeet (a b : Launch) : Bool := overlaps a.x0 a.w b.x0 b.w && overlaps a.y0 a.h b.y0 b.h

/-- What a LAUNCH finds when it is performed: its fault, or the child and its identifier (11 R347, 02 R66; 00 R9: reserved bits before
anything else). -/
def State.performLaunch (s : State) (c : Nat) (key : Nat) (joined : Bool) : State × Except Nat Nat :=
  let r := memBytes s.mem key 64
  let p := packetOf r
  let ctx := s.ctxOf c
  let tile := tileOf c
  let parent := s.launchOf c
  let cid := (s.ctx ctx).assigned + 1
  let l : Launch := { s.launchFrom tile ctx cid r with
    parent := parent.map (·.lid), joined := joined, prio := (parent.map (·.prio)).getD 0 }
  let bad := if packetReserved r then some reservedC else if p.ctx ≠ ctx then some privC
    else match (if p.type ≠ 1 then some rangeC else s.packetFault tile ctx cid r) with
      | some b => some b
      | none =>
        let meets := match parent with | some q => rectsMeet l q | none => false
        if p.seq ≠ 0 ∨ (p.any && joined) ∨ (joined && meets) then some rangeC else none
  match bad with
  | some b => (s, .error (cause 0 0 b))
  | none => (s.accept l, .ok cid)

/-- Place a child whose identifier has landed in the entry that its LAUNCH holds, its time counting from here (02 R64, 11 R343, R347). -/
def State.submitChild (s : State) (c ctx cid : Nat) (pool : Pool) : State :=
  let s := { s with launches := updIf (fun l => l.ctx == ctx && l.cid == cid) (fun l =>
    { l with pool := pool, headAt := s.wall, level := l.prio
             level3 := if l.prio = 3 then some s.wall else none }) s.launches }
  s.modCore c fun k => { k with children := if s.launches.any fun l => l.ctx == ctx && l.cid == cid && l.joined
    then k.children ++ [cid] else k.children }

/-- The oldest child of a tile in an overflow queue, of those that `p` takes. -/
def State.oldestOverflow (s : State) (tile : Nat) (p : Launch → Bool) : Option Launch :=
  minBy? (·.seq) (s.launches.filter fun l => l.tile == tile && l.pool == .overflow && l.stage == .waiting && p l)

/-- POOL_ENTRY_FREED: the oldest overflow child of the tile moves into an on-chip entry: into an unreserved one any child, into a reserved
one a joined child, so that no joined child waits for an unjoined one (02 R65, R66; DEDUCED, notes/assumptions/27.md). -/
def execPoolEntryFreed (s : State) : Host.Outcome State Fault Refusal :=
  let tile := s.on.a
  if s.inPool tile .unreserved < 240 then match s.oldestOverflow tile fun _ => true with
    | some l => .next (s.modLaunch l.lid fun l => { l with pool := .unreserved })
    | none => .fault .eventNotDue
  else if s.inPool tile .reserved < 16 then match s.oldestOverflow tile (·.joined) with
    | some l => .next (s.modLaunch l.lid fun l => { l with pool := .reserved })
    | none => .fault .eventNotDue
  else .fault .eventNotDue

/-! ## Placement -/

/-- A core is free: it belongs to no running, starting or held launch (11 R344). -/
def State.coreFree (s : State) (c : Nat) : Bool := !s.launches.any fun l => l.holdsCores && l.has c

/-- Every core of a rectangle is free. -/
def rectFree (x0 y0 w h : Nat) (free : Nat → Bool) : Bool :=
  decide (x0 + w ≤ 64 ∧ y0 + h ≤ 32) && (List.range (w * h)).all fun i => free (coreAt (x0 + i % w) (y0 + i / w))

/-- The largest power of two not above `min n 16` (11 R344). -/
def alignOf (n : Nat) : Nat := if 16 ≤ n then 16 else if 8 ≤ n then 8 else if 4 ≤ n then 4 else if 2 ≤ n then 2 else 1

/-- The origin at which a launch fits, cores being free by `free` (11 R344). -/
def Launch.fit (l : Launch) (free : Nat → Bool) : Option (Nat × Nat) :=
  if !l.any ∨ l.stage = .preempted then (if rectFree l.x0 l.y0 l.w l.h free then some (l.x0, l.y0) else none)
  else
    let ax := alignOf l.w
    let ay := alignOf l.h
    let os := (List.range (32 / ay)).flatMap fun j => (List.range (64 / ax)).map fun i => (i * ax, j * ay)
    os.find? fun o => rectFree o.1 o.2 l.w l.h free

/-- The rectangle of a held candidate: its own, or first fit's with every core of a launch of lower effective level free
(11 R345). A held candidate stands at level 3. -/
def State.heldRect (s : State) (l : Launch) : Option Launch :=
  if l.any && l.stage != .preempted then
    (l.fit fun c => !(s.launches.any fun k => k.holdsCores && k.has c && decide (3 ≤ k.level))).map fun o =>
      { l with x0 := o.1, y0 := o.2 }
  else some l

/-- A launch that waits to be placed. -/
def Launch.waits (l : Launch) : Bool :=
  (l.stage == .waiting && (l.quay.isSome || l.pool != .none)) || l.stage == .preempted

/-- Whether held candidate `k` became held before `l` did; those of one instant go in order of acceptance. -/
def Launch.heldBefore (k l : Launch) : Bool := match k.heldAt, l.heldAt with
  | some t, some u => decide (t < u ∨ (t = u ∧ k.seq < l.seq))
  | _, _ => false

/-- A candidate may start at an origin beside the held candidates: a held one when none became held before it, any other where it meets
the rectangle of no held candidate (11 R345). -/
def State.clearOfHeld (s : State) (l : Launch) (o : Nat × Nat) : Bool :=
  (s.launches.filter fun k => k.heldAt.isSome && k.waits && k.lid != l.lid).all fun k =>
    if l.heldAt.isSome then !k.heldBefore l
    else match s.heldRect k with
      | some r => !rectsMeet r { l with x0 := o.1, y0 := o.2 }
      | none => true

/-- The head of R342 is ready: its DEP has completed, and its context's crossing program is free when it has one. -/
def State.launchReady (s : State) (l : Launch) : Bool :=
  (l.dep == 0 || s.launchDone l.ctx l.dep) && ((imgOf l.desc 4).1 == 0 || (s.xingLaunch l.ctx).isNone)

/-- A ready head with CANCEL whose DEP ended with a status other than 0 (11 R342). -/
def State.cancelled (s : State) (l : Launch) : Bool :=
  l.cancel && l.dep != 0 && s.launchReady l &&
    (match tabGet (s.ctx l.ctx).completed l.dep with | some st => st != 0 | none => false)

/-- The candidates of a tile's launch unit in the order of R343: joined children in reserved entries; then by level, resuming
launches, the unit's quays from after the one it served last, and pending children (02 R65, 11 R343, R352). R65 puts every unreserved
entry before the overflow queue and R343 orders by level: an overflow child stands no higher than the lowest unreserved one
(DEDUCED, notes/assumptions/28.md). -/
def State.candidates (s : State) (tile : Nat) : List Launch :=
  let mine := s.launches.filter fun l => l.tile == tile
  let wait := mine.filter fun l => l.stage == .waiting
  let again := mine.filter fun l => l.stage == .preempted
  let kids := fun (p : Pool) => sortBy (·.seq) (wait.filter fun l => l.pool == p)
  let low := (kids .unreserved).foldl (fun n l => min n l.level) 3
  kids .reserved ++ [3, 2, 1, 0].flatMap fun lv =>
    let last := vAt (s.tile tile).turn lv
    again.filter (·.level == lv)
      ++ (sortBy (fun l => ((l.quay.getD 0) + 64 - (last + 1)) % 64) (wait.filter fun l => l.quay.isSome && l.level == lv))
      ++ (kids .unreserved).filter (·.level == lv) ++ sortBy (3 - ·.level) ((kids .overflow).filter fun l => min l.level low == lv)

/-- What a pre-empted launch resumes with is free: its handles, their landings, and, with a crossing program, the landings of its context's
grants and the context's sequencer (11 R352, 10 R299). -/
def State.resumeFree (s : State) (l : Launch) : Bool :=
  let taken := fun (n : Nat) => s.handles.toList.any fun h => h.holds && (h.src == n || h.dsts.contains n)
  l.savedHandles.all (fun h => !(s.handle h.1).holds && !(h.2.src :: h.2.dsts).any taken) &&
    (l.xing.isNone || (!(s.xingLaunch l.ctx).any (·.lid != l.lid) &&
      (List.range 132).all fun n => (s.landing n).owner != some l.ctx || !taken n))

/-- Whether a pre-empted launch may resume now, and where (11 R345, R352). -/
def State.resumable (s : State) (l : Launch) : Option (Nat × Nat) :=
  if l.stage != .preempted || s.thermal || !s.resumeFree l then none else (l.fit s.coreFree).filter (s.clearOfHeld l)

/-- Whether a candidate may be started, and where; a pre-empted launch that can resume goes ahead of the waiting launches of its context
(11 R342, R344, R345, R352). -/
def State.placeable (s : State) (l : Launch) : Option (Nat × Nat) :=
  if l.stage = .preempted then s.resumable l
  else if s.thermal ∨ !s.launchReady l ∨ s.launches.any (fun k => k.ctx == l.ctx && (s.resumable k).isSome) then none
  else (l.fit s.coreFree).filter (s.clearOfHeld l)

/-- The cycles that a run of virtual bytes takes to a core by the bounds of R248; `none` where a page lies behind apertures 1 to 255. -/
def State.loadTime (s : State) (tile ctx va n core : Nat) : Option Nat :=
  (blocksOf va n).foldl (fun (o : Option Nat) b => o.bind fun t =>
    let lo := max va (b * 65536)
    let g := (min (va + n) ((b + 1) * 65536) - lo + 63) / 64
    match s.lookup tile ctx lo with
    | .bad _ => some t
    | .ok l =>
      if l.ap ≠ 0 then none
      else
        let home := stackOf (l.pa lo)
        if home = tileOf core then some (t + 160 + 10 * g) else some (t + 600 + 64 * hops (tileOf core) home + 256 * g)) (some 0)

/-- What a launch loads into core `i` of its rectangle: its images, the data blocks, the constant image and its word of the parameter
table, and on the origin the crossing image (02 R52, 11 R340). -/
def State.loadsOf (s : State) (tile : Nat) (l : Launch) (i : Nat) : List (Nat × Nat) :=
  let n := l.w * l.h
  let imgs := ((s.imagesOf tile l.ctx l.desc (packetOf l.packet).percore n).getD []).getD i []
  (imgs.filter (·.1 != 0)).map (fun x => (x.1, 8 * x.2)) ++ ((s.blocks tile l.ctx l.desc).getD []).map (fun b => (b.1, b.2.2))
    ++ (if recField l.desc 96 8 = 0 then [] else [(recField l.desc 96 8, 1024)])
    ++ (if l.params = 0 then [] else [(l.params + 8 * i, 8)])
    ++ (if i = 0 ∧ (imgOf l.desc 4).1 ≠ 0 then [((imgOf l.desc 4).1, 8 * (imgOf l.desc 4).2)] else [])

/-- The bound of the loading of a launch, all its cores in parallel, each from translation on; `none` where nothing bounds it (11 R444). -/
def State.loadBound (s : State) (l : Launch) (o : Nat × Nat) : Option Nat :=
  let m : Launch := { l with x0 := o.1, y0 := o.2 }
  let tile := tileOf m.origin
  (m.cores.zipIdx).foldl (fun (top : Option Nat) c => top.bind fun t =>
    ((s.loadsOf tile m c.2).foldl (fun (o : Option Nat) x => o.bind fun a => (s.loadTime tile l.ctx x.1 x.2 c.1).map (a + ·)) (some 512)).map
      (max t)) (some 0)

/-- Begin to load a launch at an origin; its start broadcast follows at a free time within the bounds of R444, 2,048 cycles after the
last byte at most; without a bound where a block lies behind apertures 1 to 255 (notes/assumptions/4.md). Its crossing program is the
context's from here on (10 R299). -/
def State.beginLoad (s : State) (l : Launch) (o : Nat × Nat) : State :=
  let t := match s.loadBound l o with
    | some b => s.choice 1 (2048 + b)
    | none => 1 + Config.pick s.freeCtr
  let s := s.chosen.modLaunch l.lid fun l => { l with
    stage := .loading, x0 := o.1, y0 := o.2, pool := .none, startAt := s.now + t
    xing := if (imgOf l.desc 4).1 = 0 then none else some { prog := {} } }
  match l.quay with
  | some q => s.modTile l.tile fun x => { x with turn := vPut x.turn l.level q }
  | none => s

/-- Begin to restore a pre-empted launch (11 R352). -/
def State.beginResume (s : State) (l : Launch) : State :=
  let t := s.choice 1 1048576
  s.chosen.modLaunch l.lid fun l => { l with stage := .resuming, startAt := s.now + t }

/-- Start a launch at an origin: a waiting one is loaded, a pre-empted one restored. -/
def State.start (s : State) (l : Launch) (o : Nat × Nat) : State :=
  if l.stage = .preempted then s.beginResume l else s.beginLoad l o

/-- PLACEMENT_TURN: ready cancelled heads end, and the first candidate that can be placed is started (11 R342-R345, R444). A turn takes
128 ticks, and the tiles act in order. -/
def execPlacementTurn (s : State) : Host.Outcome State Fault Refusal :=
  let tile := s.on.a
  let n := s.now / 128
  if !s.booted ∨ n < s.turn ∨ tile ≠ n % 8 then .fault .eventNotDue
  else
    let s := { s with turn := n + 1 }
    let s := { s with launches := s.launches.map fun (l : Launch) =>
      if l.tile = tile ∧ l.stage = Stage.waiting ∧ s.cancelled l then l.ended 4 0 else l }
    let cs := s.candidates tile
    match cs.findSome? fun l => (s.placeable l).map fun o => (l, o) with
    | some (l, o) => .next (s.start l o)
    | none => .next s

/-- The effective level of a waiting launch now (11 R343). -/
def State.levelNow (s : State) (l : Launch) : Nat := min 3 (l.prio + (s.wall - l.headAt) / nsUnits 10000000)

/-- AGING_STEP (11 R343). -/
def execAgingStep (s : State) : Host.Outcome State Fault Refusal := match s.launch? s.on.a with
  | some l =>
    if l.waits && decide (l.level < s.levelNow l) then
      .next (s.modLaunch l.lid fun l => { l with level := l.level + 1, level3 := if l.level = 2 then some s.wall else l.level3 })
    else .fault .eventNotDue
  | none => .fault .eventNotDue

/-- The tiles that a launch's rectangle meets. -/
def Launch.tiles (l : Launch) : List Nat := (l.cores.map tileOf).foldl addOnce []

/-- HELD_CANDIDATE: a candidate, which is ready, has stood at level 3 for 10 ms (11 R342, R345). -/
def execHeldCandidate (s : State) : Host.Outcome State Fault Refusal := match s.launch? s.on.a with
  | some l => match l.level3, l.heldAt with
    | some t, none =>
      if l.waits && l.readyAt.any fun r => decide (max t r + nsUnits 10000000 ≤ s.wall) then
        let s' := s.modLaunch l.lid fun l => { l with heldAt := some s.wall }
        .next ((((s.heldRect l).map (·.tiles)).getD []).foldl (fun s t => s.postSup (cause 2 7 boundC) t 0) s')
      else .fault .eventNotDue
    | _, _ => .fault .eventNotDue
  | none => .fault .eventNotDue

/-! ## Start -/

/-- A stream at its image, before its first word. -/
def StreamSt.at_ (i : Nat × Nat) : StreamSt :=
  if i.1 = 0 then {} else
    { base := BitVec.ofNat 64 i.1, words := i.2, ended := false, pc := BitVec.ofNat 64 i.1 }

/-- The pages of an image, pinned (02 R52, 03 R71). -/
def State.pinsOf (s : State) (tile ctx : Nat) (i : Nat × Nat) : List Pin :=
  if i.1 = 0 then [] else
    (blocksOf i.1 (8 * i.2)).filterMap fun b =>
      match s.lookup tile ctx (b * 65536) with
      | .ok l => some ⟨b * 65536 / l.size * l.size, l⟩
      | .bad _ => none

/-- A core at cycle 0 of a launch (02 R52, 03 R83). -/
def coreStart (lid : Nat) (l : Launch) (i : Nat) (imgs : List (Nat × Nat)) (consts : List Byte) (blocks : List (Nat × List Byte))
    (param : Word) : Core :=
  let h := StreamSt.at_ (imgs.getD 0 (0, 0))
  { lid := some lid
    sregs := (((Vector.replicate 64 (0 : Word)).set 1 (BitVec.ofNat 64 (i % l.w))).set 2 (BitVec.ofNat 64 (i / l.w))).set 3 param
    cbank := Vector.ofFn fun k => BitVec.ofNat 32 (recField consts (4 * k.val) 4)
    helm := h, vec := StreamSt.at_ (imgs.getD 1 (0, 0)), mat := StreamSt.at_ (imgs.getD 2 (0, 0)), cpy := StreamSt.at_ (imgs.getD 3 (0, 0))
    helmSt := { npc := h.pc + 8, nnpc := h.pc + 16 }
    ls := blocks.foldl (fun m b => memWrite m b.1 b.2) []
    seed := l.seed }

/-- What the launch unit of a tile reads of virtual memory as it starts a launch: the bytes, and the runs of them, as offset and length, that are
poison (13 R391). -/
def State.vraw (s : State) (tile ctx va n : Nat) : List Byte × List (Nat × Nat) :=
  ((s.vruns tile ctx va n).getD []).foldl (fun acc r =>
    let bad := ((granulesOf r.1 r.2).filter fun g => s.readBad (64 * g) 1).map fun g =>
      let lo := max r.1 (64 * g)
      (acc.1.length + (lo - r.1), min (r.1 + r.2) (64 * g + 64) - lo)
    (acc.1 ++ memBytes s.mem r.1 r.2, acc.2 ++ bad)) ([], [])

/-- The sectors of a local store that the blocks written to it, in order, leave as poison (13 R390). -/
def spoiltBy (blocks : List (Nat × List Byte × List (Nat × Nat))) : List Nat :=
  blocks.foldl (fun p b =>
    ((b.2.2.flatMap fun r => sectorsOf (b.1 + r.1) r.2).foldl addOnce
      (p.filter fun x => !decide (b.1 ≤ 32 * x ∧ 32 * x + 32 ≤ b.1 + b.2.1.length)))) []

/-- START_BROADCAST: every core of the launch, and its crossing sequencer, count cycle 0; what a snapshot's image has of a core is of the launch
before (02 R52, 03 R83, 11 R340, 13 R405). Poison in a data block marks the sectors that it is written to; poison that a core would start on
raises class 5, HBM, uncorrected and consumed, there (00 R2; DESIGN CHOICE, notes/assumptions/20.md). -/
def execStartBroadcast (s : State) : Host.Outcome State Fault Refusal := match s.launch? s.on.a with
  | none => .fault .eventNotDue
  | some l =>
    if l.stage ≠ .loading ∨ s.now < l.startAt then .fault .eventNotDue
    else
      let tile := tileOf l.origin
      let n := l.w * l.h
      let imgs := (s.imagesOf tile l.ctx l.desc ((packetOf l.packet).percore) n).getD []
      let consts := if recField l.desc 96 8 = 0 then ([], []) else s.vraw tile l.ctx (recField l.desc 96 8) 1024
      let places := (s.blocks tile l.ctx l.desc).getD []
      let blocks := places.map fun b => (b.2.1, s.vraw tile l.ctx b.1 b.2.2)
      let tab := if l.params = 0 then ([], []) else s.vraw tile l.ctx l.params (8 * n)
      let x := imgOf l.desc 4
      let all := (imgs.flatMap id).foldl (fun acc i => if acc.contains i then acc else acc ++ [i]) [x]
      let spoilt := spoiltBy blocks
      let bad := fun (i : Nat) => !consts.2.isEmpty || (blocks.any fun b => !b.2.2.isEmpty) || tab.2.any fun r => overlaps r.1 r.2 (8 * i) 8
      let read := (if recField l.desc 96 8 = 0 then [] else [(recField l.desc 96 8, 1024)]) ++ places.map (fun b => (b.1, b.2.2))
        ++ if l.params = 0 then [] else [(l.params, 8 * n)]
      let keys := read.flatMap fun r => (s.vruns tile l.ctx r.1 r.2).getD []
      let s := (l.cores.zipIdx).foldl (fun (s : State) c =>
        let k := coreStart l.lid l c.2 (imgs.getD c.2 []) consts.1 (blocks.map fun b => (b.1, b.2.1)) (BitVec.ofNat 64 (recField tab.1 (8 * c.2) 8))
        s.setCore c.1 { k with lsPoison := spoilt, raised := if bad c.2 then [{ code := cause 5 4 1, st := .helm, engine := 0 }] else [] })
        (keys.foldl (fun (s : State) r => s.readEffects r.1 r.2) s)
      let s := { s with contexts := s.contexts.map fun (x : Context) => { x with imageOps := x.imageOps.filter fun o => !l.has o.1 } }
      .next (s.modLaunch l.lid fun l => { l with
        stage := .running, count := 0
        xing := if x.1 = 0 then none else some { prog := StreamSt.at_ x }
        pins := all.flatMap (s.pinsOf tile l.ctx) })

/-! ## Retirement -/

/-- Every stream of a core has ended, its words' commands have completed, and it has no trap left to take (02 R61, R62). -/
def Core.done (c : Core) : Bool :=
  c.helm.ended && c.vec.ended && c.mat.ended && c.cpy.ended && (c.copies.all (·.finished)) && ((List.range 4).all fun ch => vAt c.chst ch == vAt c.chIssued ch)
    && c.owed.isEmpty && c.raised.isEmpty && c.trap.isNone && c.handler.isNone && c.escalated.isNone && c.xtrap.isNone && !c.phaseWait

/-- Whether a launch may retire (02 R62). -/
def State.retireDue (s : State) (l : Launch) : Bool :=
  l.stage == .running && l.frozenUntil.isNone && !l.freezing && l.owing.isEmpty && l.cores.all (fun c => (s.core c).done) &&
    (match l.xing with | some x => x.prog.ended | none => true)

/-- The bit of a core in the retirement bitmap (02 R63). -/
def Launch.bitmap (l : Launch) : Nat :=
  (l.cores.zipIdx).foldl (fun n c => if l.lost.contains c.1 then n else n + 2 ^ c.2) 0

/-- A launch gives up its cores: its crossings are dropped, its episodes and messages end (02 R62). -/
def State.release (s : State) (l : Launch) : State :=
  { s with
    bars := s.bars.filter (·.lid != l.lid)
    colls := s.colls.filter (·.lid != l.lid)
    qsends := s.qsends.filter fun q => !l.has q.dst
    handles := s.handles.map fun (h : Handle) => if h.holds ∧ h.lid = l.lid then h.freed
      else { h with bindings := h.bindings.filter fun b => !l.has b.1 }
    contexts := vPut s.contexts l.ctx (let x := s.ctx l.ctx; { x with beginPts := x.beginPts.filter fun c => !l.has c }) }

/-- What a core of a launch that retires still has on its way: stores, atomics, MSTOREs and LAUNCHes, with the ACQ, REL and FENCE words
among them, and the faults found for them. Loads in flight are discarded (02 R67, 05 R149, R153). -/
def Core.underWay (k : Core) (lid : Nat) : Core :=
  { lid := some lid, cyc := k.time, nextAcc := k.nextAcc, fences := k.fences
    accesses := k.accesses.filter fun a => match a.kind with
      | .load _ _ => false
      | .launch _ => true
      | _ => !a.performed }

/-- The cores of a launch are left behind at its retirement: what they have on its way goes on under their wake's number, the order points
and the snapshot's bookkeeping included (02 R67, 11 R344, R346, 13 R405). -/
def State.leaveCores (s : State) (l : Launch) : State :=
  let wake := fun (c : Nat) => if l.has c then wakeOf l.lid c else c
  let s := l.cores.foldl (fun (s : State) c =>
    let w := (s.core c).underWay l.lid
    let s := s.modCore c fun k => { k with accesses := [] }
    if w.accesses.isEmpty then s else s.setCore (wakeOf l.lid c) w) s
  { s.modCtx l.ctx fun x => { x with
      imageOps := x.imageOps.map fun o => (wake o.1, o.2) } with
    groups := s.groups.map fun (g : Group) => { g with
      arriving := g.arriving.map fun (m : MStore) => { m with core := if m.peer = 0 then wake m.core else m.core }
      held := g.held.map fun (m : MStore) => { m with core := if m.peer = 0 then wake m.core else m.core } } }

/-- LAUNCH_RETIREMENT (02 R62, R63, R67). -/
def execLaunchRetirement (s : State) : Host.Outcome State Fault Refusal := match s.launch? s.on.a with
  | none => .fault .eventNotDue
  | some l =>
    if !s.retireDue l then .fault .eventNotDue
    else
      let top := (l.cores.map fun c => (s.core c).cyc).foldl max 0
      .next (((s.release l).leaveCores l).modLaunch l.lid fun l => { l with
        stage := .retired, lastCyc := top, status := if l.lost.isEmpty then 0 else 1, cause := l.firstCause, xing := none })

/-- Terminate a launch: its streams end, its commands are dropped, what its helms have sent goes on to its homes, and it completes with
STATUS 3 (12 R383, 09 R294). -/
def State.terminate (s : State) (l : Launch) : State :=
  let top := (l.cores.map fun c => (s.core c).cyc).foldl max 0
  let s := if l.holdsCores then
      l.cores.foldl (fun (s : State) c => s.modCore c fun k => { ({} : Core) with lid := k.lid, ls := k.ls }) (s.leaveCores l) else s
  (s.release l).modLaunch l.lid fun l => { l with
    stage := .retired, status := 3, lastCyc := top, cause := l.firstCause, xing := none, pool := .none, freezing := false
    frozenUntil := none }

/-! ## Records -/

/-- The number of records of a ring: log2 of it is 6 to 20; a ring whose register holds another value has no room (12 R385;
DESIGN CHOICE, notes/assumptions/17.md). -/
def Context.ringSize (x : Context) : Nat := let n := bits x.evtc 4 0; if 6 ≤ n ∧ n ≤ 20 then 2 ^ n else 0

/-- A ring has room for a record. -/
def Context.ringRoom (x : Context) : Bool := decide (x.ringW < x.ringR + x.ringSize)

/-- A ring by number: a context's, or the physical function's, number 16 (12 R385). -/
def State.ring (s : State) (n : Nat) : Context := if n = 16 then s.pfRing else s.ctx n

/-- Change a ring. -/
def State.modRing (s : State) (n : Nat) (f : Context → Context) : State :=
  if n = 16 then { s with pfRing := f s.pfRing } else s.modCtx n f

/-- The key of record `i` of a ring. -/
def Context.ringKey (x : Context) (i : Nat) : Nat := pkey 0 (x.evt.toNat + 64 * (i % x.ringSize))

/-- Write a record into a ring with room (12 R385). -/
def State.ringWrite (s : State) (n : Nat) (r : List Byte) : State :=
  let x := s.ring n
  (s.writeHome (x.ringKey x.ringW) r).modRing n fun x =>
    { x with ringW := x.ringW + 1, sinceIrq := x.sinceIrq + 1, firstIrq := if x.sinceIrq = 0 then s.wall else x.firstIrq }

/-- A completion record (11 R346). -/
def State.completionRecord (s : State) (l : Launch) : List Byte :=
  let rbm := if l.status = 0 then 2 ^ 128 - 1 else l.bitmap % 2 ^ 128
  toBytes 8 (1 + 256 * l.status + 65536 * l.ctx) ++ toBytes 8 l.cid ++ toBytes 8 s.dayc ++ toBytes 8 l.lastCyc
    ++ toBytes 2 l.cause ++ toBytes 2 l.traps ++ toBytes 4 0 ++ toBytes 8 l.evtag.toNat ++ toBytes 16 rbm

/-- Every multicast store of a retired launch has been stamped and applied at every member in force that still applies; one that an order
point in another package has stamped, at every such member of this package (09 R294; notes/assumptions/50.md). -/
def State.multicastsHome (s : State) (l : Launch) : Bool :=
  let mine := fun (m : MStore) => m.peer == 0 && m.core / 4096 == l.lid + 1
  s.groups.toList.all fun g => g.arriving.all (fun m => !mine m || m.n != 0) &&
    g.held.all (fun m => !mine m || g.members.all fun i => g.stoppedM.contains i || decide (m.n ≤ g.appliedOf i)) &&
    l.stamped.all fun e => (s.group e.1).members.all fun i =>
      (s.group e.1).pk i != 0 || (s.group e.1).stoppedM.contains i || decide (e.2 ≤ (s.group e.1).appliedOf i)

/-- Whether a launch's record may be written: its writes are home, or their faults reported, MSTOREs and what its LAUNCHes submit included,
and the ring has room (05 R149, R153, 09 R294, 11 R346, 12 R385). -/
def State.recordDue (s : State) (l : Launch) : Bool :=
  l.stage == .retired && (s.ctx l.ctx).ringRoom && s.multicastsHome l &&
    (s.cores.all fun c => c.2.lid != some l.lid ||
      !c.2.accesses.any fun a => a.fault.isSome || match a.kind with
        | .mstore _ | .launch _ | .rel => true
        | k => k.writes && !a.performed)

/-- Write virtual memory as the launch unit of a tile does: page by page, where a page is mapped writable. -/
def State.vput (s : State) (tile ctx va : Nat) (b : List Byte) : State :=
  (blocksOf va b.length).foldl (fun (s : State) p =>
    let lo := max va (p * 65536)
    match s.translate tile ctx lo .write false with
    | .ok l => s.writeHome (l.key lo) ((b.drop (lo - va)).take (min (va + b.length) ((p + 1) * 65536) - lo))
    | .bad _ => s) s

/-- COMPLETION_RECORD: the bitmap at BMAP, then the record; the launch has completed (11 R346, 12 R385, R387). -/
def execCompletionRecord (s : State) : Host.Outcome State Fault Refusal := match s.launch? s.on.a with
  | none => .fault .eventNotDue
  | some l =>
    if !s.recordDue l then .fault .eventNotDue
    else
      let n := l.w * l.h
      let bm := if l.status = 0 then 2 ^ n - 1 else l.bitmap
      let s := if 128 < n ∧ l.bmap ≠ 0 then s.vput l.tile l.ctx l.bmap (toBytes ((n + 7) / 8) bm) else s
      let s := s.ringWrite l.ctx (s.completionRecord l)
      .next ({ s with
        launches := s.launches.filter (·.lid != l.lid)
        cores := s.cores.filter fun c => !(isWake c.1 && c.2.lid == some l.lid) }.modCtx l.ctx fun x =>
        { x with completed := tabSet x.completed l.cid l.status })

end Sys2Proof.Machine
end

