-- ==== Sys2Proof/Machine/SaveImage.lean ====
section
/-! DEFINITION. The save image of a core and the launch block of a pre-empted launch (11 R350, R351; 13 R399). R350 gives the areas' places and
contents; how the control area, the copy state, the headers of the in-flight queue, a phase and the launch block lay out theirs is the model's own
(DESIGN CHOICE, notes/assumptions/35.md). -/

namespace Sys2Proof.Machine

/-! ## Bytes -/

/-- A list of bits as bytes, the first the least significant. -/
def bitBytes (l : List Bool) (n : Nat) : List Byte :=
  toBytes n ((l.zipIdx).foldl (fun acc b => if b.1 then acc + 2 ^ b.2 else acc) 0)

/-- The 2-bit states of full/empty registers: 0 empty, 1 full, 2 pending. -/
def stateBytes (l : List Nat) (n : Nat) : List Byte :=
  toBytes n ((l.zipIdx).foldl (fun acc b => acc + b.1 * 4 ^ b.2) 0)

/-- Bytes followed by zeros up to a length. -/
def padTo (n : Nat) (b : List Byte) : List Byte := b ++ List.replicate (n - b.length) 0

/-- State `i` of `stateBytes`, and what it makes of a register's full bit; a pending one keeps its own. -/
def stateAt (b : List Byte) (i : Nat) (old : Bool) : Bool :=
  let n := recField b (i / 4) 1 / 4 ^ (i % 4) % 4
  if n = 2 then old else n == 1

/-! ## The control area -/

/-- A loop of an engine stream, in 32 bytes. -/
def Loop.bytes (l : Loop) : List Byte :=
  let st := match l.stages with | some (p, n, t) => [BitVec.ofNat 8 p.toNat, BitVec.ofNat 8 n, 1] ++ toBytes 4 t | none => toBytes 7 0
  padTo 32 (toBytes 8 l.first.toNat ++ toBytes 8 l.last.toNat ++ toBytes 4 l.iter ++ toBytes 4 l.trips ++ [BitVec.ofNat 8 l.lv.toNat] ++ st)

/-- A loop read back. -/
def loopOf (b : List Byte) : Loop :=
  let f := fun o n => recField b o n
  { first := BitVec.ofNat 64 (f 0 8), last := BitVec.ofNat 64 (f 8 8), iter := f 16 4, trips := f 20 4, lv := BitVec.ofNat 1 (f 24 1)
    stages := if f 27 1 = 1 then some (BitVec.ofNat 7 (f 25 1), f 26 1, f 28 4) else none }

/-- A stream, in 128 bytes: its pc, schedule positions, step index, loop counters, valid count and loops. -/
def StreamSt.bytes (x : StreamSt) : List Byte :=
  padTo 128 (toBytes 8 x.pc.toNat ++ toBytes 8 x.posBase ++ toBytes 8 x.posMin ++ toBytes 8 x.issueBase ++ toBytes 8 x.notBefore
    ++ toBytes 8 x.step ++ toBytes 4 x.lc0.toNat ++ toBytes 4 x.lc1.toNat ++ toBytes 4 x.vc.toNat
    ++ toBytes 4 ((if x.ended then 1 else 0) + 2 * x.loops.length) ++ (x.loops.take 2).flatMap Loop.bytes)

/-- A stream read back over what the image does not hold. -/
def StreamSt.restore (x : StreamSt) (b : List Byte) : StreamSt :=
  let f := fun o n => recField b o n
  { x with
    pc := BitVec.ofNat 64 (f 0 8), posBase := f 8 8, posMin := f 16 8, issueBase := f 24 8, notBefore := f 32 8, step := f 40 8
    lc0 := BitVec.ofNat 32 (f 48 4), lc1 := BitVec.ofNat 32 (f 52 4), vc := BitVec.ofNat 32 (f 56 4), ended := f 60 1 % 2 == 1
    loops := (List.range (f 60 1 / 2)).map fun i => loopOf ((b.drop (64 + 32 * i)).take 32) }

/-- The segment carry, in 64 bytes. -/
def Carry.bytes (c : Carry) : List Byte :=
  padTo 64 (toBytes 8 c.value.toNat ++ toBytes 8 c.value2.toNat ++ toBytes 8 c.op ++ toBytes 8 c.slot ++ toBytes 8 c.seg ++ toBytes 8 c.gen
    ++ toBytes 1 ((if c.valid then 1 else 0) + if c.some then 2 else 0))

/-- The carry read back. -/
def carryOf (b : List Byte) : Carry :=
  let f := fun o n => recField b o n
  { value := BitVec.ofNat 64 (f 0 8), value2 := BitVec.ofNat 64 (f 8 8), op := f 16 8, slot := f 24 8, seg := f 32 8, gen := f 40 8
    valid := f 48 1 % 2 == 1, some := f 48 1 / 2 % 2 == 1 }

/-- The state of a full/empty register: 2 while a write is on its way. -/
def fullState (pending full : Bool) : Nat := if pending then 2 else if full then 1 else 0

/-- How an accumulator's elements are read, as a byte. -/
def accKind : Option Bool → Byte
  | none => 0
  | some false => 1
  | some true => 2

/-- The control area: the four streams, the helm's registers, the carry, occupancies as cycles left, the states of accumulators and tile
registers with what a tile register holds beside its data, the retirement count and the CSRs. -/
def Core.control (c : Core) : List Byte :=
  c.helm.bytes ++ c.vec.bytes ++ c.mat.bytes ++ c.cpy.bytes
    ++ padTo 64 (toBytes 8 c.helmSt.npc.toNat ++ toBytes 8 c.helmSt.nnpc.toNat ++ toBytes 8 c.helmSt.ncount.toNat
      ++ toBytes 8 (c.vbusy - c.time) ++ c.mbusy.toList.flatMap (fun (n : Nat) => toBytes 8 (n - c.time)))
    ++ c.carry.bytes
    ++ padTo 64 (toBytes 8 c.sinceRetire ++ toBytes 8 c.seed.toNat ++ toBytes 8 c.tvec.toNat ++ toBytes 8 c.trec.toNat
      ++ stateBytes ((List.range 4).map fun i => let r := BitVec.ofNat 2 i; fullState (c.pending (Eff.writesA r)) (vGet r c.afull)) 4
      ++ stateBytes ((List.range 16).map fun i => let r := BitVec.ofNat 4 i; fullState (c.pending (Eff.writesT r)) (vGet r c.tfull)) 4
      ++ c.aregs.toList.map fun (a : Acc) => accKind a.int)
    ++ c.tregs.toList.flatMap fun (x : Tile) => toBytes 2 x.tag.toNat ++ toBytes 2 (x.band.getD 0).toNat
      ++ toBytes 4 ((if x.side.isSome then 1 else 0) + if x.band.isSome then 2 else 0)

/-- The control area read back. -/
def Core.fromControl (c : Core) (b : List Byte) : Core :=
  let f := fun o n => recField b o n
  let part := fun o n => (b.drop o).take n
  { c with
    helm := c.helm.restore (part 0 128), vec := c.vec.restore (part 128 128), mat := c.mat.restore (part 256 128), cpy := c.cpy.restore (part 384 128)
    helmSt := { c.helmSt with npc := BitVec.ofNat 64 (f 512 8), nnpc := BitVec.ofNat 64 (f 520 8), ncount := BitVec.ofNat 2 (f 528 8) }
    vbusy := c.time + f 536 8, mbusy := Vector.ofFn fun i => c.time + f (544 + 8 * i.val) 8
    carry := carryOf (part 576 64)
    sinceRetire := f 640 8, seed := BitVec.ofNat 64 (f 648 8), tvec := BitVec.ofNat 64 (f 656 8), trec := BitVec.ofNat 22 (f 664 8)
    afull := Vector.ofFn fun i => stateAt (part 672 4) i.val c.afull[i]
    tfull := Vector.ofFn fun i => stateAt (part 676 4) i.val c.tfull[i]
    aregs := Vector.ofFn fun i => { c.aregs[i] with int := match f (680 + i.val) 1 with | 0 => none | 1 => some false | _ => some true }
    tregs := Vector.ofFn fun i =>
      let o := 704 + 8 * i.val
      { c.tregs[i] with
        tag := BitVec.ofNat 16 (f o 2)
        band := if f (o + 4) 1 / 2 % 2 = 1 then some (BitVec.ofNat 16 (f (o + 2) 2)) else none
        side := if f (o + 4) 1 % 2 = 1 then some (c.tregs[i].side.getD 0) else none } }

/-! ## The in-flight queue (11 R351) -/

/-- The destination of a result: its kind, its number, and its payload. -/
def effEntry : Eff → Nat × Nat × List Byte
  | .s r v => (1, r.toNat, toBytes 8 v.toNat)
  | .p r v => (2, r.toNat, [if v then 1 else 0])
  | .pEmpty r => (2, r.toNat, [])
  | .q r v => (3, r.toNat, toBytes 8 v.toNat)
  | .qEmpty r => (3, r.toNat, [])
  | .v r m d => (4, r.toNat, toBytes 512 m.toNat ++ toBytes 512 d.toNat)
  | .k r m => (5, r.toNat, toBytes 16 m.toNat)
  | .t r x => (6, r.toNat, toBytes 4096 x.data.toNat ++ toBytes 1024 (x.side.getD 0).toNat ++ toBytes 2 (x.band.getD 0).toNat
      ++ toBytes 2 x.tag.toNat ++ toBytes 1 ((if x.side.isSome then 1 else 0) + if x.band.isSome then 2 else 0))
  | .tEmpty r => (6, r.toNat, [])
  | .tSide r x => (7, r.toNat, toBytes 1024 x.toNat)
  | .tBand r x => (8, r.toNat, toBytes 2 x.toNat)
  | .a r x => (9, r.toNat, toBytes 8192 x.data.toNat ++ [accKind x.int])
  | .aEmpty r => (9, r.toNat, [])
  | .fmt x => (10, 0, x.flatMap fun (w : BitVec 32) => toBytes 4 w.toNat)
  | .bytes a b => (11, a, b)
  | .cbank f w => (12, f, w.flatMap fun (w : BitVec 32) => toBytes 4 w.toNat)
  | .seed v => (13, 0, toBytes 8 v.toNat)
  | .bond b l w => (14, b, toBytes 8 l ++ toBytes 8 w)
  | .close w => (15, w, [])
  | .shape z => (16, z, [])
  | .raise c => (17, c, [])
  | .phase => (18, 0, [])
  | .phaseEnd => (19, 0, [])

/-- The result of an entry. -/
def effOf (kind n : Nat) (b : List Byte) : Option Eff :=
  let f := fun o n => recField b o n
  let words := (List.range (b.length / 4)).map fun i => BitVec.ofNat 32 (f (4 * i) 4)
  match kind with
  | 1 => some (.s (BitVec.ofNat 6 n) (BitVec.ofNat 64 (f 0 8)))
  | 2 => some (if b.isEmpty then .pEmpty (BitVec.ofNat 7 n) else .p (BitVec.ofNat 7 n) (f 0 1 == 1))
  | 3 => some (if b.isEmpty then .qEmpty (BitVec.ofNat 5 n) else .q (BitVec.ofNat 5 n) (BitVec.ofNat 64 (f 0 8)))
  | 4 => some (.v (BitVec.ofNat 6 n) (BitVec.ofNat 4096 (f 0 512)) (BitVec.ofNat 4096 (f 512 512)))
  | 5 => some (.k (BitVec.ofNat 4 n) (BitVec.ofNat 128 (f 0 16)))
  | 6 => some (if b.isEmpty then .tEmpty (BitVec.ofNat 4 n) else .t (BitVec.ofNat 4 n)
      { data := BitVec.ofNat 32768 (f 0 4096), tag := BitVec.ofNat 16 (f 5122 2)
        side := if f 5124 1 % 2 = 1 then some (BitVec.ofNat 8192 (f 4096 1024)) else none
        band := if f 5124 1 / 2 % 2 = 1 then some (BitVec.ofNat 16 (f 5120 2)) else none })
  | 7 => some (.tSide (BitVec.ofNat 4 n) (BitVec.ofNat 8192 (f 0 1024)))
  | 8 => some (.tBand (BitVec.ofNat 4 n) (BitVec.ofNat 16 (f 0 2)))
  | 9 => some (if b.isEmpty then .aEmpty (BitVec.ofNat 2 n) else .a (BitVec.ofNat 2 n)
      { data := BitVec.ofNat 65536 (f 0 8192), int := match f 8192 1 with | 0 => none | 1 => some false | _ => some true })
  | 10 => some (.fmt words)
  | 11 => some (.bytes n b)
  | 12 => some (.cbank n words)
  | 13 => some (.seed (BitVec.ofNat 64 (f 0 8)))
  | 14 => some (.bond n (f 0 8) (f 8 8))
  | 15 => some (.close n)
  | 16 => some (.shape n)
  | 17 => some (.raise n)
  | 18 => some .phase
  | 19 => some .phaseEnd
  | _ => none

/-- An entry: a header of 32 bytes with the stream, the kind, the payload's length, the number and the remaining delay, and the payload
rounded up to 32 bytes. -/
def queueEntry (st : Stream) (d : Nat) (e : Eff) : List Byte :=
  let p := effEntry e
  padTo 32 (toBytes 2 (streamIdx st) ++ toBytes 2 p.1 ++ toBytes 4 p.2.2.length ++ toBytes 8 p.2.1 ++ toBytes 8 d)
    ++ padTo ((p.2.2.length + 31) / 32 * 32) p.2.2

/-- The values of helm accesses that are still to land. -/
def Core.valued (c : Core) : List Access := c.accesses.filter (·.value.isSome)

/-- The in-flight queue of a core: its results in the pipes, then the values that its helm's accesses have brought. -/
def Core.queueImage (c : Core) : List Byte :=
  c.flights.flatMap (fun (f : Flight) => queueEntry f.st (f.due + 1 - c.time) f.eff)
    ++ c.valued.flatMap fun (a : Access) => queueEntry .helm (a.issued + a.window - c.time) (.s a.rd (a.value.getD 0))

/-- The first `n` entries of a queue: the remaining delay and the result. -/
def queueOf : Nat → List Byte → List (Nat × Option Eff)
  | 0, _ => []
  | n + 1, b =>
    let len := recField b 4 4
    (recField b 16 8, effOf (recField b 2 2) (recField b 8 8) ((b.drop 32).take len)) :: queueOf n (b.drop (32 + (len + 31) / 32 * 32))

/-- The results of a core read back: each lands at the cycle of record at which it would have (11 R351). -/
def Core.fromQueue (c : Core) (b : List Byte) : Core :=
  let q := queueOf (c.flights.length + c.valued.length) b
  let mine := q.drop c.flights.length
  { c with
    flights := (c.flights.zip q).map fun x => { x.1 with
      eff := x.2.2.getD x.1.eff, due := if x.1.arrived then x.1.due else c.time + x.2.1 - 1 }
    accesses := c.accesses.map fun a => match (c.valued.zip mine).find? fun x => x.1.id == a.id with
      | some (_, d, some (.s _ v)) => { a with value := some v, issued := c.time + d - a.window }
      | _ => a }

/-! ## The other areas -/

/-- A buffer of a shape slot, in 17 KiB: its state, the number of its boundaries, its record, its boundary table. -/
def ShapeBuf.bytes (b : ShapeBuf) : List Byte :=
  let st := match b.st with | .free => 0 | .loading => 1 | .current => 2 | .draining => 3
  padTo 0x4400 (padTo 256 (toBytes 8 st ++ toBytes 4 b.bounds.length ++ toBytes 4 b.record.length ++ b.record) ++ b.bounds.flatMap fun n => toBytes 4 n)

/-- A buffer read back. -/
def ShapeBuf.restore (x : ShapeBuf) (b : List Byte) : ShapeBuf :=
  { x with
    st := match recField b 0 8 with | 0 => .free | 1 => .loading | 2 => .current | _ => .draining
    record := (b.drop 16).take (recField b 12 4)
    bounds := (List.range (recField b 8 4)).map fun i => recField b (256 + 4 * i) 4 }

/-- The number of a kind of command in the copy state. -/
def CopyKind.code : CopyKind → Nat
  | .box => 1 | .ragged => 2 | .gath => 3 | .scat => 4 | .bin => 5 | .send => 6 | .recv => 7 | .nmc => 8 | .coll => 9 | .const => 10

/-- The size of a saved queue entry: as many as four channels can queue fit in the copy state (08 R241). -/
def entrySize : Nat := 120

/-- A saved queue entry: kind, channel, tag bit, handle, record address, identifier, fence and record. -/
def CopyCmd.bytes (k : CopyCmd) : List Byte :=
  padTo entrySize (toBytes 1 k.kind.code ++ toBytes 1 k.ch ++ toBytes 1 (if k.nt then 1 else 0) ++ toBytes 1 k.handle ++ toBytes 4 k.recAddr
    ++ toBytes 8 k.ident ++ toBytes 8 k.fence ++ padTo 96 (k.record.take 96))

/-- A command that the stop leaves to be performed after the resume (11 R349 step 2). -/
def CopyCmd.saved (k : CopyCmd) : Bool := !k.finished && !k.started

/-- The copy state: the counts of each channel, and the saved entries with their records, bindings among them. -/
def Core.copyImage (c : Core) : List Byte :=
  c.chIssued.toList.flatMap (fun (n : Nat) => toBytes 8 n) ++ c.chst.toList.flatMap (fun (n : Nat) => toBytes 8 n)
    ++ padTo 64 (toBytes 8 (c.copies.filter (·.saved)).length) ++ (c.copies.filter (·.saved)).flatMap CopyCmd.bytes

/-- The copy state read back: the counts, and the identifiers and records of the saved entries. -/
def Core.fromCopyImage (c : Core) (b : List Byte) : Core :=
  let kept := (c.copies.filter (·.saved)).zipIdx
  { c with
    chIssued := Vector.ofFn fun i => recField b (8 * i.val) 8
    chst := Vector.ofFn fun i => recField b (32 + 8 * i.val) 8
    copies := c.copies.map fun k => match kept.find? fun x => x.1.id == k.id with
      | some (_, i) =>
        let e := (b.drop (128 + entrySize * i)).take entrySize
        { k with ident := recField e 8 8, record := (e.drop 24).take k.record.length }
      | none => k }

/-- A list of slots as 512 bytes, one bit for each of the 4,096. -/
def slotBytes (l : List Nat) : List Byte := toBytes 512 ((l.foldl addOnce []).foldl (fun n i => n + 2 ^ i) 0)

/-- An open phase and its recorded state, in 4 KiB: the descriptor, the start and what has become of it, the recorded registers, the helm's state,
the streams, the segment carry, how many entries its log holds and the slots whose tag a refetch is to bring back (13 R399). The entries of its
log stand in the local store. -/
def Phase.bytes (p : Phase) : List Byte :=
  padTo 4096 (padTo 64 (toBytes 8 1 ++ toBytes 8 p.desc ++ toBytes 8 p.start ++ toBytes 8 p.cancels ++ toBytes 8 (if p.unrecoverable then 1 else 0)
      ++ toBytes 8 p.chmask ++ toBytes 8 p.logAt ++ toBytes 8 p.logn)
    ++ p.sregs.toList.flatMap (fun (x : Word) => toBytes 8 x.toNat) ++ bitBytes p.pregs.toList 16 ++ bitBytes p.pfull.toList 16
    ++ p.qregs.toList.flatMap (fun (x : Word) => toBytes 8 x.toNat) ++ bitBytes p.qfull.toList 32
    ++ padTo 64 (toBytes 8 p.helm.npc.toNat ++ toBytes 8 p.helm.nnpc.toNat ++ toBytes 8 p.helm.ncount.toNat ++ toBytes 8 p.helm.shadow.length)
    ++ ((p.helm.shadow.reverse ++ List.replicate 64 0).take 64).flatMap (fun (x : Word) => toBytes 8 x.toNat)
    ++ p.helmS.bytes ++ p.vecS.bytes ++ p.matS.bytes ++ p.carry.bytes ++ toBytes 8 p.log.length ++ slotBytes p.refetch)

/-- A phase read back over what the image does not hold. -/
def Phase.restore (p : Phase) (b : List Byte) : Phase :=
  let f := fun o n => recField b o n
  let w := fun o => BitVec.ofNat 64 (f o 8)
  let bit := fun o i => f (o + i / 8) 1 / 2 ^ (i % 8) % 2 == 1
  let part := fun o n => (b.drop o).take n
  { p with
    desc := f 8 8, start := f 16 8, cancels := f 24 8, unrecoverable := f 32 8 == 1, chmask := f 40 8, logAt := f 48 8, logn := f 56 8
    sregs := Vector.ofFn fun r => w (64 + 8 * r.val), pregs := Vector.ofFn fun r => bit 576 r.val, pfull := Vector.ofFn fun r => bit 592 r.val
    qregs := Vector.ofFn fun r => w (608 + 8 * r.val), qfull := Vector.ofFn fun r => bit 864 r.val
    helm := { npc := w 896, nnpc := w 904, ncount := BitVec.ofNat 2 (f 912 8)
              shadow := ((List.range (f 920 8)).map fun j => w (960 + 8 * j)).reverse }
    helmS := p.helmS.restore (part 1472 128), vecS := p.vecS.restore (part 1600 128), matS := p.matS.restore (part 1728 128)
    carry := carryOf (part 1856 64)
    log := p.log.take (f 1920 8)
    refetch := (List.range 4096).filter (bit 1928) }

/-- The areas of a core's image, local store apart: offset and bytes. -/
def Core.image (c : Core) : List (Nat × List Byte) :=
  [ (0x0, c.control),
    (0x400, c.sregs.toList.flatMap fun (x : Word) => toBytes 8 x.toNat),
    (0x600, c.kregs.toList.flatMap fun (x : BitVec 128) => toBytes 16 x.toNat),
    (0x700, bitBytes c.pregs.toList 16 ++ stateBytes ((List.range 128).map fun i =>
      let r := BitVec.ofNat 7 i; fullState (c.pending (Eff.writesP r)) (c.pIsFull r)) 32),
    (0x740, c.qregs.toList.flatMap (fun (x : Word) => toBytes 8 x.toNat) ++ stateBytes ((List.range 32).map fun i =>
      let r := BitVec.ofNat 5 i; fullState (c.pending (Eff.writesQ r)) (c.qIsFull r)) 8),
    (0x880, c.fmt.toList.flatMap fun (x : BitVec 32) => toBytes 4 x.toNat),
    (0x8C0, ((c.helmSt.shadow.reverse ++ List.replicate 64 0).take 64).flatMap (fun (x : Word) => toBytes 8 x.toNat)
      ++ toBytes 8 c.helmSt.shadow.length),
    (0xB00, c.bonds.flatMap fun (b : Bond) => toBytes 8 b.base ++ toBytes 8 b.len ++ toBytes 8 b.bond ++ toBytes 8 (if b.isOpen then 1 else 0)),
    (0x1000, c.cbank.toList.flatMap fun (x : BitVec 32) => toBytes 4 x.toNat),
    (0x2000, c.vregs.toList.flatMap fun (x : BitVec 4096) => toBytes 512 x.toNat),
    (0xA000, c.aregs.toList.flatMap fun (x : Acc) => toBytes 8192 x.data.toNat),
    (0x12000, c.tregs.toList.flatMap fun (x : Tile) => toBytes 4096 x.data.toNat ++ toBytes 1024 (x.side.getD 0).toNat),
    (0x26000, (List.range 4096).flatMap fun i => toBytes 2 ((tabGet c.slotTags i).getD 0).toNat),
    (0x28000, (List.range 4096).flatMap fun i => match tabGet c.tagTab i with
      | some k => toBytes 8 k.toNat ++ toBytes 8 1
      | none => toBytes 16 0),
    (0x38000, c.shapes.toList.flatMap fun (z : ShapeSlot) => z.b0.bytes ++ z.b1.bytes),
    (0x7C000, c.copyImage),
    (0x84000, c.queueImage.take 0x20000),
    (0xA4000, match c.phase with | some p => p.bytes | none => []) ]

/-- The size of the image of a core, and where its local store lies in it. -/
def imageSize : Nat := 0x500000
/-- See `imageSize`. -/
def imageLs : Nat := 0x100000

/-- The key of the image of core `i` of a launch in its context's save area. -/
def State.imageKey (s : State) (ctx i : Nat) : Nat := pkey 0 ((s.ctx ctx).save.toNat + 0x10000 + imageSize * i)

/-- Write a core's image: its areas, zeros up to 1 MiB, and its local store there, whose poisoned sectors stay marked. -/
def State.saveCore (s : State) (ctx i : Nat) (c : Core) : State :=
  let k := s.imageKey ctx i
  let s := (c.image.foldl (fun (s : State) x => s.writeHome (k + x.1) x.2) (s.restoreCells k imageLs [])).restoreCells (k + imageLs) 0x400000 c.ls
  let mine := fun (g : Nat) => decide (k ≤ 64 * g ∧ 64 * g < k + imageSize)
  { s with
    bad := s.bad.filter fun x => !mine x.1
    poison := (c.lsPoison.map fun p => (k + imageLs + 32 * p) / 64).foldl addOnce (s.poison.filter fun g => !mine g) }

/-- The sectors of a local store whose image has gone bad since it was saved, a mapped-out pseudo-channel's among them: both of a granule that held
no poisoned one (13 R391, R413). -/
def State.spoiled (s : State) (k : Nat) (c : Core) : List Nat :=
  ((s.poison ++ (s.bad.filter fun x => !x.2).map (·.1) ++ (granulesOf (k + imageLs) 0x400000).filter s.mappedOut).flatMap fun g =>
    if k + imageLs ≤ 64 * g ∧ 64 * g < k + imageSize then
      let p := (64 * g - (k + imageLs)) / 32
      if c.lsPoison.contains p ∨ c.lsPoison.contains (p + 1) then [] else [p, p + 1]
    else []).foldl addOnce []

/-- A core read back from its image; what the image has no place for is the engine's own. -/
def State.loadCore (s : State) (ctx i : Nat) (c : Core) : Core :=
  let k := s.imageKey ctx i
  let n := fun o len => memRead s.mem (k + o) len
  let b := fun o len => memBytes s.mem (k + o) len
  let c := { c with
    sregs := Vector.ofFn fun r => BitVec.ofNat 64 (n (0x400 + 8 * r.val) 8)
    kregs := Vector.ofFn fun r => BitVec.ofNat 128 (n (0x600 + 16 * r.val) 16)
    pregs := Vector.ofFn fun r => n (0x700 + r.val / 8) 1 / 2 ^ (r.val % 8) % 2 == 1
    pfull := Vector.ofFn fun r => stateAt (b 0x710 32) r.val c.pfull[r]
    qregs := Vector.ofFn fun r => BitVec.ofNat 64 (n (0x740 + 8 * r.val) 8)
    qfull := Vector.ofFn fun r => stateAt (b 0x840 8) r.val c.qfull[r]
    fmt := Vector.ofFn fun r => BitVec.ofNat 32 (n (0x880 + 4 * r.val) 4)
    helmSt := { c.helmSt with shadow := ((List.range (n 0xAC0 8)).map fun j => BitVec.ofNat 64 (n (0x8C0 + 8 * j) 8)).reverse }
    bonds := (List.range 16).filterMap fun j =>
      let o := 0xB00 + 32 * j
      if n (o + 8) 8 = 0 then none else some { base := n o 8, len := n (o + 8) 8, bond := n (o + 16) 8, isOpen := n (o + 24) 8 == 1 }
    cbank := Vector.ofFn fun r => BitVec.ofNat 32 (n (0x1000 + 4 * r.val) 4)
    vregs := Vector.ofFn fun r => BitVec.ofNat 4096 (n (0x2000 + 512 * r.val) 512)
    aregs := Vector.ofFn fun r => { c.aregs[r] with data := BitVec.ofNat 65536 (n (0xA000 + 8192 * r.val) 8192) }
    tregs := Vector.ofFn fun r => { c.tregs[r] with
      data := BitVec.ofNat 32768 (n (0x12000 + 5120 * r.val) 4096), side := some (BitVec.ofNat 8192 (n (0x12000 + 5120 * r.val + 4096) 1024)) }
    slotTags := (List.range 4096).filterMap fun j => let v := n (0x26000 + 2 * j) 2; if v = 0 then none else some (j, BitVec.ofNat 16 v)
    tagTab := (List.range 4096).filterMap fun j =>
      if n (0x28000 + 16 * j + 8) 8 = 1 then some (j, BitVec.ofNat 64 (n (0x28000 + 16 * j) 8)) else none
    shapes := Vector.ofFn fun z => { b0 := c.shapes[z].b0.restore (b (0x38000 + 0x8800 * z.val) 0x4400)
                                     b1 := c.shapes[z].b1.restore (b (0x38000 + 0x8800 * z.val + 0x4400) 0x4400) }
    ls := s.cells (k + imageLs) 0x400000
    lsPoison := c.lsPoison ++ s.spoiled k c }
  let c := ((c.fromControl (b 0 0x400)).fromCopyImage (b 0x7C000 0x8000)).fromQueue (b 0x84000 0x20000)
  { c with phase := c.phase.map fun p => p.restore (b 0xA4000 0x1000) }

/-- Whether an area of a core's image, its local store apart, has gone bad since it was saved. -/
def State.imageBad (s : State) (ctx i : Nat) : Bool := s.readBad (s.imageKey ctx i) 0xA5000

/-! ## The launch block -/

/-- The number of a handle's state in the launch block. -/
def HState.code : HState → Nat
  | .free => 0 | .settling => 1 | .live => 2 | .windowed => 3 | .draining => 4 | .lost => 5

/-- A handle of a launch, in 32 bytes: its state and its landings. -/
def Handle.bytes (h : Handle) : List Byte :=
  padTo 32 ([BitVec.ofNat 8 h.st.code, BitVec.ofNat 8 h.src, BitVec.ofNat 8 h.dsts.length] ++ h.dsts.map (BitVec.ofNat 8 ·))

/-- The launch block: the packet, the identifier, the mode, the sequencer's count, the crossing program's pc and loop stack, and every
handle's state. -/
def Launch.block (l : Launch) (kept : List (Nat × Handle)) : List Byte :=
  let prog := (l.xing.map (·.prog)).getD {}
  l.packet ++ toBytes 8 l.cid ++ toBytes 8 ((if l.timed then 1 else 0) + if l.elastic then 2 else 0) ++ toBytes 8 l.count
    ++ toBytes 8 prog.pc.toNat ++ toBytes 8 prog.loops.length ++ padTo 152 (prog.loops.flatMap Loop.bytes)
    ++ (List.range 64).flatMap fun i => match kept.find? (·.1 == i) with
      | some h => h.2.bytes
      | none => toBytes 32 0

/-- The launch's mode, count and crossing program read back from its block. -/
def Launch.restore (l : Launch) (b : List Byte) : Launch :=
  let f := fun o n => recField b o n
  { l with
    elastic := f 72 8 / 2 % 2 == 1, count := f 80 8
    xing := l.xing.map fun x => { x with prog := { x.prog with
      pc := BitVec.ofNat 64 (f 88 8), loops := (List.range (f 96 8)).map fun i => loopOf ((b.drop (104 + 32 * i)).take 32) } } }

end Sys2Proof.Machine
end

