-- ==== Sys2Proof/Machine/Preempt.lean ====
section
/-! DEFINITION. Pre-emption: the stop, the save image and the resume; the migration of a core (02 R46, R60, 10 R335, 11 R349-R352, 13 R399, R401). -/

namespace Sys2Proof.Machine

/-- Whether a request of pre-emption has reached a launch's cores (02 R60). -/
def State.preemptArrived (s : State) (l : Launch) : Bool := match l.preempt with
  | some t => decide (t ≤ s.now)
  | none => false

/-- Whether a launch waits for a common retirement point: a pre-emption, or a migration of one of its coordinates
(02 R60, 13 R401). -/
def State.stopWanted (s : State) (l : Launch) : Bool :=
  s.preemptArrived l || s.tiles.toList.any fun t => match t.migrating with | some c => l.has c | none => false

/-! ## Events -/

/-- No engine operation of a core that has begun to move data, and no helm access, is unfinished (11 R349). -/
def Core.settled (c : Core) : Bool :=
  (c.copies.all fun k => k.finished || !k.started) &&
    c.accesses.all fun a => a.performed || a.fault.isSome || (match a.kind with | .fence _ => true | _ => false)

/-- The stop may begin: the request has arrived and every core stands at a retirement point (02 R60). -/
def State.stopDue (s : State) (l : Launch) : Bool :=
  l.stage == .running && s.preemptArrived l && l.frozenUntil.isNone && !l.freezing && l.owing.isEmpty && s.atCommonPoint l

/-- A collective of the launch that is past its digest, or has its outcome, has still to complete at a member (11 R349). -/
def State.collPending (s : State) (lid : Nat) : Bool := s.colls.any fun x =>
  x.lid == lid && (x.digested || x.status.isSome) && !x.members.all (·.done)

/-- The save may take place: what had begun has ended, and no handle of the launch drains (11 R349). -/
def State.saveDue (s : State) (l : Launch) : Bool :=
  l.stage == .preempting && l.cores.all (fun c => (s.core c).settled) && !s.collPending l.lid &&
    s.handles.toList.all fun h => h.lid != l.lid || h.st != .draining

/-- The handles that a pre-empted launch keeps (10 R335). -/
def State.keptHandles (s : State) (lid : Nat) : List (Nat × Handle) :=
  (s.handles.toList.zipIdx.filter fun x => x.1.lid == lid && x.1.holds).map fun x => (x.2, x.1)

/-- The collective commands of a core that have joined while their collective has not passed its digest. -/
def Core.waitingColls (c : Core) : List CopyCmd := c.copies.filter fun k => k.joined && k.saved

/-- A launch that is saved leaves the collectives that have not passed their digest: nothing of them has been performed, and its members
join again after the resume (11 R349 step 2, R352). What peers have sent stays. -/
def State.unjoin (s : State) (l : Launch) : State :=
  let t := { s with colls := s.colls.map fun (x : Coll) => if x.lid = l.lid ∧ !x.digested ∧ x.status.isNone then { x with members := [] } else x }
  l.cores.foldl (fun (t : State) c => t.modCore c fun k => { k with
    colls := k.waitingColls.foldl (fun n j => match l.team c (collOf j.record).team with
      | some e => tabSet n (teamKey e) ((tabGet n (teamKey e)).getD 0 - 1)
      | none => n) k.colls
    copies := updIf (fun j => j.joined && j.saved) (fun j => { j with taken := none }) k.copies }) t

/-- Save a launch: its cores' images and the launch block are written, and its rectangle, its landings and its places in queues are given
up (10 R335, 11 R349, R350). -/
def State.saveLaunch (s : State) (l : Launch) : State :=
  let s := s.unjoin l
  let kept := s.keptHandles l.lid
  let imgs := (l.cores.zipIdx).map fun c => (⟨c.2, s.core c.1⟩ : Image)
  let s := imgs.foldl (fun (s : State) i => s.saveCore l.ctx i.core i.st) s
  let s := s.writeHome (pkey 0 (s.ctx l.ctx).save.toNat) (l.block kept)
  let s := { s with handles := s.handles.map fun (h : Handle) => if h.holds ∧ h.lid = l.lid then h.freed
    else { h with bindings := h.bindings.filter fun b => !l.has b.1 } }
  l.cores.foldl (fun (s : State) c => s.setCore c {}) <| s.modLaunch l.lid fun l =>
    { l with stage := .preempted, saved := imgs, savedHandles := kept, headAt := s.wall, level := l.prio
             level3 := if l.prio = 3 then some s.wall else none, heldAt := none }

/-- PREEMPTION_STOP: at the common retirement point every core and the sequencer stop; once what had begun has ended, the launch is saved
(02 R46, R60, 10 R335, 11 R349). -/
def execPreemptionStop (s : State) : Host.Outcome State Fault Refusal := match s.launch? s.on.a with
  | none => .fault .eventNotDue
  | some l =>
    if s.stopDue l then
      .next <| l.cores.foldl (fun (s : State) c => s.modCore c fun k => { k with frozen := true, held := true })
        (s.modLaunch l.lid fun l => { l with stage := .preempting, preempt := none })
    else if s.saveDue l then .next (s.saveLaunch l)
    else .fault .eventNotDue

/-! ## Migration -/

/-- Write the phase that is open on a core of a launch into its save image (13 R399). -/
def State.savePhase (s : State) (l : Launch) (c : Nat) : State := match (s.core c).phase with
  | some p => s.writeHome (s.imageKey l.ctx (l.cores.findIdx (· == c)) + 0xA4000) p.bytes
  | none => s

/-- ROTATION_MIGRATION: every core of the launch is frozen while the coordinate moves, for at most 10 us; an open phase of the core that moves is
saved in its image (13 R399, R401, 02 R46). -/
def execRotationMigration (s : State) : Host.Outcome State Fault Refusal :=
  let tile := s.on.a
  if !s.migrationDue tile then .fault .eventNotDue
  else
    let c := (s.tile tile).migrating.getD 0
    let lid := (s.core c).lid
    let s := s.moveCoord tile
    match lid.bind s.launch? with
    | some l =>
      if l.stage = .running then
        let t := s.wall + s.choice 1 (nsUnits 10000 - 210)
        .next ((s.chosen.savePhase l c).holdLaunch l t)
      else .next s
    | none => .next s

/-! ## Resume -/

/-- A saved command re-enters its channel as if just issued, its translations to come in cycle `xlat` (11 R352). -/
def CopyCmd.again (k : CopyCmd) (now tick xlat : Nat) : CopyCmd :=
  if k.saved then { k with
    issued := now, tick := tick, xlatAt := xlat, pages := [], xlated := false, gated := false, ready := none, bound := none, doneAt := none
    taken := none, sendAt := 0, arriveAt := 0, ackAt := 0, held := [], count := 0 }
  else k

/-- Every landing of a saved handle is locked for it, or is not to be had (10 R335). -/
def State.relocked (s : State) (ctx : Nat) (h : Handle) : Bool :=
  (h.src :: h.dsts).all fun l => (s.landing l).trained && (s.landing l).owner == some ctx

/-- Whether a landing of a handle has failed or has gone elsewhere (10 R335). -/
def State.unlockable (s : State) (ctx : Nat) (h : Handle) : Bool :=
  (h.src :: h.dsts).any fun l => (s.landing l).failed || (s.landing l).owner != some ctx

/-- The hold form of YIELDPT waits (02 R59, 11 R348). -/
def Core.holding (c : Core) : Bool := match c.helm.wait with
  | some w => (match w.kind with | .launch _ hold => hold | _ => false)
  | none => false

/-- A core restarts from its image: it still stands at a retirement point where its hold form of YIELDPT waits, its saved commands re-enter
their channels, and an image that has gone bad stops it (11 R348, R350, R352; notes/assumptions/35.md). -/
def State.resumeImage (s : State) (l : Launch) (i : Image) : State :=
  let c := l.cores.getD i.core 0
  let k := s.loadCore l.ctx i.core i.st
  let bad : TrapInfo := { code := cause 5 4 1, st := .helm, cmd := k.helm.step, cyc := k.time }
  let xlat := fun (x : CopyCmd) => ((x.reads ++ x.writes).map (s.xlatBound (tileOf c) l.ctx)).foldl max 1
  s.chosen.setCore c { k with
    frozen := false, held := false, hbank := Vector.replicate 8 0, atRetire := k.holding, yieldAt := none, retireAt := none
    copies := k.copies.map fun x => x.again k.time s.now (s.choice (k.time + 1) (k.time + xlat x))
    raised := if s.imageBad l.ctx i.core then [bad] else k.raised }

/-- A saved binding takes its place in the queue of its handle again, where it has none (10 R316, 11 R352). -/
def State.rebind (s : State) (c : Nat) : State :=
  (s.core c).copies.foldl (fun (s : State) k =>
    if k.kind = .recv ∧ k.saved ∧ !(s.handle k.handle).bindings.contains (c, k.id) then
      s.modHandle k.handle fun h => { h with bindings := h.bindings ++ [(c, k.id)] }
    else s) s

/-- Resume a launch: its images and its block are read back, its handles re-established; a handle that cannot be is lost
(10 R335, 11 R352). -/
def State.resumeLaunch (s : State) (l : Launch) : State :=
  let block := memBytes s.mem (pkey 0 (s.ctx l.ctx).save.toNat) 0x1000
  let s := l.saved.foldl (fun (s : State) i => s.resumeImage l i) s
  let s := l.savedHandles.foldl (fun (s : State) h =>
    let s := s.modHandle h.1 fun x => { h.2 with owner := x.owner }
    if s.unlockable l.ctx h.2 then s.loseHandle h.1 else s) s
  let s := l.cores.foldl (fun (s : State) c => s.rebind c) s
  s.modLaunch l.lid fun l => { l.restore block with stage := .running, saved := [], savedHandles := [] }

/-- PREEMPTED_RESUME: every core and the sequencer restart in one cycle (10 R335, 11 R352). -/
def execPreemptedResume (s : State) : Host.Outcome State Fault Refusal := match s.launch? s.on.a with
  | none => .fault .eventNotDue
  | some l =>
    if l.stage ≠ .resuming ∨ s.now < l.startAt ∨ !(l.savedHandles.all fun h => s.relocked l.ctx h.2 || s.unlockable l.ctx h.2)
    then .fault .eventNotDue
    else .next (s.resumeLaunch l)

end Sys2Proof.Machine
end

