-- ==== Sys2Proof/Machine/Traps.lean ====
section
/-! DEFINITION. Trap delivery, the restart of a frozen launch, quiet deadlock and the retirement bound (02 R45, R46, R48, R49,
R59, R60; 12 R373-R380). -/

namespace Sys2Proof.Machine

/-- TRAP_DELIVERY: a stopped core writes its record and delivers its trap within 64 cycles (12 R374). -/
def State.deliverDue (s : State) (c : Nat) : Bool := (s.core c).trap.isSome && decide ((s.core c).deliverAt ≤ s.now)

/-- The same for a fault of an elastic launch's crossing program, whose delivery to the origin core's handler waits for a trap of the core
itself to be over (12 R373, R374). -/
def State.xDeliverDue (s : State) (c : Nat) : Bool :=
  let k := s.core c
  k.xtrap.isSome && decide (k.xDeliverAt ≤ s.now) && k.trap.isNone && k.handler.isNone && k.trapped.isNone && k.escalated.isNone
    && k.inHandlerFault.isNone

/-- See `State.deliverDue`. -/
def execTrapDelivery (s : State) : Host.Outcome State Fault Refusal :=
  let k := s.core s.on.a
  match (if s.deliverDue s.on.a then k.trap else none), (if s.xDeliverDue s.on.a then k.xtrap else none) with
  | some t, _ => .next (s.takeTrap s.on.a t)
  | none, some t => .next (s.takeTrap s.on.a t)
  | none, none => .fault .eventNotDue

/-- Whether the restart of a frozen launch is due: every core has stopped, and every one that wrote a record has returned
(12 R379). -/
def State.trapResumeDue (s : State) (l : Launch) : Bool :=
  l.freezing && l.owing.isEmpty && l.frozenUntil.isNone && l.cores.all fun c =>
    let k := s.core c
    k.freezeAt.isNone && k.trap.isNone

/-- TRAP_RESUME: every core and the crossing program restart in one cycle, in elastic mode (02 R49, 12 R379). -/
def execTrapResume (s : State) : Host.Outcome State Fault Refusal := match s.launch? s.on.a with
  | none => .fault .eventNotDue
  | some l =>
    if !s.trapResumeDue l then .fault .eventNotDue
    else .next <| l.cores.foldl (fun (s : State) c => s.modCore c fun k => { k with frozen := false })
      (s.modLaunch l.lid fun l => { l with freezing := false, elastic := true, quiet := 0 })

/-- A fault that the launch unit raises on a core, not at a word. -/
def State.unitFault (s : State) (c code : Nat) : State :=
  let k := s.core c
  s.raiseAt c { code := code, st := .helm, cmd := k.helm.step, engine := 0, cyc := k.time }

/-- QUIET_DEADLOCK: 2^24 cycles of an elastic launch without progress (02 R45). -/
def execQuietDeadlock (s : State) : Host.Outcome State Fault Refusal := match s.launch? s.on.a with
  | none => .fault .eventNotDue
  | some l =>
    if l.stage ≠ .running ∨ l.timedNow ∨ l.quiet < 2 ^ 24 then .fault .eventNotDue
    else .next <| l.cores.foldl (fun (s : State) c => s.unitFault c (cause 2 7 quietC))
      (s.modLaunch l.lid fun l => { l with quiet := 0 })

/-- Whether a launch waits for its cores' retirement points: a pre-emption or a migration (02 R59, 13 R401). -/
def State.pointWanted (s : State) (l : Launch) : Bool := l.preempt.isSome || s.stopWanted l

/-- Whether a core's count since its last retirement point exceeds its launch's bound, and the launch's mode raises it
(02 R59). -/
def State.boundPassed (s : State) (c : Nat) : Bool := match s.launchOf c with
  | none => false
  | some l =>
    let k := s.core c
    l.stage == .running && !k.frozen && !k.stopped && decide (l.bound < k.sinceRetire) && (l.timedNow || s.pointWanted l)

/-- RETIREMENT_BOUND_EXCEEDED (02 R59). The count starts again with the fault (DEDUCED, notes/assumptions/15.md). -/
def execRetirementBoundExceeded (s : State) : Host.Outcome State Fault Refusal :=
  let c := s.on.a
  if !s.boundPassed c then .fault .eventNotDue
  else .next ((s.modCore c fun k => { k with sinceRetire := 0 }).unitFault c (cause 2 7 boundC))

end Sys2Proof.Machine
end

