-- ==== Sys2Proof/Machine/Supervisor.lean ====
section
/-! DEFINITION. Supervisor control: the purser's registers, package register space, grants, resumption, termination,
pre-emption requests, interrupts, scalars of stopped cores and shootdowns (12 R363, R368-R372, R377-R380, R383; 13 R404,
R413). -/

namespace Sys2Proof.Machine

/-- A fault on the purser of a tile: class 0, purser (12 R383). -/
def State.purserFault (s : State) (tile b : Nat) : State := s.unitFault (purserOf tile) (cause 0 5 b)

/-! ## Grants (12 R363, R383) -/

/-- Whether a launch of a context runs. -/
def State.running (s : State) (lid : Nat) : Bool := match s.launch? lid with
  | some l => l.holdsCores
  | none => false

/-- A landing is held by a running launch: a handle of one holds a side of it. -/
def State.landingHeld (s : State) (n : Nat) : Bool :=
  s.handles.toList.any fun h => h.holds && (h.src == n || h.dsts.contains n) && s.running h.lid

/-- A handle is held by a running launch. -/
def State.handleHeld (s : State) (n : Nat) : Bool := (s.handle n).holds && s.running (s.handle n).lid

/-- A write of `pgrant` that would take a held landing or handle from its owner: a revocation, or a grant to another context (12 R383). -/
def State.grantBad (s : State) (kind n ctx : Nat) (grant : Bool) : Bool :=
  let takes := fun (o : Option Nat) => if grant then o.isSome && o != some ctx else o == some ctx
  (kind == 0 && takes (s.landing n).owner && s.landingHeld n) || (kind == 1 && takes (s.handle n).owner && s.handleHeld n)

/-- What a write of `pgrant` raises on the purser: operand range, or reserved bits where it registers a quay whose header has one set
(00 R9, 11 R336, 12 R383). -/
def State.grantFault (s : State) (kind n ctx : Nat) (grant : Bool) : Option Nat :=
  if s.grantBad kind n ctx grant then some rangeC
  else if kind = 3 ∧ n ≤ 63 ∧ grant ∧ s.headerReserved n then some reservedC else none

/-- Grant or revoke a resource: kind 0 a landing, 1 a handle, 2 a group, 3 a quay. A number the kind does not have, or of a service landing,
changes nothing; a quay that is registered has its owner in its header's CTX, and a context holds at most four
(10 R296, 12 R363, R383, 11 R336). -/
def State.grant (s : State) (kind n ctx : Nat) (grant : Bool) : State :=
  if kind = 0 then
    if 131 < n ∨ isService n then s
    else if grant then s.modLanding n fun x => { x with owner := some ctx }
    else s.modLanding n fun x => if x.owner = some ctx then { x with owner := none } else x
  else if kind = 1 then
    if 63 < n then s
    else if grant then s.modHandle n fun x => { x with owner := some ctx }
    else s.modHandle n fun x => if x.owner = some ctx then { x with owner := none } else x
  else if kind = 2 then
    if 63 < n then s
    else if grant then s.modGroup n fun x =>
      { x with revoked := false
               words := (BitVec.ofNat 64 ((x.word 0).toNat / 16 * 16 + ctx)) :: x.words.tail }
    else s.modGroup n fun x => if x.owner = ctx then { x with revoked := true } else x
  else
    if 63 < n then s
    else if grant then
      if (s.quays.filter fun q => s.quayCtx q.1 == some ctx && q.1 != n).length < 4 then
        { s.writeHome (pkey 0 (quayHeader n + 26)) [BitVec.ofNat 8 (ctx % 16)] with quays := (s.quays.filter (·.1 != n)) ++ [(n, ctx)] }
      else s
    else if s.quayCtx n = some ctx then { s with quays := s.quays.filter (·.1 != n) } else s

/-- A write of `pgrant` by the purser of a tile. -/
def State.pgrant (s : State) (tile kind n ctx : Nat) (grant : Bool) : State :=
  match s.grantFault kind n ctx grant with
  | some b => s.purserFault tile b
  | none => s.grant kind n ctx grant

/-- PGRANT_LANDING (10 R296, 12 R383). -/
def execPgrantLanding (s : State) : Host.Outcome State Fault Refusal := .next (s.pgrant s.on.a 0 s.on.c s.on.b true)
/-- PREVOKE_LANDING (12 R383). -/
def execPrevokeLanding (s : State) : Host.Outcome State Fault Refusal := .next (s.pgrant s.on.a 0 s.on.c s.on.b false)
/-- PGRANT_HANDLE (10 R296, 12 R383). -/
def execPgrantHandle (s : State) : Host.Outcome State Fault Refusal := .next (s.pgrant s.on.a 1 s.on.c s.on.b true)
/-- PREVOKE_HANDLE (12 R383). -/
def execPrevokeHandle (s : State) : Host.Outcome State Fault Refusal := .next (s.pgrant s.on.a 1 s.on.c s.on.b false)
/-- PGRANT_GROUP (12 R363). -/
def execPgrantGroup (s : State) : Host.Outcome State Fault Refusal := .next (s.pgrant s.on.a 2 s.on.c s.on.b true)
/-- PREVOKE_GROUP (12 R363). -/
def execPrevokeGroup (s : State) : Host.Outcome State Fault Refusal := .next (s.pgrant s.on.a 2 s.on.c s.on.b false)
/-- PGRANT_QUAY (11 R336). -/
def execPgrantQuay (s : State) : Host.Outcome State Fault Refusal := .next (s.pgrant s.on.a 3 s.on.c s.on.b true)
/-- PREVOKE_QUAY (11 R336). -/
def execPrevokeQuay (s : State) : Host.Outcome State Fault Refusal := .next (s.pgrant s.on.a 3 s.on.c s.on.b false)

/-! ## Launches and cores -/

/-- The launch that a write of `pterm` or `ppre` names (12 R383). -/
def State.named (s : State) (v : Word) : Option Launch :=
  s.launches.find? fun l => l.cid == bits v 47 0 && l.ctx == bits v 51 48 && l.stage != .retired

/-- A write of `pterm` (12 R383). -/
def State.ptermWrite (s : State) (v : Word) : State := match s.named v with
  | some l => s.terminate l
  | none => s

/-- PTERM (12 R383). -/
def execPterm (s : State) : Host.Outcome State Fault Refusal := .next (s.ptermWrite s.on.word)

/-- A write of `ppre`: the request reaches every core within 64 cycles (02 R60, 11 R349). -/
def State.ppreWrite (s : State) (v : Word) : State := match s.named v with
  | some l => if l.stage = .running then s.chosen.modLaunch l.lid fun l => { l with preempt := some (s.now + s.choice 1 64) } else s
  | none => s

/-- PPRE (02 R60, 11 R349). -/
def execPpre (s : State) : Host.Outcome State Fault Refusal := .next (s.ppreWrite s.on.word)

/-- The record copy of a core's crossing program that a write of `presume` by a tile's purser resumes from, where it resumes that. -/
def State.xRecord (s : State) (tile c : Nat) : Option Nat :=
  let k := s.core c
  if k.escalated.isNone ∨ k.xEscalated = some (s.tile tile).ptrec.toNat then k.xEscalated else none

/-- A write of `presume`: the record's copy goes back to `trec` and the core resumes from it; a core whose handler faulted resumes
in handler mode from the new record (12 R378, R446). Where a fault of an elastic launch's crossing program stands escalated on its origin
core, the write resumes the crossing program, unless the core has a trap of its own and `ptrec` does not name the program's; its copy goes
back to `trec` unless a record of the core's own stands there (R373; DEDUCED, notes/assumptions/21.md). -/
def State.resumeCore (s : State) (tile c : Nat) : State :=
  let k := s.core c
  match s.xRecord tile c, k.escalated with
  | some x, _ =>
    let r := memBytes s.mem x 64
    let k := if k.handler.isNone && k.trapped.isNone then k.putBytes k.trec.toNat r else k
    (s.setCore c { k with xEscalated := none }).resumeXing c r
  | none, none => s
  | none, some esc =>
    let r := memBytes s.mem esc 64
    match k.inHandlerFault with
    | some _ =>
      let b := fun o => BitVec.ofNat 64 (recField r o 8)
      s.setCore c { k with
        helm := { k.helm with pc := b 8 }, helmSt := { k.helmSt with npc := b 16, nnpc := b 24 }
        inHandlerFault := none, escalated := none }
    | none => (s.setCore c (k.putBytes k.trec.toNat r)).returnTrap c r

/-- The core a supervisor coordinate names: bits 5..0 and 12..8 (12 R380, R383). -/
def coordCore (v : Word) : Nat := coreAt (bits v 5 0) (bits v 12 8)

/-- What a purser's CSRW of a register that reads a record from its stack raises where the record is poison (13 R388). -/
def State.recordBad (s : State) (tile n : Nat) (v : Word) : Option Nat :=
  let at_ := match n with
    | 0x812 => (s.xRecord tile (coordCore v)).or (s.core (coordCore v)).escalated
    | 0x818 => some v.toNat
    | _ => none
  if at_.any fun a => s.readBad (pkey 0 a) 64 then some (cause 5 4 1) else none

/-- PRESUME (12 R378). -/
def execPresume (s : State) : Host.Outcome State Fault Refusal :=
  .next (match s.recordBad s.on.a 0x812 s.on.word with
    | some code => s.unitFault (purserOf s.on.a) code
    | none => s.resumeCore s.on.a (coordCore s.on.word))

/-- A write of `pintr`: the first names the core and the tag, the second the cycle (12 R380). -/
def State.pintrWrite (s : State) (tile : Nat) (v : Word) : State := match (s.tile tile).pintr with
  | none => s.modTile tile fun t => { t with pintr := some v }
  | some w => (s.modTile tile fun t => { t with pintr := none }).modCore (coordCore w) fun k =>
      { k with interrupt := some (BitVec.ofNat 32 (bits w 47 16), v.toNat) }

/-- PINTR (12 R380). -/
def execPintr (s : State) : Host.Outcome State Fault Refusal := .next (s.pintrWrite s.on.a s.on.word)

/-- The value of `ptrapq`: the oldest escalated trap of the tile, or 0 (12 R383). -/
def TileSt.nextTrap (t : TileSt) : Word := match t.trapq with
  | (c, _) :: _ => BitVec.ofNat 64 (2 ^ 63 + coreX c + 256 * coreY c)
  | [] => 0

/-- A read of `ptrapq` removes the trap, and `ptrec` gives its record (12 R383). -/
def State.popTrap (s : State) (tile : Nat) : State := s.modTile tile fun t => match t.trapq with
  | (_, a) :: rest => { t with trapq := rest, ptrec := BitVec.ofNat 64 a }
  | [] => t

/-- PTRAPQ: the purser's scalar takes the value read (12 R383). -/
def execPtrapq (s : State) : Host.Outcome State Fault Refusal :=
  let tile := s.on.a
  let v := (s.tile tile).nextTrap
  .next ((s.popTrap tile).modCore (purserOf tile) fun k => k.putS (BitVec.ofNat 6 s.on.b) v)

/-- The core and the scalar that `pcsel` selects (12 R383). -/
def TileSt.selected (t : TileSt) : Nat × SReg := (coordCore t.pcsel, BitVec.ofNat 6 (bits t.pcsel 21 16))

/-- A scalar of a stopped core: its landed value (12 R377, R383). -/
def Core.stoppedScalar (k : Core) (r : SReg) : Word :=
  if r = 0 then 0 else
    let kept := match k.handler.or k.trapped with | some st => st.flights | none => []
    ((kept.foldl (fun acc (f : Flight) => if f.arrived then (Eff.scalar? r f.eff).or acc else acc) none).getD (vGet r k.sregs))

/-- A core is stopped for the purser: its trap stands, and no handler of it runs (12 R375, R383). -/
def Core.atRest (k : Core) : Bool := k.stopped && (k.handler.isNone || k.inHandlerFault.isSome)

/-- Write a scalar of a stopped core, over its landed results. -/
def Core.setStoppedScalar (k : Core) (r : SReg) (v : Word) : Core :=
  let drop := fun (l : List Flight) => l.filter fun f => !(f.arrived && (Eff.scalar? r f.eff).isSome)
  let fix := fun (o : Option Stopped) => o.map fun st => { st with flights := drop st.flights }
  if r = 0 then k else { k with sregs := vSet r v k.sregs, handler := fix k.handler, trapped := fix k.trapped }

/-- PCDAT: `flag` for a write from the purser's scalar `b`, else a read into it; a core that is not stopped raises operand range
(12 R383). -/
def execPcdat (s : State) : Host.Outcome State Fault Refusal :=
  let tile := s.on.a
  let r := BitVec.ofNat 6 s.on.b
  let x := (s.tile tile).selected
  if !(s.core x.1).atRest then .next (s.purserFault tile rangeC)
  else if s.on.flag then
    let v := (s.core (purserOf tile)).sreg .helm r
    .next (s.modCore x.1 fun k => k.setStoppedScalar x.2 v)
  else .next (s.modCore (purserOf tile) fun k => k.putS r ((s.core x.1).stoppedScalar x.2))

/-! ## Translation entries and shootdowns -/

/-- Drop a context's translation entries in a range of virtual addresses, in every unit (12 R370, R371). -/
def State.dropRange (s : State) (ctx va len : Nat) : State :=
  { s with tiles := s.tiles.map fun (t : TileSt) =>
      { t with tu := t.tu.filter fun e => !(e.1 == ctx && overlaps e.2.1 e.2.2.size va len)
               dir := t.dir.filter fun e => !(e.ctx == ctx && overlaps e.base e.size va len) } }

/-- Change a context's root: its translation entries are dropped (12 R370). -/
def State.setRoot (s : State) (ctx : Nat) (v : Word) : State :=
  (s.modCtx ctx fun x => { x with root := v }).dropRange ctx 0 (2 ^ 48)

/-- CONTEXT_ROOT_CHANGE (12 R370). -/
def execContextRootChange (s : State) : Host.Outcome State Fault Refusal := .next (s.setRoot s.on.a s.on.word)

/-- The physical ranges of this package that the leaves of a context's range name: those that translation units hold, and those of its
tables (12 R371). -/
def State.rangesOf (s : State) (ctx va len : Nat) : List (Nat × Nat) :=
  let held := s.tiles.toList.flatMap fun (t : TileSt) => (t.tu.filter (·.1 == ctx)).map (·.2)
  ((held ++ s.leavesOf ctx).filter fun l => overlaps l.1 l.2.size va len && l.2.ap == 0).foldl (fun acc l =>
    if acc.contains (l.2.page, l.2.size) then acc else acc ++ [(l.2.page, l.2.size)]) []

/-- A write of `pshoot`: the record at a physical address; every unit of the package drops its entries (12 R371). -/
def State.shoot (s : State) (tile : Nat) (v : Word) : State :=
  let r := memBytes s.mem (pkey 0 v.toNat) 64
  let mask := (List.range 254).filterMap fun i => if (ofBytes ((r.drop 24).take 32)).testBit (i + 1) then some (i + 1) else none
  let ctx := recField r 0 1 % 16
  let va := recField r 8 8
  let len := 65536 * recField r 16 4
  let x : Shoot := { id := s.nextShoot, tile := tile, ctx := ctx, va := va, pages := recField r 16 4
                     mask := mask, at_ := s.wall, ranges := s.rangesOf ctx va len }
  ({ s with shoots := s.shoots ++ [x], nextShoot := s.nextShoot + 1 }.dropRange x.ctx x.va (65536 * x.pages)).modTile tile
    fun t => { t with pshst := 0 }

/-- PSHOOT (12 R371). -/
def execPshoot (s : State) : Host.Outcome State Fault Refusal :=
  .next (match s.recordBad s.on.a 0x818 s.on.word with
    | some code => s.unitFault (purserOf s.on.a) code
    | none => s.shoot s.on.a s.on.word)

/-- The in-flight count of a range: whether a command that passed translation has not completed (08 R247). -/
def State.inFlight (s : State) (ctx va len : Nat) : Bool :=
  s.cores.any fun c => s.ctxOf c.1 == ctx && c.2.copies.any fun k =>
    k.xlated && !k.finished && k.pages.any fun p => overlaps (p.1 / 65536 * 65536) 65536 va len

/-- The apertures of a shootdown's mask whose peers have been revoked, as `pshst` shows them. -/
def Shoot.status (x : Shoot) : Word :=
  BitVec.ofNat 64 (1 + (if x.lost.isEmpty then 0 else 2) + 256 * ofBytes ((x.lost.take 7).map fun n => BitVec.ofNat 8 n))

/-- The second step of a shootdown is over: no in-flight count of the range is left (12 R371). -/
def State.shootQuiet (s : State) (x : Shoot) : Bool := !s.inFlight x.ctx x.va (65536 * x.pages)

/-- Every peer of a shootdown has acknowledged, which removes it from the mask, or is revoked (12 R371, R372). -/
def State.shootDue (s : State) (x : Shoot) : Bool := s.shootQuiet x && x.mask.all x.lost.contains

/-- SHOOTDOWN_COMPLETE: with no in-flight count left, the requests go to the peers of the mask; once every step has finished, `pshst` shows
it. Entries that walks have brought in since are dropped as well (12 R371). -/
def execShootdownComplete (s : State) : Host.Outcome State Fault Refusal := match s.shoots.find? (·.id == s.on.a) with
  | none => .fault .eventNotDue
  | some x =>
    if s.shootDue x then
      .next (({ s with shoots := s.shoots.filter (·.id != x.id) }.dropRange x.ctx x.va (65536 * x.pages)).modTile x.tile
        fun t => { t with pshst := x.status })
    else if s.shootQuiet x && !x.sent then
      .next { s with
        shoots := updIf (·.id == x.id) (fun y => { y with sent := true, at_ := s.wall }) s.shoots
        outbox := s.outbox ++ x.mask.map fun ap => (ap, .shootdown x.id x.ranges) }
    else .fault .eventNotDue

/-- Change an entry of the aperture table. -/
def State.modAperture (s : State) (n : Nat) (f : Aperture → Aperture) : State :=
  { s with apertures := tabSet s.apertures n (f (s.aperture n)) }

/-- The physical address of entry `i` of the pending-invalidation log of the peer of aperture `ap`: 16 bytes, an address and a length, 256
entries for each aperture. The spec reserves the region and gives no address; DESIGN CHOICE, notes/assumptions/3.md. -/
def logEntry (ap i : Nat) : Nat := 64000000000 - 65536 - 8192 - 1048576 + 4096 * (ap % 256) + 16 * (i % 256)

/-- Append ranges to a peer's pending-invalidation log (12 R372). -/
def State.appendLog (s : State) (ap : Nat) (rs : List (Nat × Nat)) : State :=
  rs.foldl (fun (s : State) r =>
    (s.writeHome (pkey 0 (logEntry ap (s.aperture ap).log.length)) (toBytes 8 r.1 ++ toBytes 8 r.2)).modAperture ap fun a =>
      { a with log := a.log ++ [r] }) s

/-- The apertures that name the package of one of them, that one with them. -/
def State.namesOf (s : State) (ap : Nat) : List Nat := (s.apertures.map (·.1)).foldl (fun l a =>
  if s.samePeer a ap && !l.contains a then insertBy id a l else l) [ap]

/-- PEER_UNREACHABLE: 640 us without an acknowledgment, or a peer past holdover: every entry naming the peer is revoked and under quarantine
until its log is replayed, the range goes to its pending-invalidation log, and `pshst` is to show its apertures (12 R372). -/
def execPeerUnreachable (s : State) : Host.Outcome State Fault Refusal := match s.shoots.find? (·.id == s.on.a) with
  | none => .fault .eventNotDue
  | some x =>
    let ap := s.on.b
    if !x.sent ∨ !x.mask.contains ap ∨ x.lost.contains ap ∨ (s.wall < x.at_ + nsUnits 640000 ∧ !s.expired) then .fault .eventNotDue
    else
      let all := s.namesOf ap
      let t := (all.foldl (fun (s : State) e => s.modAperture e fun a => { a with revoked := true, quarantine := true, replayed := false }) s).appendLog ap
        x.ranges
      .next { t with shoots := updIf (·.id == x.id) (fun y => { y with
        lost := all.foldl (fun l a => if l.contains a then l else insertBy id a l) y.lost }) t.shoots }

/-- PENDING_INVALIDATION_REPLAY: the peer is reachable again, in a service minute in which a fibre landing faces it, and its log goes to it under
quarantine, which lasts until the peer has acknowledged (12 R372, 10 R331). -/
def execPendingInvalidationReplay (s : State) : Host.Outcome State Fault Refusal :=
  let ap := s.on.a
  if !(s.aperture ap).quarantine || (s.aperture ap).replayed || !s.inMinute || !s.facesPeer ap then .fault .eventNotDue
  else .next ((s.namesOf ap).foldl (fun (s : State) e => s.modAperture e fun a => { a with replayed := true }) s)

/-- The peer of an aperture has dropped every range of the log that was sent to it: the log is empty and the quarantine over; the supervisor clears the
revoked bits afterwards (12 R372). -/
def State.replayDone (s : State) (ap : Nat) : State :=
  (s.namesOf ap).foldl (fun (s : State) e => s.modAperture e fun a =>
    if a.replayed then { a with log := [], quarantine := false, replayed := false } else a) s

/-! ## Registers with no behaviour of their own (12 R383, 13 R404, R413) -/

/-- A write of a plain purser register by the purser of a tile. -/
def State.purserWrite (s : State) (tile n : Nat) (v : Word) : State :=
  let ctx := (s.tile tile).psel % 16
  match n with
  | 0x800 => s.modTile tile fun t => { t with psel := bits v 3 0 }
  | 0x801 => s.setRoot ctx v
  | 0x802 => if (s.ctx ctx).active ∨ (s.ctx ctx).restoring then s.purserFault tile rangeC
      else s.modCtx ctx fun x => { x with epoch := v.setWidth 8 }
  | 0x803 => s.modCtx ctx fun x => { x with flags := v &&& 0x1D#64 }
  | 0x804 => s.modCtx ctx fun x => { x with evt := v &&& ~~~0xFFF#64 }
  | 0x805 => s.modCtx ctx fun x => { x with evtc := v &&& 0x1FFFFFFF1F#64 }
  | 0x806 => s.modCtx ctx fun x => { x with save := v }
  | 0x815 => s.modTile tile fun t => { t with pcsel := v &&& 0x3F1FFF#64 }
  | 0x81A => s.modAperture (bits v 7 0) fun a =>
      { a with valid := v.getLsbD 24, revoked := v.getLsbD 25, rack := bits v 17 8 }
  | 0x81B => s.modTile tile fun t => { t with ptvec := v }
  | _ => s

/-- The address of a snapshot register: its context and offset (13 R404). -/
def snapReg (a : Nat) : Option (Nat × Nat) := if regSpace ≤ a ∧ a < regSpace + 0x1000 then some ((a - regSpace) / 256, (a - regSpace) % 256) else none

/-- The address of a stack register: its stack and offset (13 R413). -/
def stackReg (a : Nat) : Option (Nat × Nat) :=
  if regSpace + 0x10000 ≤ a ∧ a < regSpace + 0x10800 then some ((a - regSpace - 0x10000) / 256, (a - regSpace - 0x10000) % 256) else none

/-- A 64-bit write in package register space (13 R404, R413). An address that names no register takes no write. -/
def State.packageWrite (s : State) (a : Nat) (v : Word) : State := match snapReg a, stackReg a with
  | some (ctx, 0x00), _ => s.sncmd ctx v
  | some (ctx, 0x10), _ => s.modCtx ctx fun x => { x with snpool := v &&& ~~~0xFFFF#64 }
  | some (ctx, 0x18), _ => s.modCtx ctx fun x => { x with snpsz := v }
  | some (ctx, 0x20), _ => s.modCtx ctx fun x => { x with snroot := v &&& ~~~0x3F#64 }
  | _, some (st, off) => s.stackWrite st off v
  | _, _ => s

/-- A 64-bit read in package register space, with what the read changes (13 R404, R413). -/
def State.packageRead (s : State) (a : Nat) : Word × State := match snapReg a, stackReg a with
  | some (ctx, 0x08), _ => ((s.ctx ctx).snst, s)
  | some (ctx, 0x10), _ => ((s.ctx ctx).snpool, s)
  | some (ctx, 0x18), _ => ((s.ctx ctx).snpsz, s)
  | some (ctx, 0x20), _ => ((s.ctx ctx).snroot, s)
  | _, some (st, off) => ((s.stack st).reg off, if off = 0x28 then s.readEye st else s)
  | _, _ => (0, s)

/-- REGISTER_WRITE: of a purser register by number, or of package register space by address; with `flag` the supervisor sets the base of the
BAR2 window of the context in `psel`, to which the spec gives no register (12 R368, R383, R386, 13 R404, R413; DESIGN CHOICE,
notes/assumptions/30.md). -/
def execRegisterWrite (s : State) : Host.Outcome State Fault Refusal :=
  if s.on.flag then .next (s.modCtx ((s.tile s.on.a).psel % 16) fun x => { x with bar2 := s.on.word.toNat })
  else if s.on.b < 0x1000 then .next (s.purserWrite s.on.a s.on.b s.on.word) else .next (s.packageWrite s.on.b s.on.word)

/-- GROUP_TABLE_WRITE: the supervisor writes an entry. An entry written invalid loses its binding, its number and its counts; a
member removed is no longer held for, one added starts at the next number less 1, and one rewritten in force resumes
(09 R284, R285; 13 R415). -/
def execGroupTableWrite (s : State) : Host.Outcome State Fault Refusal :=
  let g := s.on.a
  let old := s.group g
  let new : Group := { old with words := s.on.words, revoked := false }
  if 63 < g then .next s
  else if !new.valid ∨ !old.valid then .next (s.modGroup g fun _ => { words := s.on.words })
  else
    let counts := (List.range 16).filterMap fun m =>
      if new.inForce m then some (m, if old.inForce m then old.appliedOf m else new.next - 1) else none
    let again := new.stoppedM.filter new.inForce
    .next <| again.foldl (fun (s : State) m => s.plan 1 .memberResend { a := g, b := m }) <| s.modGroup g fun _ => { new with
      applied := counts
      held := new.held.filter fun h => counts.any fun c => decide (c.2 < h.n)
      stoppedM := again }

end Sys2Proof.Machine
end

