-- ==== Sys2Proof/Machine/System.lean ====
section
/-! DEFINITION. CSRR, CSRW, SYSCALL, HRET, HESC and TSTART (03 R85, R86; 05 R161; 12 R375, R377, R378, R383, R384). -/

namespace Sys2Proof.Machine

/-- A core's coordinate as `coreid` shows it (03 R85); a purser core has none, and its bits are free (01 R14). -/
def coreidOf (c : Nat) : Nat := placeBits c + 65536 * tileOf c

/-- CSR `mode` (03 R85). -/
def State.modeOf (s : State) (c : Nat) : Nat := match s.launchOf c with
  | some l => (if l.timed then 1 else 0) + if l.elastic then 2 else 0
  | none => 0

/-- The numbers assigned to launch cores (03 R85). -/
def assignedCsrs : List Nat :=
  [0x000, 0x001, 0x002, 0x010, 0x020, 0x021, 0x022, 0x023, 0x024, 0x025, 0x026, 0x027, 0x030, 0x031, 0x032, 0x040, 0x041,
    0x042, 0x043, 0x050, 0x051, 0x052, 0x053, 0x054, 0x055, 0x056, 0x057]

/-- The numbers that CSRW may write (03 R85). -/
def writableCsrs : List Nat := [0x010, 0x030, 0x032, 0x050, 0x051, 0x052, 0x053, 0x054, 0x055, 0x056, 0x057]

/-- The purser CSRs that may be read, and those that may be written (12 R383). -/
def purserReads : List Nat := [0x800, 0x801, 0x802, 0x803, 0x804, 0x805, 0x806, 0x810, 0x811, 0x816, 0x819, 0x81B]
/-- See `purserReads`. -/
def purserWrites : List Nat :=
  [0x800, 0x801, 0x802, 0x803, 0x804, 0x805, 0x806, 0x807, 0x812, 0x813, 0x814, 0x815, 0x816, 0x817, 0x818, 0x81A, 0x81B]

/-- Whether a number is one of `trw0` to `trw7`. -/
def isTrw (n : Nat) : Bool := decide (0x50 ≤ n ∧ n ≤ 0x57)

/-- The privilege and existence checks of CSRR and CSRW (03 R86, 12 R378, R383). -/
def State.csrAccess (s : State) (n : Nat) (write : Bool) : Verdict :=
  if 0x800 ≤ n then
    if !isPurser s.cur.core then .fault (cause0 .helm privC)
    else if (if write then purserWrites else purserReads).contains n then .ok
    else if (if write then purserReads else purserWrites).contains n then .fault (cause0 .helm privC)
    else .fault (cause0 .helm rangeC)
  else if !assignedCsrs.contains n then .fault (cause0 .helm rangeC)
  else if isTrw n && s.me.handler.isNone then .fault (cause0 .helm privC)
  else if write && !writableCsrs.contains n then .fault (cause0 .helm privC)
  else .ok

/-- The value of a CSR of a launch core (03 R85). -/
def State.csr (s : State) (n : Nat) : Word :=
  let c := s.me
  let me := s.cur.core
  if n = 0x000 then BitVec.ofNat 64 c.cyc
  else if n = 0x001 then BitVec.ofNat 64 s.dayc
  else if n = 0x002 then BitVec.ofNat 64 s.hourCsr
  else if n = 0x010 then c.seed
  else if 0x020 ≤ n ∧ n ≤ 0x023 then BitVec.ofNat 64 (vAt c.chst (n - 0x20))
  else if 0x024 ≤ n ∧ n ≤ 0x027 then BitVec.ofNat 64 (vAt c.chIssued (n - 0x24))
  else if n = 0x030 then c.tvec
  else if n = 0x031 then c.tcause.setWidth 64
  else if n = 0x032 then c.trec.setWidth 64
  else if n = 0x040 then BitVec.ofNat 64 (coreidOf me)
  else if n = 0x041 then BitVec.ofNat 64 (match s.launchOf me with | some l => l.cid | none => 0)
  else if n = 0x042 then BitVec.ofNat 64 (s.ctxOf me)
  else if n = 0x043 then BitVec.ofNat 64 (s.modeOf me)
  else if isTrw n then BitVec.ofNat 64 (memRead c.ls (c.trec.toNat + 8 * (n - 0x50)) 8)
  else 0

/-- The value of a purser CSR (12 R383). -/
def State.purserCsr (s : State) (n : Nat) : Word :=
  let t := s.tile (tileOf s.cur.core)
  let x := s.ctx (t.psel % 16)
  match n with
  | 0x800 => BitVec.ofNat 64 t.psel
  | 0x801 => x.root
  | 0x802 => x.epoch.setWidth 64
  | 0x803 => x.flags
  | 0x804 => x.evt
  | 0x805 => x.evtc
  | 0x806 => x.save
  | 0x810 => t.nextTrap
  | 0x811 => t.ptrec
  | 0x816 => (s.core t.selected.1).stoppedScalar t.selected.2
  | 0x819 => t.pshst
  | 0x81B => t.ptvec
  | _ => 0

/-- CSRR: the value at the issue cycle, after 1 cycle (05 R161). A read of `ptrapq` removes what it reads; one of `pcdat` needs a
stopped core (12 R383). -/
def execCsrr (rd : SReg) (csr : BitVec 12) (s : State) : Host.Outcome State Fault Refusal :=
  let n := csr.toNat
  let tile := tileOf s.cur.core
  s.perform (verdicts [s.csrAccess n false,
      bar (decide (n = 0x816) && !(s.core (s.tile tile).selected.1).atRest) (cause 0 5 rangeC)]) fun s =>
    let v := if 0x800 ≤ n then s.purserCsr n else s.csr n
    (if n = 0x810 then s.popTrap tile else s).write 1 [.s rd v]

/-- What a write of a purser CSR raises on the purser (12 R383, 13 R388, R404). -/
def State.csrwFault (s : State) (n : Nat) (v : Word) : Option Nat :=
  let tile := tileOf s.cur.core
  let x := s.ctx ((s.tile tile).psel % 16)
  match n with
  | 0x802 => if x.active ∨ x.restoring then some (cause 0 5 rangeC) else none
  | 0x807 => (s.grantFault (bits v 1 0) (bits v 15 8) (bits v 19 16) (v.getLsbD 20)).map (cause 0 5)
  | 0x816 => if (s.core (s.tile tile).selected.1).atRest then none else some (cause 0 5 rangeC)
  | _ => s.recordBad tile n v

/-- What a CSRW of a purser CSR does (12 R383). -/
def State.csrwPurser (s : State) (n : Nat) (v : Word) : State :=
  let tile := tileOf s.cur.core
  match n with
  | 0x807 => s.grant (bits v 1 0) (bits v 15 8) (bits v 19 16) (v.getLsbD 20)
  | 0x812 => s.resumeCore tile (coordCore v)
  | 0x813 => s.ptermWrite v
  | 0x814 => s.ppreWrite v
  | 0x816 => s.modCore (s.tile tile).selected.1 fun k => k.setStoppedScalar (s.tile tile).selected.2 v
  | 0x817 => s.pintrWrite tile v
  | 0x818 => s.shoot tile v
  | _ => s.purserWrite tile n v

/-- CSRW: at the end of the issue cycle; a misaligned `tvec` or `trec` is refused, and `seed` may not be written in a phase
(03 R86, 05 R161, 12 R378, 13 R395). -/
def execCsrw (csr : BitVec 12) (ra : SReg) (s : State) : Host.Outcome State Fault Refusal :=
  let n := csr.toNat
  let v := s.sr ra
  s.perform (verdicts [s.csrAccess n true, if n = 0x010 then s.noPhase else .ok,
      s.bad0 ((n == 0x030 && decide (v.toNat % 8 ≠ 0)) || (n == 0x032 && decide (v.toNat % 64 ≠ 0))) alignC,
      match s.csrwFault n v with | some code => .fault code | none => .ok]) fun s =>
    if 0x800 ≤ n then (s.csrwPurser n v).advance
    else if n = 0x010 then s.write 1 [.seed v]
    else if n = 0x030 then (s.modMe fun c => { c with tvec := v }).advance
    else if n = 0x032 then (s.modMe fun c => { c with trec := v.setWidth 22 }).advance
    else s.write 1 [.bytes (s.me.trec.toNat + 8 * (n - 0x50)) (toBytes 8 v.toNat)]

/-- SYSCALL: counts as executed, and takes the supervisor's software trap with its number as status (12 R377). -/
def execSyscall (n : BitVec 13) (s : State) : Host.Outcome State Fault Refusal :=
  s.perform (s.bad0 (s.me.handler.isSome || isPurser s.cur.core) privC) fun s =>
    s.advance.faultWith { s.info (cause 0 5 softC) with stat := n.setWidth 32 }

/-- HRET: the return from a trap by the record at `trec` as it stands; a frozen launch restarts when all have returned
(12 R377, R379). -/
def execHret (s : State) : Host.Outcome State Fault Refusal :=
  s.perform (s.bad0 (s.me.handler.isNone && !isPurser s.cur.core) privC) fun s =>
    if s.me.handler.isNone then s.advance
    else s.returnTrap s.cur.core (memBytes s.me.ls s.me.trec.toNat 64)

/-- HESC: the core stays stopped, and its record goes to the supervisor with its cause; on a purser it raises privilege (12 R377, R378). -/
def execHesc (s : State) : Host.Outcome State Fault Refusal :=
  s.perform (s.bad0 (s.me.handler.isNone || isPurser s.cur.core) privC) fun s =>
    let c := s.cur.core
    let esc := escalationBase (tileOf c) c
    let r := memBytes s.me.ls s.me.trec.toNat 64
    ((s.writeHome esc r).modTile (tileOf c) fun t => { t with trapq := t.trapq ++ [(c, esc)] }).modMe fun k =>
      { k with trapped := k.handler, handler := none, escalated := some esc }

/-- What TSTART starts, or the cause of its fault: a pre-empted launch whose packet it names again, or a new launch, none while a limit of R27 bars
it; reserved bits come before anything else (00 R9, 12 R384, 13 R388, 01 R27; DEDUCED, notes/assumptions/14.md). -/
def State.tstart (s : State) (pa : Nat) : State × Option Nat :=
  let r := memBytes s.mem (pkey 0 pa) 64
  let p := packetOf r
  let tile := tileOf s.cur.core
  let cid := (s.ctx p.ctx).assigned + 1
  if s.readBad (pkey 0 pa) 64 then (s, some (cause 5 4 1))
  else if packetReserved r then (s, some (cause 0 5 reservedC))
  else match s.launches.find? fun l => l.stage == .preempted && l.ctx == p.ctx && l.packet.drop 8 == r.drop 8 with
  | some l =>
    if (s.placeable l).isSome then (s.beginResume l, none) else (s, some (cause 0 5 rangeC))
  | none =>
    match (if p.type ≠ 1 then some rangeC else s.packetFault tile p.ctx cid r) with
    | some b => (s, some (cause 0 5 b))
    | none =>
      let l := s.launchFrom tile p.ctx cid r
      if p.any ∨ s.thermal ∨ !s.launchReady l ∨ (l.fit s.coreFree).isNone then (s, some (cause 0 5 rangeC))
      else ((s.accept l).beginLoad l (l.x0, l.y0), none)

/-- TSTART (12 R384). -/
def execTstart (ra : SReg) (s : State) : Host.Outcome State Fault Refusal :=
  let r := s.tstart (s.sr ra).toNat
  s.perform (verdicts [s.bad0 (!isPurser s.cur.core) privC,
      match r.2 with | some code => .fault code | none => .ok]) fun _ => r.1.advance

end Sys2Proof.Machine
end

