-- ==== Sys2Proof/Machine/Home.lean ====
section
/-! DEFINITION. Helm accesses after issue: translation, their homes, their windows, ACQ, REL, FENCE, and the landing of
results (02 R32-R34; 05 R151-R154; 09 R262-R283; 11 R347; 12 R367, R369). -/

namespace Sys2Proof.Machine

/-- An access of a core by number. -/
def Core.access? (c : Core) (id : Nat) : Option Access := c.accesses.find? (·.id == id)

/-- Change an access of a core. -/
def State.modAccess (s : State) (c id : Nat) (f : Access → Access) : State :=
  s.modCore c fun k => { k with accesses := updIf (·.id == id) f k.accesses }

/-- Remove an access of a core. -/
def State.dropAccess (s : State) (c id : Nat) : State :=
  s.modCore c fun k => { k with accesses := k.accesses.filter (·.id != id) }

/-- A fault of an access: the record names it by its word's address, in the field that names the faulting word (05 R153, 12 R376;
DEDUCED, notes/assumptions/25.md). -/
def Access.info (a : Access) (code : Nat) : TrapInfo :=
  { code := code, st := .helm, cmd := a.pc.toNat % 2 ^ 48, va := a.va, cyc := a.issued }

/-- A fault is found for an access, to be raised `n` cycles after its issue; one whose window has already been reported passed raises
nothing more (05 R151, R153). -/
def State.failAccess (s : State) (c : Nat) (a : Access) (t : TrapInfo) (n : Nat) : State :=
  if a.late then s.dropAccess c a.id else s.modAccess c a.id fun a => { a with fault := some t, reportIn := n }

/-- A fault that the home finds: its report arrives at a free cycle no later than issue + W (05 R153; notes/assumptions/4.md). -/
def State.reportFault (s : State) (c : Nat) (a : Access) (t : TrapInfo) : State :=
  let t0 := (s.core c).time
  s.chosen.failAccess c a t (s.choice t0 (max t0 (a.issued + a.window)) - a.issued)

/-- What an access asks of its leaf (09 R282, 12 R367). -/
def AccKind.need : AccKind → Need
  | .store _ | .rel => .write
  | .aadd | .aswap | .acas => .atomic true
  | .aaddf | .amin | .amax | .abump => .atomic false
  | _ => .read

/-- Whether an access is an atomic. -/
def AccKind.isAtomic (k : AccKind) : Bool := match k.need with
  | .atomic _ => true
  | _ => false

/-- The class 1 cause of an access that breaks condition `b`: the remote side's conditions of an atomic have the origin remote
atomic (05 R153, 09 R282). -/
def AccKind.cause1 (k : AccKind) (b : Nat) : Nat :=
  walkCause (if k.isAtomic && (b == unreachC || b == remoteAtomicC) then remoteA else k.axis) b

/-- A 64-bit access, the only kind that package register space takes (13 R404). -/
def AccKind.is64 : AccKind → Bool
  | .load w _ | .store w => w == 8
  | _ => false


/-- Whether a fault found for an access is to be taken now: at issue + 512 or when its report arrives, at a slot where ncount is 0, of the
program's accesses while the program runs and of a handler's while that runs (05 R146, R153; 12 R374). -/
def Core.accessFaultDue (c : Core) (a : Access) : Bool :=
  a.fault.isSome && decide (a.issued + a.reportIn ≤ c.time) && c.helmSt.ncount == 0 && c.runs .helm && !a.captured

/-- The fault of an access of a launch that has retired: there is no core to stop, and the helm has executed EXIT, so that the record goes to the
supervisor; the launch's completion record, which waits for it, counts it (05 R149, R153; 12 R445; DEDUCED, notes/assumptions/26.md). -/
def State.wakeTrap (s : State) (c : Nat) (t : TrapInfo) : State := match s.launchOf c with
  | none => s
  | some l =>
    let place := c % 4096
    let esc := escalationBase (tileOf c) place
    let first := if l.firstCause = 0 then t.code else l.firstCause
    (((s.modLaunch l.lid fun l => { l with traps := min 65535 (l.traps + 1), firstCause := first, cause := first }).modCtx l.ctx fun x =>
      { x with trapsTaken := x.trapsTaken + 1 }).writeHome esc (trapRecord place (s.core c) l.timed false t)).modTile (tileOf c) fun x =>
      { x with trapq := x.trapq ++ [(place, esc)] }

/-- TRANSLATION_RESULT: a walk or a hit gives the leaf, from which the window and the time at the home follow; a fault is raised
at issue + 512 (05 R151, R153, 12 R369). -/
def execTranslationResult (s : State) : Host.Outcome State Fault Refusal :=
  let c := s.on.a
  let k := s.core c
  match k.access? s.on.b with
  | none => .fault .eventNotDue
  | some a =>
    if a.untranslated && decide (a.xlatAt ≤ k.time) then
      let set := fun (b : Nat) => s.failAccess c a (a.info (a.kind.cause1 b)) 512
      match s.translate (tileOf c) (s.ctxOf c) a.va.toNat a.kind.need (isPurser c) with
      | .bad b => .next ((set b).walkEffects (tileOf c) (s.ctxOf c) a.va.toNat)
      | .ok l =>
        let regs := l.ap == 0 && decide (regSpace ≤ l.pa a.va.toNat)
        let isLaunch := match a.kind with | .launch _ => true | _ => false
        if regs && !a.kind.is64 then .next (set permC)
        else if isLaunch && l.ap != 0 then .next (set unreachC)
        else
          let w := if l.ap = 0 then a.window else 1048576
          let top := if l.ap = 0 then a.issued + w - 1 else a.issued + 2 * w
          let s := s.cacheLeaf (tileOf c) (s.ctxOf c) a.va.toNat l
          .next <| (s.modAccess c a.id fun a =>
              { a with leaf := some l, window := w, homeAt := s.choice k.time (max k.time top) }).chosen.modCore c fun k =>
            if l.ap = 0 then k
            else
              let later := fun (b : Access) => decide (a.id < b.id) && (match b.kind with
                | .rel => a.kind.released
                | .fence n => decide (2 ≤ n)
                | _ => false)
              { k with accesses := updIf later (fun b => { b with window := 1048576 }) k.accesses }
    else if k.accessFaultDue a then match a.fault with
      | some t => .next (if isWake c then (s.dropAccess c a.id).wakeTrap c t else (s.dropAccess c a.id).raiseAt c t)
      | none => .fault .eventNotDue
    else .fault .eventNotDue

/-! ## Order among a helm's accesses -/

/-- Two accesses overlap in virtual bytes. -/
def Access.meets (a b : Access) : Bool := overlaps a.va.toNat a.kind.width b.va.toNat b.kind.width

/-- The home of an access: its aperture and stack. -/
def Access.home (a : Access) : Option (Nat × Nat) := a.leaf.map fun l => (l.ap, stackOf (l.pa a.va.toNat))

/-- Whether access `a` must wait for the earlier access `b`, the overlap of an MSTORE's bytes apart (05 R154; 09 R266, R270, R271, R276,
R287; 11 R347). -/
def Access.waitsFor (a b : Access) : Bool :=
  let classes := a.ac != 0 && b.ac != 0 && a.ac != b.ac
  match b.kind with
  | .fence _ => !b.performed
  | .acq => !b.performed && b.fault.isNone
  | kb => !b.performed && b.fault.isNone &&
    ((a.meets b && !classes && (match kb with | .mstore _ => false | _ => true) && (match a.kind with | .mstore _ => false | _ => true))
      || (decide (b.fenceNo < a.fenceNo) && (b.home.isNone || b.home == a.home))
      || (match a.kind with
        | .rel | .mstore _ => kb.writes || (match kb with | .mstore _ => true | _ => false)
        | .launch _ => kb.writes
        | _ => false))

/-- The bytes that a store to a group with offset `off` may write at its members in this package meet the `n` bytes at `va`: in append mode
the whole area, since the place follows from a number not yet known (09 R289). -/
def Group.touches (x : Group) (off va n : Nat) : Bool := x.members.any fun m =>
  x.pk m == 0 && (if x.append then overlaps va n (x.base m) (2 ^ x.lsz) else overlaps va n (x.base m + off) 8)

/-- An MSTORE of core `c` before access `id` is still to be applied at a member of this package, to bytes that meet `va..va + n - 1`
(05 R154, 09 R266). -/
def State.mstorePending (s : State) (c id va n : Nat) : Bool := (List.range 64).any fun g =>
  let x := s.group g
  x.ownedBy (s.ctxOf c) && (x.arriving.any (fun h => h.core == c && decide (h.acc < id) && h.n == 0 && x.touches h.off va n) ||
    x.held.any fun h => h.core == c && decide (h.acc < id) && x.members.any fun m =>
      x.pk m == 0 && !x.stoppedM.contains m && decide (x.appliedOf m < h.n) && overlaps va n (x.target m h).1 (x.target m h).2.length)

/-- The order of R154 between MSTOREs and the other accesses of a helm to the members' bytes (09 R266). -/
def State.mstoreOrder (s : State) (c : Nat) (a : Access) : Bool :=
  match a.kind with
  | .mstore g => !(s.core c).accesses.any fun b => decide (b.id < a.id) && !b.performed && b.fault.isNone && (match b.kind with
      | .mstore _ | .fence _ => false
      | k => (s.group g).touches a.va.toNat b.va.toNat k.width)
  | .fence _ => true
  | k => !s.mstorePending c a.id a.va.toNat k.width && !(s.core c).accesses.any fun b => decide (b.id < a.id) && !b.sent && b.fault.isNone &&
      (match b.kind with
        | .mstore g => (s.group g).touches b.va.toNat a.va.toNat k.width
        | _ => false)

/-- Whether access `b` of core `d` lies ahead of what issues at core `c` in tick `t`, at the core's egress or at the tile's ordered port, on
the way to one of `homes` (09 R276). -/
def Access.ahead (b : Access) (d c t : Nat) (homes : List (Nat × Nat)) : Bool :=
  !b.performed && b.fault.isNone && (b.home.isNone || b.home.any homes.contains) &&
    ((d == c && b.egress.any (· ≤ t)) || (tileOf d == tileOf c && b.port.any (· ≤ t)))

/-- Whether something that issued at core `c` in tick `t`, and goes to `homes`, follows an access that has not reached its home (09 R276). -/
def State.behindPort (s : State) (c t : Nat) (homes : List (Nat × Nat)) : Bool :=
  s.cores.any fun p => tileOf p.1 == tileOf c && p.2.accesses.any fun b => b.ahead p.1 c t homes

/-- No earlier access of the helm, and none that a FENCE has put ahead of it in its tile, holds `a` back. -/
def State.mayPerform (s : State) (c : Nat) (a : Access) : Bool :=
  !((s.core c).accesses.any fun b => decide (b.id < a.id) && a.waitsFor b) && s.mstoreOrder c a &&
    !s.cores.any fun p => p.1 != c && tileOf p.1 == tileOf c && p.2.accesses.any fun b => b.ahead p.1 c a.tick a.home.toList

/-- The bound of one leg of an MSTORE's way, at most `n` ticks: the legs of the helm's MSTOREs under way share the time that is left to the
first window of one that R292 bounds, so that it is acknowledged within its window (DEDUCED, notes/assumptions/48.md) and, 250 ticks later
at most, applied within R292's 1,023 (09 R287, R292). -/
def State.mstoreSpan (s : State) (c n : Nat) : Nat :=
  let k := s.core c
  let out := k.accesses.filter fun a => match a.kind with | .mstore _ => true | _ => false
  match minBy? id ((out.filter (·.bounded)).map fun a => a.issued + 511 - k.time) with
  | none => n
  | some left => min n (max 1 (left / (2 * max 1 out.length)))

/-! ## At the home -/

/-- What an atomic writes, from the old value, the operand and the compare value; `none` where it writes nothing (09 R281). -/
def AccKind.newValue (k : AccKind) (old : Nat) (v c : Word) : Option Nat :=
  let sgn := fun (n : Nat) => (BitVec.ofNat 64 n).toInt
  match k with
  | .aadd => some ((old + v.toNat) % 2 ^ 64)
  | .aaddf => some (fp32F.round .rne false ((fp32F.decode old).add false (fp32F.decode (v.toNat % 2 ^ 32))))
  | .aswap => some v.toNat
  | .acas => if old = c.toNat then some v.toNat else none
  | .amin => some (if sgn old ≤ v.toInt then old else v.toNat)
  | .amax => some (if v.toInt ≤ sgn old then old else v.toNat)
  | .abump => if old < v.toNat then some (old + 1) else none
  | _ => none

/-- The value a load delivers (05 R150). -/
def loadValue (w : Nat) (signed : Bool) (n : Nat) : Word :=
  if signed then BitVec.ofInt 64 ((BitVec.ofNat (8 * w) n).toInt) else BitVec.ofNat 64 n

/-- Whether a page's home can be reached now: one of a peer in a service minute of an hour in which a fibre landing faces it (10 R331). -/
def State.homeOpen (s : State) (l : Leaf) : Bool := l.ap == 0 || l.ap == 255 || s.minuteOf l.ap

/-- Whether an access may be performed at its home now. -/
def State.homeDue (s : State) (c : Nat) (a : Access) : Bool :=
  let k := s.core c
  !a.performed && a.fault.isNone && s.mayPerform c a && (match a.kind with
    | .rel | .fence _ => false
    | .mstore _ => !a.sent && decide (a.issued + 1 ≤ k.time)
    | _ => a.leaf.any s.homeOpen && decide (a.homeAt ≤ k.time))

/-- An access whose value is late still has a fault of its home reported by issue + W (05 R153). -/
def State.lateReport (s : State) (c : Nat) (a : Access) : Bool :=
  !a.performed && a.fault.isNone && !a.late && s.mayPerform c a && a.leaf.isSome && (match a.kind with
    | .rel | .fence _ | .mstore _ => false
    | _ => decide ((s.core c).time < a.homeAt ∧ a.issued + a.window ≤ (s.core c).time + 1))

/-- The access has been performed; a store leaves the core. -/
def State.performed (s : State) (c : Nat) (a : Access) (v : Option Word) : State := match a.kind with
  | .store _ | .rel => s.dropAccess c a.id
  | _ => s.modAccess c a.id fun a => { a with performed := true, value := v }

/-- The fault of an access whose read meets poison at its home (08 R260, 13 R388). -/
def Access.homePoison (a : Access) (l : Leaf) : TrapInfo :=
  { a.info (cause 5 4 1) with engine := 6, unit := stackOf (l.pa a.va.toNat) }

/-- Perform a load, store, atomic, ACQ or LAUNCH at its home, through its leaf. -/
def State.atHome (s : State) (c : Nat) (a : Access) (l : Leaf) : Option State :=
  let va := a.va.toNat
  let key := l.key va
  let n := a.kind.width
  let ctx := s.ctxOf c
  let poison := s.reportFault c a (a.homePoison l)
  let gate := fun (s : State) (k : State → State) => match s.gate ctx va l (some (c, a.id, false)) with
    | .go s => some (k s)
    | .wait s' => if s' = s then none else some s'
    | .full s _ => some (s.reportFault c a (a.info (cause 1 a.kind.axis cowC)))
  if l.ap = 0 ∧ regSpace ≤ l.pa va then
    match a.kind with
    | .store _ => some ((s.packageWrite (l.pa va) a.v).performed c a none)
    | _ =>
      let r := s.packageRead (l.pa va)
      some (r.2.performed c a (some r.1))
  else
    match a.kind with
    | .load w sg =>
      if s.readBad key n then some (poison.readEffects key n)
      else some ((s.readEffects key n).performed c a (some (loadValue w sg (memRead s.mem key n))))
    | .acq => if s.readBad key n then some (poison.readEffects key n) else some ((s.readEffects key n).performed c a none)
    | .store w => gate s fun s => (s.writeHome key (toBytes w a.v.toNat)).performed c a none
    | .launch j =>
      if s.readBad key 64 then some (poison.readEffects key 64)
      else
      let s := s.readEffects key 64
      let r := s.performLaunch c key j
      match r.2 with
      | .error code => some (s.failAccess c a (a.info code) 512)
      | .ok cid => some (r.1.performed c a (some (BitVec.ofNat 64 cid)))
    | k =>
      if l.ap = 255 ∧ !Config.hostAtomic s.freeCtr then
        some (s.chosen.reportFault c a (a.info (k.cause1 unreachC)))
      else if s.readBad key n then some (poison.readEffects key n)
      else
        let old := memRead s.mem key n
        let val : Option Word := some (BitVec.ofNat 64 old)
        match k.newValue old a.v a.c with
        | some w => gate s fun s => ((s.readEffects key n).writeHome key (toBytes n w)).performed c a val
        | none => some ((s.readEffects key n).performed c a val)

/-- HELM_ACCESS_AT_HOME: a load, store, atomic, ACQ or LAUNCH is performed whole at its home; an MSTORE leaves for its order point
(05 R151-R154, 09 R262, R281, R287, 11 R347). -/
def execHelmAccessAtHome (s : State) : Host.Outcome State Fault Refusal :=
  let c := s.on.a
  match (s.core c).access? s.on.b with
  | none => .fault .eventNotDue
  | some a =>
    if s.lateReport c a then match a.leaf.bind (s.atHome c a) with
      | some s' => match (s'.core c).access? a.id with
        | some b => if b.fault.isSome then .next s' else .fault .eventNotDue
        | none => .fault .eventNotDue
      | none => .fault .eventNotDue
    else if !s.homeDue c a then .fault .eventNotDue
    else match a.kind, a.leaf with
      | .mstore g, _ =>
        let m : MStore := ⟨0, c, a.id, a.va.toNat, a.v, s.now + s.choice 1 (s.mstoreSpan c 250), 0⟩
        let t := (s.modAccess c a.id fun a => { a with sent := true }).chosen.modGroup g fun x => { x with arriving := x.arriving ++ [m] }
        .next (match (s.group g).home with
          | some pk => if pk = 0 then t else { t with outbox := t.outbox ++ [(pk, .mstore g m)] }
          | none => t)
      | _, some l => match s.atHome c a l with
        | some s' => .next s'
        | none => .fault .eventNotDue
      | _, none => .fault .eventNotDue

/-- REL_INCREMENT: after every earlier store, atomic and MSTORE of the helm, the bond word grows by 1 at its home (09 R271). -/
def State.relDue (s : State) (c : Nat) (a : Access) : Bool :=
  (match a.kind with | .rel => true | _ => false) && !a.performed && a.fault.isNone && a.leaf.any s.homeOpen &&
    decide (a.homeAt ≤ (s.core c).time) && s.mayPerform c a

/-- See `State.relDue`. -/
def execRelIncrement (s : State) : Host.Outcome State Fault Refusal :=
  let c := s.on.a
  match (s.core c).access? s.on.b with
  | none => .fault .eventNotDue
  | some a => match s.relDue c a, a.leaf with
    | true, some l =>
      let key := l.key a.va.toNat
      let ctx := s.ctxOf c
      let full := s.reportFault c a (a.info (cause 1 storeA cowC))
      if s.readBad key 8 then .next ((s.reportFault c a (a.homePoison l)).readEffects key 8)
      else match s.gate ctx a.va.toNat l (some (c, a.id, false)) with
      | .go s =>
        let s := s.readEffects key 8
        .next ((s.writeHome key (toBytes 8 (memRead s.mem key 8 + 1))).performed c a none)
      | .wait s' => if s' = s then .fault .eventNotDue else .next s'
      | .full _ _ => .next full
    | _, _ => .fault .eventNotDue

/-! ## Windows and landings -/

/-- An access of a core that runs in timed mode has not completed by issue + W (05 R151, 09 R270, R271, R276, R281, R287). A
store has no window, and a store in its own right raises nothing. -/
def State.expiryDue (s : State) (c : Nat) (a : Access) : Bool :=
  let k := s.core c
  s.timedAt c && !isWake c && k.runs .helm && k.helmSt.ncount == 0 && !a.late && !a.captured && a.fault.isNone
    && decide (a.issued + a.window ≤ k.time) &&
    (match a.kind with | .store _ => false | _ => true) && !a.performed

/-- ACCESS_WINDOW_EXPIRY: deadline passed at issue + W in timed mode; a load's or an atomic's value is lost (05 R151). -/
def execAccessWindowExpiry (s : State) : Host.Outcome State Fault Refusal :=
  let c := s.on.a
  match (s.core c).access? s.on.b with
  | none => .fault .eventNotDue
  | some a =>
    if !s.expiryDue c a then .fault .eventNotDue
    else
      let t := { a.info (cause2 .helm deadlineC) with va := 0, cmd := a.step }
      match a.kind with
      | .load _ _ => .next ((s.dropAccess c a.id).raiseAt c t)
      | _ => .next ((s.modAccess c a.id fun a => { a with late := true, rd := 0 }).raiseAt c t)

/-- The last cycle of an access's window has come, so that what has been performed lands at its end (05 R151). -/
def Core.windowUp (c : Core) (a : Access) : Bool :=
  a.performed && !a.captured && !c.held && decide (a.issued + a.window ≤ c.time + 1)

/-- ACQ_LANDING: every entry whose BOND is the ACQ's address opens (09 R270). -/
def execAcqLanding (s : State) : Host.Outcome State Fault Refusal :=
  let c := s.on.a
  match (s.core c).access? s.on.b with
  | none => .fault .eventNotDue
  | some a => match a.kind with
    | .acq =>
      if (s.core c).windowUp a then
        .next ((s.dropAccess c a.id).modCore c fun k =>
          { k with bonds := updIf (·.bond == a.va.toNat) (fun b => { b with isOpen := true }) k.bonds })
      else .fault .eventNotDue
    | _ => .fault .eventNotDue

/-- Access `b` is still held at its core, behind an access `d` of its helm: an ACQ holds every later access and FENCE there, a FENCE every later
access, and an MSTORE leaves only after the earlier writes (09 R270, R276, R287). -/
def Access.heldBehind (b d : Access) : Bool :=
  decide (d.id < b.id) && !d.performed && d.fault.isNone && (match d.kind, b.kind with
    | .acq, _ => true
    | .fence _, .fence _ => false
    | .fence _, _ => true
    | .mstore _, .mstore _ => !b.sent
    | kd, .mstore _ => !b.sent && kd.writes
    | _, _ => false)

/-- FENCE_COMPLETE: what the scope asks of every earlier access holds (09 R276): at core and tile scope the accesses have reached the core's
egress or the tile's ordered port, where nothing comes that is held at the core, at package and system scope their homes. -/
def Core.fenceHolds (c : Core) (f : Access) (scope : Nat) : Bool :=
  if scope < 2 then decide (f.homeAt ≤ c.time) && !c.accesses.any f.heldBehind &&
    !c.accesses.any fun b => decide (b.id < f.id) && !b.performed && b.fault.isNone && c.accesses.any b.heldBehind
  else !c.accesses.any fun b => decide (b.id < f.id) && !b.performed && b.fault.isNone

/-- The earlier accesses under way stand ahead, at the egress or the port, of what issues from now on (09 R276). -/
def Core.fenced (c : Core) (id now scope : Nat) : Core :=
  if 2 ≤ scope then c
  else { c with accesses := updIf (fun b => decide (b.id < id) && !b.performed) (fun b => { b with
    egress := b.egress.or (some now), port := if scope = 1 then b.port.or (some now) else b.port }) c.accesses }

/-- See `Core.fenceHolds`; the FENCE leaves the list at the end of its window. -/
def execFenceComplete (s : State) : Host.Outcome State Fault Refusal :=
  let c := s.on.a
  match (s.core c).access? s.on.b with
  | none => .fault .eventNotDue
  | some a => match a.kind with
    | .fence n =>
      if !a.performed && (s.core c).fenceHolds a n then
        .next ((s.modCore c fun k => k.fenced a.id s.now n).modAccess c a.id fun a => { a with performed := true })
      else if (s.core c).windowUp a then .next (s.dropAccess c a.id)
      else .fault .eventNotDue
    | _ => .fault .eventNotDue

/-- Whether the value of an access lands at the end of this cycle. -/
def Core.valueDue (c : Core) (a : Access) : Bool := a.value.isSome && c.windowUp a && (match a.kind with
  | .acq | .fence _ => false
  | _ => true)

/-- The order of landings: by issue cycle, then by stream (03 R84). -/
def landOrder (l : List Flight) : List Flight := sortBy (·.issued) (sortBy (fun f => streamIdx f.st) l)

/-- Whether a flight lands at the end of this cycle; shape results have their own event. -/
def Core.flightDue (c : Core) (f : Flight) : Bool := !f.arrived && !c.held && decide (f.due ≤ c.time) && (match f.eff with
  | .shape _ => false
  | _ => true)

/-- One landing: a plain register's result arrives, anything else takes effect; a residue mismatch discards the result and
traps (02 R32, 04 R132). -/
def State.landOne (s : State) (c : Nat) (f : Flight) : State :=
  if f.checked ∧ (s.core c).residueBad.contains f.step then
    (s.modCore c fun k => { k with residueBad := k.residueBad.filter (· != f.step) }).raiseAt c
      { code := cause 5 2 4, st := f.st, cmd := f.step, engine := streamIdx f.st, cyc := f.issued
        xpc := if f.st = .helm then none else some f.pc }
  else match f.eff with
  | .raise code => s.raiseAt c { code := code, st := f.st, cmd := f.step, engine := streamIdx f.st, cyc := f.issued
                                 xpc := if f.st = .helm then none else some f.pc }
  | .phase => s
  | .phaseEnd => s.modCore c fun k => { k with
      copies := k.copies.map fun x => { x with logged := false }, phase := none }
  | e =>
    if e.plain then s.modCore c fun k => { k with flights := k.flights ++ [{ f with arrived := true }] }
    else s.modCore c fun k => k.land e

/-- RESULT_LANDING: the results of a core whose cycle c + L - 1 this is land, with the values of its helm accesses; the words
whose results have all landed let go of their shape generations (02 R32-R34, R441; 05 R151; 07 R202). -/
def State.landDue (s : State) (c : Nat) : Bool :=
  let k := s.core c
  k.flights.any k.flightDue || k.accesses.any k.valueDue

/-- See `State.landDue`. -/
def execResultLanding (s : State) : Host.Outcome State Fault Refusal :=
  let c := s.on.a
  if !s.landDue c then .fault .eventNotDue
  else
    let k := s.core c
    let due := landOrder (k.flights.filter k.flightDue)
    let vals := k.accesses.filter k.valueDue
    let s := s.setCore c { k with
      flights := k.flights.filter (fun f => !k.flightDue f)
      accesses := k.accesses.filter fun a => !k.valueDue a }
    let s := vals.foldl (fun (s : State) a =>
      let s := match a.kind with
        | .launch _ => s.submitChild c (s.ctxOf c) ((a.value.getD 0).toNat) a.pool
        | _ => s
      s.landOne c { st := .helm, issued := a.issued, due := k.time, pos := a.pos + a.window, eff := .s a.rd (a.value.getD 0)
                    pc := a.pc, step := a.step, bank := a.bank }) s
    let s := due.foldl (fun s f => s.landOne c f) s
    let s := if due.any (·.eff == .phase) then s.modCore c Core.openPhase else s
    .next (s.modCore c fun k => due.foldl (fun (k : Core) f =>
      if k.flights.any fun g => g.st == f.st && g.step == f.step && !g.arrived then k else k.unbind (f.st, f.step)) k)

end Sys2Proof.Machine
end

