-- ==== Sys2Proof/Machine/VecArith.lean ====
section
/-! DEFINITION. Vector arithmetic and bit operations (06 R181-R183). -/

namespace Sys2Proof.Machine

/-- A unary form as a form of two sources. -/
def unBin (o : VUn) : VBin := ⟨o.vd, o.t, o.ka, o.a, 0, 0, o.msk, o.rm, o.sat⟩

/-- The arithmetic of R181: exact floating and integer operations of up to three sources, of which a word reads the first `n`, then one Encode or
Fit. A covered word that reads a container whose residue does not match has a result whose residue does not either (13 R389). -/
def State.varith (s : State) (o : VBin) (cls : ElemType → Bool) (time : ElemType → Nat × Nat) (coversF : Bool) (n : Nat)
    (ff : Bool → Num → Num → Num → Num) (fi : Int → Int → Int → Int) : Host.Outcome State Fault Refusal :=
  s.perform (.and s.occupied (s.vchecks o.t cls (srcBad o.ka o.a || srcBad o.kb o.b) o.rm (o.sat == 1) true false)) fun s =>
    let t := s.vt o.t
    let fl := s.flushes o.t t
    let f := fun e =>
      let a := s.src fl o.ka o.a t e
      let b := s.src fl o.kb o.b t e
      let c := s.src fl 0 (o.vd.setWidth 8) t e
      if t.isInt then t.narrow (o.sat == 1) (fi (t.asInt a) (t.asInt b) (t.asInt c))
      else
        let m := s.rmode o.rm e
        t.ffmt.round m (o.sat == 1) (ff m.down (t.value a) (t.value b) (t.value c))
    let es := s.governed o.msk t.count
    let l := es.map fun e => (e, f e)
    let covered := t.isInt || (coversF && (t == .fp32 || t == .fp64))
    let bad := s.badIn o.ka o.a t.width es || (decide (2 ≤ n) && s.badIn o.kb o.b t.width es) || (n == 3 && s.badIn 0 (o.vd.setWidth 8) t.width es)
    (s.mismatch (covered && bad)).vdone (time t).1 (time t).2 covered [velems o.vd t.width l]

/-- Latency and occupancy of VADD, VSUB, VMIN and VMAX (06 R179). -/
def addTime (t : ElemType) : Nat × Nat := if t = .fp64 then (6, 2) else if t.isInt then (2, 1) else (4, 1)
/-- Of VMUL and the fused forms. -/
def mulTime (t : ElemType) : Nat × Nat := if t.width = 64 then (6, 2) else (4, 1)
/-- Of VABS and VNEG. -/
def absTime (_ : ElemType) : Nat × Nat := (2, 1)
/-- Of VDIV and VSQRT. -/
def divTime (t : ElemType) : Nat × Nat := if t = .fp64 then (26, 8) else (14, 4)

/-- The smaller of two values, -0 below +0, a NaN when either is one (04 R122). -/
def Num.min (a b : Num) : Num := match a, b with
  | .nan, _ => .nan
  | _, .nan => .nan
  | a, b => if b.lt0 a then b else a
/-- The larger. -/
def Num.max (a b : Num) : Num := match a, b with
  | .nan, _ => .nan
  | _, .nan => .nan
  | a, b => if a.lt0 b then b else a

/-- VADD (06 R181). -/
def execVadd (o : VBin) (s : State) := s.varith o isFI addTime false 2 (fun d a b _ => a.add d b) (fun a b _ => a + b)
/-- VSUB (06 R181). -/
def execVsub (o : VBin) (s : State) := s.varith o isFI addTime false 2 (fun d a b _ => a.add d b.neg) (fun a b _ => a - b)
/-- VMUL (06 R181). -/
def execVmul (o : VBin) (s : State) := s.varith o isFI mulTime true 2 (fun _ a b _ => a.mul b) (fun a b _ => a * b)
/-- VFMA (06 R181). -/
def execVfma (o : VBin) (s : State) := s.varith o isFI mulTime true 3 (fun d a b c => (a.mul b).add d c) (fun a b c => a * b + c)
/-- VFMS (06 R181). -/
def execVfms (o : VBin) (s : State) :=
  s.varith o isFI mulTime true 3 (fun d a b c => (a.mul b).add d c.neg) (fun a b c => a * b - c)
/-- VFNMA (06 R181). -/
def execVfnma (o : VBin) (s : State) :=
  s.varith o isFI mulTime true 3 (fun d a b c => (a.mul b).neg.add d c) (fun a b c => -(a * b) + c)
/-- VMIN (06 R181). -/
def execVmin (o : VBin) (s : State) := s.varith o isFI addTime false 2 (fun _ a b _ => a.min b) (fun a b _ => min a b)
/-- VMAX (06 R181). -/
def execVmax (o : VBin) (s : State) := s.varith o isFI addTime false 2 (fun _ a b _ => a.max b) (fun a b _ => max a b)
/-- VABS (06 R181). -/
def execVabs (o : VUn) (s : State) := s.varith (unBin o) isFI absTime false 1 (fun _ a _ _ => a.abs) (fun a _ _ => a.natAbs)
/-- VNEG (06 R181). -/
def execVneg (o : VUn) (s : State) := s.varith (unBin o) isFI absTime false 1 (fun _ a _ _ => a.neg) (fun a _ _ => -a)
/-- VDIV (06 R181). -/
def execVdiv (o : VBin) (s : State) := s.varith o isF divTime true 2 (fun _ a b _ => a.div b) (fun a _ _ => a)
/-- VSQRT (06 R181). -/
def execVsqrt (o : VUn) (s : State) := s.varith (unBin o) isF divTime true 1 (fun _ a _ _ => a.sqrt) (fun a _ _ => a)

/-- The approximated functions (04 R130, 06 R181). -/
def State.vapprox (s : State) (o : VUn) (f : Num → Num) : Host.Outcome State Fault Refusal :=
  s.perform (.and s.occupied (s.vchecks o.t isF3 (srcBad o.ka o.a) o.rm (o.sat == 1) true false)) fun s =>
    let t := s.vt o.t
    let fl := s.flushes o.t t
    let l := (s.governed o.msk t.count).map fun e =>
      (e, t.ffmt.approx (o.sat == 1) (f (t.value (s.src fl o.ka o.a t e))))
    s.vdone 8 1 false [velems o.vd t.width l]

/-- VRCP (06 R181). -/
def execVrcp (o : VUn) (s : State) := s.vapprox o (fun a => (Num.ofInt 1).div a)
/-- VRSQ (06 R181). -/
def execVrsq (o : VUn) (s : State) := s.vapprox o Num.rsqrt
/-- VEXP2 (06 R181). -/
def execVexp2 (o : VUn) (s : State) := s.vapprox o Num.exp2
/-- VLOG2 (06 R181). -/
def execVlog2 (o : VUn) (s : State) := s.vapprox o Num.log2

/-- The bit operations of R183, on patterns of the type's width; nothing is flushed. -/
def State.vbits (s : State) (o : VBin) (cls : ElemType → Bool) (f : ElemType → Nat → Nat → Nat → Nat) :
    Host.Outcome State Fault Refusal :=
  s.perform (.and s.occupied (s.vchecks o.t cls (srcBad o.ka o.a || srcBad o.kb o.b) o.rm (o.sat == 1) false false)) fun s =>
    let t := s.vt o.t
    let l := (s.governed o.msk t.count).map fun e =>
      (e, f t (s.rawSrc o.ka o.a t e) (s.rawSrc o.kb o.b t e) (elemAt (s.vr o.vd) t.width e))
    s.vdone 2 1 false [velems o.vd t.width l]

/-- VAND (06 R183). -/
def execVand (o : VBin) (s : State) := s.vbits o isX (fun _ a b _ => a &&& b)
/-- VOR (06 R183). -/
def execVor (o : VBin) (s : State) := s.vbits o isX (fun _ a b _ => a ||| b)
/-- VXOR (06 R183). -/
def execVxor (o : VBin) (s : State) := s.vbits o isX (fun _ a b _ => a ^^^ b)
/-- VSHL (06 R183). -/
def execVshl (o : VBin) (s : State) := s.vbits o isI (fun t a b _ => a * 2 ^ (b % t.width) % 2 ^ t.width)
/-- VSHR (06 R183). -/
def execVshr (o : VBin) (s : State) := s.vbits o isI (fun t a b _ => a / 2 ^ (b % t.width))
/-- VSRA (06 R183). -/
def execVsra (o : VBin) (s : State) := s.vbits o isI
  (fun t a b _ => ((t.asInt a / (2 ^ (b % t.width) : Int)) % (2 ^ t.width : Int)).toNat)
/-- VBEXT (06 R183). -/
def execVbext (o : VBin) (s : State) := s.vbits o isI
  (fun t a b _ => a / 2 ^ (b % t.width) % 2 ^ (b / t.width % t.width + 1))
/-- VFSH (06 R183). -/
def execVfsh (o : VBin) (s : State) := s.vbits o isI
  (fun t a b c => (a * 2 ^ t.width + b) * 2 ^ (c % t.width) / 2 ^ t.width % 2 ^ t.width)
/-- VPOPC (06 R183). -/
def execVpopc (o : VUn) (s : State) := s.vbits (unBin o) isI (fun t a _ _ => onesCount t.width a)
/-- VCLZ (06 R183). -/
def execVclz (o : VUn) (s : State) := s.vbits (unBin o) isI (fun t a _ _ => leadZeros t.width a)

end Sys2Proof.Machine
end

