-- ==== Sys2Proof/Machine/VecMove.lean ====
section
/-! DEFINITION. Vector compares, selects, moves and the partition (06 R184-R186). -/

namespace Sys2Proof.Machine

/-- The condition of a VCMP on two elements (06 R184). -/
def vcond (t : ElemType) (cc a b : Nat) : Bool :=
  if t.isInt then
    match cc with
    | 0 => a == b
    | 1 => a != b
    | 2 => decide (t.asInt a < t.asInt b)
    | 3 => decide (t.asInt a ≤ t.asInt b)
    | 4 => decide (t.asInt b < t.asInt a)
    | 5 => decide (t.asInt b ≤ t.asInt a)
    | 7 => true
    | 8 => decide (a < b)
    | 9 => decide (a ≤ b)
    | _ => false
  else
    let x := t.value a
    let y := t.value b
    let un := x == .nan || y == .nan
    match cc with
    | 0 => x.eq y
    | 1 => !x.eq y
    | 2 => !un && x.lt y
    | 3 => !un && !y.lt x
    | 4 => !un && y.lt x
    | 5 => !un && !x.lt y
    | 6 => un
    | 7 => !un
    | _ => false

/-- The mask bits of a condition over the elements (06 R184): a container's bit holds when every one of its elements does;
lanes that the mask does not govern are 0. -/
def condMask (k : BitVec 128) (n : Nat) (f : Nat → Bool) : BitVec 128 :=
  let per := max 1 (n / 128)
  BitVec.ofBoolListLE ((List.range 128).map fun i =>
    let e := i * n / 128
    governs k n e && (List.range per).all fun j => f (e + j)) |>.setWidth 128

/-- VCMP (06 R184). -/
def execVcmp (o : VCmpOp) (s : State) : Host.Outcome State Fault Refusal :=
  let isInt := (s.vt o.t).isInt
  let own := o.kd == 0 || decide ((if isInt then 10 else 8) ≤ o.cc.toNat)
  s.perform (.and s.occupied (s.vchecks o.t isFI (srcBad o.ka o.a || srcBad o.kb o.b) 0 false true own)) fun s =>
    let t := s.vt o.t
    let fl := s.flushes o.t t
    let m := condMask (s.mask o.msk) t.count fun e =>
      vcond t o.cc.toNat (s.src fl o.ka o.a t e) (s.src fl o.kb o.b t e)
    let es := s.governed o.msk t.count
    (s.mismatch (t.isInt && (s.badIn o.ka o.a t.width es || s.badIn o.kb o.b t.width es))).vdone 2 1 t.isInt [.k o.kd m]

/-- VSEL: the mask selects between the sources, and every element is written (06 R185). -/
def execVsel (o : VBin) (s : State) : Host.Outcome State Fault Refusal :=
  s.perform (.and s.occupied (s.vchecks o.t isX (srcBad o.ka o.a || srcBad o.kb o.b) o.rm (o.sat == 1) false false)) fun s =>
    let t := s.vt o.t
    let l := (List.range t.count).map fun e =>
      (e, if governs (s.mask o.msk) t.count e then s.rawSrc o.ka o.a t e else s.rawSrc o.kb o.b t e)
    let sp := s.spoilt t.width ((List.range t.count).map fun e =>
      if governs (s.mask o.msk) t.count e then (e, o.ka, o.a, e) else (e, o.kb, o.b, e))
    s.vdone 2 1 false [velems o.vd t.width l] sp

/-- VMOV (06 R185). -/
def execVmov (o : VUn) (s : State) : Host.Outcome State Fault Refusal :=
  s.perform (.and s.occupied (s.vchecks o.t isX (srcBad o.ka o.a) o.rm (o.sat == 1) false false)) fun s =>
    let t := s.vt o.t
    let l := (s.governed o.msk t.count).map fun e => (e, s.rawSrc o.ka o.a t e)
    s.vdone 2 1 false [velems o.vd t.width l] (s.spoilt t.width ((s.governed o.msk t.count).map fun e => (e, o.ka, o.a, e)))

/-- The index operand of VBCAST and VEXTR, unsigned (06 R177). -/
def State.vindex (s : State) (kb : BitVec 2) (b : BitVec 8) : Nat :=
  if kb = 1 then (s.me.sreg .vector (b.setWidth 6)).toNat % 2 ^ 32 else b.toNat

/-- The index operand is of kind 0b01 or 0b11 and below the count (06 R177, R185); a KA that is not 0b00 raises operand range in VBCAST too (DESIGN
CHOICE, notes/assumptions/57.md). -/
def State.indexBad (s : State) (t : BitVec 3) (ka kb : BitVec 2) (b : BitVec 8) : Bool :=
  ka != 0 || (kb != 1 && kb != 3) || srcBad kb b || decide ((s.vt t).count ≤ s.vindex kb b)

/-- VBCAST (06 R185). -/
def execVbcast (o : VBin) (s : State) : Host.Outcome State Fault Refusal :=
  s.perform (.and s.occupied (s.vchecks o.t isX (srcBad o.ka o.a) o.rm (o.sat == 1) false (s.indexBad o.t o.ka o.kb o.b)))
    fun s =>
    let t := s.vt o.t
    let x := elemAt (s.vr (o.a.setWidth 6)) t.width (s.vindex o.kb o.b)
    s.vdone 2 1 false [velems o.vd t.width ((s.governed o.msk t.count).map fun e => (e, x))]
      (s.spoilt t.width ((s.governed o.msk t.count).map fun e => (e, o.ka, o.a, s.vindex o.kb o.b)))

/-- VIOTA (06 R185). -/
def execViota (o : VUn) (s : State) : Host.Outcome State Fault Refusal :=
  let own := o.ka != 1 && o.ka != 3
  s.perform (.and s.occupied (s.vchecks o.t isI (srcBad o.ka o.a) o.rm (o.sat == 1) true own)) fun s =>
    let t := s.vt o.t
    let l := (s.governed o.msk t.count).map fun (e : Nat) =>
      (e, t.narrow (o.sat == 1) (t.asInt (s.rawSrc o.ka o.a t e) + e))
    s.vdone 2 1 false [velems o.vd t.width l]

/-- VPERM: containers of 32 bits, or elements of 64 (06 R185). A KA or KB that is not 0b00 raises operand range, as R185 says of VEXTR (DESIGN CHOICE,
notes/assumptions/57.md). -/
def execVperm (o : VBin) (s : State) : Host.Outcome State Fault Refusal :=
  s.perform (.and s.occupied (s.vchecks o.t isX (srcBad o.ka o.a || srcBad o.kb o.b) o.rm (o.sat == 1) false
      (o.ka != 0 || o.kb != 0))) fun s =>
    let w := if (s.vt o.t).width = 64 then 64 else 32
    let n := 4096 / w
    let a := s.vr (o.a.setWidth 6)
    let b := s.vr (o.b.setWidth 6)
    let l := (s.governed o.msk n).map fun e => (e, elemAt a w (elemAt b w e % n))
    s.vdone 4 1 false [velems o.vd w l] (s.spoilt w ((s.governed o.msk n).map fun e => (e, o.ka, o.a, elemAt b w e % n)))

/-- VEXTR: one element to a handoff register (06 R185). -/
def execVextr (o : VExtrOp) (s : State) : Host.Outcome State Fault Refusal :=
  let own := s.indexBad o.t o.ka o.kb o.b || o.msk != 0
  s.perform (verdicts [s.occupied, s.freeQ o.qd,
      s.vchecks o.t isX (srcBad o.ka o.a) o.rm (o.sat == 1) false own]) fun s =>
    let t := s.vt o.t
    let x := elemAt (s.vr (o.a.setWidth 6)) t.width (s.vindex o.kb o.b)
    s.vdone 2 1 false [.q o.qd (if t.isInt then BitVec.ofInt 64 (t.asInt x) else BitVec.ofNat 64 x)]

/-- VPART: the lanes sorted by outcome, and the counts, starts and strays (06 R186). -/
def execVpart (o : VBin) (s : State) : Host.Outcome State Fault Refusal :=
  let n := o.b.toNat
  let own := o.t != 4 || o.ka != 0 || o.kb != 3 || decide (n = 0 ∨ 16 < n ∨ 63 ≤ o.vd.toNat)
  s.perform (.and s.occupied (s.vchecks o.t (fun t => t == .int32) (srcBad o.ka o.a) o.rm (o.sat == 1) false own)) fun s =>
    let a := s.vr (o.a.setWidth 6)
    let code := fun e => elemAt a 32 e
    let lanes := s.governed o.msk 128
    let arm := fun c => lanes.filter fun e => code e == c
    let list := (List.range n).flatMap arm
    let cnt := fun c => if c < n then (arm c).length else 0
    let first := (List.range 128).map fun j => (j, (list[j]?).getD (2 ^ 32 - 1))
    let stray := (lanes.filter fun e => !decide (code e < n)).length
    let second := (List.range 128).map fun j =>
      (j, if j < 16 then cnt j else if j < 32 then ((List.range (j - 16)).map cnt).foldl (· + ·) 0
        else if j = 32 then stray else 0)
    s.vdone 6 2 false [velems o.vd 32 first, velems (o.vd + 1) 32 second]

end Sys2Proof.Machine
end

