-- ==== Sys2Proof/Machine/VecConv.lean ====
section
/-! DEFINITION. Vector conversions, block images, quantisation and dequantisation (06 R187-R191, 04 R106-R111). -/

namespace Sys2Proof.Machine

/-- The fields that a conversion word fixes (06 R187); another KA or KB raises operand range, as R187 says of P (DESIGN CHOICE,
notes/assumptions/57.md). -/
def convFields (o : VCvOp) : Bool := o.ka != 0 || o.kb != 3 || decide (64 ≤ o.a.toNat)

/-- A conversion is integer-typed when both its types are (03 R77). -/
def bothInt (src dst : ElemType) : Bool := src.isInt && dst.isInt

/-- One converted element of type `src` into `dst`, its destination number being `i` (06 R187). -/
def State.conv (s : State) (o : VCvOp) (src dst : ElemType) (i b : Nat) : Nat :=
  let b := if s.flushes o.t src then flushElem src b else b
  convert src dst (s.rmode o.rm i) (o.sat == 1) b

/-- The checks and the effect of VCVT, VPACK and VUNPACK over the non-block types (06 R188): `ok` is the width rule. A source
no narrower than the target is governed by source elements, a narrower one by elements of VD. -/
def State.vconvert (s : State) (o : VCvOp) (ok : Nat → Nat → Bool) : Host.Outcome State Fault Refusal :=
  let src := ElemType.ofCode o.s.toNat
  let dst := s.vtype o.t
  let x := src.getD .fp32
  let t := dst.getD .fp32
  let bad := match src, dst with
    | some x, some t => x.isBlock || !isX t || convFields o || !ok x.width t.width
        || decide (max x.width t.width / min x.width t.width ≤ o.p.toNat)
    | _, _ => true
  s.perform (verdicts [s.occupied, s.bad0 (bad || rmBad o.rm (bothInt x t)) rangeC]) fun s =>
    let a := s.vr (o.a.setWidth 6)
    let l := if t.width ≤ x.width then
        (s.governed o.msk x.count).map fun e =>
          let d := x.count * o.p.toNat + e
          (d, s.conv o x t d (elemAt a x.width e))
      else (s.governed o.msk t.count).map fun e => (e, s.conv o x t e (elemAt a x.width (t.count * o.p.toNat + e)))
    s.vdone 4 (if x.width = 64 ∨ t.width = 64 then 2 else 1) false [velems o.vd t.width l]

/-- VPACK (06 R188). -/
def execVpack (o : VCvOp) (s : State) : Host.Outcome State Fault Refusal :=
  s.vconvert o fun ws wt => decide (ws ≤ 32 ∧ (ws = 2 * wt ∨ ws = 4 * wt))
/-- VUNPACK (06 R188). -/
def execVunpack (o : VCvOp) (s : State) : Host.Outcome State Fault Refusal :=
  s.vconvert o fun ws wt => decide (wt ≤ 32 ∧ (wt = 2 * ws ∨ wt = 4 * ws))

/-! ## Block images -/

/-- The elements of an image (06 R189). -/
def imageCount (t : ElemType) : Nat := if t = .fb4 ∨ t = .mxfp4 then 512 else 256

/-- The elements of a block (04 R108, R111). -/
def blockLen (t : ElemType) : Nat := if t = .fb4 then 8 else 32

/-- The value of an E8M0 scale (04 R111). -/
def e8m0 (b : Nat) : Num := if b = 255 then .nan else .fin false 1 ((b : Int) - 127) false

/-- The value of an element under its block's scale byte and the band scale (04 R108, R111). Under a scale of 0xFF every element is NaN, an E5M2
infinity too, which R111's next sentence lets keep its value (DESIGN CHOICE, notes/assumptions/38.md). -/
def blockVal (t : ElemType) (band : Num) (scale elem : Nat) : Num :=
  if t = .fb4 then (band.mul (e3m5F.decode scale)).mul (fp4F.decode elem)
  else (e8m0 scale).mul (t.ffmt.decode elem)

/-- The value of element `i` of the image in a vector register (06 R189). -/
def imageVal (t : ElemType) (v : BitVec 4096) (i : Nat) : Num :=
  blockVal t (bf16F.decode (elemAt v 16 160)) (elemAt v 8 (256 + i / blockLen t)) (elemAt v t.width i)

/-- The block path: part `p` of the image of type `x` decoded to `t` (06 R191). -/
def State.deblock (s : State) (o : VCvOp) (x t : ElemType) (lat : Nat) : State :=
  let v := s.vr (o.a.setWidth 6)
  let l := (List.range t.count).map fun e =>
    (e, t.encodeF (s.rmode o.rm e) (o.sat == 1) (imageVal x v (t.count * o.p.toNat + e)))
  s.vdone lat 1 false [velems o.vd t.width l]

/-- VCVT: the block path when the T = 7 entry names a block type, whose target the B code then names; else R188 (06 R188, R191). -/
def execVcvt (o : VCvOp) (s : State) : Host.Outcome State Fault Refusal :=
  let x := s.vt o.t
  if x.isBlock then
    let dst := ElemType.ofCode o.s.toNat
    let t := dst.getD .fp32
    let bad := dst.isNone || t.isBlock || (t.width != 16 && t.width != 32) || convFields o || o.msk != 0
      || decide (imageCount x / t.count ≤ o.p.toNat) || rmBad o.rm false
    s.perform (verdicts [s.occupied, s.bad0 bad rangeC]) fun s => s.deblock o x t 4
  else s.vconvert o fun ws wt => decide (ws = wt ∨ (ws = 64 ∧ wt = 32) ∨ (ws = 32 ∧ wt = 64))

/-- VDEQ (06 R191). -/
def execVdeq (o : VCvOp) (s : State) : Host.Outcome State Fault Refusal :=
  let src := ElemType.ofCode o.s.toNat
  let x := src.getD .fb4
  let dst := s.vtype o.t
  let t := dst.getD .fp32
  let bad := src.isNone || !x.isBlock || dst.isNone || (t != .fp32 && t != .bf16) || convFields o || o.msk != 0
    || decide (imageCount x / t.count ≤ o.p.toNat) || rmBad o.rm false
  s.perform (verdicts [s.occupied, s.bad0 bad rangeC]) fun s => s.deblock o x t 6

/-- The larger magnitude of finite values. -/
def maxMag (l : List Num) : Num := l.foldl (fun m x => if m.lt x.abs then x.abs else m) (.fin false 0 0 false)

/-- A value that FB4 cannot encode (04 R110). -/
def Num.special : Num → Bool
  | .fin _ _ _ _ => false
  | _ => true

/-- Whether a value is a zero. -/
def Num.isZero : Num → Bool
  | .fin _ m _ _ => m == 0
  | _ => false

/-- `floor (log2 x)` of a positive finite value. -/
def Num.ilog2 : Num → Int
  | .fin _ m e _ => e + Nat.log2 m
  | _ => 0

/-- The least `k` from `-133` up to 127 with `x ≤ 189 * 2^k`, clamped (06 R190). -/
def bandExp (x : Num) : Int :=
  let ok := fun (k : Int) => !(Num.fin false 189 k false).lt x
  match (List.range 261).find? fun (i : Nat) => ok ((i : Int) - 133) with
  | some i => (i : Int) - 133
  | none => 127

/-- What VQUANT writes for one block: its scale and its elements. -/
structure QBlock where
  scale : Nat
  elems : List Nat
  deriving DecidableEq, Repr

/-- Quantise a block of FB4 under a band (06 R190). Under a negative band the spec states no scale: `any` stands for it
(DESIGN CHOICE, notes/assumptions/10.md). -/
def quantFb4 (band : Num) (any : Nat) (mode : Nat → RMode) (xs : List Num) : QBlock :=
  let m := maxMag xs
  let neg := match band with | .fin n _ _ _ => n | _ => false
  let sc := if neg && !m.isZero then any % 256 else e3m5F.round .rup false (m.div ((Num.ofInt 6).mul band))
  let s := e3m5F.decode sc
  ⟨sc, (xs.zipIdx).map fun x => if s.isZero then 0 else fp4F.round (mode x.2) false (x.1.div (band.mul s))⟩

/-- Quantise a block of an MX type (06 R190). -/
def quantMx (t : ElemType) (mode : Nat → RMode) (xs : List Num) : QBlock :=
  if xs.any Num.special then ⟨255, xs.map fun _ => 0⟩
  else
    let m := maxMag xs
    if m.isZero then ⟨0, xs.map fun _ => 0⟩
    else
      let emax : Int := match t with | .mxfp4 => 2 | .mxfp8 => 8 | _ => 15
      let h := max (-127) (min 127 (m.ilog2 - emax))
      ⟨(h + 127).toNat, (xs.zipIdx).map fun x =>
        t.ffmt.round (mode x.2) true (x.1.mul (.fin false 1 (-h) false))⟩

/-- The blocks of `n` of a list. -/
def chunksOf {α : Type} (n : Nat) : Nat → List α → List (List α)
  | 0, _ => []
  | k + 1, l => l.take n :: chunksOf n k (l.drop n)

/-- The bytes of an image that are marked zero (06 R189). -/
def zeroBytes (t : ElemType) : List (Nat × Nat) :=
  let z := match t with | .fb4 => 322 | .mxfp4 => 272 | _ => 264
  (List.range (512 - z)).map fun i => (z + i, 0)

/-- VQUANT (06 R190). The bytes of an image that are marked zero are written as 0, and those of its other parts keep their values (R189, R190;
DEDUCED, notes/assumptions/10.md). -/
def execVquant (o : VCvOp) (s : State) : Host.Outcome State Fault Refusal :=
  let src := ElemType.ofCode o.s.toNat
  let x := src.getD .fp32
  let t := s.vt o.t
  let plain := t == .e4m3 || t == .e5m2
  let nt := if plain then 512 else imageCount t
  let ns := x.count
  let p := o.p.toNat
  let bad := o.t != 7 || !(plain || t.isBlock) || !isF3 x || src.isNone || convFields o || o.msk != 0
    || decide (nt / ns ≤ p) || rmBad o.rm false
  let v := s.vr (o.a.setWidth 6)
  let xs := (List.range ns).map fun e => x.value (elemAt v x.width e)
  let old := bf16F.decode (elemAt (s.vr o.vd) 16 160)
  let trapped := t == .fb4 && (xs.any Num.special || (p != 0 && (old.special || old.isZero)))
  s.perform (verdicts [s.occupied, s.bad0 bad rangeC, s.bad0 trapped arithC]) fun s =>
    let mode := fun e => s.rmode o.rm (ns * p + e)
    if plain then
      s.vdone 8 2 false [velems o.vd 8 ((xs.zipIdx).map fun y => (ns * p + y.2, t.ffmt.round (mode y.2) (o.sat == 1) y.1))]
    else
      let bl := blockLen t
      let m := maxMag xs
      let band := if t = .fb4 ∧ p = 0 then (if m.isZero then .fin false 1 0 false else .fin false 1 (bandExp m) false) else old
      let qs := ((chunksOf bl (ns / bl) xs).zipIdx).map fun b =>
        let md := fun e => mode (bl * b.2 + e)
        if t = .fb4 then quantFb4 band (Config.pick (s.freeCtr + b.2)) md b.1 else quantMx t md b.1
      let elems := velems o.vd t.width ((qs.flatMap (·.elems)).zipIdx.map fun y => (ns * p + y.2, y.1))
      let scales := velems o.vd 8 ((qs.map (·.scale)).zipIdx.map fun y => (256 + ns * p / bl + y.2, y.1))
      let bandW := if t = .fb4 ∧ p = 0 then [velems o.vd 16 [(160, bf16F.round .rne false band)]] else []
      ({ s with freeCtr := s.freeCtr + 64 }).vdone 8 2 false ([elems, scales, velems o.vd 8 (zeroBytes t)] ++ bandW)

end Sys2Proof.Machine
end

