-- ==== Sys2Proof/Machine/VecMem.lean ====
section
/-! DEFINITION. Vector loads and stores, VLDR included (06 R192-R194, 07 R209). -/

namespace Sys2Proof.Machine

/-- The slots, in 1 KiB units, of a list of byte addresses. -/
def slotsOf (l : List Nat) : List Nat := l.foldl (fun acc a => addOnce acc (a / 1024)) []

/-- A tagged read finds a slot's tag: the expected one, and the slot is not refetching (06 R192, 13 R398). -/
def Core.tagOk (c : Core) (tag : BitVec 16) (slot : Nat) : Bool :=
  ((tabGet c.slotTags slot).getD 0) == tag &&
    !(match c.phase with | some p => p.refetch.contains slot | none => false)

/-- The base of a local store word: s[SB] bits 47 to 0 (06 R192). -/
def State.lsBase (s : State) (sb : SReg) : Int := bits (s.me.sreg s.cur.st sb) 47 0

/-- The expected tag: s[SB] bits 63 to 48 (06 R192). -/
def State.lsTag (s : State) (sb : SReg) : BitVec 16 := (s.me.sreg s.cur.st sb).extractLsb' 48 16

/-- Join the runs of bytes that follow one another. -/
def joinRuns : List (Nat × List Byte) → List (Nat × List Byte)
  | [] => []
  | (a, x) :: t => match joinRuns t with
    | (b, y) :: u => if a + x.length = b then (a, x ++ y) :: u else (a, x) :: (b, y) :: u
    | [] => [(a, x)]

/-- How a vector memory word addresses the local store: the address of each element, the alignment rule, whether the fixed
part of its range is broken, and its latency and occupancy (06 R179, R192). -/
structure Access1 where
  at_ : Nat → Int
  misaligned : Bool
  outside : Bool
  lat : Nat
  occ : Nat

/-- A contiguous access (06 R192). -/
def State.contiguous (s : State) (t : ElemType) (sb : SReg) (off : BitVec 14) : Access1 :=
  let a := s.lsBase sb + 64 * off.toInt
  { at_ := fun e => a + (t.width / 8 * e : Nat), misaligned := decide (a % 64 ≠ 0), outside := !inStore a 512, lat := 8, occ := 1 }

/-- A strided access of eight rows (06 R192). -/
def State.strided (s : State) (t : ElemType) (sb : SReg) (sx : BitVec 6) : Access1 :=
  let b := s.lsBase sb
  let st := (s.me.sreg .vector sx).toInt
  { at_ := fun e =>
      let j := t.width / 8 * e
      b + (j / 64 : Nat) * st + (j % 64 : Nat)
    misaligned := decide (b % 64 ≠ 0 ∨ st % 64 ≠ 0)
    outside := (List.range 8).any fun (i : Nat) => !inStore (b + i * st) 64
    lat := 9, occ := 2 }

/-- A gather or scatter by an index register (06 R192). -/
def State.indexed (s : State) (t : ElemType) (sb : SReg) (sx : BitVec 6) (mk : BitVec 4) : Access1 :=
  let b := s.lsBase sb
  let w := t.width / 8
  let at_ := fun (e : Nat) => b + w * (BitVec.ofNat 32 (elemAt (s.vr sx) 32 e)).toInt
  { at_ := at_, misaligned := decide (b % (w : Int) ≠ 0)
    outside := (s.governed mk t.count).any fun e => !inStore (at_ e) w, lat := 16, occ := 8 }

/-- The read of elements `es` through an access: every sector clean, or the word consumes poison (13 R390). -/
def State.readsPoison (s : State) (x : Access1) (w : Nat) (es : List Nat) : Bool :=
  !s.me.lsPoison.isEmpty && es.any fun e => s.me.poisoned (x.at_ e).toNat w

/-- The tags of the slots that elements `es` read (06 R192). -/
def State.tagsMatch (s : State) (x : Access1) (sb : SReg) (es : List Nat) : Bool :=
  (slotsOf (es.map fun e => (x.at_ e).toNat)).all (s.me.tagOk (s.lsTag sb))

/-- The checks of a vector load: of a tagged one, the type, alignment and range come first (06 R178, R192; 02 R442). `present`
lists the elements it reads. -/
def State.loadChecks (s : State) (tg : BitVec 1) (ok : Bool) (x : Access1) (sb : SReg) (w : Nat) (present : List Nat)
    (row7 : Verdict) : Verdict :=
  let fixed := verdicts [s.bad0 (!ok) rangeC, s.bad0 x.misaligned alignC, s.bad0 x.outside rangeC]
  let rest := verdicts [row7, bar (s.readsPoison x w present) (cause 5 0 1)]
  if tg = 1 then verdicts [fixed, s.occupied, need (s.tagsMatch x sb present) (cause2 .vector tagC), rest]
  else verdicts [s.occupied, fixed, rest]

/-- The effect of a vector load (06 R193). -/
def State.vload (s : State) (vd : BitVec 6) (t : ElemType) (x : Access1) (present : List Nat) : State :=
  let w := t.width / 8
  s.vdone x.lat x.occ false [velems vd t.width (present.map fun e => (e, memRead s.me.ls (x.at_ e).toNat w))]

/-- The effect of a vector store: its bytes are written at the end of the last cycle of its occupancy (06 R179, R193). Against another stream's access of
the same core it races: the later landing wins every sector (00 R5, 06 R194; DESIGN CHOICE, notes/assumptions/58.md). -/
def State.vstore (s : State) (vd : BitVec 6) (t : ElemType) (x : Access1) (es : List Nat) : State :=
  let w := t.width / 8
  let runs := joinRuns (es.map fun e => ((x.at_ e).toNat, toBytes w (elemAt (s.vr vd) t.width e)))
  s.vdone x.occ x.occ false (runs.map fun r => .bytes r.1 r.2)

/-- A load word of a class of types. -/
def State.vloadWord (s : State) (t : BitVec 3) (cls : ElemType → Bool) (tg : BitVec 1) (sb : SReg) (vd : BitVec 6)
    (mk : BitVec 4) (acc : ElemType → Access1) : Host.Outcome State Fault Refusal :=
  let f := s.vt t
  let ok := match s.vtype t with | some f => cls f | none => false
  let es := s.governed mk f.count
  s.perform (s.loadChecks tg ok (acc f) sb (f.width / 8) es .ok) fun s => s.vload vd f (acc f) es

/-- A store word of a class of types. -/
def State.vstoreWord (s : State) (t : BitVec 3) (cls : ElemType → Bool) (vd : BitVec 6) (mk : BitVec 4)
    (acc : ElemType → Access1) : Host.Outcome State Fault Refusal :=
  let f := s.vt t
  let ok := match s.vtype t with | some f => cls f | none => false
  s.perform (verdicts [s.occupied, s.bad0 (!ok) rangeC, s.bad0 (acc f).misaligned alignC, s.bad0 (acc f).outside rangeC]) fun s =>
    s.vstore vd f (acc f) (s.governed mk f.count)

/-- The types of a gather or scatter: 32 and 64 bits (06 R179). -/
def isWide (t : ElemType) : Bool := isX t && decide (32 ≤ t.width)

/-- VLD (06 R192, R193). -/
def execVld (o : VLdOp) (s : State) := s.vloadWord o.t isX o.tg o.sb o.vd o.msk (fun f => s.contiguous f o.sb o.off)
/-- VST (06 R192, R193). -/
def execVst (o : VStOp) (s : State) := s.vstoreWord o.t isX o.vd o.msk (fun f => s.contiguous f o.sb o.off)
/-- VLDS (06 R192, R193). -/
def execVlds (o : VLdxOp) (s : State) := s.vloadWord o.t isX o.tg o.sb o.vd o.msk (fun f => s.strided f o.sb o.sx)
/-- VSTS (06 R192, R193). -/
def execVsts (o : VStxOp) (s : State) := s.vstoreWord o.t isX o.vd o.msk (fun f => s.strided f o.sb o.sx)
/-- VGATH (06 R192, R193). -/
def execVgath (o : VLdxOp) (s : State) := s.vloadWord o.t isWide o.tg o.sb o.vd o.msk (fun f => s.indexed f o.sb o.sx o.msk)
/-- VSCAT (06 R192, R193). -/
def execVscat (o : VStxOp) (s : State) := s.vstoreWord o.t isWide o.vd o.msk (fun f => s.indexed f o.sb o.sx o.msk)

/-- The unloaded shape slot that a word names (03 R83). -/
def State.loaded (s : State) (z : Nat) : Verdict := s.bad0 (s.me.shape? z).isNone rangeC

/-- The lanes of a window that MK governs and whose rows are valid; MODE CLIP alone drops rows (07 R204, R206, R209). -/
def State.presentRows (s : State) (g : Shape) (z : Nat) (mk : BitVec 4) (n : Nat) : List Nat :=
  let o := s.origin z
  let vc := s.mine.vc.toNat
  (s.governed mk n).filter fun e => if g.fault then g.rowIn vc (o + e) else g.validClip vc o n e

/-- VLDR: a window of packed rows, present lanes only (07 R209, R206). -/
def execVldr (o : VLdrOp) (s : State) : Host.Outcome State Fault Refusal :=
  let f := s.vt o.t
  let ok := match s.vtype o.t with | some f => isX f | none => false
  let z := o.zs.toNat
  let g := (s.me.shape? z).getD (({} : ShapeBuf).shape)
  let x := s.contiguous f o.sb o.off
  let es := s.presentRows g z o.msk f.count
  let straddle := g.fault && g.straddles s.mine.vc.toNat (s.origin z) f.count
  s.perform (verdicts [s.loaded z, if o.tg = 1 then .ok else s.occupied,
      s.loadChecks o.tg ok x o.sb (f.width / 8) es (bar straddle (cause2 .vector straddleC))]) fun s =>
    (s.bindWord z).vload o.vd f x es

end Sys2Proof.Machine
end

