-- ==== Sys2Proof/Machine/CopyEvents.lean ====
section
/-! DEFINITION. CPYR at issue, and copy commands after issue: translation, schedule and completion (07 R217; 08 R237,
R244-R255; 13 R390). -/

namespace Sys2Proof.Machine

/-! ## CPYR -/

/-- The checks of CPYR on its slot: the row extent, then straddle (07 R206, R217). -/
def State.cpyrChecks (s : State) (b : Box) (z : Nat) : Verdict :=
  let g := (s.me.shape? z).getD (({} : ShapeBuf).shape)
  let w := match ElemType.ofCode g.etype with | some t => t.width | none => 0
  verdicts [s.bad0 (decide (8 * b.ext.1 ≠ g.cols * w)) rangeC,
    bar (g.fault && g.straddles s.mine.vc.toNat (s.origin z) b.ext.2.1) (cause2 .copy straddleC)]

/-- CPYR: the copy of a box whose rows are rows of a shape; an invalid row is neither read nor written, and the generation stays bound until
the identifier completes, at the time of the whole box (07 R202, R217). -/
def execCpyr (o : CRecOp) (zr nt : BitVec 1) (zs : BitVec 3) (s : State) : Host.Outcome State Fault Refusal :=
  let a := (s.rgValue o.kg o.rg).toNat
  let b := boxOf (s.recordAt a)
  let z := zs.toNat
  s.perform (verdicts [s.bad0 (s.me.shape? z).isNone rangeC, s.copyRows o, s.boxChecks a (zr == 1), s.cpyrChecks b z,
      if b.isZero then .ok else s.tileStates b.sk (b.src % 16) b.dk (b.dst % 16)]) fun s =>
    let g := (s.me.shape? z).getD (({} : ShapeBuf).shape)
    let k := s.boxCopy o a (nt == 1)
    let n := b.ext.2.1
    let valid := fun (i : Nat) => g.validClip s.mine.vc.toNat (s.origin z) n (i % n)
    let sp := (k.spans.zipIdx.filter fun x => valid x.2).map (·.1)
    let from_ := if b.sk = 2 then sp.map fun x => (x.src, x.len) else []
    let to_ := if b.dk = 2 then sp.map fun x => (x.dst, x.len) else []
    (s.chosen.issueCopy o { k with
      kind := .ragged, spans := sp, reads := startsIn from_, writes := startsIn to_
      xlatAt := s.copyXlat ((from_ ++ to_).map (·.1)), fault := s.copyBond to_ copyWriteA }).modMe fun c =>
        c.bindTo z (.crossing, k.id)

/-! ## Translation -/

/-- Change a command of a core. -/
def State.modCopy (s : State) (c id : Nat) (f : CopyCmd → CopyCmd) : State :=
  s.modCore c fun k => { k with copies := updIf (·.id == id) f k.copies }

/-- The core's copy stream goes back to a command that faults: the command and every later one are dropped, CFENCEs among them, and the
identifiers are given back (08 R246). -/
def State.rewindStream (s : State) (c : Nat) (k : CopyCmd) (t : TrapInfo) : State :=
  let x := s.core c
  let gone := x.copies.filter fun j => decide (k.id ≤ j.id) && !j.reissued
  let back := fun (ch : Nat) => (gone.filter (·.ch == ch)).foldl (fun n j => min n (j.ident - 1)) (vAt x.chIssued ch)
  let x := { x with
    copies := x.copies.filter fun j => !(decide (k.id ≤ j.id) && !j.reissued)
    chIssued := Vector.ofFn fun i => back i.val
    cfences := k.fence
    cpy := k.before
    phase := x.phase.map fun p => { p with log := p.log.filter fun i => !(gone.any (·.id == i)) } }
  let x := gone.foldl (fun (x : Core) j => x.unbind (.crossing, j.id)) x
  let s := s.setCore c x
  ({ s with handles := s.handles.map fun (h : Handle) => { h with
      sends := h.sends.filter fun q => !(q.1 == c && gone.any (·.id == q.2))
      bindings := h.bindings.filter fun q => !(q.1 == c && gone.any (·.id == q.2)) } }).raiseAt c t

/-- A command that faults: the copy stream goes back to it. One that a phase's rerun has reissued has no word to go back to: it is dropped, and
the phase can be rerun no more (08 R246, 13 R398; DESIGN CHOICE, notes/assumptions/51.md). -/
def State.rewindCopy (s : State) (c : Nat) (k : CopyCmd) (t : TrapInfo) : State :=
  if k.reissued then
    (s.modCore c fun x => { x with copies := x.copies.filter (·.id != k.id), phase := x.phase.map fun p => { p with unrecoverable := true } }).raiseAt c
      { t with xpc := some k.before.pc }
  else s.rewindStream c k t

/-- The origin of a command's class 1 faults on a source page, and on a destination page (08 R246, R257). -/
def CopyCmd.readA (k : CopyCmd) : Nat := if k.kind = .nmc then nearA else copyReadA
/-- See `CopyCmd.readA`. -/
def CopyCmd.writeA (k : CopyCmd) : Nat := if k.kind = .nmc then nearA else copyWriteA

/-- Where a command's virtual pages must lie: the own tile's stack for a collective or a binding, this package for a near-memory
command, anywhere otherwise (08 R257, 10 R315, 11 R357). -/
def CopyCmd.placeOk (k : CopyCmd) (tile : Nat) (l : Leaf) (va : Nat) : Bool := match k.kind with
  | .coll | .recv => l.ap == 0 && stackOf (l.pa va) == tile
  | .nmc => l.ap == 0
  | _ => true

/-- The runs of virtual bytes that a command touches, on the side that it reads and on the one that it writes; a CBIN's bins are found later. -/
def CopyCmd.runs (k : CopyCmd) (write : Bool) : List (Nat × Nat) := match k.kind with
  | .nmc => let n := nearOf k.record; if write then [(n.y, n.ylen)] else [(n.x, n.xlen)]
  | .bin => let b := binOf k.record; if write then [] else [(b.tab, 32 * (b.nb + 1))]
  | .recv => if write then (let v := recvOf k.record; [(v.dst, v.len)]) else []
  | .coll => if write then (k.spans.drop 1).map fun x => (x.dst, x.len) else (k.spans.take 1).map fun x => (x.src, x.len)
  | _ => if write then (if k.dk = 2 then k.spans.map fun x => (x.dst, x.len) else [])
    else if k.sk = 2 then k.spans.map fun x => (x.src, x.len) else []

/-- A run of virtual bytes as pieces within 64 KiB blocks: their virtual addresses and lengths. -/
def pieces (va n : Nat) : List (Nat × Nat) :=
  (blocksOf va n).map fun b =>
    let lo := max va (b * 65536)
    (lo, min (va + n) ((b + 1) * 65536) - lo)

/-- Whether runs touch a byte of the 64 KiB block of `va` that no stack backs, its page being that of leaf `l` (08 R232, 12 R367 row 1). -/
def touchesHole (runs : List (Nat × Nat)) (l : Leaf) (va : Nat) : Bool :=
  l.ap == 0 && runs.any fun r => (pieces r.1 r.2).any fun p => p.1 / 65536 == va / 65536 && p.2 != 0 && !backed (l.pa (p.1 + p.2 - 1))

/-- Translate the pages of one side of a command by the bytes that first touch them: the leaves, or the fault (12 R376). -/
def State.xlatSide (s : State) (c : Nat) (k : CopyCmd) (need : Need) (axis : Nat) (starts : List Nat) (runs : List (Nat × Nat)) :
    List (Nat × Leaf) × Option TrapInfo :=
  starts.foldl (fun acc va => match acc.2 with
    | some _ => acc
    | none =>
      let t := fun (cond : Nat) => { code := walkCause axis cond, st := .copy, cmd := k.before.step, engine := 3, unit := k.ch
                                     va := BitVec.ofNat 64 va, cyc := k.issued : TrapInfo }
      match s.lookup (tileOf c) (s.ctxOf c) va with
      | .bad cond => (acc.1, some (t cond))
      | .ok l =>
        if touchesHole runs l va then (acc.1, some (t notMappedC))
        else match s.leafFault l va need false with
          | some cond => (acc.1, some (t cond))
          | none => if k.placeOk (tileOf c) l va then (acc.1 ++ [(va, l)], none) else (acc.1, some (t unreachC))) ([], none)

/-- The near-memory rule on stacks: both operands lie whole in one stack (08 R257). -/
def CopyCmd.oneStack (k : CopyCmd) (pages : List (Nat × Leaf)) : Bool :=
  k.kind != .nmc || pages.all fun p => stackOf (p.2.pa p.1) == stackOf (((pages.map fun q => q.2.pa q.1).headD 0))

/-- What a command asks of its destination's leaves: NMUPD, NMAXPBY and NMRED read them too (08 R257, R258, 12 R367). -/
def CopyCmd.writeNeed (k : CopyCmd) : Need := if k.kind = .nmc ∧ (nearOf k.record).opc < 4 then .update else .write

/-- The fault of a command whose walks still run at issue + 512 in timed mode (08 R246). -/
def CopyCmd.lateInfo (k : CopyCmd) : TrapInfo :=
  { code := cause2 .copy deadlineC, st := .copy, cmd := k.before.step, engine := 3, unit := k.ch, cyc := k.issued }

/-- Whether a core may take a copy command's fault now: it runs, and no earlier command of its stream may still fault. -/
def Core.copyFaultDue (x : Core) (k : CopyCmd) : Bool :=
  decide (k.issued + 512 ≤ x.time) && !k.passed && !x.frozen && !x.stopped && x.trap.isNone && x.handler.isNone
    && !(x.copies.any fun j => decide (j.id < k.id) && !j.passed && !j.finished)

/-- COPY_TRANSLATION: a command's pages are translated, or it faults at issue + 512 with its stream taken back to it; one whose walks still run
then faults in timed mode (08 R246, R247, R257; 09 R273; 10 R315; 11 R357). -/
def execCopyTranslation (s : State) : Host.Outcome State Fault Refusal :=
  let c := s.on.a
  let x := s.core c
  match x.copy? s.on.b with
  | none => .fault .eventNotDue
  | some k =>
    if k.virt && !k.xlated && k.fault.isNone && decide (k.xlatAt ≤ x.time) then
      let r := s.xlatSide c k .read k.readA k.reads (k.runs false)
      let w := s.xlatSide c k k.writeNeed k.writeA k.writes (k.runs true)
      let pages := r.1 ++ w.1
      let bad := match r.2.or w.2 with
        | some t => some t
        | none => if k.oneStack pages then none
          else some { code := cause 0 7 rangeC, st := .copy, cmd := k.before.step, engine := 3, unit := k.ch, cyc := k.issued }
      match bad with
      | some t =>
        let s := (k.reads ++ k.writes).foldl (fun (s : State) va => s.walkEffects (tileOf c) (s.ctxOf c) va) s
        .next (s.modCopy c k.id fun k => { k with fault := some t })
      | none =>
        let s := pages.foldl (fun (s : State) p => s.cacheLeaf (tileOf c) (s.ctxOf c) p.1 p.2) s
        .next (s.modCopy c k.id fun k => { k with xlated := true, pages := pages })
    else match k.fault.or (if k.virt && !k.xlated && s.timedAt c then some k.lateInfo else none) with
      | some t => if x.copyFaultDue k then .next (s.rewindCopy c k t) else .fault .eventNotDue
      | none => .fault .eventNotDue

/-! ## Order and schedule -/

/-- One side of a path: its latency, and twice its cycles per granule; `none` where no bound holds (08 R248). -/
def pathTo (me other : Nat) : Nat × Nat :=
  if me = other then (160, 20) else (600 + 64 * hops me other, 512)

/-- The slower of two sides. -/
def slower (a b : Option (Nat × Nat)) : Option (Nat × Nat) := match a, b with
  | some x, some y => if x.1 ≤ y.1 then some y else some x
  | _, _ => none

/-- The side of a command on the kind `kind` (0 own store, 1 another core, 2 virtual, 3 tile register). -/
def CopyCmd.side (k : CopyCmd) (c kind : Nat) (starts : List Nat) : Option (Nat × Nat) :=
  let me := tileOf c
  if kind = 1 then
    some (if tileOf k.peer = me then (40, 4) else (600 + 64 * hops me (tileOf k.peer), 512))
  else if kind = 2 then
    (k.pages.filter fun p => starts.contains p.1).foldl (fun acc p =>
      if p.2.ap = 0 then slower acc (some (pathTo me (stackOf (p.2.pa p.1)))) else none) (some (8, 1))
  else some (8, 1)

/-- The path of a command: latency, twice the cycles per granule, and the row of R248's table that names it. -/
def CopyCmd.path (k : CopyCmd) (c : Nat) : Option (Nat × Nat × Nat) :=
  let a := k.side c (if k.kind = .nmc ∨ k.kind = .bin then 2 else k.sk) k.reads
  let b := k.side c (if k.kind = .nmc then 2 else k.dk) k.writes
  let key := fun (x : Nat × Nat) => if x.1 = 8 then 0 else if x.1 = 40 then 1 else if x.1 = 160 then 2 else 3
  match a, b with
  | some x, some y =>
    if k.sk = 2 ∧ k.dk = 2 ∧ k.kind ≠ .nmc then some (x.1 + y.1, x.2 + y.2, 4)
    else (slower a b).map fun z => (z.1, z.2, key z)
  | _, _ => none

/-- Whether two commands take one path of the copy engine, which serves each in issue order. A CNMC that has been served runs in its stack's
base die, apart from the copies behind it (08 R248, R259, 15 R425; DEDUCED, notes/assumptions/29.md). -/
def CopyCmd.samePath (k j : CopyCmd) (c : Nat) : Bool :=
  k.kind != .const && j.kind != .const && (k.kind == .nmc) == (j.kind == .nmc) && (k.path c).map (·.2.2) == (j.path c).map (·.2.2)

/-- Whether a command of a kind that the copy engine schedules by R248. -/
def CopyCmd.scheduled (k : CopyCmd) : Bool := match k.kind with
  | .send | .recv | .coll => false
  | _ => !k.zero

/-- The cycles from CCONST's Ready cycle to its completion (08 R255). -/
def CopyCmd.constCycles (k : CopyCmd) : Nat := 7 + ((k.spans.headD ⟨0, 0, 0⟩).len + 63) / 64

/-- Give a command its bound and its completion: a free cycle from Ready to the bound (08 R248, R252; notes/assumptions/4.md); CCONST's completion
counts from the cycle in which it reads (08 R255). Its place in the path is taken now: one that waited for a command with no bound counts from
here. -/
def State.schedule (s : State) (c : Nat) (k : CopyCmd) : State :=
  let x := s.core c
  let before := x.copies.filter fun j => decide (j.id < k.id)
  let blocked := x.beforeXlat k || before.any fun j => !j.finished && k.after j && j.planned.isNone
  if blocked ∨ k.planned.isSome ∨ !k.scheduled ∨ k.finished then s
  else
    let ready := max (x.readyOf k) x.time
    let lo := before.foldl (fun n j => if !j.finished && k.after j then max n ((j.planned.getD 0) + 1) else n) (max (x.time + 1) ready)
    match k.kind, k.path c with
    | .const, _ => s.modCopy c k.id fun k => { k with ready := some lo, bound := some (lo + k.constCycles) }
    | _, some (lat, r2, row) =>
      let st := max ready ((tabGet x.pathFree row).getD 0)
      let g := (r2 * k.granules + 1) / 2
      let done := st + lat + g - 1
      let s := s.modCore c fun x => { x with pathFree := tabSet x.pathFree row (st + g) }
      (s.modCopy c k.id fun k => { k with ready := some ready, bound := some done, doneAt := some (s.choice lo (max lo done)) }).chosen
    | _, none =>
      (s.modCopy c k.id fun k => { k with ready := some ready, doneAt := some (s.choice lo (lo + 1048576)) }).chosen

/-- The homes of a command's virtual bytes. -/
def CopyCmd.homes (k : CopyCmd) : List (Nat × Nat) := k.pages.map fun p => (p.2.ap, stackOf (p.2.pa p.1))

/-- Whether the bytes of a page can travel now: those of a peer only in the program's portion of an hour in which a fibre landing faces it
(01 R23, 10 R331; DEDUCED, notes/assumptions/40.md). -/
def State.pageOpen (s : State) (l : Leaf) : Bool := l.ap == 0 || l.ap == 255 || s.programOf l.ap

/-- Whether nothing keeps a command's data from moving: nothing of its own stream keeps it back, no access that a FENCE has put ahead of it is
still on its way to a home of its bytes, and the homes can be reached (01 R23; 08 R246, R249, R250; 09 R276). -/
def State.unheld (s : State) (c : Nat) (k : CopyCmd) : Bool :=
  let x := s.core c
  !x.holdsBack k x.time && !(k.virt && (s.behindPort c k.tick k.homes || k.pages.any fun p => !s.pageOpen p.2))

/-- A core's launch has stopped to be pre-empted: what has not begun is saved, and does not begin (11 R349). -/
def State.stopping (s : State) (c : Nat) : Bool := match s.launchOf c with
  | some l => l.stage == .preempting
  | none => false

/-- Whether a command may move data now. -/
def State.mayMove (s : State) (c : Nat) (k : CopyCmd) : Bool := s.unheld c k && (k.started || !s.stopping c)

/-- An earlier command of its path is still to complete, and `k` has not come to the end of its own bound (08 R248). -/
def Core.pathHolds (x : Core) (c : Nat) (k : CopyCmd) : Bool :=
  !k.bound.any (fun b => decide (b ≤ x.time)) && x.copies.any fun j => decide (j.id < k.id) && !j.finished && j.scheduled && k.samePath j c

/-! ## Moving bytes -/

/-- The key of a virtual byte through a command's pages. -/
def CopyCmd.key (k : CopyCmd) (va : Nat) : Nat := match k.pages.find? (·.1 / 65536 == va / 65536) with
  | some p => p.2.key va
  | none => 0

/-- The bytes of a tile register. -/
def tileBytes (d : BitVec 32768) (a n : Nat) : List Byte := (List.range n).map fun i => d.extractLsb' (8 * (a + i)) 8

/-- The source bytes of a span, and the offsets of the runs that are poisoned (08 R260, 13 R390). -/
def State.readSpan (s : State) (c : Nat) (k : CopyCmd) (x : Span) : List Byte × List (Nat × Nat) :=
  let store := fun (o : Nat) =>
    let q := s.core o
    (memBytes q.ls x.src x.len, (sectorsOf x.src x.len).filterMap fun p =>
      let lo := max (32 * p) x.src
      if q.lsPoison.contains p then some (lo - x.src, min (32 * p + 32) (x.src + x.len) - lo) else none)
  if k.sk = 0 then store c
  else if k.sk = 1 then store k.peer
  else if k.sk = 3 then (tileBytes (k.srcTile.getD 0) x.src x.len, [])
  else
    (pieces x.src x.len).foldl (fun acc p =>
      let key := k.key p.1
      (acc.1 ++ memBytes s.mem key p.2, acc.2 ++ (granulesOf key p.2).filterMap fun g =>
        let lo := max (64 * g) key
        if s.readBad (64 * g) 64 then some ((lo - key) + (p.1 - x.src), min (64 * g + 64) (key + p.2) - lo) else none)) ([], [])

/-- The entry of a bin table within its bytes. -/
def binEntryAt (tab : List Byte) (n : Nat) : List Byte := (tab.drop (32 * n)).take 32

/-- What CCONST reads from its core's store, with the words that are bad (08 R255). -/
def State.takeNow (s : State) (c : Nat) (k : CopyCmd) : List Byte × List Nat :=
  let x := k.spans.headD ⟨0, 0, 0⟩
  (memBytes (s.core c).ls x.src (4 * x.len),
    (List.range x.len).filter fun i => (s.core c).poisoned (x.src + 4 * i) 4)

/-- What CBIN reads of its table, with the entries that are bad (08 R254). -/
def State.binTable (s : State) (k : CopyCmd) : List Byte × List Nat :=
  let b := binOf k.record
  ((pieces b.tab (32 * (b.nb + 1))).flatMap fun p => memBytes s.mem (k.key p.1) p.2,
    (List.range (b.nb + 1)).filter fun i => s.readBad (k.key (b.tab + 32 * i)) 32)

/-- Whether cycle `t` is the Ready cycle of a CCONST, in which it reads its words: nothing that comes before it is still to complete
(08 R255). -/
def Core.takes (x : Core) (k : CopyCmd) (t : Nat) : Bool :=
  k.kind == .const && !k.finished && k.taken.isNone && k.bound.isSome && decide ((k.ready.getD 0) ≤ t) && !x.holdsBack k t

/-- What a command has read at its Ready cycle. -/
def State.takenBy (s : State) (c : Nat) (k : CopyCmd) : List Byte × List Nat := k.taken.getD (s.takeNow c k)

/-- What reading virtual bytes through a command's pages leaves behind (13 R391). -/
def State.readPages (s : State) (k : CopyCmd) (va n : Nat) : State :=
  (pieces va n).foldl (fun (s : State) p => s.readEffects (k.key p.1) p.2) s

/-- Mark destination sectors or granules as poisoned. -/
def State.poisonDst (s : State) (c : Nat) (k : CopyCmd) (a n : Nat) : State :=
  let store := fun (o : Nat) => s.modCore o fun q => { q with lsPoison := (sectorsOf a n).foldl addOnce q.lsPoison }
  if k.dk = 0 then store c
  else if k.dk = 1 then store k.peer
  else if k.dk = 3 then s.modCore c fun q => { q with tBad := addOnce q.tBad ((k.tiles.filter (·.2)).map (·.1) |>.headD 0) }
  else (pieces a n).foldl (fun (s : State) p =>
    { s with poison := (granulesOf (k.key p.1) p.2).foldl addOnce s.poison }) s

/-- Write the bytes of a run at a command's destination. -/
def State.writeDst (s : State) (c : Nat) (k : CopyCmd) (a : Nat) (b : List Byte) : State :=
  if k.dk = 0 then s.modCore c fun q => q.putBytes a b
  else if k.dk = 1 then s.modCore k.peer fun q => q.putBytes a b
  else if k.dk = 2 then (pieces a b.length).foldl (fun (s : State) p =>
    s.writeHome (k.key p.1) ((b.drop (p.1 - a)).take p.2)) s
  else s

/-- Move one span, its bytes as they stood in `old`; whether it met poison. -/
def State.moveSpan (old s : State) (c : Nat) (k : CopyCmd) (x : Span) : State × Bool :=
  let r := old.readSpan c k x
  let s := if k.sk = 2 then s.readPages k x.src x.len else s
  let s := r.2.foldl (fun (s : State) p => s.poisonDst c k (x.dst + p.1) p.2) (s.writeDst c k x.dst r.1)
  (s, !r.2.isEmpty)

/-- The tag of a command (08 R237). -/
def CopyCmd.tag (k : CopyCmd) : BitVec 16 := BitVec.ofNat 16 (k.ch * 2 ^ 14 + k.ident % 2 ^ 14)


/-- Set the tags of slots of a core. -/
def Core.tagSlots (c : Core) (slots : List Nat) (t : BitVec 16) : Core :=
  { c with slotTags := slots.foldl (fun m n => if t = 0 then tabDel m n else tabSet m n t) c.slotTags }


/-- Complete a command: its identifier joins the completed ones, and what it held is let go (07 R202, 08 R240, R245; 13 R398). -/
def State.finishCopy (s : State) (c id : Nat) : State :=
  let k : Option CopyCmd := (s.core c).copy? id
  s.modCore c fun (x : Core) =>
    let ch := match k with | some q => q.ch | none => 0
    let n := match k with | some q => q.ident | none => 0
    let x : Core := { x with
      copies := updIf (·.id == id) (fun k => { k with finished := true, doneAt := some x.time, started := true }) x.copies
      chDone := vPut x.chDone ch (vAt x.chDone ch ++ [n])
      phase := x.phase.map fun p => match k with
        | some q => if q.reissued then { p with refetch := p.refetch.filter fun n => !q.boxSlots.contains n } else p
        | none => p }
    (x.unbind (.crossing, id)).advanceChst

/-- The tags and the tile register of a completed command (08 R237, R244). -/
def State.setTags (s : State) (c : Nat) (k : CopyCmd) (tile : BitVec 32768) : State :=
  if k.nt ∧ k.dk ≠ 3 then s
  else if k.dk = 0 then s.modCore c fun x => x.tagSlots k.boxSlots k.tag
  else if k.dk = 1 then s.modCore k.peer fun x => x.tagSlots k.boxSlots k.tag
  else if k.dk = 3 then s.modCore c fun x => match k.tiles.find? (·.2) with
    | some t =>
      let r := BitVec.ofNat 4 t.1
      let bad := x.tBad.contains t.1
      let x := x.putT r { data := tile, tag := if k.nt then (vGet r x.tregs).tag else k.tag }
      { x with tBad := if bad then addOnce x.tBad t.1 else x.tBad }
    | none => x
  else s

/-- Bytes as a tile register's contents. -/
def tileOfBytes (b : List Byte) : BitVec 32768 := BitVec.ofNat 32768 (ofBytes b)

/-- Pass every destination page of a command through its snapshot gate (08 R247). -/
def State.gates (s : State) (c : Nat) (k : CopyCmd) (vas : List (Nat × Leaf)) : Gate :=
  vas.foldl (fun g p => match g with
    | .go s => s.gate (s.ctxOf c) p.1 p.2 (some (c, k.id, true))
    | x => x) (.go s)

/-- The fault that a command takes when no shadow space can be had (08 R247). -/
def CopyCmd.cowInfo (k : CopyCmd) (va : Nat) : TrapInfo :=
  { code := cause 1 copyWriteA cowC, va := BitVec.ofNat 64 va, st := .copy, cmd := k.before.step, engine := 3, unit := k.ch, cyc := k.issued }

/-- A poison trap of a command at its copy stream's next slot (08 R260, 13 R390). -/
def CopyCmd.poisonInfo (k : CopyCmd) : TrapInfo :=
  { code := if k.sk = 2 then cause 5 4 1 else cause 5 0 1, st := .copy, cmd := k.before.step
    engine := if k.sk = 2 then 6 else 3
    unit := if k.sk = 2 then stackOf (k.key ((k.spans.headD ⟨0, 0, 0⟩).src) % 2 ^ 56) else k.ch, cyc := k.issued
    xpc := some k.before.pc }

/-- The destination bytes of a span that some source span of the command covers, as runs within 32-byte sectors (08 R244). -/
def CopyCmd.selfRace (k : CopyCmd) : List (Nat × Nat) :=
  let same := k.srcTile.isNone && k.sk == k.dk
  let hit := fun (a n : Nat) => same && k.spans.any fun y => overlaps a n y.src y.len && y.len != 0
  k.spans.flatMap fun x => if !hit x.dst x.len || x.len == 0 then []
    else ((List.range ((x.dst + x.len - 1) / 32 - x.dst / 32 + 1)).map fun i =>
      let lo := max x.dst (32 * (x.dst / 32 + i))
      (lo, min (x.dst + x.len) (32 * (x.dst / 32 + i) + 32) - lo)).filter fun r => hit r.1 r.2

/-- The 32-byte sectors of a command's destination that keep their earlier values where it overlaps its own source: a free choice for each
(00 R5, 08 R244; notes/assumptions/4.md). -/
def CopyCmd.keptSectors (k : CopyCmd) (n : Nat) : List Nat :=
  (k.selfRace.map fun r => r.1 / 32).filter fun x => Config.pick (n + x) % 2 == 1

/-- A span without the destination sectors of a list: the runs between those. -/
def Span.without (x : Span) (kept : List Nat) : List Span :=
  let cut := (sectorsOf x.dst x.len).filter kept.contains
  ((x.dst :: cut.map fun q => 32 * q + 32).zip ((cut.map fun q => max x.dst (32 * q)) ++ [x.dst + x.len])).filterMap fun r =>
    if r.1 < r.2 then some ⟨x.src + (r.1 - x.dst), r.1, r.2 - r.1⟩ else none

/-- A command has met poison, which its copy stream reports; of a phase's reissued command the phase is recoverable no more
(13 R390, R398). -/
def State.spoil (s : State) (c : Nat) (k : CopyCmd) : State :=
  (if k.reissued then s.modCore c fun x => { x with phase := x.phase.map fun p => { p with unrecoverable := true } } else s).owe c k.poisonInfo

/-- The move of a box, ragged, gather, scatter or bin command. All its bytes are read, and land, together at its completion, so that in a race
between two parties one writer has every sector; R5 leaves each sector's writer open (DESIGN CHOICE, notes/assumptions/29.md). -/
def State.moveCopy (s : State) (c : Nat) (k : CopyCmd) : State :=
  let kept := k.keptSectors s.freeCtr
  let sp := k.spans.flatMap fun x => x.without kept
  let before := if k.dk = 3 then (match k.tiles.find? (·.2) with
      | some t => tileBytes (vGet (BitVec.ofNat 4 t.1) (s.core c).tregs).data 0 4096
      | none => []) else []
  let tile := if k.dk = 3 then sp.foldl (fun (m : Memory) x => memWrite m x.dst (s.readSpan c k x).1) (memWrite [] 0 before) else []
  let r := sp.foldl (fun (acc : State × Bool) x =>
    let m := s.moveSpan acc.1 c k x
    (m.1, acc.2 || m.2)) ((if k.selfRace.isEmpty then s else s.chosen), false)
  let s := r.1.setTags c k (tileOfBytes (memBytes tile 0 (if k.dk = 3 then 4096 else 0)))
  let s := s.finishCopy c k.id
  if r.2 then s.spoil c k else s

/-! ## CBIN -/

/-- A bin entry: base, capacity, stride, counter (08 R254). -/
structure BinEntry where
  base : Nat
  cap : Nat
  stride : Nat
  ctr : Nat
  deriving DecidableEq, Repr

/-- What CBIN finds on its way: the rows it places, the pages it has translated for them. -/
structure BinRun where
  s : State
  bad : Option TrapInfo := none
  wait : Bool := false
  /-- an entry or a counter was poisoned -/
  met : Bool := false
  rows : List Span := []
  pages : List (Nat × Leaf) := []

/-- Nothing more happens once a fault or a wait has been found. -/
def BinRun.over (r : BinRun) : Bool := r.bad.isSome || r.wait

/-- The pages of a run of virtual bytes that CBIN writes: translated, open to writing, and outside what the core's bonds close (08 R246, R247;
09 R273, R274). -/
def BinRun.open_ (r : BinRun) (c : Nat) (k : CopyCmd) (va n : Nat) : BinRun :=
  if bondBroken k.bonds va n then { r with bad := some { k.cowInfo va with code := cause 1 copyWriteA bondC } }
  else (pieces va n).foldl (fun (r : BinRun) p =>
    if r.over then r
    else match r.s.translate (tileOf c) (r.s.ctxOf c) p.1 .write false with
      | .bad cond => { r with bad := some { k.cowInfo p.1 with code := walkCause copyWriteA cond } }
      | .ok l =>
        if touchesHole [p] l p.1 then { r with bad := some { k.cowInfo p.1 with code := cause 1 copyWriteA notMappedC } }
        else match r.s.gate (r.s.ctxOf c) p.1 l (some (c, k.id, true)) with
          | .go s => { r with s := s, pages := if r.pages.any fun q => q.1 / 65536 == p.1 / 65536 then r.pages else r.pages ++ [(p.1, l)] }
          | .wait s => { r with s := s, wait := true }
          | .full s va => { r with s := s, bad := some (k.cowInfo va) }) r

/-- A bump of a bin counter at its home: the value before, `none` where it is poisoned and stays as it is (08 R254, R260). -/
def BinRun.bump (r : BinRun) (c : Nat) (k : CopyCmd) (e : BinEntry) (always : Bool) : BinRun × Option Nat :=
  let r := r.open_ c k e.ctr 8
  match r.s.translate (tileOf c) (r.s.ctxOf c) e.ctr (.atomic false) false with
  | .bad cond => ({ r with bad := r.bad.or (some { k.cowInfo e.ctr with code := walkCause copyWriteA cond }) }, none)
  | .ok l =>
    if r.over then (r, none)
    else
      let old := memRead r.s.mem (l.key e.ctr) 8
      let s := r.s.readEffects (l.key e.ctr) 8
      if r.s.readBad (l.key e.ctr) 8 then ({ r with s := s, met := true }, none)
      else if always ∨ old < e.cap then ({ r with s := s.writeHome (l.key e.ctr) (toBytes 8 (old + 1)) }, some old)
      else ({ r with s := s }, some old)

/-- Place one row of CBIN; a bin whose entry or counter is poisoned takes none (08 R254; DESIGN CHOICE, notes/assumptions/20.md). -/
def BinRun.row (r : BinRun) (c : Nat) (k : CopyCmd) (b : BinRec) (tab : Nat → Option BinEntry) (row : Nat) (i : Int) : BinRun :=
  let n := if i < 0 ∨ (b.nb : Int) ≤ i then b.nb else i.toNat
  let put := fun (r : BinRun) (e : BinEntry) (old : Nat) =>
    let r := r.open_ c k (e.base + old * e.stride) b.rb
    if r.over then r else { r with rows := r.rows ++ [⟨b.ladr + row * b.rb, e.base + old * e.stride, b.rb⟩] }
  match tab n with
  | none => { r with met := true }
  | some e =>
    let x := r.bump c k e (n == b.nb)
    match x.2 with
    | none => x.1
    | some old =>
      if old < e.cap then put x.1 e old
      else if n < b.nb then match tab b.nb with
        | none => { x.1 with met := true }
        | some e =>
          let y := x.1.bump c k e true
          match y.2 with
          | none => y.1
          | some old => if old < e.cap then put y.1 e old else y.1
      else x.1

/-- CBIN at its Ready cycle: it reads its table, bumps the counters at their homes, and translates the pages of the rows it places, which move at
its completion. A fault drops what it did, and a wait for a snapshot copy keeps only that wait (08 R246, R247, R254; 09 R273). -/
def State.takeBin (s : State) (c : Nat) (k : CopyCmd) : State :=
  let b := binOf k.record
  let t := s.binTable k
  let entry := fun (n : Nat) => binEntryAt t.1 n
  let tab := fun (n : Nat) => if t.2.contains n then none else
    some (⟨recField (entry n) 0 8, recField (entry n) 8 4, recField (entry n) 12 4, recField (entry n) 16 8⟩ : BinEntry)
  let junk := (List.range (b.nb + 1)).any fun n => !t.2.contains n && recField (entry n) 24 8 != 0
  let r0 : BinRun := { s := s.readPages k b.tab (32 * (b.nb + 1)), met := !t.2.isEmpty }
  let r := if junk then { r0 with bad := some { k.cowInfo 0 with code := cause0 .copy reservedC } }
    else (k.idx.zipIdx).foldl (fun (r : BinRun) x => if r.over then r else r.row c k b tab x.2 x.1) r0
  match r.bad with
  | some t => s.modCopy c k.id fun k => { k with fault := some t }
  | none =>
    if r.wait then { s with agenda := r.s.agenda, contexts := r.s.contexts }
    else (r.pages.foldl (fun (s : State) p => s.cacheLeaf (tileOf c) (s.ctxOf c) p.1 p.2) r.s).modCopy c k.id fun k => { k with
      taken := some t, spans := r.rows, pages := k.pages ++ r.pages, writes := r.pages.map (·.1), status := if r.met then 1 else 0 }

/-- A command passes its snapshot gate, and CBIN reads its table at its Ready cycle, once every earlier command of the stream has passed
translation (08 R246, R247, R254). -/
def State.passGate (s : State) (c : Nat) (k : CopyCmd) : State :=
  let x := s.core c
  if !k.virt || !k.xlated || k.finished || k.fault.isSome || k.passed
      || x.copies.any (fun j => decide (j.id < k.id) && !j.passed && !j.finished) then s
  else if !k.gated then match s.gates c k (k.pages.filter fun p => k.writes.contains p.1) with
    | .go s => s.modCopy c k.id fun k => { k with gated := true }
    | .wait s => s
    | .full s va => s.modCopy c k.id fun k => { k with fault := some (k.cowInfo va) }
  else if decide (x.readyOf k ≤ x.time) && !(x.copies.any fun j => decide (j.id < k.id) && k.after j && !j.finished)
      && !s.behindPort c k.tick k.homes then s.takeBin c k
  else s

/-- Pass and schedule the commands of a core in issue order, and mark those that have begun; a CCONST takes its words at its Ready cycle; a
finished command is kept while a bound may still count from it or a phase has logged it. Nothing begins while the launch stops for a
pre-emption. -/
def State.armCopies (s : State) (c : Nat) : State :=
  let each := fun (f : State → Nat → CopyCmd → State) (s : State) => (s.core c).copies.foldl (fun (s : State) k =>
    match (s.core c).copy? k.id with | some k => f s c k | none => s) s
  if s.stopping c then s
  else
  let s := each State.schedule (each State.passGate s)
  s.modCore c fun x =>
    let t := x.time
    let kept := x.copies.filter fun (k : CopyCmd) =>
      !(k.finished && !k.logged && (match k.bound with | some b => decide (b < t) | none => decide ((k.doneAt.getD 0) < t)))
    let mark := fun (k : CopyCmd) =>
      if k.started || k.doneAt.isNone then k else { k with started := decide ((k.ready.getD 0) ≤ t) }
    let take := fun (k : CopyCmd) => if x.takes k t then
      { k with taken := some (s.takeNow c k), ready := some t, bound := some (t + k.constCycles), doneAt := some (t + k.constCycles) } else k
    { x with copies := (kept.map take).map mark }

/-- Write virtual bytes of the core's context through leaves found now; nothing where they may not be written. -/
def State.vwrite (s : State) (c : Nat) (k : CopyCmd) (va : Nat) (b : List Byte) : State :=
  let r := BinRun.open_ { s := s } c k va b.length
  if r.over then s
  else (pieces va b.length).foldl (fun (s : State) p => match r.pages.find? fun q => q.1 / 65536 == p.1 / 65536 with
    | some q => s.writeHome (q.2.key p.1) ((b.drop (p.1 - va)).take p.2)
    | none => s) r.s

/-! ## Completion -/

/-- Whether a command's cycle of completion has come (08 R243, R248). -/
def Core.copyDue (c : Core) (k : CopyCmd) : Bool :=
  !k.finished && k.fault.isNone && (if k.zero then decide (k.issued ≤ c.time) && !c.beforeXlat k
    else match k.kind with
      | .send | .recv | .coll | .nmc => false
      | _ => (match k.doneAt with | some d => decide (d ≤ c.time) | none => false))

/-- Whether it may complete: its data may move, and no earlier command of its path holds it (08 R248-R250). -/
def State.completes (s : State) (c : Nat) (k : CopyCmd) : Bool :=
  (s.core c).copyDue k && (k.zero || (s.mayMove c k && !(s.core c).pathHolds c k))

/-- A zero-extent command leaves its handle's list of accepted CSENDs with its completion (10 R298). -/
def State.zeroSend (s : State) (c : Nat) (k : CopyCmd) : State :=
  if k.kind = .send then s.modHandle k.handle fun x => { x with
    sends := x.sends.filter (· != (c, k.id)), lastDone := max x.lastDone (s.handleCount k.handle) } else s

/-- COPY_COMPLETION (08 R237, R240, R244, R245, R253-R255). -/
def execCopyCompletion (s : State) : Host.Outcome State Fault Refusal :=
  let c := s.on.a
  match (s.core c).copy? s.on.b with
  | none => .fault .eventNotDue
  | some k =>
    if !s.completes c k then .fault .eventNotDue
    else if k.zero then
      let s := if k.kind = .nmc then s.modCore c fun x =>
          x.putBytes (k.recAddr + 48) (toBytes 4 0 ++ toBytes 4 0xFFFFFFFF ++ toBytes 8 0) else s
      .next ((s.zeroSend c k).finishCopy c k.id)
    else match k.kind with
      | .const =>
        let x := k.spans.headD ⟨0, 0, 0⟩
        let r := s.takenBy c k
        let b := r.1
        let bad := !r.2.isEmpty
        let s := s.modCore c fun q => q.commit (.cbank x.dst ((List.range x.len).map fun i => BitVec.ofNat 32 (ofBytes ((b.drop (4 * i)).take 4))))
        let s := s.finishCopy c k.id
        .next (if bad then s.owe c { k.poisonInfo with code := cause 5 0 1 } else s)
      | _ =>
        let t := s.moveCopy c k
        .next (if k.status = 0 then t else t.owe c
          { k.poisonInfo with code := cause 5 4 1, engine := 6, unit := stackOf (k.key (binOf k.record).tab % 2 ^ 56) })

end Sys2Proof.Machine
end

