-- ==== Sys2Proof/Machine/VecRed.lean ====
section
/-! DEFINITION. Vector reductions, whole-vector and per segment (04 R126, R127; 07 R208, R210-R216). -/

namespace Sys2Proof.Machine

/-- The sum type and destination of a reduction (04 R126, 07 R208): VRMAX and VRMIN widen in the same way. -/
def sumType : ElemType → ElemType
  | .bf16 | .fp16 => .fp32
  | .int8 | .uint8 | .int16 => .int32
  | t => t

/-- The exact widening of an element to the destination type. -/
def widen (t d : ElemType) (b : Nat) : Nat := convert t d .rne false b

/-- A combination of two values, given the index of its rounding. -/
abbrev Comb := Nat → Nat → Nat → Nat

/-- The Comb of a sum in type `d` (04 R126). -/
def State.combSum (s : State) (o : VRed) (d : ElemType) : Comb := fun i a b =>
  if d.isInt then d.narrow (o.sat == 1) (d.asInt a + d.asInt b)
  else
    let m := s.rmode o.rm i
    d.ffmt.round m (o.sat == 1) ((d.value a).add m.down (d.value b))

/-- The Comb of a maximum, or of a minimum (04 R122, R126). -/
def combExt (isMax : Bool) (d : ElemType) : Comb := fun _ a b =>
  if d.isInt then d.narrow false (if isMax then max (d.asInt a) (d.asInt b) else min (d.asInt a) (d.asInt b))
  else d.ffmt.round .rne false (if isMax then (d.value a).max (d.value b) else (d.value a).min (d.value b))

/-- The index of the rounding at level `l`, node `j`, for result lane `lane` (04 R114). -/
def treeIndex (lane l j : Nat) : Nat := 2 ^ 20 + 2 ^ 16 * lane + 2 ^ 10 * l + j

/-- Join of a carried value and a part, with the index of its rounding (07 R210). -/
def join (f : Comb) (i : Nat) : Option Nat → Option Nat → Option Nat
  | none, p => p
  | c, none => c
  | some c, some p => some (f i c p)

/-- One level of the tree (04 R126). -/
def treeLevel (f : Comb) (lane l : Nat) : Nat → List (Option Nat) → List (Option Nat)
  | j, a :: b :: t => join f (treeIndex lane l j) a b :: treeLevel f lane l (j + 1) t
  | _, rest => rest

/-- The tree over lane index, of at most `n` levels (04 R126). -/
def tree (f : Comb) (lane : Nat) : Nat → Nat → List (Option Nat) → Option Nat
  | 0, _, x => (x.headD none)
  | n + 1, l, x => tree f lane n (l + 1) (treeLevel f lane l 0 x)

/-- The levels of the tree over `n` lanes. -/
def levelsOf (n : Nat) : Nat := Nat.log2 n

/-- One segment of a word: its number, its result lane, its lanes in ascending order, and the carried value joined before. -/
structure Seg where
  j : Nat
  lane : Nat
  lanes : List Nat
  carry : Option Nat
  deriving DecidableEq, Repr

/-- The identity of an empty segment (07 R211). -/
def identity (op : Nat) (d : ElemType) : Nat := match op with
  | 0 => 0
  | 1 => if d.isInt then d.narrow false d.intRange.1 else d.ffmt.inf true
  | _ => if d.isInt then d.narrow false d.intRange.2 else d.ffmt.inf false

/-- The empty-mask destination in range, and not reserved: 16 to 31 raise reserved bits, before rows 4 to 7 (07 R208, 02 R442). -/
def State.eqField (s : State) (eq : BitVec 6) : Verdict := s.bad0 (decide (16 ≤ eq.toNat ∧ eq.toNat < 32)) reservedC

/-- The effects that write the empty-mask bits of lanes (07 R211). Of the lanes of a 16-bit type those from 128 on have no bit in a mask register
(DESIGN CHOICE, notes/assumptions/61.md). -/
def maskEffs (eq : BitVec 6) (wide : Bool) (lanes : List Nat) : List Eff :=
  let n := eq.toNat
  if n = 0 then []
  else if n < 16 then
    [.k (eq.setWidth 4) (BitVec.ofNat 128 (lanes.foldl (fun m l => m ||| (if wide then 3 <<< (2 * l) else 1 <<< l)) 0))]
  else [.q (eq.setWidth 5) (BitVec.ofNat 64 ((lanes.filter (· < 64)).foldl (fun m l => m ||| 1 <<< l) 0))]

/-- The generation a reduction binds. -/
def State.redShape (s : State) (o : VRed) : Shape := (s.me.shape? o.zs.toNat).getD (({} : ShapeBuf).shape)

/-- The carry of the vector stream matches a word for segment `j` at origin `org` (07 R212). Its generation is the record's GEN, which a later load of the
slot may hold again (DESIGN CHOICE, notes/assumptions/60.md). -/
def State.carryMatches (s : State) (op : Nat) (o : VRed) (d : ElemType) (j org : Nat) : Bool :=
  let c := s.me.carry
  c.valid && c.op == 16 * op + d.width / 8 + (if d.isInt then 256 else 0) && c.slot == o.zs.toNat
    && c.gen == (s.redShape o).gen && c.seg == j && c.value2 == BitVec.ofNat 64 org

/-- The lanes of the word that are present (07 R209, R216): `clip` restricts them to the window's first segment, which the
reductions do not ask for. -/
def State.redLanes (s : State) (o : VRed) (n : Nat) : List Nat :=
  let vc := s.mine.vc.toNat
  if o.sg = 1 then
    let org := s.origin o.zs.toNat
    (s.governed o.msk n).filter fun e => (s.redShape o).rowIn vc (org + e)
  else (s.governed o.msk n).filter fun e => decide (e < vc)

/-- The segments of a word, with the value carried into each (07 R207, R210, R216); `op` is the opcode, `carries` whether the
word uses the carry. -/
def State.redSegs (s : State) (op : Nat) (o : VRed) (d : ElemType) (n : Nat) (carries : Bool) : List Seg :=
  let ls := s.redLanes o n
  if o.sg = 1 then
    let g := s.redShape o
    let org := s.origin o.zs.toNat
    let js := g.segments org n
    let lo := js.headD 0
    js.map fun j =>
      { j := j, lane := j - lo
        lanes := ls.filter fun e => decide (g.bounds.getD j 0 ≤ org + e ∧ org + e < g.bounds.getD (j + 1) 0)
        carry := if carries ∧ j = lo ∧ g.bounds.getD j 0 < org ∧ s.carryMatches op o d j org ∧ s.me.carry.some then
          some s.me.carry.value.toNat else none }
  else [⟨0, 0, ls, none⟩]

/-- The carry after a word with SG = 1 (07 R212): `last` is the joined part of the last segment. -/
def State.nextCarry (s : State) (op : Nat) (o : VRed) (d : ElemType) (n : Nat) (last : Option Nat) : Carry :=
  let g := s.redShape o
  let org := s.origin o.zs.toNat
  match (g.segments org n).getLast? with
  | some j =>
    if org + n < g.bounds.getD (j + 1) 0 then
      { valid := true, op := 16 * op + d.width / 8 + (if d.isInt then 256 else 0), slot := o.zs.toNat, seg := j
        value := BitVec.ofNat 64 (last.getD 0), value2 := BitVec.ofNat 64 (org + n), some := last.isSome, gen := g.gen }
    else {}
  | none => {}

/-- More segments than result lanes, in MODE FAULT (07 R210). -/
def State.tooMany (s : State) (op : Nat) (o : VRed) (d : ElemType) (n : Nat) : Bool :=
  o.sg == 1 && (s.redShape o).fault && decide (d.count < (s.redSegs op o d n false).length)

/-- A segment that extends past an edge of the window, in MODE FAULT (07 R215). -/
def State.cutSegment (s : State) (o : VRed) (n : Nat) : Bool :=
  let g := s.redShape o
  let org := s.origin o.zs.toNat
  o.sg == 1 && g.fault && (g.segments org n).any fun j =>
    decide (g.bounds.getD j 0 < org ∨ org + n < g.bounds.getD (j + 1) 0)

/-- The checks of a VRED word (07 R208, 06 R178). -/
def State.redChecks (s : State) (o : VRed) (cls : ElemType → Bool) (satOk straddle : Bool) : Verdict :=
  verdicts [s.eqField o.eq, if o.sg = 1 then s.loaded o.zs.toNat else .ok, s.occupied,
    if 32 ≤ o.eq.toNat then s.freeQ (o.eq.setWidth 5) else .ok,
    s.vchecks o.t cls (o.ka != 0 || decide (64 ≤ o.a.toNat)) o.rm (o.sat == 1) satOk false,
    bar straddle (cause2 .vector straddleC)]

/-- A VRED word's results and its binding (07 R202, R208). -/
def State.redDone (s : State) (o : VRed) (lat occ : Nat) (effs : List Eff) : State :=
  (if o.sg = 1 then s.bindWord o.zs.toNat else s).vdone lat occ false effs

/-- Set the segment carry (07 R212). -/
def State.setCarry (s : State) (o : VRed) (c : Carry) : State :=
  if o.sg = 1 then s.modMe fun k => { k with carry := c } else s

/-- The latency and occupancy of VRSUM, VRMAX, VRMIN and VSCAN (07 R208). -/
def redTime (t : ElemType) : Nat × Nat := if t.width = 64 then (16, 4) else (12, 2)

/-- The element of the source, flushed as R104 asks. -/
def State.redSrc (s : State) (o : VRed) (t : ElemType) (e : Nat) : Nat := s.src (s.flushes o.t t) 0 o.a t e

/-- VRSUM, VRMAX and VRMIN: `op` is 0, 1 or 2 (07 R210, R211, R216). -/
def State.reduce (s : State) (op : Nat) (o : VRed) (comb : ElemType → Comb) : Host.Outcome State Fault Refusal :=
  let t := s.vt o.t
  let d := sumType t
  let n := t.count
  s.perform (s.redChecks o isFI (op == 0) (s.tooMany op o d n)) fun s =>
    let f := comb d
    let segs := s.redSegs op o d n true
    let part := fun (g : Seg) =>
      let x := (List.range n).map fun e => if g.lanes.contains e then some (widen t d (s.redSrc o t e)) else none
      join f (treeIndex g.lane 15 0) g.carry (tree f g.lane (levelsOf n) 0 x)
    let res := segs.map fun g => (g.lane, part g)
    let shown := res.filter fun r => decide (r.1 < d.count)
    let keep := o.sg == 1 && (s.redShape o).policy == 1
    let l := shown.filterMap fun r => match r.2 with
      | some v => some (r.1, v)
      | none => if keep then none else some (r.1, identity op d)
    let empty := (shown.filter fun r => r.2.isNone).map (·.1)
    let c := s.nextCarry op o d n ((res.getLast?.map (·.2)).join)
    (s.setCarry o c).redDone o (redTime t).1 (redTime t).2 ([velems o.vd d.width l] ++ maskEffs o.eq (d.width == 64) empty)

/-- VRSUM (07 R208, R210). -/
def execVrsum (o : VRed) (s : State) := s.reduce 0 o (s.combSum o)
/-- VRMAX (07 R208, R210). -/
def execVrmax (o : VRed) (s : State) := s.reduce 1 o (combExt true)
/-- VRMIN (07 R208, R210). -/
def execVrmin (o : VRed) (s : State) := s.reduce 2 o (combExt false)

/-- The inclusive prefixes of a segment: the lanes with their values, and the last; `x` gives the lanes' elements (07 R213). -/
def scanSeg (f : Comb) (x : Nat → Nat) : Option Nat → List Nat → List (Nat × Nat) × Option Nat
  | acc, [] => ([], acc)
  | acc, e :: t =>
    let v := (join f e acc (some (x e))).getD 0
    let r := scanSeg f x (some v) t
    ((e, v) :: r.1, r.2)

/-- The types of VSCAN (07 R208). -/
def isScan : ElemType → Bool
  | .fp32 | .fp64 | .int32 | .int64 => true
  | _ => false

/-- VSCAN (07 R213). -/
def execVscan (o : VRed) (s : State) : Host.Outcome State Fault Refusal :=
  let t := s.vt o.t
  let n := t.count
  s.perform (s.redChecks o isScan true (s.tooMany 3 o t n)) fun s =>
    let segs := s.redSegs 3 o t n true
    let res := segs.map fun g => (g, scanSeg (s.combSum o t) (fun e => widen t t (s.redSrc o t e)) g.carry g.lanes)
    let shown := res.filter fun r => decide (r.1.lane < t.count)
    let empty := (shown.filter fun r => r.1.lanes.isEmpty).map (·.1.lane)
    let c := s.nextCarry 3 o t n ((res.getLast?.map (·.2.2)).join)
    (s.setCarry o c).redDone o (redTime t).1 (redTime t).2
      ([velems o.vd t.width (shown.flatMap (·.2.1))] ++ maskEffs o.eq (t.width == 64) empty)

/-- A word that normalises each segment in the window: `f` gives a segment's element results from its lanes (07 R214, R215). -/
def State.normalise (s : State) (o : VRed) (op lat : Nat) (satOk : Bool) (f : Seg → List (Nat × Nat)) :
    Host.Outcome State Fault Refusal :=
  let t := s.vt o.t
  let n := t.count
  s.perform (s.redChecks o isF3 satOk (s.cutSegment o n || s.tooMany op o t n)) fun s =>
    let segs := (s.redSegs op o t n false).filter fun g => decide (g.lane < t.count)
    let empty := (segs.filter (·.lanes.isEmpty)).map (·.lane)
    s.redDone o lat 4 ([velems o.vd t.width (segs.flatMap f)] ++ maskEffs o.eq false empty)

/-- The maximum over lanes (07 R214). -/
def segMax (t : ElemType) (x : Nat → Nat) (ls : List Nat) : Num := match ls.map fun e => t.value (x e) with
  | [] => .nan
  | y :: r => r.foldl Num.max y

/-- VRSMAX (07 R214). -/
def execVrsmax (o : VRed) (s : State) : Host.Outcome State Fault Refusal :=
  let t := s.vt o.t
  s.normalise o 5 20 false fun g =>
    let x := s.redSrc o t
    let m := segMax t x g.lanes
    g.lanes.map fun e => (e, match m with
      | .inf true => 0
      | .nan => t.ffmt.nan
      | m => t.ffmt.approx false (Num.exp2 ((t.value (x e)).add false m.neg)))

/-- VRNORM (07 R215). -/
def execVrnorm (o : VRed) (s : State) : Host.Outcome State Fault Refusal :=
  let t := s.vt o.t
  s.normalise o 4 28 true fun g =>
    let x := s.redSrc o t
    let y := (List.range t.count).map fun e => if g.lanes.contains e then some (widen t .fp32 (x e)) else none
    let sum := (tree (s.combSum o .fp32) g.lane (levelsOf t.count) 0 y).getD 0
    let zero := g.lanes.all fun e => (t.value (x e)).isZero
    g.lanes.map fun e => (e, if zero then 0 else
      t.ffmt.round (s.rmode o.rm e) (o.sat == 1) ((t.value (x e)).div (fp32F.decode sum)))

end Sys2Proof.Machine
end

