-- ==== Sys2Proof/Machine/NearMem.lean ====
section
/-! DEFINITION. Near-memory commands at the base die: chunks, errors and completion (08 R256-R261, 13 R391). -/

namespace Sys2Proof.Machine

/-- A near-memory command that the base die is serving: translated, its completion time come, chunks left (08 R248, R259). -/
def Core.nearReady (c : Core) (k : CopyCmd) : Bool :=
  k.kind == .nmc && !k.zero && k.xlated && !k.finished && k.fault.isNone &&
    (match k.doneAt with | some d => decide (d ≤ c.time) | none => false)

/-- The stack a command works in (08 R257). -/
def CopyCmd.nearStack (k : CopyCmd) : Nat := match k.pages with
  | p :: _ => stackOf (p.2.pa p.1)
  | [] => 0

/-- The commands that a stack is serving, in the order of their cores and of their issue. -/
def State.nearCmds (s : State) (stack : Nat) : List (Nat × CopyCmd) :=
  s.cores.flatMap fun p => (p.2.copies.filter fun k => p.2.nearReady k && k.nearStack == stack && s.mayMove p.1 k &&
    !p.2.pathHolds p.1 k).map fun k => (p.1, k)

/-- Whether a command has no more chunk to run. -/
def CopyCmd.nearOver (k : CopyCmd) : Bool := k.status != 0 || decide ((nearOf k.record).chunks ≤ k.count)

/-- The command whose next chunk a stack runs, if it is of kind `opc`. -/
def State.nearNext (s : State) (stack opc : Nat) : Option (Nat × CopyCmd) :=
  (s.nearCmds stack).find? fun x => (nearOf x.2.record).opc == opc && !x.2.nearOver

/-- One element of NMUPD (08 R258): `w` the parameter, `g` the gradient. -/
def nearUpd (a b w g : Nat) : Nat :=
  let f := fp32F
  let r := fun (n : Num) => f.round .rne false n
  let d := f.decode
  let t1 := r ((d b).mul (d w))
  let t2 := r ((d g).add false (d t1))
  let t3 := r ((d a).mul (d t2))
  r ((d w).add false (d t3).neg)

/-- One element of NMAXPBY in type code `t` (08 R258). -/
def nearAxpby (t a b x y : Nat) : Nat :=
  if t = 4 then ((a * x) % 2 ^ 32 + (b * y) % 2 ^ 32) % 2 ^ 32
  else
    let f := if t = 2 then bf16F else fp32F
    let p := f.round .rne false ((fp32F.decode a).mul (f.decode x))
    let q := f.round .rne false ((fp32F.decode b).mul (f.decode y))
    f.round .rne false ((f.decode p).add false (f.decode q))

/-- One element of NMRED in type code `t`: Comb(y, x) (04 R128). -/
def nearRed (t x y : Nat) : Nat :=
  if t = 4 then (x + y) % 2 ^ 32
  else fp32F.round .rne false ((fp32F.decode y).add false (fp32F.decode (if t = 2 then x * 65536 else x)))

/-- The new value of a destination element from those of X and Y (08 R258). -/
def NearRec.element (n : NearRec) (x y : Nat) : Nat :=
  let wide := if n.type = 2 then x * 65536 else x
  if n.opc = 1 then nearUpd n.a n.b y wide
  else if n.opc = 2 then nearAxpby n.type n.a n.b x y
  else if n.opc = 3 then nearRed n.type x y
  else if n.opc = 4 then n.f % 2 ^ (8 * n.yw)
  else x

/-- Whether a command reads its destination. -/
def NearRec.readsY (n : NearRec) : Bool := decide (n.opc < 4)

/-- The element indices of chunk `k`. -/
def NearRec.chunkElems (n : NearRec) (k : Nat) : List Nat :=
  (List.range (256 / n.yw)).filterMap fun i => let e := k * (256 / n.yw) + i; if e < n.count then some e else none

/-- The granules, numbered within the chunk's destination, that a bad read spoils, and whether it is a residue mismatch: from what
the memory holds, or from the error that the event brings (08 R260, 13 R391). -/
def State.nearBad (s : State) (k : CopyCmd) (n : NearRec) : List Nat :=
  let es := n.chunkElems k.count
  let per := 64 / n.yw
  let gran := fun (e : Nat) => (e - k.count * (256 / n.yw)) / per
  let bad := fun (e : Nat) =>
    (n.opc != 4 && s.readBad (k.key (n.x + e * n.xw)) n.xw) || (n.readsY && s.readBad (k.key (n.y + e * n.yw)) n.yw)
  let brought := fun (e : Nat) => match s.on.err with
    | .uncorrectable g true => decide ((e - k.count * (256 / n.yw)) * n.xw / 64 = g)
    | .uncorrectable g false => n.readsY && decide (gran e = g)
    | .residue g => decide (gran e = g)
    | _ => false
  ((es.filter fun e => bad e || brought e).map gran).foldl addOnce []

/-- What the chunk's reads leave at the stack: errors become poison or are corrected (13 R391). -/
def State.nearReads (s : State) (k : CopyCmd) (n : NearRec) : State :=
  let es := n.chunkElems k.count
  let s := es.foldl (fun (s : State) e =>
    let s := if n.opc = 4 then s else s.readEffects (k.key (n.x + e * n.xw)) n.xw
    if n.readsY then s.readEffects (k.key (n.y + e * n.yw)) n.yw else s) s
  match s.on.err with
  | .corrected => s.noteCorrected (k.key (n.y + 256 * k.count) / 64)
  | .uncorrectable g true => { s with poison := addOnce s.poison (k.key (n.x + k.count * (256 / n.yw) * n.xw + 64 * g) / 64) }
  | .uncorrectable g false => if n.readsY then { s with poison := addOnce s.poison (k.key (n.y + 256 * k.count + 64 * g) / 64) } else s
  | _ => s

/-- Where the ranges of X and Y overlap without being the same, a free choice keeps a sector's old bytes or takes the new ones
(08 R258, 00 R5). -/
def State.nearKeeps (s : State) (n : NearRec) (va : Nat) : Bool :=
  n.opc != 1 && n.opc != 4 && n.x != n.y && overlaps n.x n.xlen (va / 32 * 32) 32 && Config.pick (s.freeCtr + va / 32) % 2 == 1

/-- Write the new elements of one granule of a chunk, as (element, value): a bad read poisons it instead, and elements that a race keeps stay
(08 R258, R260; 13 R391). -/
def State.nearGranule (s : State) (k : CopyCmd) (n : NearRec) (bad : Bool) (kept : Nat → Bool) (vals : List (Nat × Nat)) : State :=
  let va := fun (e : Nat) => n.y + e * n.yw
  match vals with
  | [] => s
  | v :: _ =>
    if bad then { s with poison := addOnce s.poison (k.key (va v.1) / 64) }
    else if vals.any fun x => kept (va x.1) then
      (vals.filter fun x => !kept (va x.1)).foldl (fun (s : State) x => s.writeHome (k.key (va x.1)) (toBytes n.yw x.2)) s
    else s.writeHome (k.key (va v.1)) (vals.flatMap fun x => toBytes n.yw x.2)

/-- Run the next chunk: read the operands, compute, and write the chunk as one unit; a bad read ends the command with its
destination granules poisoned (08 R258, R260). -/
def State.runChunk (s : State) (c : Nat) (k : CopyCmd) : State :=
  let n := nearOf k.record
  let bad := s.nearBad k n
  let first := k.count * (256 / n.yw)
  let vals := (n.chunkElems k.count).map fun e =>
    (e, n.element (memRead s.mem (k.key (n.x + e * n.xw)) n.xw) (memRead s.mem (k.key (n.y + e * n.yw)) n.yw))
  let t := (List.range 4).foldl (fun (t : State) g =>
    t.nearGranule k n (bad.contains g) (s.nearKeeps n) (vals.filter fun x => (x.1 - first) / (64 / n.yw) == g)) (s.nearReads k n)
  let st := if bad.isEmpty then 0 else match s.on.err with
    | .residue _ => 2
    | _ => 1
  (t.modCopy c k.id fun k => if st = 0 then { k with count := k.count + 1 } else { k with status := st }).chosen

/-- One chunk of the command of kind `opc` that the stack serves (08 R258). -/
def State.nearEvent (s : State) (opc : Nat) : Host.Outcome State Fault Refusal :=
  match s.nearNext s.on.a opc with
  | none => .fault .eventNotDue
  | some (c, k) => .next (s.runChunk c k)

/-- NMUPD: one chunk of a weight update (08 R258). -/
def execNmupd (s : State) : Host.Outcome State Fault Refusal := s.nearEvent 1
/-- NMAXPBY: one chunk of y := a x + b y (08 R258). -/
def execNmaxpby (s : State) : Host.Outcome State Fault Refusal := s.nearEvent 2
/-- NMRED: one chunk of y := Comb(y, x) (08 R258). -/
def execNmred (s : State) : Host.Outcome State Fault Refusal := s.nearEvent 3
/-- NMFILL: one chunk of y := F (08 R258). -/
def execNmfill (s : State) : Host.Outcome State Fault Refusal := s.nearEvent 4
/-- NMCPY: one chunk of y := x (08 R258). -/
def execNmcpy (s : State) : Host.Outcome State Fault Refusal := s.nearEvent 5

/-- NEAR_MEMORY_COMPLETION: STATUS and CHUNK are written into the record and the command completes; an error also traps the issuing
core at its copy stream's next slot (08 R259, R260). -/
def execNearMemoryCompletion (s : State) : Host.Outcome State Fault Refusal :=
  match (s.nearCmds s.on.a).find? fun x => x.2.nearOver with
  | none => .fault .eventNotDue
  | some (c, k) =>
    let ok := k.status == 0
    let s := s.modCore c fun x => x.putBytes (k.recAddr + 48)
      (toBytes 4 (if ok then 0 else 1) ++ toBytes 4 (if ok then 0xFFFFFFFF else k.count) ++ toBytes 8 0)
    let s := s.finishCopy c k.id
    .next (if ok then s else s.owe c
      { code := cause 5 4 (if k.status = 2 then 4 else 1), st := .copy, cmd := k.before.step, engine := 6, unit := k.nearStack
        cyc := k.issued, stat := BitVec.ofNat 32 k.count, xpc := some k.before.pc })

end Sys2Proof.Machine
end

