-- ==== Sys2Proof/Machine/Deliver.lean ====
section
/-! DEFINITION. CSENDs and bindings after issue: schedule, delivery, acknowledgment (08 R237; 10 R316-R319, R323, R332; 13 R390). -/

namespace Sys2Proof.Machine

/-! ## Schedule -/

/-- The flits of a number of bytes (10 R320). -/
def flitsOf (n : Nat) : Nat := (n + 31) / 32

/-- The bytes of a CSEND. -/
def CopyCmd.sendBytes (k : CopyCmd) : Nat := (k.spans.map (·.len)).sum

/-- Whether a landing is in a retraining pause or not trained, so that no flit of it moves (13 R414, 10 R328). -/
def State.still (s : State) (l : Nat) : Bool := (s.landing l).pause.isSome || !(s.landing l).trained

/-- Give the next unscheduled CSEND of a handle its place: S(k), Free(h), and free cycles of the sequencer's count for its arrival and
its acknowledgment within the bounds of R318; a fibre crossing has none (notes/assumptions/4.md). A landing whose replay buffer is full holds
CSENDs back (R323), and none begins while its core stops for a pre-emption (11 R349). -/
def State.armSend (s : State) (h : Nat) : State :=
  let x := s.handle h
  match x.sends.find? fun q => match (s.core q.1).copy? q.2 with | some k => k.arriveAt == 0 && !k.zero | none => false with
  | none => s
  | some (c, id) =>
    let q := s.core c
    match q.copy? id with
    | none => s
    | some k =>
      let before := q.copies.filter fun j => decide (j.id < k.id)
      if q.beforeXlat k || s.stopping c || (s.landing x.src).full.isSome || before.any (fun j => !j.finished && k.after j && j.planned.isNone) then s
      else
        let count := s.handleCount h
        let ready := q.readyOf k
        let st := q.sendStart k count x.free
        let g := sendCycles k.granules
        let fibre := x.dsts.any isFibre
        let done := if fibre then st + g else st + 384 + g - 1
        let hr := (x.dsts.map fun d => hops (landingTile d) (tileOf c)).foldl max 0
        let ack := if fibre then done + 1048576 else done + 64 + 32 * hr
        let lo := before.foldl (fun n j => if !j.finished && k.after j then max n ((j.planned.getD 0) - q.time) else n) (ready - q.time)
        let at_ := s.choice (count + lo + 1) (max (count + lo + 1) done)
        let s := s.chosen
        let ackAt := s.choice (at_ + 1) (max (at_ + 1) ack)
        let s := s.chosen.modHandle h fun x => { x with free := st + g }
        let n := (s.landing x.src).nextFlit + flitsOf k.sendBytes
        let s := s.modLanding x.src fun l => { l with nextFlit := n }
        s.modCopy c id fun k => { k with
          ready := some ready, bound := if fibre then none else some (q.time + (ack - count)), sendAt := st, arriveAt := at_, ackAt := ackAt, flits := n }

/-- Schedule every CSEND that can be, handle by handle in the order of R317. -/
def State.armSends (s : State) : State :=
  (List.range 64).foldl (fun (s : State) h =>
    (s.handle h).sends.foldl (fun (s : State) _ => s.armSend h) s) s

/-! ## The replay buffer (10 R322, R323; 13 R414) -/

/-- The count of the flits of a CSEND that have entered the buffer of its landing at `t` of the sequencer's count: 6.25 in a cycle from S on. -/
def CopyCmd.flitsBy (k : CopyCmd) (t : Nat) : Nat := k.flits - flitsOf k.sendBytes + min (flitsOf k.sendBytes) (25 * (t - k.sendAt) / 4)

/-- The count of the flits of a handle's CSENDs that have entered, or, `acks`, have been acknowledged as well: those of each in the time in which
its last one is. -/
def State.flitsCount (s : State) (h : Nat) (acks : Bool) : Nat :=
  let count := s.handleCount h
  (s.handle h).sends.foldl (fun n q => match (s.core q.1).copy? q.2 with
    | some k => if k.arriveAt = 0 ∨ k.zero then n
      else max n (k.flitsBy (if acks then count - (k.ackAt - (k.sendAt + sendCycles k.granules)) else count))
    | none => n) 0

/-- The replay buffer of a handle's landing after this tick, of 16,384 flits. While flits move it empties as they are acknowledged; in a pause, or
while a replay is awaited, it only fills, and is full until it has room again. A CSEND whose first flit has entered has begun. -/
def State.noteBuffer (s : State) (h : Nat) : State :=
  let x := s.handle h
  let moves := !s.still x.src && x.dsts.all fun d => !s.still d && !(s.landing d).discarding
  let s := s.modLanding x.src fun l =>
    let acked := if moves then max l.acked (min (min l.nextFlit (l.acked + 7)) (s.flitsCount h true)) else l.acked
    let stored := max (max l.stored acked) (min (min l.nextFlit (acked + 16384)) (s.flitsCount h false))
    { l with acked := acked, stored := stored, full := if 16384 ≤ stored - acked then l.full.or (some s.wall) else none }
  x.sends.foldl (fun (s : State) q => s.modCopy q.1 q.2 fun k =>
    if k.arriveAt ≠ 0 ∧ k.sendAt ≤ s.handleCount h ∧ !s.stopping q.1 then { k with started := true } else k) s

/-- Every handle's. -/
def State.noteBuffers (s : State) : State := ((List.range 64).filter fun h => !(s.handle h).sends.isEmpty).foldl (fun s h => s.noteBuffer h) s

/-! ## Delivery -/

/-- The bindings in the queue of a handle's destination landing, oldest first, with their cores. -/
def State.openBindings (s : State) (h dl : Nat) : List (Nat × CopyCmd) :=
  (s.bindingsAt h dl).filterMap fun b => ((s.core b.1).copy? b.2).map fun k => (b.1, k)

/-- A run of bytes at an offset of a binding, cut to the binding: what is written, and how many bytes are dropped (10 R317). -/
def clipRun (len : Nat) (off : Int) (b : List Byte) : Nat × List Byte × Nat :=
  let lo := (-off).toNat
  let kept := (b.drop lo).take (((len : Int) - max off 0).toNat)
  ((max off 0).toNat, kept, b.length - kept.length)

/-- Write a run into a binding (10 R315, R317). -/
def State.writeBinding (s : State) (c : Nat) (k : CopyCmd) (v : RecvRec) (off : Nat) (b : List Byte) : State :=
  if b.isEmpty then s
  else if v.dk = 3 then s.modCore c fun x =>
    let r := BitVec.ofNat 4 v.dst
    let t := vGet r x.tregs
    let bs := tileBytes t.data 0 4096
    { x with tregs := vSet r { t with data := tileOfBytes (bs.take off ++ b ++ bs.drop (off + b.length)) } x.tregs }
  else s.writeDst c k (v.dst + off) b

/-- A binding completes: its tag on the destination slots or the tile register, its identifier, its place in the queue (10 R317,
08 R237). -/
def State.bindingComplete (s : State) (h c : Nat) (k : CopyCmd) (v : RecvRec) : State :=
  let s := if v.dk = 0 then s.modCore c fun x => x.tagSlots (slotsIn v.dst v.len) k.tag
    else if v.dk = 1 then s.modCore k.peer fun x => x.tagSlots (slotsIn v.dst v.len) k.tag
    else if v.dk = 3 then s.modCore c fun x =>
      let r := BitVec.ofNat 4 v.dst
      let bad := x.tBad.contains r.toNat
      let x := x.putT r { data := (vGet r x.tregs).data, tag := k.tag }
      { x with tBad := if bad then addOnce x.tBad r.toNat else x.tBad }
    else s
  (s.finishCopy c k.id).modHandle h fun x => { x with bindings := x.bindings.filter (· != (c, k.id)) }

/-- Deliver the runs of one CSEND, as (offset, bytes, poisoned), whole into a binding; `tag` is the CSEND's, none with NT or from
outside (10 R317; 13 R390). -/
def State.deliverRuns (s : State) (h c : Nat) (k : CopyCmd) (runs : List (Int × List Byte × Bool)) (tag : Option (BitVec 16)) : State :=
  let v := recvOf k.record
  let cut := runs.map fun r => (clipRun v.len r.1 r.2.1, r.2.2)
  let s := cut.foldl (fun (s : State) r =>
    let s := s.writeBinding c k v r.1.1 r.1.2.1
    if r.2 then s.poisonDst c k (v.dst + r.1.1) r.1.2.1.length else s) s
  let wrote := (cut.map fun r => r.1.2.1.length).sum
  let lost := (cut.map fun r => r.1.2.2).sum
  let slots := if v.dk < 2 then (cut.flatMap fun r => slotsIn (v.dst + r.1.1) r.1.2.1.length).foldl addOnce [] else []
  let s := match tag with
    | some t => if v.dk = 0 then s.modCore c fun x => x.tagSlots slots t else if v.dk = 1 then s.modCore k.peer fun x => x.tagSlots slots t else s
    | none => s
  let s := if lost = 0 then s else s.owe c
    { code := cause 1 copyWriteA lsRangeC, st := .copy, cmd := k.before.step, engine := 7, unit := h, cyc := (s.core c).time }
  let s := s.modCopy c k.id fun k => { k with count := k.count + wrote, started := k.started || decide (0 < wrote) }
  if v.exp ≤ k.count + wrote then s.bindingComplete h c k v else s

/-- Whether a binding may take data now: its pages are translated and open to writing, and no earlier command of its core that R249 or a CFENCE
orders before it, or that has not passed translation, is unfinished (08 R246, R249, R250; 10 R319). -/
def State.bindingOpen (s : State) (c : Nat) (k : CopyCmd) : Bool := s.unheld c k

/-- Whether a fibre landing carries program traffic now (01 R23; 10 R332, R334; 12 R372). -/
def State.fibreOpen (s : State) (l : Nat) : Bool :=
  !s.expired && decide (3000 ≤ s.hourOff) && !s.quarantined (s.facing l)

/-- Whether a CSEND may arrive at landing `dl` now: its count has come, no earlier CSEND of the handle is still to arrive there, the light
carries flits and the handle no window's traffic, and no replay is awaited (10 R310, R317, R318, R321). -/
def State.arrivalDue (s : State) (c : Nat) (k : CopyCmd) (dl : Nat) : Bool :=
  let x := s.handle k.handle
  let earlier := x.sends.takeWhile (· != (c, k.id))
  k.kind == .send && !k.finished && !k.zero && k.arriveAt != 0 && decide (k.arriveAt ≤ s.handleCount k.handle) && k.left.contains dl
    && (x.st == .live || x.st == .draining) && x.sends.contains (c, k.id)
    && !s.still x.src && !s.still dl && !(s.landing dl).discarding && (!isFibre dl || (!k.gone && s.fibreOpen dl)) && s.mayMove c k
    && !earlier.any fun q => match (s.core q.1).copy? q.2 with | some j => j.left.contains dl && !j.gone | none => false

/-- The binding a CSEND's first flit finds at a tile landing (10 R317): the oldest of its queue. -/
def State.arrivalBinding (s : State) (k : CopyCmd) (dl : Nat) : Option (Nat × CopyCmd) := match s.openBindings k.handle dl with
  | b :: _ => if s.bindingOpen b.1 b.2 then some b else none
  | [] => none

/-- The runs of a CSEND as its source gives them now: its rows' offsets, bytes, and whether a row met poison. -/
def State.sendRuns (s : State) (c : Nat) (k : CopyCmd) : List (Int × List Byte × Bool) := k.spans.map fun x =>
  let r := s.readSpan c k x
  ((BitVec.ofNat 64 x.dst).toInt, r.1, !r.2.isEmpty)

/-- The bytes of runs. -/
def runBytes (l : List (Int × List Byte × Bool)) : Nat := (l.map fun r => r.2.1.length).sum

/-- The first `n` bytes of runs. -/
def takeRuns : Nat → List (Int × List Byte × Bool) → List (Int × List Byte × Bool)
  | _, [] => []
  | n, r :: t => if n = 0 then [] else (r.1, r.2.1.take n, r.2.2) :: takeRuns (n - r.2.1.length) t

/-- Runs without their first `n` bytes. -/
def dropRuns : Nat → List (Int × List Byte × Bool) → List (Int × List Byte × Bool)
  | _, [] => []
  | n, r :: t => if r.2.1.length ≤ n then dropRuns (n - r.2.1.length) t else (r.1 + n, r.2.1.drop n, r.2.2) :: t

/-- What a landing's arrival buffer holds of a CSEND (10 R317). -/
def CopyCmd.heldAt (k : CopyCmd) (dl : Nat) : List (Int × List Byte × Bool) := match k.held.find? (·.1 == dl) with
  | some h => h.2
  | none => []

/-- The bytes in a landing's arrival buffer, of 64 KiB (10 R317). -/
def State.buffered (s : State) (dl : Nat) : Nat :=
  (s.cores.flatMap fun p => (p.2.copies.filter fun k => !k.finished).map fun k => runBytes (k.heldAt dl)).sum

/-- The runs that a CSEND delivers at a landing: what the arrival buffer holds, then the rest from its source. -/
def State.arrivingRuns (s : State) (c : Nat) (k : CopyCmd) (dl : Nat) : List (Int × List Byte × Bool) :=
  let held := k.heldAt dl
  held ++ dropRuns (runBytes held) (s.sendRuns c k)

/-- The first flits of a CSEND wait in the arrival buffer for a binding, as far as it has room; the sender holds the rest (10 R317). -/
def State.bufferArrival (s : State) (c : Nat) (k : CopyCmd) (dl : Nat) : State :=
  let held := k.heldAt dl
  let room := (65536 - s.buffered dl) / 32 * 32
  let more := takeRuns room (dropRuns (runBytes held) (s.sendRuns c k))
  if runBytes more = 0 then s
  else s.modCopy c k.id fun k => { k with held := (k.held.filter (·.1 != dl)) ++ [(dl, held ++ more)] }

/-- Flits of a landing's transmit side up to its count `n` are acknowledged and leave the replay buffer (10 R322). -/
def State.flitsMoved (s : State) (l n : Nat) : State :=
  s.modLanding l fun x => let acked := min x.nextFlit (max x.acked n)
    let stored := min x.nextFlit (max x.stored acked)
    { x with acked := acked, sent := max x.sent acked, stored := stored, full := if decide (16384 ≤ stored - acked) then x.full else none }

/-- A CSEND's flits, up to the landing's count `n`, have come to a landing: it expects the next (10 R320). -/
def State.flitsCame (s : State) (dl n : Nat) : State :=
  s.modLanding dl fun x => if (n + 65536 - x.expect) % 65536 < 32768 then { x with expect := n % 65536 } else x

/-- Data that arrives from the rack at fibre landing `a` on its way to `c`, from the package `d`, which the landing faces, or, relayed, from an
earlier sender, `err` marking poison in it: into the oldest binding whose SRCPK names the sender; without one it is dropped at the landing and
counted (10 R315, R332, R333).
Data for a binding that may not take it yet, or a paused landing, comes a tick later. No data comes in a guard or a service minute. -/
def State.fromFibre (s : State) : Host.Outcome State Fault Refusal :=
  let src := s.on.a
  let dl := s.on.c
  let pk := s.on.d
  let live := (List.range 64).find? fun h =>
    let x := s.handle h
    x.src == src && isFibre src && x.dsts.contains dl && (x.st == .live || x.st == .draining)
  let drop := (s.modLanding src fun l => { l with dropped := l.dropped + 1 }).postSup hourC src pk
  if s.on.list.isEmpty && (!s.fibreOpen src || (!s.on.flag2 && !s.samePeer (s.facing src) pk)) then .fault .eventNotDue
  else match live with
  | none => .next drop
  | some h => match (s.openBindings h dl).find? fun b =>
      let q := (recvOf b.2.record).srcpk
      q == pk && q != 0 && q != 255 with
    | none => .next drop
    | some b =>
      if s.still src || s.still dl || !s.bindingOpen b.1 b.2 then .next (s.plan 1 .csendDelivery { s.on with list := [1] })
      else .next (s.deliverRuns h b.1 b.2 [(s.on.off, s.on.bytes, s.on.err != .none)] none)

/-- What leaves by a fibre landing: to the package it faces, or, of a relay handle, for the one that the handle names, with the landing by which it
is to go on (10 R332, R333). -/
def State.leaveBy (s : State) (dl : Nat) (p : Parcel) : State := s.modLanding dl fun l => { l with lastOut := some p }

/-- CSEND_DELIVERY: a CSEND's bytes go whole into the oldest binding of a destination's queue, or leave the package on a fibre landing;
a stack destination may take its longer Lx, and data that finds no binding waits in the arrival buffer (10 R317, R318, R332, R333). `flag` marks
data that comes from the rack. -/
def execCsendDelivery (s : State) : Host.Outcome State Fault Refusal :=
  let c := s.on.a
  let dl := s.on.c
  if s.on.flag then s.fromFibre
  else match (s.core c).copy? s.on.b with
  | none => .fault .eventNotDue
  | some k =>
    if !s.arrivalDue c k dl then .fault .eventNotDue
    else
      let runs := s.arrivingRuns c k dl
      let gone := fun (s : State) => s.modCopy c k.id fun k => { k with
        left := k.left.filter (· != dl), held := k.held.filter (·.1 != dl), started := true }
      let read := fun (s : State) => if k.sk = 2 then k.spans.foldl (fun (s : State) x => s.readPages k x.src x.len) s else s
      if isFibre dl then
        let relay := (s.handle k.handle).relay
        let t := ((read s).leaveBy dl { dst := (relay.map (·.1)).getD (s.facing dl), via := relay.map (·.2), runs := runs }).modCopy c k.id fun k =>
          { k with status := if runs.any (·.2.2) then 1 else k.status }
        .next (if relay.isSome then t.modCopy c k.id fun k => { k with gone := true, started := true } else gone t)
      else match s.arrivalBinding k dl with
        | none =>
          let s' := (s.bufferArrival c k dl).modCopy c k.id fun k => { k with started := true }
          if s' = s then .fault .eventNotDue else .next s'
        | some (bc, bk) =>
          if bk.virt && k.count == 0 then
            let at_ := s.choice k.arriveAt (k.arriveAt + 160)
            .next (s.chosen.modCopy c k.id fun k => { k with count := 1, arriveAt := at_, ackAt := max k.ackAt (at_ + 1), started := true })
          else
            let s := (read s).deliverRuns k.handle bc bk runs (if k.nt then none else some k.tag)
            .next (gone ((s.flitsCame dl k.flits).modCopy c k.id fun k => { k with status := if runs.any (·.2.2) then 1 else k.status }))

/-- The bytes of a handle's oldest CSEND that have come to a landing when the handle is lost: a free number of whole flits (10 R328;
notes/assumptions/4.md). -/
def State.partArrival (s : State) (h dl : Nat) : State :=
  match (s.handle h).sends.findSome? fun q => (((s.core q.1).copy? q.2).filter fun k => !k.zero && k.left.contains dl).map fun k => (q.1, k) with
  | none => s
  | some (c, k) => match s.arrivalBinding k dl with
    | none => s
    | some (bc, bk) =>
      if k.arriveAt = 0 ∨ s.handleCount h + 384 + sendCycles k.granules < k.arriveAt then s
      else
        let runs := takeRuns (32 * s.choice 0 (flitsOf k.sendBytes - 1)) (s.arrivingRuns c k dl)
        let v := recvOf bk.record
        (runs.foldl (fun (s : State) r =>
          let cut := clipRun v.len r.1 r.2.1
          let s := s.writeBinding bc bk v cut.1 cut.2.1
          if r.2.2 then s.poisonDst bc bk (v.dst + cut.1) cut.2.1.length else s) s).chosen

/-- A handle that carried traffic is lost: what has arrived of its data stands, in whole flits, and everything on it completes as R328 says. -/
def State.breakHandle (s : State) (h : Nat) : State :=
  (((s.handle h).dsts.filter fun d => !isFibre d).foldl (fun (s : State) d => s.partArrival h d) s).loseHandle h

/-- CSEND_ACK: every destination has written and acknowledged, and the CSEND completes for its sender (10 R318, R319). A draining
handle counts from here (R298). -/
def execCsendAck (s : State) : Host.Outcome State Fault Refusal :=
  let c := s.on.a
  match (s.core c).copy? s.on.b with
  | none => .fault .eventNotDue
  | some k =>
    let x := s.handle k.handle
    if k.kind != .send || k.finished || k.zero || !k.left.isEmpty || k.arriveAt == 0
        || decide (s.handleCount k.handle < k.ackAt) || !x.sends.contains (c, k.id) then .fault .eventNotDue
    else
      let s := (s.flitsMoved x.src k.flits).modHandle k.handle fun x => { x with
        sends := x.sends.filter (· != (c, k.id)), lastDone := max x.lastDone (s.handleCount k.handle + x.aged) }
      let s := s.finishCopy c k.id
      .next (if k.status = 0 then s else s.owe c k.poisonInfo)

end Sys2Proof.Machine
end

