-- ==== Sys2Proof/Machine/Links.lean ====
section
/-! DEFINITION. Landings: flits, replay, retraining pauses, bring-up, optical monitors (10 R320-R328; 13 R414, R416, R417). -/

namespace Sys2Proof.Machine

/-! ## Flits -/

/-- The handle that joins a landing's receive side, if one carries traffic (10 R297). -/
def State.handleTo (s : State) (l : Nat) : Option Nat := (List.range 64).find? fun h =>
  let x := s.handle h
  x.dsts.contains l && (match x.st with | .live | .windowed | .draining => true | _ => false)

/-- The handles that use a landing on either side and carry traffic. -/
def State.handlesAt (s : State) (l : Nat) : List Nat := (List.range 64).filter fun h =>
  let x := s.handle h
  (x.src == l || x.dsts.contains l) && (match x.st with | .live | .windowed | .draining => true | _ => false)

/-- The event of a lost unit of the interposer: a spare is used and its replacement asked for (13 R417). -/
def spareC : Nat := cause 5 6 6

/-- One bit of CRC-16 with polynomial 0x1021. -/
def crcBit (c : Nat) : Nat := if c < 2 ^ 15 then 2 * c else (2 * c) % 2 ^ 16 ^^^ 0x1021

/-- CRC-16 with initial value 0xFFFF, each byte from its most significant bit (10 R320; the order of the bits: DESIGN CHOICE,
notes/assumptions/43.md). -/
def crc16 (b : List Byte) : Nat :=
  b.foldl (fun c x => crcBit (crcBit (crcBit (crcBit (crcBit (crcBit (crcBit (crcBit (c ^^^ 256 * x.toNat))))))))) 0xFFFF

/-- The bytewise XOR of two rails. -/
def xorBytes (a b : List Byte) : List Byte := (a.zip b).map fun p => p.1 ^^^ p.2

/-- The five rail frames of a flit of sequence number `seq`, 12 bytes each: 8 of the flit's bytes, on rail 4 their XOR, the sequence number
and the check (10 R320). -/
def framesOf (flit : List Byte) (seq : Nat) : List Byte :=
  let rail := fun (d : Nat) => (flit.drop (8 * d)).take 8
  let parity := xorBytes (xorBytes (rail 0) (rail 1)) (xorBytes (rail 2) (rail 3))
  ([rail 0, rail 1, rail 2, rail 3, parity]).flatMap fun p => let b := p ++ toBytes 2 seq; b ++ toBytes 2 (crc16 b)

/-- The frame of rail `r`, and its payload. -/
def frameOf (b : List Byte) (r : Nat) : List Byte := (b.drop (12 * r)).take 12
/-- See `frameOf`. -/
def railOf (b : List Byte) (r : Nat) : List Byte := (frameOf b r).take 8

/-- The frame of a rail fails: its check, or its sequence number, is not that of flit `seq` (10 R321). -/
def frameBad (b : List Byte) (seq r : Nat) : Bool :=
  let f := frameOf b r
  recField f 10 2 != crc16 (f.take 10) || recField f 8 2 != seq

/-- The rails of a landing that count as failing in a flit: those whose frames fail, and those that a monitor or their loss marks (10 R321,
R327). -/
def Landing.failing (x : Landing) (b : List Byte) : List Nat :=
  (List.range 5).filter fun r => frameBad b x.expect r || x.weak.contains r || x.railLost == some r

/-- The flit that frames carry, where `bad` rails fail: one data rail's bytes are the XOR of the other three and the parity (10 R321). -/
def rebuilt (b : List Byte) (bad : List Nat) : List Byte :=
  let others := fun (d : Nat) => (([0, 1, 2, 3, 4].filter (· != d)).map (railOf b)).foldl xorBytes (toBytes 8 0)
  (List.range 4).flatMap fun d => if bad.contains d then others d else railOf b d

/-- The counts of failures in a row of each rail after a flit; the first rail that reaches 1,024 is lost (10 R321). -/
def Landing.countRails (x : Landing) (bad : List Nat) : Landing :=
  let f : Vector Nat 5 := Vector.ofFn fun r => if bad.contains r.val then x.railFails[r] + 1 else 0
  { x with railFails := f, railLost := x.railLost.or ((List.range 5).find? fun r => decide (1024 ≤ vAt f r)) }

/-- The receiver accepts a flit: its bytes, the next it expects, and the sender's next where it resends (10 R321, R322). -/
def State.acceptFlit (s : State) (l : Nat) (src : Option Nat) (flit : List Byte) : State :=
  let s := s.modLanding l fun x => { x with expect := (x.expect + 1) % 65536, discarding := false, flit := flit }
  match src with
  | some a => s.modLanding a fun x => { x with sent := min (x.sent + 1) x.nextFlit }
  | none => s

/-- FLIT_RECEIVE: the receiver checks the five rail frames of a flit, `bytes`: it accepts, rebuilds, or discards this flit and every later one
until the replay and asks for that (10 R320, R321). An accepted flit is acknowledged, a discarded one asked for again, on the service ring
(R322). A fibre landing carries none in a rotor guard (01 R23). -/
def execFlitReceive (s : State) : Host.Outcome State Fault Refusal :=
  let l := s.on.a
  let b := s.on.bytes
  let x := s.landing l
  let bad := x.failing b
  let src := (s.handleTo l).map fun h => (s.handle h).src
  let t := s.choice 1 256
  if s.still l || (isFibre l && decide (s.hourOff < 2000)) then .fault .eventNotDue
  else if x.discarding ∧ 2 ≤ bad.length then .next s
  else
    let y := x.countRails bad
    let s := s.modLanding l fun _ => y
    let s := if x.railLost.isNone && y.railLost.isSome then s.replaceRequested spareC l else s
    if bad.length < 2 then
      let s := if bad.isEmpty then s else s.postSup (cause 3 7 3) l 0
      let s := s.acceptFlit l src (rebuilt b bad)
      .next (match src with
        | some a => s.chosen.plan t .flitAck { a := a, b := x.expect }
        | none => s)
    else
      let s := (s.postSup (cause 3 7 4) l 0).modLanding l fun x => { x with discarding := true }
      .next (match src with
        | some a => s.chosen.plan t .replayRequest { a := a, b := x.expect }
        | none => s)

/-- The count of the flit of a landing's transmit side whose sequence number is `seq`: the first from the acknowledged ones on. -/
def Landing.flitOf (x : Landing) (seq : Nat) : Nat := x.acked + (seq + 65536 - x.acked % 65536) % 65536

/-- REPLAY_REQUEST: the sender resends from the first discarded flit, `b`, in order, and the receiver that asked for it accepts again from that
one on (10 R322). -/
def execReplayRequest (s : State) : Host.Outcome State Fault Refusal :=
  let l := s.on.a
  let dls := ((List.range 64).filter fun h => (s.handle h).src == l).flatMap fun h => (s.handle h).dsts
  let s := s.modLanding l fun x => { x with sent := min x.nextFlit (x.flitOf s.on.b) }
  .next (dls.foldl (fun (t : State) d => t.modLanding d fun x =>
    { x with discarding := x.discarding && x.expect != s.on.b % 65536 }) s)

/-- FLIT_ACK: the flit `b` and those before it leave the replay buffer, and with room again backpressure ends (10 R322, R323). -/
def execFlitAck (s : State) : Host.Outcome State Fault Refusal :=
  .next (s.flitsMoved s.on.a ((s.landing s.on.a).flitOf s.on.b + 1))

/-! ## Pauses -/

/-- RETRAINING_PAUSE: clock lock or lane alignment is lost; no flit moves (13 R414). Its end comes at a free time
(notes/assumptions/4.md). -/
def execRetrainingPause (s : State) : Host.Outcome State Fault Refusal :=
  let l := s.on.a
  let x := s.landing l
  if !x.trained || x.pause.isSome then .fault .eventNotDue
  else
    let t := s.choice 1 40000
    .next ((((s.chosen.modLanding l fun x => { x with pause := some s.wall, reported := false }).alarm 1000 .pauseBoundExceeded { a := l }).alarm
      20000 .backpressureLimit { a := l }).alarm t .retrainingPauseEnd { a := l })

/-- RETRAINING_PAUSE_END: flits move again and nothing is lost; a full replay buffer stays full until an acknowledgment makes room (10 R323, 13
R414). -/
def execRetrainingPauseEnd (s : State) : Host.Outcome State Fault Refusal :=
  let l := s.on.a
  if (s.landing l).pause.isNone then .fault .eventNotDue
  else .next (s.modLanding l fun x => { x with pause := none })

/-- PAUSE_BOUND_EXCEEDED: the pause has passed 1 µs (13 R414). -/
def execPauseBoundExceeded (s : State) : Host.Outcome State Fault Refusal :=
  let l := s.on.a
  match (s.landing l).pause with
  | some t =>
    if decide (t + nsUnits 1000 ≤ s.wall) && !(s.landing l).reported then
      .next ((s.modLanding l fun x => { x with reported := true }).postSup (cause 3 2 0) l 0)
    else .fault .eventNotDue
  | none => .fault .eventNotDue

/-- Whether flags of a context route condition `b` of the optical faults to its handler (10 R327, 12 R374). -/
def State.routed (s : State) (ctx b : Nat) : Bool :=
  (s.ctx ctx).flags.getLsbD (if b = 1 then 2 else if b = 2 then 3 else 4)

/-- The cores that a routed optical fault of a landing goes to: those of the owning context's launch that hold an incomplete CSEND or
binding on a handle at the landing, or the launch's origin (10 R327). -/
def State.routeCores (s : State) (l ctx : Nat) : List Nat :=
  let cs := ((s.handlesAt l).flatMap fun h => (s.handle h).holders).foldl addOnce []
  if cs.isEmpty then (match s.xingLaunch ctx with | some x => [x.origin] | none => []) else cs

/-- A replay overflow that the owner's context has routed, on a landing on whose handles no core holds a CSEND or a binding: the launch's origin
core traps. A core that holds one takes the trap of R328 (10 R327). -/
def State.routeOverflow (s : State) (l : Nat) : State := match (s.landing l).owner with
  | some ctx =>
    if s.routed ctx 5 && (s.handlesAt l).all fun h => (s.handle h).holders.isEmpty then
      (s.routeCores l ctx).foldl (fun (s : State) c => s.raiseAt c
        { code := cause 3 7 5, st := .helm, cmd := (s.core c).helm.step, engine := 4, unit := (s.handlesAt l).headD 0, cyc := (s.core c).time }) s
    else s
  | none => s

/-- BACKPRESSURE_LIMIT: 20 µs of a pause, or of backpressure, have passed: every handle that uses the landing is lost, and the landing
goes through a full bring-up (10 R327, R328; 13 R414). -/
def execBackpressureLimit (s : State) : Host.Outcome State Fault Refusal :=
  let l := s.on.a
  let x := s.landing l
  let past := fun (t : Option Nat) => match t with | some t => decide (t + nsUnits 20000 ≤ s.wall) | none => false
  if !(past x.pause || past x.full) then .fault .eventNotDue
  else
    let hs := s.handlesAt l
    let s := (if hs.isEmpty then s else s.routeOverflow l).modLanding l fun x => { x with pause := none, full := none }
    let s := hs.foldl (fun (s : State) h => (s.breakHandle h).postSup (cause 3 7 5) l h) s
    .next (if hs.isEmpty then s.bringUp l else s)

/-! ## Monitors -/

/-- A monitor of a landing reports condition `b` of a rail: the rail counts as failing, and the report is an event, or a trap where
the owner's context has it routed (10 R327). -/
def State.monitor (s : State) (l rail b : Nat) : State :=
  let s := s.modLanding l fun x => { x with weak := addOnce x.weak (rail % 5) }
  let ev := s.postSup (cause 3 7 b) l rail
  match (s.landing l).owner with
  | some ctx =>
    if s.routed ctx b then
      (s.routeCores l ctx).foldl (fun (s : State) c => s.raiseAt c
        { code := cause 3 7 b, st := .helm, cmd := (s.core c).helm.step, engine := 7, unit := l, cyc := (s.core c).time }) ev
    else ev
  | none => ev

/-- LASER_POWER_LOW (10 R327). -/
def execLaserPowerLow (s : State) : Host.Outcome State Fault Refusal := .next (s.monitor s.on.a s.on.b 1)

/-- RING_TUNING_OUT_OF_RANGE (10 R327). -/
def execRingTuningOutOfRange (s : State) : Host.Outcome State Fault Refusal := .next (s.monitor s.on.a s.on.b 2)

/-! ## Bring-up -/

/-- BRING_UP_STAGE_END: the next stage begins, and after the last the landing is trained, its counters 0 (10 R324). -/
def execBringUpStageEnd (s : State) : Host.Outcome State Fault Refusal :=
  let l := s.on.a
  match (s.landing l).stage with
  | none => .fault .eventNotDue
  | some k =>
    if k < 6 then .next (s.enterStage l (k + 1))
    else .next (s.modLanding l fun x => { x with
      stage := none, trained := true, fails := 0, weak := [], railFails := Vector.replicate 5 0, nextFlit := 0, acked := 0, sent := 0, stored := 0, expect := 0
      discarding := false, pause := none, full := none })

/-- BRING_UP_TIMEOUT: a stage has passed its timeout: an event, and the bring-up restarts; the third that fails in a row fails the
landing. `b` is the condition: 1 laser power low at light detect, 2 ring tuning out of range at resonance lock, else timeout
(10 R325; 13 R416, R417). -/
def execBringUpTimeout (s : State) : Host.Outcome State Fault Refusal :=
  let l := s.on.a
  let x := s.landing l
  match x.stage with
  | none => .fault .eventNotDue
  | some k =>
    if s.wall < x.stageAt + nsUnits (stageTimeouts.getD k 0) then .fault .eventNotDue
    else
      let b := if (k = 0 ∧ s.on.b = 1) ∨ (k = 1 ∧ s.on.b = 2) then s.on.b else 0
      let code := cause 3 k b
      let s := (s.postSup code l k).modLanding l fun x => { x with fails := x.fails + 1, lastFail := code }
      if x.fails + 1 < 3 then .next (s.enterStage l 0)
      else .next ((s.modLanding l fun x => { x with failed := true, stage := none }).replaceRequested spareC l)

/-- SUPERVISOR_RETRAIN: a full bring-up, or, with `flag`, the end of a landing's failure (10 R324, R325). -/
def execSupervisorRetrain (s : State) : Host.Outcome State Fault Refusal :=
  let l := s.on.a
  if s.on.flag then .next (s.modLanding l fun x => { x with failed := false, fails := 0 })
  else .next (s.bringUp l)

end Sys2Proof.Machine
end

