-- ==== Sys2Proof/Machine/Rotor.lean ====
section
/-! DEFINITION. The day clock, the rotor, service messages and relay (10 R329-R334). -/

namespace Sys2Proof.Machine

/-! ## The day clock -/

/-- The cause of the events that the supervisor sees of holdover: its start, its expiry, the pulse's return (10 R334). The spec names
no cause; DESIGN CHOICE, notes/assumptions/16.md. -/
def holdoverC : Nat := hourC

/-- DAWN_PULSE: a pulse within 1 µs of its expected time, `off` being rack time less `dayc`, starts a correction and ends holdover; one
further off is a missing pulse. The day clock is stepped, and fibre traffic let go on, from the guard that follows on, not in one that the pulse
comes in (10 R330, R334). -/
def execDawnPulse (s : State) : Host.Outcome State Fault Refusal :=
  let e := s.on.off
  if e.natAbs ≤ 1000 then
    let back := s.holdover.isSome || s.expired
    let s := { s with dayError := e, holdover := none, lastDawn := ((Int.ofNat s.dayc + e).toNat + 160000) / 320000
                      guardDone := s.dayc / 20000 + 1
                      pkstat := s.pkstat &&& 0b1101#4 }
    .next (if back then s.postSup holdoverC 0 2 else s)
  else if s.holdover.isNone then
    .next ({ s with holdover := some s.wall, pkstat := s.pkstat ||| 2#4 }.postSup holdoverC 0 0)
  else .next s

/-- Whether a rotor guard is to step the day clock, or to end the suspension of fibre traffic after a pulse's return. -/
def State.correctionDue (s : State) : Bool :=
  decide (s.hourOff < 2000) && decide (s.guardDone ≠ s.dayc / 20000 + 1) && (s.dayError != 0 || (s.expired && s.holdover.isNone))

/-- DAYC_CORRECTION: at a rotor guard `dayc` steps by the remaining error or by 100 ns; a backward step holds it still
(10 R330). -/
def execDaycCorrection (s : State) : Host.Outcome State Fault Refusal :=
  if !s.correctionDue then .fault .eventNotDue
  else
    let n := min s.dayError.natAbs 100
    let step : Int := if s.dayError < 0 then -(n : Int) else n
    let exp := s.expired && s.holdover.isSome
    .next { s with
      daycAdj := s.daycAdj + step
      daycHold := if step < 0 then max s.ns s.daycHold + n else s.daycHold
      dayError := s.dayError - step
      guardDone := s.dayc / 20000 + 1
      expired := exp
      pkstat := if exp then s.pkstat else s.pkstat &&& 0b0111#4 }

/-- The pulse that was expected last has been missing for more than 1 µs (10 R330). -/
def State.pulseMissing (s : State) : Bool := s.booted && s.holdover.isNone && decide ((s.lastDawn + 1) * 320000 + 1000 < s.dayc)

/-- HOLDOVER_START (10 R330). -/
def execHoldoverStart (s : State) : Host.Outcome State Fault Refusal :=
  if !s.pulseMissing then .fault .eventNotDue
  else .next ({ s with holdover := some s.wall, pkstat := s.pkstat ||| 2#4 }.postSup holdoverC 0 0)

/-- Holdover has passed 100 ms (10 R334). -/
def State.holdoverOver (s : State) : Bool := !s.expired && match s.holdover with
  | some t => decide (t + nsUnits 100000000 ≤ s.wall)
  | none => false

/-- HOLDOVER_EXPIRY: every fibre transmission is suspended, and an XHOUR that waits faults (10 R334). -/
def execHoldoverExpiry (s : State) : Host.Outcome State Fault Refusal :=
  if !s.holdoverOver then .fault .eventNotDue
  else
    let s1 := { s with expired := true, pkstat := s.pkstat ||| 8#4 }.postSup holdoverC 0 1
    .next (s.launches.foldl (fun (s : State) l =>
      let waits := match l.xing with
        | some x => !x.stopped && (match x.prog.wait with
          | some w => (match w.kind with | .hour _ => true | _ => false)
          | none => false)
        | none => false
      if !waits then s
      else
        let cur := s.cur
        let s := { s with cur := ⟨l.lid, .crossing, 0⟩ }
        { (s.fault hourC).modMine fun x => { x with wait := none } with cur := cur }) s1)

/-! ## Service messages -/

/-- Whether commands under way use a range of a peer's memory: they have passed translation through its pages and have not completed
(12 R371). -/
def State.usesPeer (s : State) (peer : Nat) (ranges : List (Nat × Nat)) : Bool := s.cores.any fun c => c.2.copies.any fun k =>
  k.xlated && !k.finished && k.pages.any fun p =>
    s.samePeer p.2.ap peer && ranges.any fun r => overlaps p.2.page p.2.size r.1 r.2

/-- The context of a collective. -/
def State.collCtx (s : State) (x : Coll) : Nat := match s.launch? x.lid with
  | some l => l.ctx
  | none => 0

/-- Change a collective. -/
def State.modColl (s : State) (id : Nat) (f : Coll → Coll) : State := { s with colls := updIf (·.id == id) f s.colls }

/-- A collective's part in a launch of a context, by team and number. -/
def State.collAt (s : State) (ctx : Nat) (team : Nat × Nat × Nat × Nat) (k : Nat) : Option Coll :=
  s.colls.find? fun x => s.collCtx x == ctx && x.team == team && x.k == k && !x.members.isEmpty

/-- A core of the context has been in the team's k-th collective, which is over. -/
def State.collPast (s : State) (ctx : Nat) (team : Nat × Nat × Nat × Nat) (k : Nat) : Bool :=
  s.cores.any fun p => (match s.launchOf p.1 with | some l => l.ctx == ctx | none => false) &&
    decide (k ≤ (tabGet p.2.colls (teamKey team)).getD 0)

/-- The collective that a message is for. -/
def Note.coll : Note → Option (Nat × (Nat × Nat × Nat × Nat) × Nat)
  | .part c t k _ => some (c, t, k)
  | .outcome c t k _ _ => some (c, t, k)
  | .released c t k _ => some (c, t, k)
  | _ => none

/-- A windowed handle of a context has a fibre landing that faces the package of an aperture, in a program portion; `tile` is that of its other
landing, where one is asked for (11 R359). -/
def State.windowTo (s : State) (ctx ap : Nat) (out : Bool) (tile : Option Nat) : Bool := s.handles.toList.any fun h =>
  h.st == .windowed && h.owner == some ctx && (if out then h.dsts else [h.src]).any (fun d => isFibre d && s.fibreOpen d && !s.still d && s.samePeer (s.facing d) ap)
    && (match tile with | some t => landingTile h.src == t | none => true)

/-- Whether a message is delivered now: one from a peer in a service minute of an hour in which a fibre landing faces it, or a collective's by a
windowed handle in a program portion; one that waits for commands under way when they have completed; a collective's, once it has come, when a member
of this package is in it (10 R331; 11 R357, R359). -/
def State.messageDue (s : State) (m : Message) : Bool :=
  decide (m.at_ ≤ s.now) &&
    (!m.minute || s.minuteOf m.peer || (m.note == .replayAck && s.inMinute && s.facesPeer m.peer) || (match m.note.coll with | some c => s.windowTo c.1 m.peer false none | none => false)) && match m.note with
    | .shootWait _ p r => !s.usesPeer p r
    | n => match n.coll with
      | some (c, t, k) => m.minute || (s.collAt c t k).isSome || s.collPast c t k
      | none => true

/-- Put a message for this package itself into its list. -/
def State.tell (s : State) (note : Note) : State :=
  { s with messages := s.messages ++ [{ id := (s.messages.map (·.id)).foldl max 0 + 1, note := note, at_ := s.now }] }

/-- What a collective's message changes; one that comes before any member of this package has joined waits, and one for a collective that is over is
discarded (11 R357, R362). -/
def State.tellColl (s : State) (note : Note) (ctx : Nat) (team : Nat × Nat × Nat × Nat) (k : Nat) (f : Coll → Coll) : State :=
  match s.collAt ctx team k with
  | some x => s.modColl x.id f
  | none => if s.collPast ctx team k then s else s.tell note

/-- Drop this package's translation entries of ranges of a peer's memory (12 R371, R372). -/
def State.dropPeer (s : State) (peer : Nat) (ranges : List (Nat × Nat)) : State :=
  { s with tiles := s.tiles.map fun (t : TileSt) =>
      { t with tu := t.tu.filter fun e => !(s.samePeer e.2.2.ap peer && ranges.any fun r => overlaps e.2.2.page e.2.2.size r.1 r.2) } }

/-- Send a message to a peer: it leaves in a service minute (10 R331). -/
def State.send (s : State) (ap : Nat) (note : Note) : State := { s with outbox := s.outbox ++ [(ap, note)] }

/-- A relayed CSEND has nothing more to wait for (10 R333). -/
def State.relayOver (s : State) (core cmd : Nat) : State := s.modCopy core cmd fun k => { k with left := [] }

/-- What a message from the package `peer`, or from this one, does on delivery (10 R311, R331, R333; 09 R287-R289; 11 R357; 12 R371, R372).
A peer's shootdown drops this package's entries of its ranges, and is acknowledged once the commands that use them have completed. The
CSEND of relayed data that was refused completes with its trap (DEDUCED, notes/assumptions/42.md). -/
def State.deliverNote (s : State) (peer : Nat) : Note → State
  | .groupAsk g => s.send peer (.groupAck g)
  | .groupAck g => s.plan 1 .xgroupAck { a := g }
  | .mstore g m => s.modGroup g fun x => { x with arriving := x.arriving ++ [{ m with n := 0, at_ := s.now, peer := peer }] }
  | .stampAck g core acc n => s.modGroup g fun x => { x with
      arriving := updIf (fun m => m.peer == 0 && m.core % 4096 == core % 4096 && m.acc == acc && m.n == 0)
        (fun m => { m with n := if n = 0 then 2 ^ 48 else n, at_ := s.now }) x.arriving }
  | .stampedStore g m => s.modGroup g fun x =>
      if x.held.any (·.n == m.n) then x else { x with held := x.held ++ [{ m with at_ := s.now }] }
  | .memberCount g m n => s.modGroup g fun x => { x with applied := tabSet x.applied m (max n (x.appliedOf m)) }
  | .shootdown id ranges => (s.dropPeer peer ranges).tell (.shootWait id peer ranges)
  | .shootWait id p _ => s.send p (.shootAck id)
  | .shootAck id => { s with shoots := updIf (·.id == id) (fun x => { x with mask := x.mask.filter fun a => !s.samePeer a peer }) s.shoots }
  | .replay ranges => (s.dropPeer peer ranges).send peer .replayAck
  | .replayAck => s.replayDone peer
  | .relayStored core cmd => s.relayOver core cmd
  | .relayEnd core cmd lost =>
      let k := (s.core core).copy? cmd
      (s.relayOver core cmd).owe core { code := cause 4 5 (if lost then 2 else 6), st := .copy, cmd := cmd, engine := 3
                                        unit := match k with | some k => k.handle | none => 0, cyc := (s.core core).time }
  | .part c t k p => s.tellColl (.part c t k p) c t k fun x => if x.parts.any (·.m == p.m) then x else { x with parts := x.parts ++ [p] }
  | .outcome c t k st who => s.tellColl (.outcome c t k st who) c t k fun x => { x with status := x.status.or (some (st, who)) }
  | .released c t k ms => s.tellColl (.released c t k ms) c t k fun x => if x.digested then x else { x with only := x.only.or (some ms) }
  | .trapRecord core a => s.modTile (tileOf core) fun t => { t with trapq := t.trapq ++ [(core, a)] }
  | .relayed ap note => s.send ap note

/-- The first message of the outbox that may leave now, a collective's part by a windowed handle too; `relays` asks for one that no fibre landing
faces the package of in this hour, and that goes by another package (10 R331, R333, 11 R359). -/
def State.leaving (s : State) (relays : Bool) : Option (Nat × Note) := s.outbox.find? fun m =>
  if relays then s.inMinute && !s.facesPeer m.1
  else s.minuteOf m.1 || match m.2 with
    | .part c _ _ p => s.windowTo c m.1 true (some p.tile)
    | _ => false

/-- SERVICE_MESSAGE: message `a` is delivered to this package or a tile of it; with `flag` one leaves for a peer, with `flag2` by way of
another (10 R331). -/
def execServiceMessage (s : State) : Host.Outcome State Fault Refusal :=
  if s.on.flag then match s.leaving s.on.flag2 with
    | some m => .next { s with outbox := s.outbox.erase m }
    | none => .fault .eventNotDue
  else match s.messages.find? (·.id == s.on.a) with
  | none => .fault .eventNotDue
  | some m =>
    if !s.messageDue m then .fault .eventNotDue
    else .next ({ s with messages := s.messages.filter (·.id != m.id) }.deliverNote m.peer m.note)

/-! ## Relay -/

/-- RELAY_ARRIVAL: data from package `a` for package `b`, poison in it marked by `err`, comes by fibre landing `d`, which faces `a`, to leave by fibre
landing `c` later; `list` names the core and the command of its CSEND. It is stored in the relay pool, or refused when `flag` says that the pool has no room
for it; the sender learns of either in a service minute (10 R333). -/
def execRelayArrival (s : State) : Host.Outcome State Fault Refusal :=
  let of_ := (s.on.list.getD 0 0, s.on.list.getD 1 0)
  let dl := 128 + s.on.d % 4
  if !s.fibreOpen dl || s.still dl || !s.samePeer (s.facing dl) s.on.a then .fault .eventNotDue
  else if !s.on.flag then .next (s.send s.on.a (.relayEnd of_.1 of_.2 false))
  else .next (State.send { s with
    relays := s.relays ++ [{ id := s.nextRelay, src := s.on.a, of_ := of_, dst := s.on.b, fl := s.on.c, bytes := s.on.bytes
                             hour := s.dayc / 20000, at_ := s.wall, bad := s.on.err != .none }]
    nextRelay := s.nextRelay + 1 } s.on.a (.relayStored of_.1 of_.2))

/-- Relayed data leaves in a later hour in which its landing faces its destination, in the order of arrival (10 R333). -/
def State.forwardDue (s : State) (r : Relay) : Bool :=
  let dl := 128 + r.fl % 4
  s.inProgram && s.fibreOpen dl && !s.still dl && decide (r.hour < s.dayc / 20000) && s.samePeer (s.facing dl) r.dst
    && !s.relays.any fun q => decide (q.id < r.id) && q.fl == r.fl && q.dst == r.dst

/-- RELAY_FORWARD: the data leaves as its original sender's (10 R333). -/
def execRelayForward (s : State) : Host.Outcome State Fault Refusal :=
  match s.relays.find? (·.id == s.on.a) with
  | none => .fault .eventNotDue
  | some r =>
    if s.forwardDue r then .next ({ s with relays := s.relays.filter (·.id != r.id) }.leaveBy (128 + r.fl % 4)
      { dst := r.dst, src := r.src, runs := [(0, r.bytes, r.bad)] })
    else .fault .eventNotDue

/-- Relayed data has stood for 640 µs (10 R333). -/
def State.relayOld (s : State) (r : Relay) : Bool := decide (r.at_ + nsUnits 640000 ≤ s.wall)

/-- RELAY_TIMEOUT: it is discarded; the sender learns of it in a service minute (10 R333). -/
def execRelayTimeout (s : State) : Host.Outcome State Fault Refusal :=
  match s.relays.find? (·.id == s.on.a) with
  | none => .fault .eventNotDue
  | some r =>
    if s.relayOld r then .next ({ s with relays := s.relays.filter (·.id != r.id) }.send r.src (.relayEnd r.of_.1 r.of_.2 true))
    else .fault .eventNotDue

end Sys2Proof.Machine
end

