-- ==== Sys2Proof/Machine/Multicast.lean ====
section
/-! DEFINITION. Ordered multicast after issue: the order point, its acknowledgments, and the members (09 R284-R293; 13 R415). -/

namespace Sys2Proof.Machine

/-! ## The order point -/

/-- The next MSTORE that the order point of a group in this package takes: the oldest that has arrived and has no answer yet. -/
def State.arrival (s : State) (g : Nat) : Option MStore :=
  if (s.group g).home = some 0 then (s.group g).arriving.find? fun m => m.n == 0 && decide (m.at_ ≤ s.now) else none

/-- Whether the order point may give the next number: no member in force would hold more than 256 stores (09 R288). -/
def Group.hasRoom (g : Group) : Bool := g.members.all fun m => decide (g.next ≤ g.appliedOf m + 256)

/-- The packages, as apertures, of a group's members in other packages. -/
def Group.peers (x : Group) : List Nat := ((x.members.map x.pk).filter (· != 0)).foldl addOnce []

/-- ORDER_POINT_STAMP: an arriving MSTORE takes the next number and goes to every member, or is refused; its acknowledgment is on its
way back (09 R287, R288). A refusal stands as the number 2^48. Peers hear of both in service minutes (10 R331). -/
def execOrderPointStamp (s : State) : Host.Outcome State Fault Refusal :=
  let g := s.on.a
  match s.arrival g with
  | none => .fault .eventNotDue
  | some m =>
    let x := s.group g
    let n := if x.hasRoom then x.next else 2 ^ 48
    let ack := s.now + s.choice 1 (s.mstoreSpan m.core 200)
    let at_ := s.now + s.chosen.choice 1 250
    let mine := fun (a : MStore) => a.core == m.core && a.acc == m.acc && a.peer == m.peer && a.n == 0
    let t := s.chosen.chosen.modGroup g fun x => { x with
      next := if x.hasRoom then x.next + 1 else x.next
      held := if x.hasRoom then x.held ++ [{ m with n := n, at_ := at_ }] else x.held
      arriving := if m.peer = 0 then updIf mine (fun a => { a with n := n, at_ := ack }) x.arriving
        else x.arriving.filter fun a => !mine a }
    .next { t with outbox := t.outbox
      ++ (if x.hasRoom then x.peers.map fun pk => (pk, .stampedStore g { m with n := n }) else [])
      ++ if m.peer = 0 then [] else [(m.peer, .stampAck g m.core m.acc (if x.hasRoom then n else 0))] }

/-- The answer to an MSTORE that is reaching its core now: its group and whether it was refused. -/
def State.ackFor (s : State) (c acc : Nat) : Option (Nat × MStore) :=
  (List.range 64).findSome? fun g =>
    ((s.group g).arriving.find? fun m => m.peer == 0 && m.core == c && m.acc == acc && m.n != 0 && decide (m.at_ ≤ s.now)).map fun m => (g, m)

/-- MSTORE_ACK: the stamp's acknowledgment ends the access; a refusal raises reorder overflow at the issuing core (09 R287,
R288). The number that an order point in another package gave is kept for the completion record (09 R294). -/
def execMstoreAck (s : State) : Host.Outcome State Fault Refusal :=
  let c := s.on.a
  let id := s.on.b
  match s.ackFor c id with
  | none => .fault .eventNotDue
  | some (g, m) =>
    let s := s.modGroup g fun x => { x with arriving := x.arriving.filter fun a => !(a.core == c && a.acc == id && a.n == m.n) }
    match (s.core c).access? id with
    | none => .next s
    | some a =>
      if m.n = 2 ^ 48 then .next (s.failAccess c a (a.info (cause 4 4 7)) ((s.core c).time - a.issued))
      else
        let far := (s.group g).home.any (· != 0)
        let s := match s.launchOf c with
          | some l => if far then s.modLaunch l.lid fun l => { l with stamped := l.stamped ++ [(g, m.n)] } else s
          | none => s
        .next (s.dropAccess c a.id)

/-! ## Members -/

/-- The store that a member of this package may apply now: the next after its count, arrived, with the member in force and not
stopped (09 R289, R290). -/
def State.nextStore (s : State) (g m : Nat) : Option MStore :=
  let x := s.group g
  if x.inForce m && x.pk m == 0 && !x.stoppedM.contains m then
    x.held.find? fun h => h.n == x.appliedOf m + 1 && decide (h.at_ ≤ s.now)
  else none

/-- A member stops applying a group, and its core traps (09 R289, R290). -/
def State.stopMember (s : State) (g m : Nat) (code : Nat) (va : Nat) : State :=
  let c := (s.group g).coreOf m
  let s := s.modGroup g fun x => { x with stoppedM := addOnce x.stoppedM m }
  if (s.core c).lid.isNone then s
  else s.raiseAt c { code := code, st := .helm, cmd := (s.core c).helm.step, engine := 4, unit := g, va := BitVec.ofNat 64 va
                     cyc := (s.core c).time }

/-- The held stores that some member in force has still to apply (09 R288). -/
def Group.prune (x : Group) : Group :=
  { x with held := x.held.filter fun h => x.members.any fun m =>
    (x.home == some 0 || x.pk m == 0) && decide (x.appliedOf m < h.n) }

/-- A member's count has advanced: the order point of a peer package hears of it (09 R288, 10 R331). -/
def State.tellCount (s : State) (g m n : Nat) : State := match (s.group g).home with
  | some pk => if pk = 0 then s else { s with outbox := s.outbox ++ [(pk, .memberCount g m n)] }
  | none => s

/-- MULTICAST_APPLY: member `b` of group `a` writes its next store at the home of its area, and its applied count advances (09 R289);
a fault stops the member. -/
def execMulticastApply (s : State) : Host.Outcome State Fault Refusal :=
  let g := s.on.a
  let m := s.on.b
  match s.nextStore g m with
  | none => .fault .eventNotDue
  | some h =>
    let x := s.group g
    let c := x.coreOf m
    let t := x.target m h
    match s.translate (tileOf c) x.owner t.1 .write false with
    | .bad b => .next ((s.stopMember g m (walkCause mstoreA b) t.1).walkEffects (tileOf c) x.owner t.1)
    | .ok l => match s.gate x.owner t.1 l none with
      | .wait s' => if s' = s then .fault .eventNotDue else .next s'
      | .full s _ => .next (s.stopMember g m (cause 1 mstoreA cowC) t.1)
      | .go s => .next ((((s.cacheLeaf (tileOf c) x.owner t.1 l).writeHome (l.key t.1) t.2).modGroup g fun x =>
          ({ x with applied := tabSet x.applied m h.n }).prune).tellCount g m h.n)

/-- A member holds a later store, and the next has not arrived (09 R290). -/
def Group.gap (x : Group) (now m : Nat) : Bool :=
  let n := x.appliedOf m + 1
  x.inForce m && x.pk m == 0 && !x.stoppedM.contains m && !(x.held.any fun h => h.n == n && decide (h.at_ ≤ now))
    && x.held.any fun h => decide (n < h.n ∧ h.at_ ≤ now)

/-- The numbers of the stores that have not arrived at member `m` although a later one has. -/
def Group.missing (x : Group) (now m : Nat) : List Nat :=
  let here := (x.held.filter fun h => decide (h.at_ ≤ now)).map (·.n)
  let first := x.appliedOf m + 1
  ((List.range (here.foldl max 0 - first)).map (first + ·)).filter fun n => !here.contains n

/-- Note since when each store that a member misses has been missing, by the wall clock. -/
def State.noteGaps (s : State) : State :=
  { s with groups := s.groups.map fun (x : Group) => { x with
      gaps := (x.members.filter (x.gap s.now)).flatMap fun m => (x.missing s.now m).map fun n =>
        (m, n, ((x.gaps.find? fun e => e.1 == m && e.2.1 == n).map (·.2.2)).getD s.wall) } }

/-- The next store of a member has been missing for 64 µs of wall-clock time (09 R290, 01 R16). -/
def State.gapDue (s : State) (g m : Nat) : Bool :=
  let x := s.group g
  x.gap s.now m && x.gaps.any fun e => e.1 == m && e.2.1 == x.appliedOf m + 1 && decide (e.2.2 + nsUnits 64000 ≤ s.wall)

/-- ORDER_GAP (09 R290). -/
def execOrderGap (s : State) : Host.Outcome State Fault Refusal :=
  if s.gapDue s.on.a s.on.b then .next (s.stopMember s.on.a s.on.b (cause 4 4 5) 0) else .fault .eventNotDue

/-- MEMBER_RESEND: the order point sends every held store above the member's applied count again, and the member resumes
(13 R415). -/
def execMemberResend (s : State) : Host.Outcome State Fault Refusal :=
  let g := s.on.a
  let m := s.on.b
  let x := s.group g
  if !x.stoppedM.contains m || !x.inForce m then .fault .eventNotDue
  else
    let at_ := s.now + s.choice 1 250
    .next (s.chosen.modGroup g fun x => { x with
      stoppedM := x.stoppedM.filter (· != m)
      held := updIf (fun h => decide (x.appliedOf m < h.n) && decide (h.at_ ≤ s.now)) (fun h => { h with at_ := at_ }) x.held })


end Sys2Proof.Machine
end

