-- ==== Sys2Proof/Machine/Collective.lean ====
section
/-! DEFINITION. Collectives after issue: joining, digest, combination, completion, deadlines and losses (11 R353-R362; 04 R128). -/

namespace Sys2Proof.Machine

/-! ## Layouts (11 R355, R356) -/

/-- The digits of a combined index over the axes that shard a dimension, X the least significant. -/
def digits : List (Nat × Bool) → Nat → List (Option Nat)
  | [], _ => []
  | (n, true) :: t, i => some (i % n) :: digits t (i / n)
  | (_, false) :: t, i => none :: digits t i

/-- The combined index of coordinates over the axes that shard a dimension. -/
def combined : List (Nat × Bool × Nat) → Nat
  | [] => 0
  | (n, true, c) :: t => c + n * combined t
  | (_, false, _) :: t => combined t

/-- The coordinates of member `m` on the axes X, Y and P. -/
def memberCoords (axes : List Nat) (m : Nat) : List Nat :=
  let x := axes.getD 0 1
  let y := axes.getD 1 1
  [m % x, m / x % y, m / (x * y)]

/-- The block of a member along the dimension that layout code `code` shards. -/
def blockOf (l code : Nat) (axes : List Nat) (m : Nat) : Nat :=
  combined ((axes.zip (memberCoords axes m)).zipIdx.map fun a => (a.1.1, layoutOf l a.2 == code, a.1.2))

/-- The axes' coordinates that global row `r` and column `c` fix in layout `l`. -/
def CollRec.fixed (q : CollRec) (axes : List Nat) (l r c : Nat) : List (Option Nat) :=
  let sh := q.shard l axes
  let d := fun (code i : Nat) => digits (axes.zipIdx.map fun a => (a.1, layoutOf l a.2 == code)) i
  ((d 2 (r / sh.1)).zip (d 3 (c / sh.2))).map fun p => p.1.or p.2

/-- The coordinates on one axis of the members that contribute to an element of a member at coordinate `own` (11 R356); none where the
element is zero. -/
def axisSources (n src dst own : Nat) (fixed : Option Nat) : List Nat :=
  if src = 0 then (if dst = 1 ∧ own ≠ 0 then [] else [own])
  else if src = 1 then (if dst = 1 then [own] else List.range n)
  else match fixed with
    | some f => if dst = 1 ∧ f ≠ own then [] else [f]
    | none => [own]

/-- The members that contribute to global element (r, c) of member `m`, in ascending order (11 R356, R358). -/
def CollRec.contributors (q : CollRec) (axes : List Nat) (m r c : Nat) : List Nat :=
  let own := memberCoords axes m
  let fx := q.fixed axes q.srcl r c
  let on := fun (a : Nat) => axisSources (axes.getD a 1) (layoutOf q.srcl a) (layoutOf q.dstl a) (own.getD a 0) (fx.getD a none)
  (on 2).flatMap fun p => (on 1).flatMap fun y => (on 0).map fun x => (p * axes.getD 1 1 + y) * axes.getD 0 1 + x

/-- The class 4 axis of a collective (11 R356). -/
def CollRec.kindOf (q : CollRec) : Nat :=
  let ax := (List.range 3).map fun a => (layoutOf q.srcl a, layoutOf q.dstl a)
  if ax.any (fun p => p.1 == 1 && p.2 == 0) then 2
  else if ax.any (fun p => p.1 == 1 && decide (2 ≤ p.2)) then 1
  else if ax.any (fun p => decide (2 ≤ p.1) && decide (2 ≤ p.2) && p.1 != p.2) then 3
  else 0

/-! ## Joining -/

/-- The digest that a member sends: everything of R357 but k, which the collective's number gives. -/
def digestOf (r : List Byte) : List Byte := r.take 16 ++ (r.drop 48).take 16

/-- The record of the lowest member that has joined. -/
def Coll.record (x : Coll) : List Byte := match minBy? (·.m) x.members with
  | some y => y.record
  | none => []

/-- The record's fields. -/
def Coll.q (x : Coll) : CollRec := collOf x.record

/-- The axes' sizes. -/
def Coll.axes (x : Coll) : List Nat := x.q.axes x.team

/-- All members over all packages. -/
def Coll.total (x : Coll) : Nat := x.size * (x.q.npk + 1)

/-- The bytes of a member's source shard. -/
def State.shardBytes (s : State) (k : CopyCmd) : List Byte :=
  let x := k.spans.headD ⟨0, 0, 0⟩
  (pieces x.src x.len).flatMap fun p => memBytes s.mem (k.key p.1) p.2

/-- The granules of a member's source shard whose reads are bad; SRC is a multiple of 64 (13 R391). -/
def State.shardBad (s : State) (k : CopyCmd) : List Nat :=
  let x := k.spans.headD ⟨0, 0, 0⟩
  (List.range ((x.len + 63) / 64)).filter fun g => s.readBad (k.key (x.src + 64 * g)) (min 64 (x.len - 64 * g))

/-- A member joins its team's next collective, and its part goes to the packages of the others (11 R357, R359). -/
def State.joinColl (s : State) (c : Nat) (k : CopyCmd) : State := match s.launchOf c with
  | none => s
  | some l =>
    let q := collOf k.record
    match l.team c q.team with
    | none => s
    | some t =>
      let n := (tabGet (s.core c).colls (teamKey t)).getD 0 + 1
      let rank := (q.pkl.take (q.npk + 1)).findIdx (· == 0)
      let size := t.2.2.1 * t.2.2.2
      let m := rank * size + (coreX c - l.x0 - t.1) + t.2.2.1 * (coreY c - l.y0 - t.2.1)
      let y : Member := { m := m, core := c, cmd := k.id, record := k.record }
      let part : Part := { m := m, digest := digestOf k.record, bytes := s.shardBytes k, bad := s.shardBad k, tile := tileOf c }
      let out := ((q.pkl.take (q.npk + 1)).filter (· != 0)).map fun ap => (ap, Note.part l.ctx t n part)
      let s := (s.modCore c fun x => { x with colls := tabSet x.colls (teamKey t) n }).modCopy c k.id fun k => { k with taken := some ([], []) }
      let s := { s with outbox := s.outbox ++ out }
      match s.colls.find? fun x => x.lid == l.lid && x.team == t && x.k == n with
      | some x => { s with colls := updIf (·.id == x.id) (fun x => { x with members := x.members ++ [y] }) s.colls }
      | none => { s with colls := s.colls ++ [{ id := s.nextColl, lid := l.lid, k := n, team := t, size := size, members := [y], at_ := 0 }]
                         nextColl := s.nextColl + 1 }

/-- Every collective command of a core whose data may move joins, in issue order (08 R246, R250; 11 R357); none while its core stops for a
pre-emption (R349). -/
def State.armColls (s : State) (c : Nat) : State :=
  (s.core c).copies.foldl (fun (s : State) k => match (s.core c).copy? k.id with
    | some k => if k.kind == .coll && k.passed && !k.joined && !k.finished && s.mayMove c k
        && !(s.core c).copies.any fun j => decide (j.id < k.id) && j.kind == .coll && !j.joined && !j.finished
      then s.joinColl c k else s
    | none => s) s

/-! ## Digest -/

/-- A collective in a launch that runs, by number. -/
def State.coll? (s : State) (id : Nat) : Option Coll := (s.colls.find? (·.id == id)).filter fun x =>
  match s.launch? x.lid with
  | some l => l.stage == .running || l.stage == .preempting
  | none => false

/-- Its launch has not stopped to be pre-empted (11 R349). -/
def State.collRuns (s : State) (x : Coll) : Bool := match s.launch? x.lid with
  | some l => l.stage == .running
  | none => false

/-- Every member has sent its digest. -/
def Coll.full (x : Coll) : Bool :=
  decide (x.members.length = x.size) && decide (x.q.npk * x.size ≤ x.parts.length)

/-- Every digest equals member 0's; the apertures that a peer counts in are its own (11 R357). The number k, which the digest holds too, is that of the
collective: a part with another is another collective's. -/
def Coll.agrees (x : Coll) : Bool :=
  x.members.all (fun y => digestOf y.record == digestOf x.record) && x.parts.all fun p => p.digest.take 16 == x.record.take 16

/-- COLLECTIVE_DIGEST: member 0 has every digest: a mismatch ends the collective, otherwise its data moves for a free time
(11 R357, R359; notes/assumptions/4.md). -/
def Coll.digestDue (x : Coll) : Bool := !x.digested && x.status.isNone && x.full

/-- See `Coll.digestDue`. -/
def execCollectiveDigest (s : State) : Host.Outcome State Fault Refusal := match s.coll? s.on.a with
  | none => .fault .eventNotDue
  | some x =>
    if !x.digestDue ∨ !s.collRuns x then .fault .eventNotDue
    else if x.agrees then
      let t := s.chosen.modColl x.id fun x => { x with digested := true, at_ := s.now + s.choice 1 65536 }
      .next (x.members.foldl (fun (t : State) y => t.modCopy y.core y.cmd fun k => { k with started := true }) t)
    else .next (s.modColl x.id fun x => { x with digested := true, status := some (4, 0) })

/-! ## Combination -/

/-- The source element of member `m` for global element (r, c): its bits, and whether its read is bad. -/
def State.collSource (s : State) (x : Coll) (m r c : Nat) : Nat × Bool :=
  let q := x.q
  let sh := q.shard q.srcl x.axes
  let w := q.width / 8
  let off := ((r % sh.1) * sh.2 + c % sh.2) * w
  match x.members.find? (·.m == m) with
  | some y => match (s.core y.core).copy? y.cmd with
    | some k =>
      let key := k.key ((collOf y.record).src + off)
      (memRead s.mem key w, s.readBad key w)
    | none => (0, false)
  | none => match x.parts.find? (·.m == m) with
    | some p => (recField p.bytes off w, p.bad.contains (off / 64))
    | none => (0, false)

/-- Whether the contribution of a member has arrived. -/
def Coll.has (x : Coll) (m : Nat) : Bool := x.members.any (·.m == m) || x.parts.any (·.m == m)

/-- Whether a member contributes: its contribution has arrived, and no release has left it out (11 R362). -/
def Coll.counts (x : Coll) (m : Nat) : Bool := x.has m && (match x.only with | some l => l.contains m | none => true)

/-- Whether element bits are a NaN or an infinity (11 R360). -/
def CollRec.nonFinite (q : CollRec) (b : Nat) : Bool :=
  q.opc != 4 && ((q.type == 0 && b / 2 ^ 23 % 256 == 255) || (q.type == 2 && b / 2 ^ 7 % 256 == 255))

/-- The combination of two partial values (04 R128); BF16 sums run in FP32. -/
def CollRec.comb (q : CollRec) (a b : Nat) : Nat :=
  let t := if q.type = 2 then ElemType.bf16 else if q.type = 4 then .int32 else .fp32
  if q.opc = 1 then
    if q.type = 4 then (a + b) % 2 ^ 32 else fp32F.round .rne false ((fp32F.decode a).add false (fp32F.decode b))
  else combExt (q.opc == 2) t 0 a b

/-- The value of an element from its contributions in ascending member order (04 R128). -/
def CollRec.combine (q : CollRec) (vs : List Nat) : Nat :=
  let wide := q.opc == 1 && q.type == 2
  match vs.map fun v => if wide then v * 65536 else v with
  | [] => 0
  | a :: t =>
    let r := t.foldl q.comb a
    if wide then bf16F.round .rne false (fp32F.decode r) else r

/-- The global row and column of an element of member `m`'s destination shard, by its index there. -/
def Coll.place (x : Coll) (m i : Nat) : Nat × Nat :=
  let sh := x.q.shard x.q.dstl x.axes
  (blockOf x.q.dstl 2 x.axes m * sh.1 + i / sh.2, blockOf x.q.dstl 3 x.axes m * sh.2 + i % sh.2)

/-- An element of member `m`'s destination shard, by its index there: the contributions, as (member, bits, bad). -/
def State.collElem (s : State) (x : Coll) (m i : Nat) : List (Nat × Nat × Bool) :=
  let p := x.place m i
  ((x.q.contributors x.axes m p.1 p.2).filter x.counts).map fun n => let v := s.collSource x n p.1 p.2; (n, v.1, v.2)

/-- The elements of a destination shard. -/
def Coll.elems (x : Coll) : Nat := let sh := x.q.shard x.q.dstl x.axes; sh.1 * sh.2

/-- Where a NaN or an infinity stands first: its chunk, the element's index, and the lowest member that contributed one there
(11 R360). -/
def State.collHalt (s : State) (x : Coll) : Option (Nat × Nat × Nat) :=
  let q := x.q
  let hits := (List.range x.total).flatMap fun m => (List.range x.elems).flatMap fun i =>
    ((s.collElem x m i).filter fun v => q.nonFinite v.2.1).map fun v => (i * (q.width / 8) / 256, i, v.1)
  match minBy? (fun h => h.2.1) hits with
  | none => none
  | some h => some (h.1, h.2.1, ((hits.filter fun g => g.2.1 == h.2.1).map (·.2.2)).foldl min h.2.2)

/-- Write a member's destination shard below byte `top`; an element from bad data poisons its granule (13 R391). -/
def State.collWrite (s t : State) (x : Coll) (y : Member) (top : Nat) : State :=
  let q := x.q
  let w := q.width / 8
  match (s.core y.core).copy? y.cmd with
  | none => t
  | some k =>
    let per := 64 / w
    (List.range ((x.elems + per - 1) / per)).foldl (fun (t : State) g =>
      let vs := (((List.range per).map (g * per + ·)).filter (· < x.elems)).filterMap fun i =>
        let vs := s.collElem x y.m i
        if top ≤ i * w ∨ (x.released ∧ vs.isEmpty) then none else some (i, vs)
      let value := fun (v : Nat × List (Nat × Nat × Bool)) => toBytes w (q.combine (v.2.map (·.2.1)))
      let key := fun (i : Nat) => k.key ((collOf y.record).dst + i * w)
      let t := if vs.length = per then t.writeHome (key (g * per)) (vs.flatMap value)
        else vs.foldl (fun (t : State) v => t.writeHome (key v.1) (value v)) t
      if vs.any fun v => v.2.any (·.2.2) then { t with poison := addOnce t.poison (key (g * per) / 64) } else t) t

/-- The members whose source reads were bad. -/
def State.collBad (s : State) (x : Coll) : List Nat :=
  ((List.range x.total).flatMap fun m => (List.range x.elems).flatMap fun i =>
    ((s.collElem x m i).filter (·.2.2)).map (·.1)).foldl addOnce []

/-- The destination pages of every member that has joined may be written (08 R247). -/
def State.collOpen (s : State) (x : Coll) : Bool := x.members.all fun y => match (s.core y.core).copy? y.cmd with
  | some k => k.passed
  | none => true

/-- Every member of this package whose source was bad traps at its copy stream's next slot (13 R391). -/
def State.oweBad (s t : State) (x : Coll) : State :=
  let bad := s.collBad x
  x.members.foldl (fun (t : State) y => if bad.contains y.m then match (t.core y.core).copy? y.cmd with
      | some k => t.owe y.core { k.poisonInfo with code := cause 5 4 1, engine := 6, unit := tileOf y.core }
      | none => t
    else t) t

/-- What reading the sources of this package's members leaves behind (13 R391). -/
def State.readShards (s : State) (x : Coll) : State := x.members.foldl (fun (t : State) y => match (s.core y.core).copy? y.cmd with
    | some k => let sh := x.q.shard x.q.srcl x.axes
      t.readPages k (collOf y.record).src (sh.1 * sh.2 * (x.q.width / 8))
    | none => t) s

/-- Combine, or move, the whole collective: every member's shard is written, up to the chunk that holds a NaN or an infinity
(11 R356, R358, R360). -/
def State.runColl (s : State) (x : Coll) : State :=
  let halt := if x.q.opc = 4 then none else s.collHalt x
  let top := match halt with | some h => 256 * h.1 | none => x.elems * (x.q.width / 8)
  let t := x.members.foldl (fun (t : State) y => s.collWrite t x y top) (s.readShards x)
  (s.oweBad t x).modColl x.id fun x => { x with status := some (match halt with | some h => (1, h.2.2) | none => (0, 0)) }

/-- A collective of kind `opc` whose data has had its time. -/
def State.collEvent (s : State) (opc : Nat) : Host.Outcome State Fault Refusal := match s.coll? s.on.a with
  | none => .fault .eventNotDue
  | some x =>
    if !x.digested || x.status.isSome || x.q.opc != opc || decide (s.now < x.at_) || !s.collOpen x then .fault .eventNotDue
    else .next (s.runColl x)

/-- COLLECTIVE_SUM (11 R358). -/
def execCollectiveSum (s : State) : Host.Outcome State Fault Refusal := s.collEvent 1
/-- COLLECTIVE_MAX (11 R358). -/
def execCollectiveMax (s : State) : Host.Outcome State Fault Refusal := s.collEvent 2
/-- COLLECTIVE_MIN (11 R358). -/
def execCollectiveMin (s : State) : Host.Outcome State Fault Refusal := s.collEvent 3
/-- COLLECTIVE_MOVE (11 R356). -/
def execCollectiveMove (s : State) : Host.Outcome State Fault Refusal := s.collEvent 4

/-! ## Completion -/

/-- The trap that a member takes with its status, at its copy stream's next slot (11 R357, R360, R361). -/
def Coll.trapFor (x : Coll) (m st who : Nat) : Option Nat :=
  if st = 4 then some (cause 4 7 0)
  else if st = 3 then some (cause 4 x.q.kindOf 2)
  else if st = 1 ∧ m = who then some (cause 4 x.q.kindOf 1)
  else none

/-- A member that comes after a release takes what the release combined for it, and the bitmap after it (11 R362). -/
def State.writeKept (s : State) (x : Coll) (y : Member) (k : CopyCmd) : State := match tabGet x.kept y.m with
  | none => s
  | some l =>
    let q := collOf y.record
    let t := l.foldl (fun (t : State) e =>
      let key := k.key (q.dst + e.1)
      let t := t.writeHome key e.2.1
      if e.2.2 then { t with poison := addOnce t.poison (key / 64) } else t) s
    t.vwrite y.core k (q.dst + x.elems * (x.q.width / 8)) x.map

/-- COLLECTIVE_COMPLETION: a member's STATUS and WHO are written into its record, its command completes, and it traps where its status
says so (11 R354, R357, R360-R362). -/
def execCollectiveCompletion (s : State) : Host.Outcome State Fault Refusal := match s.coll? s.on.a with
  | none => .fault .eventNotDue
  | some x => match x.status, x.members.find? (fun y => y.m == s.on.b && !y.done) with
    | some (st, who), some y => match (s.core y.core).copy? y.cmd with
      | none => .next (s.modColl x.id fun x => { x with members := updIf (·.m == y.m) (fun z => { z with done := true }) x.members })
      | some k =>
        let s := (s.writeKept x y k).modCore y.core fun q => q.putBytes (k.recAddr + 40) (toBytes 4 st ++ toBytes 2 who ++ toBytes 2 0)
        let s := s.finishCopy y.core k.id
        let s := match x.trapFor y.m st who with
          | some code => s.owe y.core { code := code, st := .copy, cmd := k.before.step, engine := 5, unit := k.ch, cyc := k.issued
                                        stat := BitVec.ofNat 32 who, xpc := some k.before.pc }
          | none => s
        let members := updIf (·.m == y.m) (fun z => { z with done := true }) x.members
        .next (if members.all (·.done) ∧ members.length = x.size then { s with colls := s.colls.filter (·.id != x.id) }
          else s.modColl x.id fun x => { x with members := members })
    | _, _ => .fault .eventNotDue

/-! ## Deadlines -/

/-- The context of a collective is in release mode (11 R362, 12 R383). -/
def State.collReleases (s : State) (x : Coll) : Bool := (s.ctx (s.collCtx x)).flags.getLsbD 0

/-- In normal service, a member of a timed launch whose collective is incomplete at its DEADLINE, on its own count (11 R359). -/
def State.collLate (s : State) (x : Coll) (y : Member) : Bool :=
  let d := (collOf y.record).deadline
  let c := s.core y.core
  d != 0 && !s.collReleases x && !y.done && !y.late && s.timedAt y.core && !c.frozen && !c.stopped && c.trap.isNone && decide (d ≤ c.cyc)

/-- COLLECTIVE_DEADLINE: deadline passed at the member; the collective goes on (11 R359). -/
def execCollectiveDeadline (s : State) : Host.Outcome State Fault Refusal := match s.coll? s.on.a with
  | none => .fault .eventNotDue
  | some x => match x.members.find? fun y => y.m == s.on.b && s.collLate x y with
    | none => .fault .eventNotDue
    | some y => .next ((s.modColl x.id fun x => { x with members := updIf (·.m == y.m) (fun y => { y with late := true }) x.members }).raiseAt y.core
        { code := cause 2 6 3, st := .copy, cmd := (s.core y.core).cpy.step, engine := 5, cyc := (s.core y.core).time })

/-- Release mode, and member 0's DEADLINE has passed before every contribution has come; in another package than member 0's, that one has said
who contributes, and their contributions are here (11 R362). -/
def State.releaseDue (s : State) (x : Coll) : Bool :=
  !x.digested && x.status.isNone && !x.members.isEmpty && x.q.opc != 4 && match x.only with
    | some l => l.all x.has
    | none => s.collReleases x && match x.members.find? (·.m == 0) with
      | some y => (collOf y.record).deadline != 0 && decide ((collOf y.record).deadline ≤ (s.core y.core).cyc)
      | none => false

/-- The contributor set. -/
def Coll.contributing (x : Coll) : List Nat := (List.range x.total).filter x.counts

/-- The bitmap of the contributors, rounded up to 64 bytes (11 R362). -/
def Coll.contributorMap (x : Coll) : List Byte :=
  toBytes (((x.total + 7) / 8 + 63) / 64 * 64) (x.contributing.foldl (fun n m => n + 2 ^ m) 0)

/-- What a release has for a member of this package that has not come: its elements below byte `top`, by offset. -/
def State.keptFor (s : State) (x : Coll) (m top : Nat) : List (Nat × List Byte × Bool) :=
  let q := x.q
  let w := q.width / 8
  (List.range x.elems).filterMap fun i =>
    let vs := s.collElem x m i
    if top ≤ i * w ∨ vs.isEmpty then none else some (i * w, toBytes w (q.combine (vs.map (·.2.1))), vs.any (·.2.2))

/-- DEADLINE_RELEASE: the collective completes over the contributor set, with STATUS 2, the count and the bitmap; a straggler takes its shard when
it comes. Member 0's package tells the others who contributes. A contribution that holds a NaN or an infinity halts it as R360 says (11 R360, R362; DEDUCED, notes/assumptions/32.md). -/
def execDeadlineRelease (s : State) : Host.Outcome State Fault Refusal := match s.coll? s.on.a with
  | none => .fault .eventNotDue
  | some x =>
    if !s.releaseDue x || !s.collOpen x then .fault .eventNotDue
    else
      let x := { x with released := true, only := some x.contributing }
      let n := x.contributing.length
      let w := x.q.width / 8
      let halt := s.collHalt x
      let top := match halt with | some h => 256 * h.1 | none => x.elems * w
      let map := if halt.isSome then [] else x.contributorMap
      let rank := (x.q.pkl.take (x.q.npk + 1)).findIdx (· == 0)
      let away := ((List.range x.size).map (rank * x.size + ·)).filter fun m => !x.members.any (·.m == m)
      let t := s.oweBad (x.members.foldl (fun (t : State) y => s.collWrite t x y top) (s.readShards x)) x
      let t := x.members.foldl (fun (t : State) y => match (t.core y.core).copy? y.cmd with
        | some k => t.vwrite y.core k ((collOf y.record).dst + x.elems * w) map
        | none => t) t
      let out := if rank = 0 then ((x.q.pkl.take (x.q.npk + 1)).filter (· != 0)).map fun ap =>
        (ap, Note.released (s.collCtx x) x.team x.k x.contributing) else []
      .next (State.post { (t.modColl x.id fun z => { z with
        digested := true, released := true, only := x.only, status := some (match halt with | some h => (1, h.2.2) | none => (2, n))
        kept := away.map fun m => (m, s.keptFor x m top), map := map }) with outbox := t.outbox ++ out } (s.collCtx x) (cause 4 x.q.kindOf 4) 0 n)

/-! ## Losses -/

/-- Member `a` contributes to an element of member `b`'s destination shard. -/
def Coll.feeds (x : Coll) (a b : Nat) : Bool := (List.range x.elems).any fun i =>
  let p := x.place b i
  (x.q.contributors x.axes b p.1 p.2).contains a

/-- Member `y` of a collective moves data on a handle: what it sends to, or takes from, a member of the tile, or of the package, at the handle's
other end (11 R359, R361). -/
def State.collUses (s : State) (x : Coll) (h : Handle) (y : Member) : Bool :=
  let at_ := fun (l : Nat) (z : Member) => !isFibre l && landingTile l == tileOf z.core
  let beyond := fun (l m : Nat) => isFibre l && s.samePeer (x.q.pkl.getD (m / x.size) 0) (s.facing l)
  let ends := fun (l : Nat) (f : Nat → Bool) => (x.members.any fun z => at_ l z && f z.m) || ((List.range x.total).any fun m => beyond l m && f m)
  (at_ h.src y && h.dsts.any fun d => ends d fun m => x.feeds y.m m) || ((h.dsts.any fun d => at_ d y) && ends h.src fun m => x.feeds m y.m)

/-- The members that move data on a handle and have not completed. -/
def State.collUsers (s : State) (x : Coll) (h : Handle) : List Member := x.members.filter fun y => !y.done && s.collUses x h y

/-- CHUNK_RERUN: endpoints rerun chunks after a loss of what they travel on; the results are the same. With `flag` what is lost is a handle that
joined the landings `list`, and only a collective that moves data on it reruns (11 R361). -/
def execChunkRerun (s : State) : Host.Outcome State Fault Refusal := match s.coll? s.on.a with
  | none => .fault .eventNotDue
  | some x =>
    let lost : Handle := { src := s.on.list.headD 0, dsts := s.on.list.tail }
    if !x.digested || x.status.isSome || (s.on.flag && (s.collUsers x lost).isEmpty) then .fault .eventNotDue
    else
      let s' := s.chosen.modColl x.id fun x => { x with at_ := max x.at_ (s.now + s.choice 1 65536) }
      .next (s'.post (s.collCtx x) (cause 4 x.q.kindOf 3) 0 x.k)

/-- Whether member `m`'s package has become unreachable past holdover or is revoked (11 R361, 12 R372). -/
def State.memberGone (s : State) (x : Coll) (m : Nat) : Bool :=
  let pk := x.q.pkl.getD (m / x.size) 0
  pk != 0 && decide (m < x.total) && (s.expired || !s.reachable pk)

/-- MEMBER_LOST: a member cannot be reached, and every other completes with STATUS 3 (11 R361). -/
def execMemberLost (s : State) : Host.Outcome State Fault Refusal := match s.coll? s.on.a with
  | none => .fault .eventNotDue
  | some x =>
    if x.status.isSome || !s.memberGone x s.on.b then .fault .eventNotDue
    else .next (s.modColl x.id fun x => { x with status := some (3, s.on.b) })

/-! ## Windows -/

/-- The window of a handle has ended (10 R310). -/
def State.windowOver (s : State) (h : Nat) : Bool :=
  let x := s.handle h
  x.st == .windowed && match x.window with | some w => decide (w.2 ≤ s.handleCount h) | none => true


/-- WINDOW_END: the handle is live again; members of a collective that still moves data on it take window overrun, and what remains
moves by the service ring (10 R310, 11 R361). -/
def execWindowEnd (s : State) : Host.Outcome State Fault Refusal :=
  let h := s.on.a
  let x := s.handle h
  if !s.windowOver h then .fault .eventNotDue
  else
    let s1 := s.modHandle h fun x => { x with st := .live, window := none }
    let moving := s.colls.filter fun k => k.lid == x.lid && k.digested && k.status.isNone
    .next (moving.foldl (fun (s : State) k => (s.collUsers k x).foldl (fun (s : State) y =>
      s.owe y.core { code := cause 4 k.q.kindOf 6, st := .copy, cmd := (s.core y.core).cpy.step, engine := 5, unit := h
                     cyc := (s.core y.core).time }) s) s1)

end Sys2Proof.Machine
end

