-- ==== Sys2Proof/Machine/HostPort.lean ====
section
/-! DEFINITION. Event records, interrupts, the status page, and accesses from the host and from peers (11 R336, R337; 12 R368, R385-R387). -/

namespace Sys2Proof.Machine

/-! ## Events (12 R385) -/

/-- An event record. -/
def State.eventRecord (s : State) (ring code place stat count : Nat) : List Byte :=
  toBytes 8 (2 + 2 ^ 8 * (code % 512) + 2 ^ 20 * (ring % 16) + 2 ^ 32 * (count % 2 ^ 32)) ++ toBytes 8 s.dayc ++ toBytes 8 place
    ++ toBytes 4 stat ++ toBytes 36 0

/-- The newest record of a ring that the host has not read, if it is an event record. -/
def State.newestEvent (s : State) (ring : Nat) : Option (Nat × List Byte) :=
  let x := s.ring ring
  if x.ringR < x.ringW then
    let key := x.ringKey (x.ringW - 1)
    let r := memBytes s.mem key 64
    if recField r 0 1 = 2 then some (key, r) else none
  else none

/-- Write an event into its ring: merged into the newest unread record of its cause and place, dropped and counted when the ring is
full (12 R385). -/
def State.writeEvent (s : State) (ring code place stat : Nat) : State :=
  let same := match s.newestEvent ring with
    | some (key, r) => if recField r 0 4 / 256 % 512 = code ∧ recField r 16 8 = place then some (key, recField r 4 4) else none
    | none => none
  match same with
  | some (key, n) => s.writeHome (key + 4) (toBytes 4 (n + 1))
  | none =>
    if (s.ring ring).ringRoom then s.ringWrite ring (s.eventRecord ring code place stat 1)
    else s.modRing ring fun x => { x with dropped := x.dropped + 1 }

/-- EVENT_RECORD: the event (ring `a`, cause `b`, place `c`, status `d`) that a unit has raised goes to its ring (12 R385). -/
def execEventRecord (s : State) : Host.Outcome State Fault Refusal :=
  let e := (s.on.a, s.on.b, s.on.c, s.on.d)
  if s.events.contains e then .next ({ s with events := s.events.erase e }.writeEvent e.1 e.2.1 e.2.2.1 e.2.2.2)
  else .fault .eventNotDue

/-- Whether a ring's interrupt is to be signalled: the coalescing count, or the coalescing time since the first record (12 R385). -/
def State.irqDue (s : State) (ring : Nat) : Bool :=
  let x := s.ring ring
  decide (0 < x.sinceIrq) &&
    (decide (bits x.evtc 15 8 ≤ x.sinceIrq) || decide (x.firstIrq + nsUnits (1000 * bits x.evtc 31 16) ≤ s.wall))

/-- A function's MSI-X table: 32 vectors of 16 bytes at 0x8000 of BAR0, message address, data and control. -/
def msixBase : Nat := 0x8000

/-- Vector `v` of a function is masked: bit 0 of its control word, which is set until the host clears it. The spec gives the table's place and
its 32 vectors; their layout is PCI Express's (01 R24, 12 R386; PRESUMED, notes/assumptions/36.md). -/
def Context.masked (x : Context) (v : Nat) : Bool := match tabGet x.msix (msixBase + 16 * v + 8) with
  | some w => w.testBit 32
  | none => true

/-- Signal vector `v` of a function: its message is sent, or waits behind the mask bit (01 R24; PRESUMED, notes/assumptions/36.md). -/
def Context.signal (x : Context) (v : Nat) : Context :=
  if x.masked v then { x with irqPending := addOnce x.irqPending v }
  else { x with irqs := tabSet x.irqs v ((tabGet x.irqs v).getD 0 + 1), irqPending := x.irqPending.filter (· != v) }

/-- The vector of a ring's interrupt (12 R383). -/
def Context.vector (x : Context) : Nat := bits x.evtc 36 32

/-- MSIX_INTERRUPT of a function, by the vector of its ring (01 R24, 12 R383, R385). -/
def execMsixInterrupt (s : State) : Host.Outcome State Fault Refusal :=
  if !s.irqDue s.on.a then .fault .eventNotDue
  else .next (s.modRing s.on.a fun x => { x with sinceIrq := 0 }.signal x.vector)

/-! ## The status page (12 R387) -/

/-- DONE: the largest identifier with every one up to it complete. -/
def State.doneUpTo (s : State) (ctx : Nat) : Nat :=
  (s.launches.filter fun l => l.ctx == ctx && l.cid != 0).foldl (fun n l => min n (l.cid - 1)) (s.ctx ctx).assigned

/-- The package status word: replace-requested and holdover are set where they happen, clock lowered follows the clock. -/
def State.packageStatus (s : State) : Nat := (s.pkstat &&& 0b1011#4).toNat + if s.clock < 8 then 4 else 0

/-- The quays of a context, in the order of their registration. -/
def State.quaysOf (s : State) (ctx : Nat) : List Nat := (s.quays.map (·.1)).filter fun n => s.quayCtx n == some ctx

/-- The RIDX of a context's quay `q`. -/
def State.ridx (s : State) (ctx q : Nat) : Nat := match (s.quaysOf ctx)[q]? with
  | some n => recField (s.quay n) 8 8
  | none => 0

/-- A word of the status page of a context. -/
def State.statusWord (s : State) (ctx off : Nat) : Nat :=
  let x := s.ctx ctx
  let b := fun (v : Bool) (i : Nat) => if v then 2 ^ i else 0
  match off with
  | 0x00 => b (x.root.getLsbD 0) 0 + b (x.flags.getLsbD 0) 1 + b (!(s.runningOf ctx).isEmpty) 2
      + b (s.apertures.any fun a => a.2.quarantine) 3
  | 0x08 => s.doneUpTo ctx
  | 0x10 => x.ringW
  | 0x18 => s.dayc
  | 0x20 => s.packageStatus
  | 0x28 => s.ridx ctx 0
  | 0x30 => s.ridx ctx 1
  | 0x38 => s.ridx ctx 2
  | 0x40 => s.ridx ctx 3
  | 0x48 => x.dropped
  | 0x50 => x.trapsTaken
  | 0x58 => x.refused
  | _ => 0

/-! ## Accesses from outside -/

/-- A write of a word of a function's MSI-X table; a vector that it unmasks and that waits is sent. -/
def Context.writeMsix (x : Context) (off v : Nat) : Context :=
  let y := { x with msix := tabSet x.msix off v }
  let n := (off - msixBase) / 16
  if y.irqPending.contains n then y.signal n else y

/-- The 64-bit word that function `fn` presents at an offset of its BAR0; `none` where it is poison. The physical function, 16, has the status pages of
the 16 contexts, 256 bytes for each, and the package status in them (12 R386, R387; DESIGN CHOICE, notes/assumptions/3.md). A masked vector is how an
MSI-X entry reads before it is written (PRESUMED, notes/assumptions/36.md). -/
def State.bar0Word (s : State) (fn off : Nat) : Option (List Byte) :=
  let x := s.ring fn
  if fn = 16 ∧ off < 0x1000 then some (toBytes 8 (s.statusWord (off / 256) (off % 256)))
  else if off < 0x1000 then some (toBytes 8 (s.statusWord fn off))
  else if off < 0x1100 then match (s.quaysOf fn)[(off - 0x1000) / 64]? with
    | some n => s.homeBytes (pkey 0 (quayHeader n + off % 64)) 8
    | none => some (toBytes 8 0)
  else if off = 0x2000 then some (toBytes 8 x.ringR)
  else if msixBase ≤ off ∧ off < msixBase + 512 then
    some (toBytes 8 ((tabGet x.msix off).getD (if off % 16 = 8 then 2 ^ 32 else 0)))
  else some (toBytes 8 0)

/-- BAR0_ACCESS: with `flag` a read of the aligned 64-bit word at an offset; else a write of the ring's read index or of a word of the MSI-X table:
every other word takes no write, since the status page is read-only, and a quay header is written by the supervisor, its WIDX by AADD and its RIDX by
the launch unit alone. A read index above the write index is taken as the write index (DESIGN CHOICE, notes/assumptions/52.md). Function 16 is the
physical one (01 R24, 11 R336, 12 R386). -/
def execBar0Access (s : State) : Host.Outcome State Fault Refusal :=
  let off := s.on.b
  let v := s.on.word
  if s.on.flag then .next { s with answer := s.bar0Word s.on.a (off / 8 * 8) }
  else if off = 0x2000 then .next (s.modRing s.on.a fun x => { x with ringR := min v.toNat x.ringW })
  else if msixBase ≤ off ∧ off < msixBase + 512 ∧ off % 8 = 0 then .next (s.modRing s.on.a fun x => x.writeMsix off v.toNat)
  else .next s

/-- The access bytes of an outside access, its address, and whether it writes. -/
def outsideParts : OutsideAccess → Nat × Nat × Bool
  | .read a n => (a, n, false)
  | .write a b => (a, b.length, true)
  | .fetchAdd a _ => (a, 8, true)

/-- Perform an outside access at a key of memory, and answer it (12 R386; 09 R281 for the atomic). -/
def State.outsideAt (s : State) (key : Nat) : OutsideAccess → State
  | .read _ n => { s.readEffects key n with answer := s.homeBytes key n }
  | .write _ b => s.writeHome key b
  | .fetchAdd _ v => { (s.readEffects key 8).writeHome key (toBytes 8 (memRead s.mem key 8 + v.toNat)) with answer := s.homeBytes key 8 }

/-- An access from outside completes with Completer Abort, and is counted (12 R386). -/
def State.outsideRefused (s : State) (ctx : Nat) : OutsideAccess → State
  | .write _ _ => s.modCtx ctx fun x => { x with refused := x.refused + 1 }
  | _ => { s with answer := none }.modCtx ctx fun x => { x with refused := x.refused + 1 }

/-- The size of the BAR2 window. -/
def bar2Size : Nat := 2 ^ 26

/-- BAR2_ACCESS: through the context's tables with aperture 0 only; an access that may not be made completes with Completer Abort,
writes nothing and is counted (12 R386). One that waits for a snapshot copy is tried again a tick later. -/
def execBar2Access (s : State) : Host.Outcome State Fault Refusal :=
  let ctx := s.on.a % 16
  let p := outsideParts s.on.access
  let va := (s.ctx ctx).bar2 + p.1
  let refuse := s.outsideRefused ctx s.on.access
  let need : Need := match s.on.access with | .read _ _ => .read | .write _ _ => .write | .fetchAdd _ _ => .atomic false
  if bar2Size < p.1 + p.2.1 then .next refuse
  else match s.translate 0 ctx va need false with
    | .bad _ => .next refuse
    | .ok l =>
      if l.ap ≠ 0 ∨ l.size < va % l.size + p.2.1 then .next refuse
      else if !p.2.2 then .next (s.outsideAt (l.key va) s.on.access)
      else match s.gate ctx va l none with
        | .go s' => .next (s'.outsideAt (l.key va) s.on.access)
        | .wait s' => .next (s'.plan 1 .bar2Access s.on)
        | .full s' _ => .next (s'.outsideRefused ctx s.on.access)

/-- HOST_FETCHADD: on WIDX of the context's quay `b`, completed as an AADD at its home (12 R386, 11 R337). -/
def execHostFetchadd (s : State) : Host.Outcome State Fault Refusal :=
  match (s.quaysOf (s.on.a % 16))[s.on.b]? with
  | some n =>
    let key := pkey 0 (quayHeader n)
    .next (s.outsideAt key (.fetchAdd 0 s.on.word))
  | none => .next (s.outsideRefused (s.on.a % 16) (.fetchAdd 0 0))

/-- Whether the aperture table names a rack number, so that its package is served (12 R368, R372). -/
def State.namesPeer (s : State) (rack : Nat) : Bool :=
  s.apertures.any fun a => decide (1 ≤ a.1 ∧ a.1 ≤ 254) && a.2.valid && !a.2.revoked && !a.2.quarantine && a.2.rack == rack

/-- Whether an access of the package with a rack number can come now: a helm's in a service minute, from the package that a fibre landing faces or
by way of it, and a copy's in the program's portion of an hour in which a fibre landing faces it (01 R23, 10 R331). -/
def State.peerComes (s : State) (rack : Nat) : Bool :=
  let faced := s.apertures.any fun a => a.2.valid && a.2.rack == rack && s.facesPeer a.1
  let lit := s.apertures.any fun a => a.2.valid && s.facesPeer a.1
  (s.inMinute && lit) || (decide (3000 ≤ s.hourOff) && !s.expired && faced)

/-- REMOTE_ACCESS_REQUEST: a peer's access to this package's memory, served only when the aperture table names the peer (10 R331, 12 R368). -/
def execRemoteAccessRequest (s : State) : Host.Outcome State Fault Refusal :=
  let p := outsideParts s.on.access
  if !s.peerComes s.on.a then .fault .eventNotDue
  else if s.namesPeer s.on.a && backed p.1 && backed (p.1 + p.2.1 - 1) then .next (s.outsideAt (pkey 0 p.1) s.on.access)
  else .next (match s.on.access with | .write _ _ => s | _ => { s with answer := none })

end Sys2Proof.Machine
end

