-- ==== Sys2Proof/Machine/Clocks.lean ====
section
/-! DEFINITION. QSEND arrivals, interrupts, words of no instruction, the core clock, and boot (01 R16, R27; 03 R87; 05 R158;
12 R380; 13 R396, R412). -/

namespace Sys2Proof.Machine

/-! ## QSEND arrivals -/

/-- A launch's core takes arrivals: it holds its cores and the core's count runs or has run to here. -/
def State.arrivesNow (s : State) (q : QSend) : Bool := match s.launchOf q.dst with
  | some l => l.holdsCores && !(s.core q.dst).held && decide (q.due ≤ (s.core q.dst).cyc)
  | none => true

/-- A handoff register may be filled at the end of this cycle: empty, with no local write on its way (05 R158). -/
def Core.qFillable (c : Core) (q : BitVec 5) : Bool := !(vGet q c.qfull) && !c.flights.any fun f => f.eff.writesQ q

/-- Whether a QSEND's value arrives now, or one that waits may be filled (05 R158). -/
def State.qsendDue (s : State) (q : QSend) : Bool :=
  s.arrivesNow q && (!q.waiting || (s.core q.dst).qFillable q.q)

/-- QSEND_ARRIVAL: an empty register is filled; otherwise the value is discarded with full-register overwrite in timed mode, and waits in
elastic mode. An open phase of the target can then not be rerun (05 R158, 13 R396). -/
def execQsendArrival (s : State) : Host.Outcome State Fault Refusal := match s.qsends.find? (·.id == s.on.a) with
  | none => .fault .eventNotDue
  | some q =>
    if !s.qsendDue q then .fault .eventNotDue
    else
      let gone := { s with qsends := s.qsends.filter (·.id != q.id) }
      let spoil := fun (k : Core) => { k with phase := k.phase.map fun p => { p with unrecoverable := true } }
      if (s.core q.dst).qFillable q.q then
        .next (gone.modCore q.dst fun k => (spoil k).putQ q.q q.v)
      else if s.timedAt q.dst then
        .next (gone.raiseAt q.dst { code := cause2 .helm fullC, st := .helm, cmd := (s.core q.dst).helm.step, cyc := (s.core q.dst).cyc })
      else .next ({ s with qsends := updIf (·.id == q.id) (fun q => { q with waiting := true }) s.qsends }.modCore q.dst spoil)

/-! ## Interrupts and words of no instruction -/

/-- The schedule position of a stream's next word, whose IDLE is `idle`: from the word before it, or as a rerun or a resynchronisation
set it (02 R35, R441; 13 R398). -/
def StreamSt.position (x : StreamSt) (idle : Nat) : Nat := match x.posAt with
  | some p => p
  | none => max (x.posBase + idle) x.posMin

/-- A posted interrupt is taken at this slot, of the program or of a handler: its position has come, and no branch is in the pipe (12 R374,
R380). -/
def State.interruptDue (s : State) (c pos : Nat) : Bool :=
  let k := s.core c
  k.runs .helm && !k.helm.ended && k.helm.wait.isNone && k.helmSt.ncount == 0 && match k.interrupt with
    | some (_, t) => decide (t ≤ pos)
    | none => false

/-- INTERRUPT_TAKEN: the helm of core `a` takes its interrupt at the slot of position `cur.pos`, before that slot's word issues
(12 R380). -/
def execInterruptTaken (s : State) : Host.Outcome State Fault Refusal :=
  let c := s.on.a
  match s.interruptDue c s.cur.pos, (s.core c).interrupt with
  | true, some (tag, _) => .next ((s.modCore c fun k => { k with interrupt := none }).raiseAt c
      { code := cause 0 6 softC, st := .helm, cmd := (s.core c).helm.step, cyc := (s.core c).time, stat := tag })
  | _, _ => .fault .eventNotDue

/-- UNASSIGNED_OPCODE: a word whose OP its stream's map does not assign, or, with `flag`, one with a reserved bit set or a guard mode of
0b11 (02 R36 row 1; 03 R87). -/
def execUnassignedOpcode (s : State) : Host.Outcome State Fault Refusal :=
  .next (s.fault (cause0 s.cur.st (if s.on.flag then reservedC else unassignedC)))

/-! ## The core clock (01 R16, R27) -/

/-- Class 5, package services, thermal or power. -/
def thermalC : Nat := cause 5 7 7

/-- Decide a change of the clock: it takes effect at a free time (notes/assumptions/4.md). -/
def State.decideClock (s : State) (down : Bool) : State :=
  let t := s.choice 1 512
  { s.chosen with clockDue := some (s.now + t) }.plan t .clockChange { flag := down }

/-- THERMAL_OR_POWER: with `flag`, a limit is passed: the supervisor of every tile hears of it and the clock is to go down; without, both
limits hold again (01 R27). -/
def execThermalOrPower (s : State) : Host.Outcome State Fault Refusal :=
  if s.on.flag then
    if s.hot then .next s
    else
      let s := (List.range 8).foldl (fun (s : State) t => s.postSup thermalC t 0) s
      let s := { s with hot := true, limitAt := s.wall, lowAt := s.wall }
      .next (if 4 < s.clock ∧ s.clockDue.isNone then s.decideClock true else s)
  else if s.hot then .next { s with hot := false, limitAt := s.wall, thermal := false }
  else .next s

/-- A further step down is decided while a limit is exceeded and the clock is above 1.0 GHz (01 R27). -/
def State.stepDown (s : State) : State := if s.hot ∧ 4 < s.clock then s.decideClock true else s

/-- CLOCK_CHANGE: every running launch stops at the end of one cycle, the clock steps by 0.25 GHz, down to no less than 1.0 GHz and up to
2.0 GHz, and the launches restart within 4 µs of wall-clock time; a step whose ground has gone is not made, and one down is decided in
its place where a limit is exceeded (01 R16, R27; 02 R46). -/
def execClockChange (s : State) : Host.Outcome State Fault Refusal :=
  let down := s.on.flag
  let s0 := { s with clockDue := none }
  if s.clockDue.isNone then .fault .eventNotDue
  else if (down && (!s.hot || decide (s.clock ≤ 4))) || (!down && (s.hot || decide (8 ≤ s.clock))) then .next s0.stepDown
  else
    let clock := if down then s.clock - 1 else s.clock + 1
    let until_ := s.wall + s.choice 1 (nsUnits 4000 - 210)
    let s := { s0.chosen with clock := clock, lowAt := s.wall }
    let run := s.launches.filter fun l => l.stage == .running
    .next (run.foldl (fun (s : State) l => s.holdLaunch l until_) s).stepDown

/-- Both limits have held for 100 ms, and the clock is below 2.0 GHz. -/
def State.restoreDue (s : State) : Bool :=
  !s.hot && decide (s.clock < 8) && s.clockDue.isNone && decide (s.limitAt + nsUnits 100000000 ≤ s.wall)

/-- CLOCK_RESTORE: a step up is decided (01 R27). -/
def execClockRestore (s : State) : Host.Outcome State Fault Refusal :=
  if s.restoreDue then .next (s.decideClock false) else .fault .eventNotDue

/-- A limit is still exceeded 10 ms after the clock came to 1.0 GHz (01 R27). -/
def State.thermalDue (s : State) : Bool :=
  s.hot && decide (s.clock = 4) && !s.thermal && decide (s.lowAt + nsUnits 10000000 ≤ s.wall)

/-- THERMAL_TRAP: every running launch takes the fault as a trap, on every core, and no launch is started until both limits hold
(01 R27; DEDUCED, notes/assumptions/18.md). -/
def execThermalTrap (s : State) : Host.Outcome State Fault Refusal :=
  if !s.thermalDue then .fault .eventNotDue
  else .next ((s.launches.filter fun l => l.stage == .running).foldl (fun (s : State) l =>
    l.cores.foldl (fun (s : State) c => s.unitFault c thermalC) s) { s with thermal := true })

/-! ## Boot -/

/-- The landings that come up at boot: all but those that a failed bring-up has mapped out. -/
def State.bootLandings (s : State) : State :=
  (List.range 132).foldl (fun (s : State) l => if (s.landing l).failed then s else s.bringUp l) s

/-- The tiles' scan controllers take their first step 50 ms on (13 R400). -/
def State.bootScans (s : State) : State :=
  { s with tiles := s.tiles.map fun (t : TileSt) => { t with scanAt := s.wall + nsUnits 50000000 } }

/-- The pursers run their firmware where Config gives a start: the spec does not say where or when it starts (01 R14; DESIGN CHOICE,
notes/assumptions/7.md). A purser's helm that has none stays ended until a trap enters at `ptvec`. -/
def State.bootPursers (s : State) : State := (List.range 8).foldl (fun (s : State) t => match Config.purserStart t with
  | some a =>
    let pc := BitVec.ofNat 64 a
    s.modCore (purserOf t) fun k => { k with
      helm := { k.helm with pc := pc, ended := false, posBase := k.time, issueBase := k.time }
      helmSt := { npc := pc + 8, nnpc := pc + 16 } }
  | none => s) s

/-- CRC-32 of a list of bytes, the polynomial 0x04C11DB7 in reflected form, initial and final value all ones (13 R412 names it CRC-32 and no more;
PRESUMED, notes/assumptions/13.md). -/
def crc32 (b : List Byte) : Nat :=
  let bit := fun (c : Nat) => if c % 2 = 1 then (c / 2) ^^^ 0xEDB88320 else c / 2
  (b.foldl (fun c x => (List.range 8).foldl (fun c _ => bit c) (c ^^^ x.toNat)) 0xFFFFFFFF) ^^^ 0xFFFFFFFF

/-- A record of training values as the nonvolatile store keeps it: the values and their CRC-32 (13 R412). -/
def nvRecord (v : List Byte) : List Byte := v ++ toBytes 4 (crc32 v)

/-- The values of a record whose CRC-32 holds (13 R412). -/
def nvValues (r : List Byte) : Option (List Byte) :=
  let v := r.take (r.length - 4)
  if 4 ≤ r.length ∧ r.drop (r.length - 4) = toBytes 4 (crc32 v) then some v else none

/-- Train the stacks of a list in full, and store what training finds; the others take the values that are stored for them (13 R412). -/
def State.trainStacks (s : State) (full : Nat → Bool) (n : Nat) : State :=
  let value := fun (st : Nat) => if full st then Config.training n st else (nvValues (vAt s.nv st)).getD []
  { s with
    hbm := Vector.ofFn fun i => { s.hbm[i] with trained := true, training := value i.val }
    nv := Vector.ofFn fun i => if full i.val then nvRecord (Config.training n i.val) else s.nv[i] }

/-- COLD_BOOT: every stack is trained, every landing brought up, the day clock set to rack time, which is free here, and the pursers run
(01 R14; 10 R324, R330; 13 R412). -/
def execColdBoot (s : State) : Host.Outcome State Fault Refusal :=
  let r := State.reset
  let day : Int := Int.ofNat (s.choice 0 319999) - Int.ofNat s.ns
  .next (({ r with
    wall := s.wall, now := s.now, freeCtr := s.freeCtr + 1, booted := true, daycAdj := day }.trainStacks (fun _ => true) s.freeCtr)
      |>.bootLandings.bootScans.bootPursers)

/-- WARM_RESET: the stored training values are restored, and a stack whose CRC-32 fails, or that fails the pattern test of its pins (those of `list`), is
trained in full; every armed bit is set, and the row buffers are written back. What runs is lost; memory and what has been mapped out stay (13 R410, R412, R413; PRESUMED,
notes/assumptions/13.md). -/
def execWarmReset (s : State) : Host.Outcome State Fault Refusal :=
  let r := State.reset
  .next ({ r with
    wall := s.wall, now := s.now, freeCtr := s.freeCtr + 1, booted := true, clock := s.clock, nv := s.nv
    mem := s.mem, poison := s.poison, bad := s.bad
    daycAdj := s.daycAdj, daycHold := s.daycHold, dayError := s.dayError, holdover := s.holdover, expired := s.expired
    lastDawn := s.lastDawn, guardDone := s.guardDone, pkstat := s.pkstat, hot := s.hot, limitAt := s.limitAt, lowAt := s.lowAt
    thermal := s.thermal
    landings := s.landings.map fun (l : Landing) => { failed := l.failed, lastFail := l.lastFail }
    tiles := s.tiles.map fun (t : TileSt) => { map := t.map, spare := t.spare.or (t.scanning.map fun (x : Nat × Nat) => x.1)
                                               scanNext := t.scanNext, coverage := t.coverage
                                               badCores := t.badCores }
    hbm := s.hbm.map fun (x : Stack) => { x.clean with disarmed := [] } }.trainStacks
      (fun st => s.on.list.contains st || (nvValues (vAt s.nv st)).isNone) s.freeCtr |>.bootLandings.bootScans.bootPursers.stepDown)

end Sys2Proof.Machine
end

