-- ==== Sys2Proof/Machine/Matrix.lean ====
section
/-! DEFINITION. The matrix engine (07 R218-R229, 04 R123-R125). -/

namespace Sys2Proof.Machine

/-! ## Units, checks and results -/

/-- The matrix units: memory, array, output (07 R222). -/
def memoryU : Nat := 0
/-- See `memoryU`. -/
def arrayU : Nat := 1
/-- See `memoryU`. -/
def outputU : Nat := 2

/-- A word keeps clear of the occupancy of the word before it in its unit (07 R222). -/
def State.unitFree (s : State) (u : Nat) : Verdict := need (decide (vAt s.me.mbusy u ≤ s.cyc)) (cause2 .matrix fullC)

/-- A matrix word's results and its unit's occupancy (07 R222). -/
def State.mdone (s : State) (u occ : Nat) (effs : List (Nat × List Eff)) : State :=
  ((effs.foldl (fun (s : State) e => s.emit e.1 e.2) s).modMe fun c => { c with mbusy := vPut c.mbusy u (s.cyc + occ) }).advance

/-- No tile register of the list holds a parity error (13 R389, R390). -/
def State.tClean (s : State) (l : List (BitVec 4)) : Verdict := bar (l.any fun r => s.me.tBad.contains r.toNat) (cause 5 1 1)
/-- The same for an accumulator. -/
def State.aClean (s : State) (r : BitVec 2) : Verdict := bar (s.me.aBad.contains r.toNat) (cause 5 1 1)

/-- A tile register. -/
def State.tile4 (s : State) (r : BitVec 4) : Tile := vGet r s.me.tregs

/-- The address of an MMEM word (07 R223). -/
def State.maddr (s : State) (sb : SReg) (off : BitVec 14) : Int := s.lsBase sb + 64 * off.toInt

/-- The checks of an MMEM word of `n` bytes: `states` holds those of rows 4 and 5 (07 R223; 02 R442 for a tagged load). -/
def State.mmemChecks (s : State) (sb : SReg) (off : BitVec 14) (tg : BitVec 1) (reads : Bool) (n : Nat) (states : Verdict) :
    Verdict :=
  let a := s.maddr sb off
  let addr := verdicts [s.bad0 (decide (a % 64 ≠ 0)) alignC, s.bad0 (!inStore a n) rangeC]
  let slots := (List.range ((n + 1023) / 1024 + 1)).map fun i => min (a.toNat + 1024 * i) (a.toNat + n - 1)
  let clean := bar (reads && s.me.poisoned a.toNat n) (cause 5 0 1)
  if tg = 1 then verdicts [addr, states, s.unitFree memoryU,
      need ((slotsOf slots).all (s.me.tagOk (s.lsTag sb))) (cause2 .matrix tagC), clean]
  else verdicts [states, s.unitFree memoryU, addr, clean]

/-- Bytes of the local store as bits, the first byte lowest. -/
def State.lsBits (s : State) (a n w : Nat) : BitVec w := BitVec.ofNat w (memRead s.me.ls a n)

/-- The D field of MLDA and MSTA names an accumulator (07 R223). -/
def State.accField (s : State) (d : BitVec 4) : Verdict := s.bad0 (decide (4 ≤ d.toNat)) rangeC

/-- The interpretation that the current entry gives an accumulator: integer or not (07 R220). -/
def State.entryInt (s : State) : Bool := match entryType s.entry with
  | some .int8 => true
  | some .uint8 => true
  | _ => false

/-! ## Loads, stores and moves -/

/-- MLDT (07 R221, R224). -/
def execMldt (o : MLdOp) (s : State) : Host.Outcome State Fault Refusal :=
  s.perform (s.mmemChecks o.sb o.off o.tg true 4096 (s.freeT o.d)) fun s =>
    let x : Tile := { data := s.lsBits (s.maddr o.sb o.off).toNat 4096 32768 }
    s.mdone memoryU 8 [(12, [.t o.d x])]

/-- MSTT (07 R221, R224). -/
def execMstt (o : MStOp) (s : State) : Host.Outcome State Fault Refusal :=
  s.perform (.and (s.mmemChecks o.sb o.off 0 false 4096 (s.needT o.d)) (s.tClean [o.d])) fun s =>
    s.mdone memoryU 8 [(8, [.bytes (s.maddr o.sb o.off).toNat (toBytes 4096 (s.tile4 o.d).data.toNat)])]

/-- MLDS (07 R221, R224). -/
def execMlds (o : MLdOp) (s : State) : Host.Outcome State Fault Refusal :=
  s.perform (s.mmemChecks o.sb o.off o.tg true 1024 (s.freeT o.d)) fun s =>
    s.mdone memoryU 2 [(6, [.tSide o.d (s.lsBits (s.maddr o.sb o.off).toNat 1024 8192)])]

/-- MLDA (07 R220, R221, R224). -/
def execMlda (o : MLdOp) (s : State) : Host.Outcome State Fault Refusal :=
  let r : BitVec 2 := o.d.setWidth 2
  s.perform (.and (s.accField o.d) (s.mmemChecks o.sb o.off o.tg true 8192 (s.freeA r))) fun s =>
    s.mdone memoryU 16 [(20, [.a r { data := s.lsBits (s.maddr o.sb o.off).toNat 8192 65536, int := some s.entryInt }])]

/-- MSTA: a consuming read (07 R221, R224). -/
def execMsta (o : MStOp) (s : State) : Host.Outcome State Fault Refusal :=
  let r : BitVec 2 := o.d.setWidth 2
  s.perform (verdicts [s.accField o.d, s.mmemChecks o.sb o.off 0 false 8192 (s.takeA r), s.aClean r]) fun s =>
    s.mdone memoryU 16 [(1, [.aEmpty r]),
      (16, [.bytes (s.maddr o.sb o.off).toNat (toBytes 8192 (vGet r s.me.aregs).data.toNat)])]

/-- MZERO of an accumulator; TB above 1 raises operand range (07 R221, R223). -/
def execMzero (ad : BitVec 2) (_ta tb : BitVec 4) (s : State) : Host.Outcome State Fault Refusal :=
  s.perform (verdicts [s.bad0 (tb != 0) rangeC, s.freeA ad, s.unitFree outputU]) fun s =>
    s.mdone outputU 1 [(2, [.a ad { data := 0, int := some s.entryInt }])]

/-- MZERO, release form: the tile register becomes empty, its attachments unchanged (07 R221). -/
def execMzeroRelease (ta : BitVec 4) (s : State) : Host.Outcome State Fault Refusal :=
  s.perform (verdicts [s.takeT ta, s.unitFree outputU]) fun s => s.mdone outputU 1 [(1, [.tEmpty ta])]

/-- MBAND: TA the destination, TB the source (07 R225). -/
def execMband (ta tb : BitVec 4) (s : State) : Host.Outcome State Fault Refusal :=
  s.perform (verdicts [s.bad0 (ta == tb) rangeC, s.needT tb, s.freeT ta, s.unitFree outputU, s.tClean [tb]]) fun s =>
    s.mdone outputU 1 [(2, [.tBand ta ((s.tile4 tb).data.setWidth 16)])]

/-- The number whose digits of `w` bits are a list, the first lowest. -/
def packNat (w : Nat) : List Nat → Nat
  | [] => 0
  | x :: t => x % 2 ^ w + 2 ^ w * packNat w t

/-- Element `c` of tile row `m`, of width `w` (07 R218). -/
def Tile.elem (x : Tile) (w m c : Nat) : Nat := elemAt x.data w (512 / w * m + c)

/-- The transposed tile of an 8- or 16-bit type (07 R229). -/
def Tile.transpose (x : Tile) (w : Nat) : BitVec 32768 :=
  let n := 512 / w
  BitVec.ofNat 32768 (packNat w ((List.range 64).flatMap fun m => (List.range n).map fun c =>
    x.elem w (m / n * n + c) (m % n)))

/-- MTRN: TA the source, consumed, TB the destination (07 R229). -/
def execMtrn (ta tb : BitVec 4) (s : State) : Host.Outcome State Fault Refusal :=
  let t := (entryType s.entry).getD .fp32
  let ok := !t.isBlock && (t.width == 8 || t.width == 16)
  s.perform (verdicts [s.bad0 (ta == tb) rangeC, s.takeT ta, s.freeT tb, s.unitFree arrayU, s.bad0 (!ok) rangeC,
      s.tClean [ta]]) fun s =>
    s.mdone arrayU 8 [(1, [.tEmpty ta]),
      (12, [.t tb { data := (s.tile4 ta).transpose t.width }])]

/-! ## The matrix sum -/

/-- The element types of MMA and MMAR (07 R223). -/
def isMma : ElemType → Bool
  | .bf16 | .fp16 | .e4m3 | .e5m2 | .int8 | .uint8 | .fb4 | .mxfp8 | .mxfp8e5 | .mxfp4 => true
  | _ => false

/-- The sidecar byte of element `c` of tile row `m` (04 R109). -/
def Tile.scale (x : Tile) (t : ElemType) (m c : Nat) : Nat :=
  let at_ := match t with
    | .fb4 => 16 * m + c / 8
    | .mxfp4 => 4 * m + c / 32
    | _ => 2 * m + c / 32
  elemAt (x.side.getD 0) 8 at_

/-- The exact values of a tile row (04 R108, R111; 07 R219). -/
def Tile.rowVals (x : Tile) (t : ElemType) (m : Nat) : List Num :=
  (List.range (512 / t.width)).map fun c =>
    let b := x.elem t.width m c
    if t.isBlock then blockVal t (bf16F.decode (x.band.getD 0).toNat) (x.scale t m c) b else t.value b

/-- The integers of a tile row. -/
def Tile.rowInts (x : Tile) (t : ElemType) (m : Nat) : List Int :=
  (List.range (512 / t.width)).map fun c => t.asInt (x.elem t.width m c)

/-- The exact sum of a group's products, in increasing order (04 R123, R124). -/
def groupSum (a b : List Num) : Num := (a.zipWith Num.mul b).foldl (fun x y => x.add false y) (.fin false 0 0 false)

/-- Add the groups of a row and a column into an FP32 element (04 R123). -/
def addGroups (sat : Bool) (acc : Nat) (a b : List Num) : Nat :=
  let n := a.length / 32
  ((chunksOf 32 n a).zip (chunksOf 32 n b)).foldl (fun acc g =>
    let part := fp32F.round .rne sat (groupSum g.1 g.2)
    fp32F.round .rne sat ((fp32F.decode acc).add false (fp32F.decode part))) acc

/-- Add the groups of a row and a column into an INT32 element (04 R125). -/
def addGroupsI (sat : Bool) (acc : Nat) (a b : List Int) : Nat :=
  let n := a.length / 32
  ((chunksOf 32 n a).zip (chunksOf 32 n b)).foldl (fun acc g =>
    ElemType.int32.narrow sat (ElemType.int32.asInt acc + (g.1.zipWith (· * ·) g.2).foldl (· + ·) 0)) acc

/-- The result in flight, or the contents, that an update accumulates into; `none` when the accumulator is empty (07 R221). -/
def Core.accNow (c : Core) (r : BitVec 2) : Option Acc :=
  let fl := c.flights.filterMap fun f => match f.eff with
    | .a r' x => if r' = r then some x else none
    | _ => none
  match fl.getLast? with
  | some x => some x
  | none => if vGet r c.afull then some (vGet r c.aregs) else none

/-- An update finds its accumulator empty, full, or pending from an MMA or MMAR, whose latency is 72 (07 R221); one that is pending from another word
raises operand empty (DESIGN CHOICE, notes/assumptions/59.md). -/
def State.updA (s : State) (r : BitVec 2) : Verdict :=
  need (!s.me.flights.any fun f => f.eff.writesA r && f.due + 1 != f.issued + 72) (cause2 .matrix emptyC)

/-- The checks that MMA and MMAR share (07 R221-R223). -/
def State.mmaChecks (s : State) (ad : BitVec 2) (ta tb : BitVec 4) (rm : BitVec 3) (early late : Verdict) : Verdict :=
  let t := (entryType s.entry).getD .fp32
  let held := ((s.me.accNow ad).bind (·.int)).getD s.entryInt
  verdicts [s.bad0 (tb.toNat % 2 == 1) rangeC, early, s.needT ta, s.needT tb, s.needT (tb + 1), s.updA ad, s.unitFree arrayU,
    late, s.bad0 (rmBad rm false) rangeC, s.bad0 (!isMma t) rangeC, s.bad0 (held != s.entryInt) rangeC,
    s.tClean [ta, tb, tb + 1], s.aClean ad]

/-- The elements after an MMA or MMAR: `f i j` says what happens to an element: computed, set to a value, or unchanged. -/
def State.mmaResult (s : State) (ad : BitVec 2) (ta tb : BitVec 4) (sat : Bool) (f : Nat → Nat → Option (Option Nat)) : Acc :=
  let t := (entryType s.entry).getD .fp32
  let x := s.tile4 ta
  let y := s.tile4 tb
  let z := s.tile4 (tb + 1)
  let old := ((s.me.accNow ad).map (·.data)).getD 0
  let el := fun i j (go : Nat → Nat) =>
    let e := elemAt old 32 (64 * i + j)
    match f i j with
    | none => e
    | some (some v) => v
    | some none => go e
  let data := (List.range 32).flatMap fun i => (List.range 64).map fun j =>
    if t.isInt then el i j fun e => addGroupsI sat e (x.rowInts t i ++ x.rowInts t (32 + i)) (y.rowInts t j ++ z.rowInts t j)
    else el i j fun e => addGroups sat e (x.rowVals t i ++ x.rowVals t (32 + i)) (y.rowVals t j ++ z.rowVals t j)
  { data := BitVec.ofNat 65536 (packNat 32 data), int := some s.entryInt }

/-- MMA (07 R226). -/
def execMma (o : MMaOp) (s : State) : Host.Outcome State Fault Refusal :=
  s.perform (s.mmaChecks o.ad o.ta o.tb o.rm .ok .ok) fun s =>
    let vc := s.mine.vc.toNat
    s.mdone arrayU 64 [(72, [.a o.ad (s.mmaResult o.ad o.ta o.tb (o.sat == 1) fun i _ => if i < vc then some none else none)])]

/-- MMAR (07 R227). -/
def execMmar (o : MMarOp) (s : State) : Host.Outcome State Fault Refusal :=
  let a := o.za.toNat
  let b := o.zb.toNat
  s.perform (s.mmaChecks o.ad o.ta o.tb o.rm (verdicts [s.loaded a, s.loaded b])
      (s.bad0 (o.mv == 3 || (o.mv == 0 && s.entryInt)) rangeC)) fun s =>
    let ga := (s.me.shape? a).getD (({} : ShapeBuf).shape)
    let gb := (s.me.shape? b).getD (({} : ShapeBuf).shape)
    let oa := s.origin a
    let ob := s.origin b
    let vc := s.mine.vc.toNat
    let f := fun i j =>
      if !ga.rowIn vc (oa + i) then none
      else if ob + j < gb.rows ∧ ga.segOf (oa + i) = gb.segOf (ob + j) then some none
      else if o.mv = 0 then some (some 0xFF800000) else if o.mv = 1 then some (some 0) else none
    let x := s.mmaResult o.ad o.ta o.tb (o.sat == 1) f
    ((s.bindWord a).bindWord b).mdone arrayU 64 [(72, [.a o.ad x])]

/-! ## Output -/

/-- The target type of a MOUT (07 R223). -/
def isMout : ElemType → Bool
  | .fp32 | .bf16 | .fp16 | .e4m3 | .e5m2 | .int8 | .int32 => true
  | _ => false

/-- The tiles that a MOUT writes: their 64 rows of elements by element (i, j) (07 R228). -/
def outTiles (t : ElemType) (f : Nat → Nat → Nat) : List (BitVec 32768) :=
  let w := t.width
  let e := 512 / w
  let tile := fun (col : Nat) => BitVec.ofNat 32768 (packNat w ((List.range 64).flatMap fun m => (List.range e).map fun c =>
    if w = 8 then (if m < 32 then f m c else 0) else f (m % 32) (col + e * (m / 32) + c)))
  if w = 32 then [tile 0, tile 32] else [tile 0]

/-- Whether an element's conversion overflowed or clamped (07 R228). -/
def clampedOut (int : Bool) (t : ElemType) (mode : RMode) (sat : Bool) (b : Nat) : Bool :=
  let v := if int then Num.ofInt (ElemType.int32.asInt b) else fp32F.decode b
  let out := fun (i : Int) => decide (i < t.intRange.1 ∨ t.intRange.2 < i)
  match v with
  | .nan => false
  | .inf _ => t.isInt || sat
  | .fin neg m e x =>
    if t.isInt then out (if int then ElemType.int32.asInt b else v.toInt mode)
    else
      let u := t.ffmt.unit m e
      t.ffmt.tooBig (roundUnit mode neg m e u x) u

/-- The magnitude that MOUTQ reports (07 R228). -/
def maxOut (int : Bool) (l : List Nat) : Nat :=
  if int then (l.map fun b => (ElemType.int32.asInt b).natAbs).foldl max 0
  else if l.any fun b => fp32F.decode b == .nan then 0x7FC00000
  else (l.map fun b => b % 2 ^ 31).foldl max 0

/-- MOUT and MOUTQ: `qd` is the handoff register of MOUTQ (07 R221, R223, R228). -/
def State.mout (s : State) (o : MOutOp) (qd : Option (BitVec 5)) : Host.Outcome State Fault Refusal :=
  let t := (ElemType.ofCode o.tb.toNat).getD .fb4
  let two := t.width == 32
  let int := ((vGet o.ad s.me.aregs).int).getD false
  let dsts := if two then [o.ta, o.ta + 1] else [o.ta]
  s.perform (verdicts [s.bad0 (!isMout t || (two && o.ta.toNat % 2 == 1)) rangeC, s.takeA o.ad, verdicts (dsts.map s.freeT),
      match qd with | some q => s.freeQ q | none => .ok, s.unitFree outputU,
      s.bad0 (rmBad o.rm (int && t.isInt)) rangeC, s.aClean o.ad]) fun s =>
    let acc := (vGet o.ad s.me.aregs).data
    let sat := o.sat == 1
    let src : ElemType := if int then .int32 else .fp32
    let el := fun i => elemAt acc 32 i
    let f := fun i j => convert src t (s.rmode o.rm (64 * i + j)) sat (el (64 * i + j))
    let tiles := (dsts.zip (outTiles t f)).map fun x => Eff.t x.1 { data := x.2 }
    let q := match qd with
      | none => []
      | some q =>
        let n := ((List.range 2048).filter fun i => clampedOut int t (s.rmode o.rm i) sat (el i)).length
        [Eff.q q (BitVec.ofNat 64 (maxOut int ((List.range 2048).map el) + 2 ^ 32 * n))]
    s.mdone outputU (if two then 8 else 4) [(1, [.aEmpty o.ad]), (12, tiles ++ q)]

/-- MOUT (07 R228). -/
def execMout (o : MOutOp) (s : State) : Host.Outcome State Fault Refusal := s.mout o none
/-- MOUTQ (07 R228). -/
def execMoutq (o : MOutOp) (qd : BitVec 5) (s : State) : Host.Outcome State Fault Refusal := s.mout o (some qd)

end Sys2Proof.Machine
end

