-- ==== Sys2Proof/Machine/StreamCtl.lean ====
section
/-! DEFINITION. Stream control of the vector, matrix and copy streams (05 R163-R173). -/

namespace Sys2Proof.Machine

/-- A class 2 loop or stage misuse of the issuing stream, in both modes (05 R165, R167). -/
def State.misuse (s : State) (bad : Bool) : Verdict := bar bad (cause2 s.cur.st loopC)

/-- Every stream-control word of the vector stream has occupancy 1 (06 R180); the checks `f` of R442 come before it. -/
def State.control (s : State) (f v : Verdict) (eff : State → State) : Host.Outcome State Fault Refusal :=
  s.perform (verdicts [f, s.occupied, v]) eff

/-- The value of a count operand (05 R164, R169). -/
def State.countOf (s : State) : Count → Nat
  | .imm n => n.toNat
  | .reg r => (s.me.sreg s.cur.st r).toNat

/-- The nesting rules at a LOOP's issue, its body ending at `last` (05 R165). -/
def badNest (loops : List Loop) (lv : BitVec 1) (last : Word) : Bool := match loops with
  | [] => false
  | top :: _ => lv == 1 || top.lv == 0 || decide (top.last.toNat < last.toNat)

/-- Begin a loop of `trips` iterations, or pass its body when there are none (05 R164, R166). -/
def State.beginLoop (s : State) (lv : BitVec 1) (len : Nat) (trips : Nat) (stages : Option (PReg × Nat × Nat))
    (effs : List Eff) : State :=
  let x := s.mine
  let last := x.pc + BitVec.ofNat 64 (8 * len)
  let y := x.passed s.cur.pos s.cyc
  let s := s.emit 1 effs
  if trips = 0 then
    let r := loopNext y last x.loops
    (s.emit 1 r.2).modMine fun _ => r.1
  else
    s.modMine fun _ => { y.setLc lv 0 with
      pc := x.pc + 8, loops := ⟨lv, x.pc + 8, last, 0, trips, stages⟩ :: x.loops }

/-- LOOP (05 R164, R165). -/
def execLoop (lv : BitVec 1) (n : Count) (len : BitVec 9) (s : State) : Host.Outcome State Fault Refusal :=
  let t := s.countOf n
  let last := s.mine.pc + BitVec.ofNat 64 (8 * len.toNat)
  s.control .ok (verdicts [s.bad0 (decide (2 ^ 32 ≤ t ∨ len = 0)) rangeC, s.misuse (badNest s.mine.loops lv last)]) fun s =>
    s.beginLoop lv len.toNat t none []

/-- The stage-predicate ranges of the loops that run in the core's other streams; a stream that has ended runs none (05 R167, R168). -/
def Core.otherStages (c : Core) (st : Stream) : List (Nat × Nat) :=
  ([Stream.vector, .matrix, .copy].filter fun t => t != st && !(c.stream t).ended).flatMap fun t =>
    (c.stream t).loops.filterMap fun l => l.stages.map fun x => (x.1.toNat, x.2.1)

/-- LOOPS (05 R166, R167). -/
def execLoops (lv : BitVec 1) (n : Count) (len : BitVec 9) (stg : BitVec 3) (ps : PReg) (s : State) :
    Host.Outcome State Fault Refusal :=
  let t := s.countOf n
  let k := stg.toNat + 1
  let p := ps.toNat
  let last := s.mine.pc + BitVec.ofNat 64 (8 * len.toNat)
  let shared := (s.me.otherStages s.cur.st).any fun x => overlaps p k x.1 x.2
  s.control .ok (verdicts [s.bad0 (decide (2 ^ 32 ≤ t ∨ len = 0)) rangeC, s.bad0 (decide (p = 0 ∨ 127 < p + stg.toNat)) rangeC,
      s.misuse (badNest s.mine.loops lv last), s.misuse shared]) fun s =>
    if t = 0 then s.beginLoop lv len.toNat 0 none (stageClear ps k)
    else s.beginLoop lv len.toNat (t + k - 1) (some (ps, k, t)) (stageWrites ps k t 0)

/-- END (05 R168, 02 R61). -/
def execEndStream (s : State) : Host.Outcome State Fault Refusal :=
  s.control .ok .ok fun s => s.advance.modMine fun x => { x with ended := true }

/-- SETVC (05 R169). -/
def execSetvc (src : VcSrc) (s : State) : Host.Outcome State Fault Refusal :=
  let v := match src with
    | .count n => s.countOf n
    | .shape zs => ((s.me.shape? zs.toNat).map (·.rows)).getD 0
  let slot := match src with
    | .count _ => .ok
    | .shape zs => s.loaded zs.toNat
  let check := match src with
    | .count n => s.bad0 (decide (2 ^ 32 ≤ s.countOf n)) rangeC
    | .shape _ => .ok
  s.control slot check fun s => s.advance.modMine fun x => { x with vc := BitVec.ofNat 32 v }

/-- The check of a table image: the condition it breaks (04 R119, R120). -/
def fmtCheck (l : List (BitVec 32)) : Option Nat :=
  if l.any (fun e => decide (1024 ≤ e.toNat) || decide (5 ≤ bits (e.setWidth 64) 8 6)) then some reservedC
  else if l.any (fun e =>
      let t := e.toNat % 16
      let want := if t = 11 then 1 else if 12 ≤ t then 2 else 0
      decide (t = 15 ∨ bits (e.setWidth 64) 5 4 ≠ want)) then some rangeC
  else none

/-- FMTLD (05 R170, 04 R120; 13 R395). -/
def execFmtld (sb : SReg) (s : State) : Host.Outcome State Fault Refusal :=
  let a := (s.me.sreg s.cur.st sb).toNat
  let l := (List.range 16).map fun i => BitVec.ofNat 32 (memRead s.me.ls (a + 4 * i) 4)
  s.control .ok (verdicts [s.noPhase, s.bad0 (decide (a % 64 ≠ 0)) alignC, s.bad0 (decide (0x400000 ≤ a)) rangeC,
      bar (s.me.poisoned a 64) (cause 5 0 1),
      match fmtCheck l with | some b => .fault (cause0 s.cur.st b) | none => .ok]) fun s =>
    s.write 4 [.fmt l]

end Sys2Proof.Machine
end

