-- ==== Sys2Proof/Machine/TagTable.lean ====
section
/-! DEFINITION. The tag table (08 R235, R236). -/

namespace Sys2Proof.Machine

/-- The entry that holds a key (08 R235). -/
def tagFind : Tab Word → Word → Option Nat
  | [], _ => none
  | (n, k) :: t, key => if k = key then some n else tagFind t key

/-- A lookup compares every entry: those with a parity error become invalid, each reported corrected (08 R236). -/
def State.tagScrub (s : State) : State :=
  let c := s.me
  let s' := s.modMe fun c => { c with tagTab := c.tagBad.foldl tabDel c.tagTab, tagBad := [] }
  c.tagBad.foldl (fun s _ => s.post (s.ctxOf s.cur.core) (cause 5 0 0) s.cur.core 0) s'

/-- TAGLK (08 R235, R236). -/
def execTaglk (rd ra : SReg) (s : State) : Host.Outcome State Fault Refusal :=
  s.perform .ok fun s =>
    let s := s.tagScrub
    let v : Word := match tagFind s.me.tagTab (s.sr ra) with
      | some n => BitVec.ofNat 64 (1024 * n)
      | none => BitVec.allOnes 64
    s.write 4 [.s rd v]

/-- TAGSET: another entry with the key becomes invalid (08 R235, R236; 13 R395). -/
def execTagset (ra rb : SReg) (s : State) : Host.Outcome State Fault Refusal :=
  let n := (s.sr rb).toNat
  s.perform (verdicts [s.noPhase, bar (decide (4095 < n)) (cause 1 storeA tagTableC)]) fun s =>
    (s.modMe fun c =>
      let t := match tagFind c.tagTab (s.sr ra) with
        | some m => tabDel c.tagTab m
        | none => c.tagTab
      { c with tagTab := tabSet t n (s.sr ra), tagBad := c.tagBad.filter (· != n) }).advance

/-- TAGCLR (08 R235; 13 R395). -/
def execTagclr (ra : SReg) (s : State) : Host.Outcome State Fault Refusal :=
  s.perform s.noPhase fun s =>
    (s.modMe fun c => match tagFind c.tagTab (s.sr ra) with
      | some m => { c with tagTab := tabDel c.tagTab m, tagBad := c.tagBad.filter (· != m) }
      | none => c).advance

end Sys2Proof.Machine
end

