-- ==== Sys2Proof/Machine/Dispatch.lean ====
section
/-! DEFINITION. The meaning of every instruction: one arm per constructor of `Instr`, in the opcode table's order. -/

namespace Sys2Proof.Machine

/-- What an instruction does in a state. -/
def exec (i : Instr) (s : State) : Host.Outcome State Fault Refusal :=
  match i with
  | .nop => Sys2Proof.Machine.execNop s
  | .add rd ra rb => Sys2Proof.Machine.execAdd rd ra rb s
  | .sub rd ra rb => Sys2Proof.Machine.execSub rd ra rb s
  | .and rd ra rb => Sys2Proof.Machine.execAnd rd ra rb s
  | .or rd ra rb => Sys2Proof.Machine.execOr rd ra rb s
  | .xor rd ra rb => Sys2Proof.Machine.execXor rd ra rb s
  | .andn rd ra rb => Sys2Proof.Machine.execAndn rd ra rb s
  | .sll rd ra rb => Sys2Proof.Machine.execSll rd ra rb s
  | .srl rd ra rb => Sys2Proof.Machine.execSrl rd ra rb s
  | .sra rd ra rb => Sys2Proof.Machine.execSra rd ra rb s
  | .mul rd ra rb => Sys2Proof.Machine.execMul rd ra rb s
  | .mulh rd ra rb => Sys2Proof.Machine.execMulh rd ra rb s
  | .mulhu rd ra rb => Sys2Proof.Machine.execMulhu rd ra rb s
  | .div rd ra rb => Sys2Proof.Machine.execDiv rd ra rb s
  | .divu rd ra rb => Sys2Proof.Machine.execDivu rd ra rb s
  | .rem rd ra rb => Sys2Proof.Machine.execRem rd ra rb s
  | .remu rd ra rb => Sys2Proof.Machine.execRemu rd ra rb s
  | .addi rd ra imm => Sys2Proof.Machine.execAddi rd ra imm s
  | .andi rd ra imm => Sys2Proof.Machine.execAndi rd ra imm s
  | .ori rd ra imm => Sys2Proof.Machine.execOri rd ra imm s
  | .xori rd ra imm => Sys2Proof.Machine.execXori rd ra imm s
  | .slli rd ra imm => Sys2Proof.Machine.execSlli rd ra imm s
  | .srli rd ra imm => Sys2Proof.Machine.execSrli rd ra imm s
  | .srai rd ra imm => Sys2Proof.Machine.execSrai rd ra imm s
  | .ldi rd imm => Sys2Proof.Machine.execLdi rd imm s
  | .seth rd imm => Sys2Proof.Machine.execSeth rd imm s
  | .slt rd ra rb => Sys2Proof.Machine.execSlt rd ra rb s
  | .sltu rd ra rb => Sys2Proof.Machine.execSltu rd ra rb s
  | .slti rd ra imm => Sys2Proof.Machine.execSlti rd ra imm s
  | .min rd ra rb => Sys2Proof.Machine.execMin rd ra rb s
  | .max rd ra rb => Sys2Proof.Machine.execMax rd ra rb s
  | .minu rd ra rb => Sys2Proof.Machine.execMinu rd ra rb s
  | .maxu rd ra rb => Sys2Proof.Machine.execMaxu rd ra rb s
  | .clz rd ra => Sys2Proof.Machine.execClz rd ra s
  | .ctz rd ra => Sys2Proof.Machine.execCtz rd ra s
  | .popc rd ra => Sys2Proof.Machine.execPopc rd ra s
  | .brev rd ra => Sys2Proof.Machine.execBrev rd ra s
  | .bext rd ra pos len => Sys2Proof.Machine.execBext rd ra pos len s
  | .bexts rd ra pos len => Sys2Proof.Machine.execBexts rd ra pos len s
  | .bins rd ra pos len => Sys2Proof.Machine.execBins rd ra pos len s
  | .fshl o => Sys2Proof.Machine.execFshl o s
  | .fshr o => Sys2Proof.Machine.execFshr o s
  | .cmpeq pd ra src => Sys2Proof.Machine.execCmpeq pd ra src s
  | .cmpne pd ra src => Sys2Proof.Machine.execCmpne pd ra src s
  | .cmplt pd ra src => Sys2Proof.Machine.execCmplt pd ra src s
  | .cmpltu pd ra src => Sys2Proof.Machine.execCmpltu pd ra src s
  | .cmple pd ra src => Sys2Proof.Machine.execCmple pd ra src s
  | .cmpleu pd ra src => Sys2Proof.Machine.execCmpleu pd ra src s
  | .pand pd pa pb => Sys2Proof.Machine.execPand pd pa pb s
  | .por pd pa pb => Sys2Proof.Machine.execPor pd pa pb s
  | .pxor pd pa pb => Sys2Proof.Machine.execPxor pd pa pb s
  | .pnot pd pa => Sys2Proof.Machine.execPnot pd pa s
  | .pset pd v => Sys2Proof.Machine.execPset pd v s
  | .pclr pd => Sys2Proof.Machine.execPclr pd s
  | .ptos pd ra => Sys2Proof.Machine.execPtos pd ra s
  | .pfrom pd ra => Sys2Proof.Machine.execPfrom pd ra s
  | .br off => Sys2Proof.Machine.execBr off s
  | .brt pr off => Sys2Proof.Machine.execBrt pr off s
  | .brf pr off => Sys2Proof.Machine.execBrf pr off s
  | .brtn pr off => Sys2Proof.Machine.execBrtn pr off s
  | .brfn pr off => Sys2Proof.Machine.execBrfn pr off s
  | .jmpr ra => Sys2Proof.Machine.execJmpr ra s
  | .call off => Sys2Proof.Machine.execCall off s
  | .callr ra => Sys2Proof.Machine.execCallr ra s
  | .ret => Sys2Proof.Machine.execRet s
  | .trap imm => Sys2Proof.Machine.execTrap imm s
  | .exit => Sys2Proof.Machine.execExit s
  | .ld8 o => Sys2Proof.Machine.execLd8 o s
  | .ld8s o => Sys2Proof.Machine.execLd8s o s
  | .ld16 o => Sys2Proof.Machine.execLd16 o s
  | .ld16s o => Sys2Proof.Machine.execLd16s o s
  | .ld32 o => Sys2Proof.Machine.execLd32 o s
  | .ld32s o => Sys2Proof.Machine.execLd32s o s
  | .ld64 o => Sys2Proof.Machine.execLd64 o s
  | .st8 o => Sys2Proof.Machine.execSt8 o s
  | .st16 o => Sys2Proof.Machine.execSt16 o s
  | .st32 o => Sys2Proof.Machine.execSt32 o s
  | .st64 o => Sys2Proof.Machine.execSt64 o s
  | .ldc rd ra imm => Sys2Proof.Machine.execLdc rd ra imm s
  | .qsend qn ra rb => Sys2Proof.Machine.execQsend qn ra rb s
  | .qrecv rd qn => Sys2Proof.Machine.execQrecv rd qn s
  | .qpeek rd qn => Sys2Proof.Machine.execQpeek rd qn s
  | .aadd rd ra rb => Sys2Proof.Machine.execAadd rd ra rb s
  | .aaddf rd ra rb => Sys2Proof.Machine.execAaddf rd ra rb s
  | .aswap rd ra rb => Sys2Proof.Machine.execAswap rd ra rb s
  | .acas rd ra rb => Sys2Proof.Machine.execAcas rd ra rb s
  | .amin rd ra rb => Sys2Proof.Machine.execAmin rd ra rb s
  | .amax rd ra rb => Sys2Proof.Machine.execAmax rd ra rb s
  | .abump rd ra rb => Sys2Proof.Machine.execAbump rd ra rb s
  | .fence scope => Sys2Proof.Machine.execFence scope s
  | .bind rd ra rb => Sys2Proof.Machine.execBind rd ra rb s
  | .acq ra => Sys2Proof.Machine.execAcq ra s
  | .rel ra => Sys2Proof.Machine.execRel ra s
  | .mstore rd ra rb => Sys2Proof.Machine.execMstore rd ra rb s
  | .mwait ra g => Sys2Proof.Machine.execMwait ra g s
  | .taglk rd ra => Sys2Proof.Machine.execTaglk rd ra s
  | .tagset ra rb => Sys2Proof.Machine.execTagset ra rb s
  | .tagclr ra => Sys2Proof.Machine.execTagclr ra s
  | .shld z ra => Sys2Proof.Machine.execShld z ra s
  | .shinv z => Sys2Proof.Machine.execShinv z s
  | .phaseb ra => Sys2Proof.Machine.execPhaseb ra s
  | .phasec ra => Sys2Proof.Machine.execPhasec ra s
  | .tstart ra => Sys2Proof.Machine.execTstart ra s
  | .twait n => Sys2Proof.Machine.execTwait n s
  | .waitid ch ra n => Sys2Proof.Machine.execWaitid ch ra n s
  | .waitidLaunch ra n => Sys2Proof.Machine.execWaitidLaunch ra n s
  | .waitq qn n => Sys2Proof.Machine.execWaitq qn n s
  | .tbar ra desc dl => Sys2Proof.Machine.execTbar ra desc dl s
  | .tbarSync ra desc dl => Sys2Proof.Machine.execTbarSync ra desc dl s
  | .launch rd ra joined => Sys2Proof.Machine.execLaunch rd ra joined s
  | .yieldpt rd ra n => Sys2Proof.Machine.execYieldpt rd ra n s
  | .yieldptHold ra n => Sys2Proof.Machine.execYieldptHold ra n s
  | .csrr rd csr => Sys2Proof.Machine.execCsrr rd csr s
  | .csrw csr ra => Sys2Proof.Machine.execCsrw csr ra s
  | .syscall n => Sys2Proof.Machine.execSyscall n s
  | .hret => Sys2Proof.Machine.execHret s
  | .hesc => Sys2Proof.Machine.execHesc s
  | .vadd o => Sys2Proof.Machine.execVadd o s
  | .vsub o => Sys2Proof.Machine.execVsub o s
  | .vmul o => Sys2Proof.Machine.execVmul o s
  | .vfma o => Sys2Proof.Machine.execVfma o s
  | .vfms o => Sys2Proof.Machine.execVfms o s
  | .vfnma o => Sys2Proof.Machine.execVfnma o s
  | .vmin o => Sys2Proof.Machine.execVmin o s
  | .vmax o => Sys2Proof.Machine.execVmax o s
  | .vabs o => Sys2Proof.Machine.execVabs o s
  | .vneg o => Sys2Proof.Machine.execVneg o s
  | .vdiv o => Sys2Proof.Machine.execVdiv o s
  | .vsqrt o => Sys2Proof.Machine.execVsqrt o s
  | .vrcp o => Sys2Proof.Machine.execVrcp o s
  | .vrsq o => Sys2Proof.Machine.execVrsq o s
  | .vexp2 o => Sys2Proof.Machine.execVexp2 o s
  | .vlog2 o => Sys2Proof.Machine.execVlog2 o s
  | .vand o => Sys2Proof.Machine.execVand o s
  | .vor o => Sys2Proof.Machine.execVor o s
  | .vxor o => Sys2Proof.Machine.execVxor o s
  | .vshl o => Sys2Proof.Machine.execVshl o s
  | .vshr o => Sys2Proof.Machine.execVshr o s
  | .vsra o => Sys2Proof.Machine.execVsra o s
  | .vbext o => Sys2Proof.Machine.execVbext o s
  | .vfsh o => Sys2Proof.Machine.execVfsh o s
  | .vpopc o => Sys2Proof.Machine.execVpopc o s
  | .vclz o => Sys2Proof.Machine.execVclz o s
  | .vcmp o => Sys2Proof.Machine.execVcmp o s
  | .vsel o => Sys2Proof.Machine.execVsel o s
  | .vpart o => Sys2Proof.Machine.execVpart o s
  | .viota o => Sys2Proof.Machine.execViota o s
  | .vbcast o => Sys2Proof.Machine.execVbcast o s
  | .vperm o => Sys2Proof.Machine.execVperm o s
  | .vmov o => Sys2Proof.Machine.execVmov o s
  | .vextr o => Sys2Proof.Machine.execVextr o s
  | .vcvt o => Sys2Proof.Machine.execVcvt o s
  | .vpack o => Sys2Proof.Machine.execVpack o s
  | .vunpack o => Sys2Proof.Machine.execVunpack o s
  | .vquant o => Sys2Proof.Machine.execVquant o s
  | .vdeq o => Sys2Proof.Machine.execVdeq o s
  | .vrsum o => Sys2Proof.Machine.execVrsum o s
  | .vrmax o => Sys2Proof.Machine.execVrmax o s
  | .vrmin o => Sys2Proof.Machine.execVrmin o s
  | .vscan o => Sys2Proof.Machine.execVscan o s
  | .vrnorm o => Sys2Proof.Machine.execVrnorm o s
  | .vrsmax o => Sys2Proof.Machine.execVrsmax o s
  | .vldr o => Sys2Proof.Machine.execVldr o s
  | .vld o => Sys2Proof.Machine.execVld o s
  | .vst o => Sys2Proof.Machine.execVst o s
  | .vlds o => Sys2Proof.Machine.execVlds o s
  | .vsts o => Sys2Proof.Machine.execVsts o s
  | .vgath o => Sys2Proof.Machine.execVgath o s
  | .vscat o => Sys2Proof.Machine.execVscat o s
  | .mldt o => Sys2Proof.Machine.execMldt o s
  | .mstt o => Sys2Proof.Machine.execMstt o s
  | .mlds o => Sys2Proof.Machine.execMlds o s
  | .mzero ad ta tb => Sys2Proof.Machine.execMzero ad ta tb s
  | .mzeroRelease ta => Sys2Proof.Machine.execMzeroRelease ta s
  | .mma o => Sys2Proof.Machine.execMma o s
  | .mmar o => Sys2Proof.Machine.execMmar o s
  | .mout o => Sys2Proof.Machine.execMout o s
  | .moutq o qd => Sys2Proof.Machine.execMoutq o qd s
  | .mlda o => Sys2Proof.Machine.execMlda o s
  | .msta o => Sys2Proof.Machine.execMsta o s
  | .mtrn ta tb => Sys2Proof.Machine.execMtrn ta tb s
  | .mband ta tb => Sys2Proof.Machine.execMband ta tb s
  | .cpy o zr nt => Sys2Proof.Machine.execCpy o zr nt s
  | .cpyr o zr nt zs => Sys2Proof.Machine.execCpyr o zr nt zs s
  | .cgath o nt => Sys2Proof.Machine.execCgath o nt s
  | .cscat o nt => Sys2Proof.Machine.execCscat o nt s
  | .cbin o nt => Sys2Proof.Machine.execCbin o nt s
  | .csend o zr nt hd => Sys2Proof.Machine.execCsend o zr nt hd s
  | .crecvb o hd => Sys2Proof.Machine.execCrecvb o hd s
  | .cnmc o => Sys2Proof.Machine.execCnmc o s
  | .ccoll o => Sys2Proof.Machine.execCcoll o s
  | .cwait ch kg rg => Sys2Proof.Machine.execCwait ch kg rg s
  | .cfence => Sys2Proof.Machine.execCfence s
  | .cconst o => Sys2Proof.Machine.execCconst o s
  | .loop lv n len => Sys2Proof.Machine.execLoop lv n len s
  | .loops lv n len stg ps => Sys2Proof.Machine.execLoops lv n len stg ps s
  | .endStream => Sys2Proof.Machine.execEndStream s
  | .setvc src => Sys2Proof.Machine.execSetvc src s
  | .fmtld sb => Sys2Proof.Machine.execFmtld sb s
  | .engineTwait n => Sys2Proof.Machine.execEngineTwait n s
  | .waitf rk rn n => Sys2Proof.Machine.execWaitf rk rn n s
  | .retire => Sys2Proof.Machine.execRetire s
  | .xest h sl dl => Sys2Proof.Machine.execXest h sl dl s
  | .xestm h sl nd list => Sys2Proof.Machine.execXestm h sl nd list s
  | .xdrop h => Sys2Proof.Machine.execXdrop h s
  | .xstep n => Sys2Proof.Machine.execXstep n s
  | .xstepAt n => Sys2Proof.Machine.execXstepAt n s
  | .xhour hr => Sys2Proof.Machine.execXhour hr s
  | .xrelay h pk fl => Sys2Proof.Machine.execXrelay h pk fl s
  | .xgroup g pk => Sys2Proof.Machine.execXgroup g pk s
  | .xwin h len => Sys2Proof.Machine.execXwin h len s
  | .xloop n off => Sys2Proof.Machine.execXloop n off s
  | .xjmp off => Sys2Proof.Machine.execXjmp off s
  | .xend => Sys2Proof.Machine.execXend s
  | .xretrain l => Sys2Proof.Machine.execXretrain l s
  | .resultLanding => Sys2Proof.Machine.execResultLanding s
  | .deadlineReached => Sys2Proof.Machine.execDeadlineReached s
  | .elasticWaitEnd => Sys2Proof.Machine.execElasticWaitEnd s
  | .quietDeadlock => Sys2Proof.Machine.execQuietDeadlock s
  | .retirementBoundExceeded => Sys2Proof.Machine.execRetirementBoundExceeded s
  | .barrierRelease => Sys2Proof.Machine.execBarrierRelease s
  | .shapeLoadLanding => Sys2Proof.Machine.execShapeLoadLanding s
  | .qsendArrival => Sys2Proof.Machine.execQsendArrival s
  | .helmAccessAtHome => Sys2Proof.Machine.execHelmAccessAtHome s
  | .accessWindowExpiry => Sys2Proof.Machine.execAccessWindowExpiry s
  | .acqLanding => Sys2Proof.Machine.execAcqLanding s
  | .relIncrement => Sys2Proof.Machine.execRelIncrement s
  | .fenceComplete => Sys2Proof.Machine.execFenceComplete s
  | .translationResult => Sys2Proof.Machine.execTranslationResult s
  | .copyTranslation => Sys2Proof.Machine.execCopyTranslation s
  | .copyCompletion => Sys2Proof.Machine.execCopyCompletion s
  | .snapshotCopyOnWrite => Sys2Proof.Machine.execSnapshotCopyOnWrite s
  | .nmupd => Sys2Proof.Machine.execNmupd s
  | .nmaxpby => Sys2Proof.Machine.execNmaxpby s
  | .nmred => Sys2Proof.Machine.execNmred s
  | .nmfill => Sys2Proof.Machine.execNmfill s
  | .nmcpy => Sys2Proof.Machine.execNmcpy s
  | .nearMemoryCompletion => Sys2Proof.Machine.execNearMemoryCompletion s
  | .csendDelivery => Sys2Proof.Machine.execCsendDelivery s
  | .csendAck => Sys2Proof.Machine.execCsendAck s
  | .handleLive => Sys2Proof.Machine.execHandleLive s
  | .drainEnd => Sys2Proof.Machine.execDrainEnd s
  | .windowEnd => Sys2Proof.Machine.execWindowEnd s
  | .flitReceive => Sys2Proof.Machine.execFlitReceive s
  | .replayRequest => Sys2Proof.Machine.execReplayRequest s
  | .flitAck => Sys2Proof.Machine.execFlitAck s
  | .retrainingPause => Sys2Proof.Machine.execRetrainingPause s
  | .pauseBoundExceeded => Sys2Proof.Machine.execPauseBoundExceeded s
  | .backpressureLimit => Sys2Proof.Machine.execBackpressureLimit s
  | .laserPowerLow => Sys2Proof.Machine.execLaserPowerLow s
  | .ringTuningOutOfRange => Sys2Proof.Machine.execRingTuningOutOfRange s
  | .bringUpStageEnd => Sys2Proof.Machine.execBringUpStageEnd s
  | .bringUpTimeout => Sys2Proof.Machine.execBringUpTimeout s
  | .dawnPulse => Sys2Proof.Machine.execDawnPulse s
  | .daycCorrection => Sys2Proof.Machine.execDaycCorrection s
  | .holdoverStart => Sys2Proof.Machine.execHoldoverStart s
  | .holdoverExpiry => Sys2Proof.Machine.execHoldoverExpiry s
  | .xhourEnd => Sys2Proof.Machine.execXhourEnd s
  | .serviceMessage => Sys2Proof.Machine.execServiceMessage s
  | .relayArrival => Sys2Proof.Machine.execRelayArrival s
  | .relayForward => Sys2Proof.Machine.execRelayForward s
  | .relayTimeout => Sys2Proof.Machine.execRelayTimeout s
  | .orderPointStamp => Sys2Proof.Machine.execOrderPointStamp s
  | .mstoreAck => Sys2Proof.Machine.execMstoreAck s
  | .multicastApply => Sys2Proof.Machine.execMulticastApply s
  | .orderGap => Sys2Proof.Machine.execOrderGap s
  | .xgroupAck => Sys2Proof.Machine.execXgroupAck s
  | .memberResend => Sys2Proof.Machine.execMemberResend s
  | .launchPacket => Sys2Proof.Machine.execLaunchPacket s
  | .noopPacket => Sys2Proof.Machine.execNoopPacket s
  | .placementTurn => Sys2Proof.Machine.execPlacementTurn s
  | .agingStep => Sys2Proof.Machine.execAgingStep s
  | .heldCandidate => Sys2Proof.Machine.execHeldCandidate s
  | .startBroadcast => Sys2Proof.Machine.execStartBroadcast s
  | .poolEntryFreed => Sys2Proof.Machine.execPoolEntryFreed s
  | .launchRetirement => Sys2Proof.Machine.execLaunchRetirement s
  | .completionRecord => Sys2Proof.Machine.execCompletionRecord s
  | .eventRecord => Sys2Proof.Machine.execEventRecord s
  | .msixInterrupt => Sys2Proof.Machine.execMsixInterrupt s
  | .preemptionStop => Sys2Proof.Machine.execPreemptionStop s
  | .preemptedResume => Sys2Proof.Machine.execPreemptedResume s
  | .trapDelivery => Sys2Proof.Machine.execTrapDelivery s
  | .trapResume => Sys2Proof.Machine.execTrapResume s
  | .interruptTaken => Sys2Proof.Machine.execInterruptTaken s
  | .phaseRerun => Sys2Proof.Machine.execPhaseRerun s
  | .thermalOrPower => Sys2Proof.Machine.execThermalOrPower s
  | .clockChange => Sys2Proof.Machine.execClockChange s
  | .clockRestore => Sys2Proof.Machine.execClockRestore s
  | .thermalTrap => Sys2Proof.Machine.execThermalTrap s
  | .rotationScanStep => Sys2Proof.Machine.execRotationScanStep s
  | .rotationMigration => Sys2Proof.Machine.execRotationMigration s
  | .scanPass => Sys2Proof.Machine.execScanPass s
  | .scanFail => Sys2Proof.Machine.execScanFail s
  | .snapshotBeginPoint => Sys2Proof.Machine.execSnapshotBeginPoint s
  | .snapshotDrain => Sys2Proof.Machine.execSnapshotDrain s
  | .snapshotCommit => Sys2Proof.Machine.execSnapshotCommit s
  | .snapshotRestoreEnd => Sys2Proof.Machine.execSnapshotRestoreEnd s
  | .sncmdBegin => Sys2Proof.Machine.execSncmdBegin s
  | .sncmdRestore => Sys2Proof.Machine.execSncmdRestore s
  | .sncmdCommitUnverified => Sys2Proof.Machine.execSncmdCommitUnverified s
  | .patrolScrub => Sys2Proof.Machine.execPatrolScrub s
  | .localStoreScrub => Sys2Proof.Machine.execLocalStoreScrub s
  | .misraGriesActivation => Sys2Proof.Machine.execMisraGriesActivation s
  | .refreshWindow => Sys2Proof.Machine.execRefreshWindow s
  | .eyeMarginMeasurement => Sys2Proof.Machine.execEyeMarginMeasurement s
  | .hpcout => Sys2Proof.Machine.execHpcout s
  | .heyemin => Sys2Proof.Machine.execHeyemin s
  | .coldBoot => Sys2Proof.Machine.execColdBoot s
  | .warmReset => Sys2Proof.Machine.execWarmReset s
  | .collectiveDigest => Sys2Proof.Machine.execCollectiveDigest s
  | .collectiveSum => Sys2Proof.Machine.execCollectiveSum s
  | .collectiveMax => Sys2Proof.Machine.execCollectiveMax s
  | .collectiveMin => Sys2Proof.Machine.execCollectiveMin s
  | .collectiveMove => Sys2Proof.Machine.execCollectiveMove s
  | .collectiveCompletion => Sys2Proof.Machine.execCollectiveCompletion s
  | .collectiveDeadline => Sys2Proof.Machine.execCollectiveDeadline s
  | .deadlineRelease => Sys2Proof.Machine.execDeadlineRelease s
  | .chunkRerun => Sys2Proof.Machine.execChunkRerun s
  | .memberLost => Sys2Proof.Machine.execMemberLost s
  | .shootdownComplete => Sys2Proof.Machine.execShootdownComplete s
  | .peerUnreachable => Sys2Proof.Machine.execPeerUnreachable s
  | .pendingInvalidationReplay => Sys2Proof.Machine.execPendingInvalidationReplay s
  | .remoteAccessRequest => Sys2Proof.Machine.execRemoteAccessRequest s
  | .bar2Access => Sys2Proof.Machine.execBar2Access s
  | .hostFetchadd => Sys2Proof.Machine.execHostFetchadd s
  | .pshoot => Sys2Proof.Machine.execPshoot s
  | .presume => Sys2Proof.Machine.execPresume s
  | .pterm => Sys2Proof.Machine.execPterm s
  | .ppre => Sys2Proof.Machine.execPpre s
  | .pintr => Sys2Proof.Machine.execPintr s
  | .ptrapq => Sys2Proof.Machine.execPtrapq s
  | .pcdat => Sys2Proof.Machine.execPcdat s
  | .pgrantLanding => Sys2Proof.Machine.execPgrantLanding s
  | .prevokeLanding => Sys2Proof.Machine.execPrevokeLanding s
  | .pgrantHandle => Sys2Proof.Machine.execPgrantHandle s
  | .prevokeHandle => Sys2Proof.Machine.execPrevokeHandle s
  | .pgrantGroup => Sys2Proof.Machine.execPgrantGroup s
  | .prevokeGroup => Sys2Proof.Machine.execPrevokeGroup s
  | .pgrantQuay => Sys2Proof.Machine.execPgrantQuay s
  | .prevokeQuay => Sys2Proof.Machine.execPrevokeQuay s
  | .registerWrite => Sys2Proof.Machine.execRegisterWrite s
  | .unassignedOpcode => Sys2Proof.Machine.execUnassignedOpcode s
  | .retrainingPauseEnd => Sys2Proof.Machine.execRetrainingPauseEnd s
  | .supervisorRetrain => Sys2Proof.Machine.execSupervisorRetrain s
  | .groupTableWrite => Sys2Proof.Machine.execGroupTableWrite s
  | .bar0Access => Sys2Proof.Machine.execBar0Access s
  | .contextRootChange => Sys2Proof.Machine.execContextRootChange s
  | .correctedCountHour => Sys2Proof.Machine.execCorrectedCountHour s

end Sys2Proof.Machine
end

