-- ==== Sys2Proof/Machine/Due.lean ====
section
/-! DEFINITION. The events that a tick may hold, as candidates in a fixed order: those at its start and those at its end (02 R33). An
event happens when its condition holds; a step runs the first candidate whose meaning answers a next state. -/

namespace Sys2Proof.Machine

/-- An event and what it happens to. -/
abbrev Happening := Instr × Subject

/-- An event of a subject. -/
def ev (i : Instr) (on : Subject) : Happening := (i, on)

/-- An event of a number. -/
def evA (i : Instr) (a : Nat) : Happening := ev i { a := a }

/-- An event of two numbers. -/
def evAB (i : Instr) (a b : Nat) : Happening := ev i { a := a, b := b }

/-- Events of an access of core `c` at the start of a tick. -/
def accessStart (c : Nat) (a : Access) : List Happening :=
  let on := [Instr.translationResult, .accessWindowExpiry].map fun i => evAB i c a.id
  match a.kind with
  | .fence _ => if a.performed then [] else [evAB .accessWindowExpiry c a.id, evAB .fenceComplete c a.id]
  | .mstore _ => on ++ [evAB .helmAccessAtHome c a.id, evAB .mstoreAck c a.id]
  | .rel => on ++ [evAB .relIncrement c a.id]
  | _ => on ++ [evAB .helmAccessAtHome c a.id]

/-- Events of a copy command of core `c` at the start of a tick. -/
def commandStart (c : Nat) (k : CopyCmd) : List Happening :=
  evAB .copyTranslation c k.id ::
    if k.kind = .send then (k.left.map fun d => ev .csendDelivery { a := c, b := k.id, c := d }) ++ [evAB .csendAck c k.id] else []

/-- Events of one core at the start of a tick: waits, accesses, copy commands, traps. -/
def State.coreStart (s : State) (c : Nat) : List Happening :=
  let k := s.core c
  let streams := [Stream.helm, .vector, .matrix, .copy]
  (streams.filter (s.deadlineDue c)).map (fun st => ev .deadlineReached { a := c, st := st })
    ++ (streams.filter (s.lateEndDue c)).map (fun st => ev .elasticWaitEnd { a := c, st := st })
    ++ k.accesses.flatMap (accessStart c)
    ++ (k.copies.filter fun x => !x.finished).flatMap (commandStart c)
    ++ [evA .trapDelivery c, evA .retirementBoundExceeded c, evA .phaseRerun c]

/-- Events of one launch at the start of a tick. -/
def launchStart (l : Launch) : List Happening :=
  ev .deadlineReached { a := l.lid, st := .crossing } ::
    [Instr.xhourEnd, .startBroadcast, .quietDeadlock, .trapResume, .preemptionStop, .preemptedResume, .launchRetirement,
     .completionRecord, .agingStep, .heldCandidate].map fun i => evA i l.lid

/-- Whether every landing of a handle that settles is trained (10 R298, R326). -/
def State.relockedNow (s : State) (h : Nat) : Bool :=
  let x := s.handle h
  (x.src :: x.dsts).all fun l => (s.landing l).trained

/-- Events of handles at the start of a tick. -/
def State.handleStart (s : State) : List Happening :=
  (List.range 64).flatMap fun h => match (s.handle h).st with
    | .settling => [ev .handleLive { a := h, flag := s.relockedNow h }]
    | .draining => [evA .drainEnd h]
    | .windowed => [evA .windowEnd h]
    | _ => []

/-- Events of the near-memory units. -/
def State.nearStart (s : State) : List Happening :=
  ((s.cores.flatMap fun p => (p.2.copies.filter p.2.nearReady).map (·.nearStack)).foldl addOnce []).flatMap fun st =>
    [Instr.nmupd, .nmaxpby, .nmred, .nmfill, .nmcpy, .nearMemoryCompletion].map fun i => evA i st

/-- Events of multicast groups. -/
def State.groupStart (s : State) : List Happening :=
  (List.range 64).flatMap fun g =>
    let x := s.group g
    (if x.arriving.isEmpty then [] else [evA .orderPointStamp g]) ++
      if x.held.isEmpty then [] else x.members.flatMap fun m => [evAB .multicastApply g m, evAB .orderGap g m]

/-- Events of a collective. -/
def collStart (x : Coll) : List Happening :=
  [Instr.collectiveDigest, .collectiveSum, .collectiveMax, .collectiveMin, .collectiveMove, .deadlineRelease].map (fun i => evA i x.id)
    ++ x.members.flatMap (fun y => [evAB .collectiveDeadline x.id y.m, evAB .collectiveCompletion x.id y.m])
    ++ if x.q.npk = 0 then [] else (List.range x.total).map fun m => evAB .memberLost x.id m

/-- Events of tiles and contexts. -/
def State.tileStart (s : State) : List Happening :=
  s.quays.flatMap (fun q => [evA .launchPacket q.1, evA .noopPacket q.1])
    ++ [evA .placementTurn (s.now / 128 % 8)]
    ++ (List.range 8).flatMap (fun t => [evA .poolEntryFreed t, evA .rotationScanStep t, evA .rotationMigration t])
    ++ (List.range 16).flatMap fun x =>
      [evA .snapshotBeginPoint x, evA .snapshotDrain x, evA .snapshotCommit x, evA .snapshotRestoreEnd x]

/-- Events of shootdowns, of the service ring and the service minutes, and of relays. -/
def State.serviceStart (s : State) : List Happening :=
  s.shoots.flatMap (fun x => evA .shootdownComplete x.id :: x.mask.map fun ap => evAB .peerUnreachable x.id ap)
    ++ s.messages.map (fun m => evA .serviceMessage m.id)
    ++ (if s.outbox.isEmpty then [] else [ev .serviceMessage { flag := true }])
    ++ s.relays.flatMap fun r => [evA .relayTimeout r.id, evA .relayForward r.id]

/-- Events of quays, tiles and contexts, of the service ring, of the day clock and of the core clock, of records and interrupts. -/
def State.packageStart (s : State) : List Happening :=
  s.tileStart ++ s.serviceStart
    ++ [Instr.daycCorrection, .holdoverStart, .holdoverExpiry, .clockRestore, .thermalTrap].map (fun i => ev i {})
    ++ s.events.map (fun e => ev .eventRecord { a := e.1, b := e.2.1, c := e.2.2.1, d := e.2.2.2 })
    ++ (List.range 17).map fun r => evA .msixInterrupt r

/-- The candidates at the start of a tick. Before boot there is only the cold boot (13 R412). -/
def State.startEvents (s : State) : List Happening :=
  if !s.booted then [ev .coldBoot {}]
  else s.bars.map (fun b => evA .barrierRelease b.id)
    ++ s.cores.flatMap (fun p => s.coreStart p.1)
    ++ s.launches.flatMap launchStart
    ++ s.handleStart ++ s.nearStart ++ s.groupStart ++ s.colls.flatMap collStart ++ s.packageStart

/-- What lands in a core at the end of a tick: results, shape loads, ACQs, and FENCEs whose window is up. -/
def coreFinish (c : Nat) (k : Core) : List Happening :=
  [evA .resultLanding c, evA .shapeLoadLanding c] ++ k.accesses.flatMap fun a => match a.kind with
    | .acq => [evAB .acqLanding c a.id]
    | .fence _ => if a.performed then [evAB .fenceComplete c a.id] else []
    | _ => []

/-- The candidates at the end of a tick: results land, shape loads, values of accesses, QSENDs in the order of their senders, and
commands complete (02 R32, R33; 05 R158). Of the values that wait at one register in elastic mode and those that arrive, the first by sender fills
it, whether it waited or not (DESIGN CHOICE, notes/assumptions/44.md). -/
def State.finishEvents (s : State) : List Happening :=
  s.cores.flatMap (fun p => coreFinish p.1 p.2)
    ++ (sortBy (·.src) s.qsends).map (fun q => evA .qsendArrival q.id)
    ++ s.cores.flatMap fun p => (p.2.copies.filter p.2.copyDue).map fun k => evAB .copyCompletion p.1 k.id

end Sys2Proof.Machine
end

