-- ==== Sys2Proof/Machine/Edge.lean ====
section
/-! DEFINITION. The end of a tick of the core clock: engines take up what has issued, faults stop their cores, retirement points and
barrier arrivals are noted, and every count advances (02 R33, R45-R49, R57-R60; 12 R373; 13 R398, R405). -/

namespace Sys2Proof.Machine

/-! ## Retirement points -/

/-- Every stream of a core has ended (02 R59). -/
def Core.allEnded (c : Core) : Bool := c.helm.ended && c.vec.ended && c.mat.ended && c.cpy.ended

/-- The helm issued YIELDPT in this cycle, and the matrix stream RETIRE, or it has ended (02 R58). -/
def Core.pointNow (c : Core) : Bool :=
  c.yieldAt == some c.time && (c.mat.ended || c.retireAt == some c.time) && c.handler.isNone


/-- Whether the core stands at a retirement point at the end of this cycle: it has reached one now, it holds at one or is kept at one by
`kept`, or its streams have all ended (02 R58-R60). -/
def Core.standsAt (c : Core) (kept : Bool) : Bool :=
  c.pointNow || ((c.holding || kept) && c.atRetire) || c.allEnded

/-- An elastic launch's core stays at its retirement point while a stop of the launch is wanted (02 R60, 13 R401). -/
def State.keptAt (s : State) (c : Nat) : Bool := match s.launchOf c with
  | some l => (s.core c).atRetire && !l.timedNow && s.stopWanted l
  | none => false

/-- Note where a core stands; the count since its last retirement point restarts, and its begin point of a snapshot has come
(02 R59, 13 R405). -/
def State.notePoint (s : State) (c : Nat) : State :=
  let kept := s.keptAt c
  let x := s.ctx (s.ctxOf c)
  let stands := (s.core c).standsAt kept
  let s := s.modCore c fun k => { k with atRetire := stands, sinceRetire := if stands then 0 else k.sinceRetire }
  if stands && x.beginPts.contains c then
    let k := s.core c
    s.modCtx (s.ctxOf c) fun x => { x with
      beginPts := x.beginPts.filter (· != c), imageOps := x.imageOps ++ [(c, k.nextAcc, k.nextCopy)] }
  else s

/-- The cores of a timed launch reach retirement points at different cycles under a pre-emption request: the launch unit raises
retirement bound exceeded on every core (02 R60). -/
def State.unevenPoints (s : State) (l : Launch) : Bool :=
  l.stage == .running && l.timedNow && !l.freezing && l.frozenUntil.isNone && s.preemptArrived l
    && l.cores.any (fun c => (s.core c).pointNow) && !s.atCommonPoint l

/-- Note every core's retirement point. -/
def State.notePoints (s : State) : State :=
  let s := (s.cores.map (·.1)).foldl (fun (s : State) c =>
    if (s.core c).lid.isNone || (s.core c).frozen then s else s.notePoint c) s
  (s.launches.filter s.unevenPoints).foldl (fun (s : State) l =>
    l.cores.foldl (fun (s : State) c => s.unitFault c (cause 2 7 boundC)) s) s

/-! ## Faults -/

/-- Whether a core takes a fault now: it runs, or runs a handler, and has no trap under way. The helm's own waits for a slot where ncount
is 0 (05 R146); a fault of the crossing program of a launch in timed mode waits for a handler's return, and in elastic mode stops no core
(12 R373, R446). -/
def Core.takesFault (c : Core) (timed : Bool) (t : TrapInfo) : Bool :=
  if t.st = .crossing ∧ !timed then c.xtrap.isNone && c.xEscalated.isNone
  else c.trap.isNone && c.inHandlerFault.isNone && c.trapped.isNone && c.escalated.isNone && !c.phaseWait && !c.held &&
    (t.st != .helm || c.helmSt.ncount == 0) && (if c.handler.isSome then t.st != .crossing else !c.frozen)

/-- Every other core of a timed launch is to stop within 256 cycles of a fault (02 R48). -/
def State.freezeLaunch (s : State) (l : Launch) (c : Nat) : State :=
  let s := s.modLaunch l.lid fun l => { l with freezing := true }
  (l.cores.filter (· != c)).foldl (fun (s : State) o =>
    if (s.core o).frozen || (s.core o).freezeAt.isSome then s
    else
      let t := s.now + s.choice 0 256
      s.chosen.modCore o fun k => { k with freezeAt := some t }) s

/-- Stop a core with its fault: in timed mode the launch freezes, in elastic mode the core stops alone, and a fault of an elastic
launch's crossing program stops no core. The record follows within 64 cycles (02 R48, 12 R373, R374). -/
def State.stopCore (s : State) (c : Nat) (t : TrapInfo) : State :=
  let timed := s.timedAt c
  let at_ := s.now + s.choice 1 64
  if t.st = .crossing ∧ !timed then s.chosen.modCore c fun k => { k with xtrap := some t, xDeliverAt := at_ }
  else
    let s1 := s.chosen.modCore c fun k => { k with
      trap := some t, deliverAt := at_, freezeAt := if timed then none else k.freezeAt, stopped := true, frozen := k.frozen || timed }
    match s.launchOf c with
    | some l => if timed then s1.freezeLaunch l c else s1
    | none => s1

/-- The first fault of a core in the order helm, vector, matrix, copy, crossing stops it, or cancels its phase; faults of other words of
the same cycle are dropped, since those words issue again on resume (12 R373, 13 R398). -/
def State.takeFault (s : State) (c : Nat) : State :=
  let k := s.core c
  match minBy? (fun t => streamIdx t.st) (k.raised.filter (k.takesFault (s.timedAt c))) with
  | none => s
  | some t =>
    let rest := (k.raised.erase t).filter fun x => !x.ofWord || x.st == .crossing
    let s := s.modCore c fun k => { k with raised := rest }
    if k.cancels t then s.cancelPhase c t
    else s.stopCore c { t with more := (k.raised.erase t).any fun x => x.st != t.st && x.st != .crossing }

/-- Faults found in this cycle stop their cores; a core of no launch has nothing to stop. -/
def State.takeFaults (s : State) : State :=
  (s.cores.map (·.1)).foldl (fun (s : State) c =>
    if (s.core c).raised.isEmpty then s
    else if isPurser c || (s.launchOf c).isSome then s.takeFault c
    else s.modCore c fun k => { k with raised := [] }) s

/-- The freeze of a timed launch reaches cores (02 R48). -/
def State.reachFreezes (s : State) : State :=
  { s with cores := s.cores.map fun p => match p.2.freezeAt with
      | some t => if t ≤ s.now then (p.1, { p.2 with frozen := true, freezeAt := none }) else p
      | none => p }

/-! ## Engines and barriers -/

/-- The engines take up what has issued. -/
def State.armAll (s : State) : State :=
  let cs := (s.cores.filter fun p => !p.2.copies.isEmpty).map (·.1)
  let s := cs.foldl (fun (s : State) c => s.armCopies c) s
  (cs.foldl (fun (s : State) c => s.armColls c) s.armSends).noteBuffers

/-- A member counts as arrived once its helm's earlier stores are home (02 R57, 09 R279). -/
def State.noteArrivals (s : State) : State :=
  let home := fun (a : Arrival) => let k := s.core a.core; k.storesHome k.nextAcc
  let note := fun (b : Bar) (a : Arrival) =>
    if a.at_.isNone && home a then { a with at_ := some (match s.launch? b.lid with | some l => l.count | none => 0) } else a
  { s with bars := s.bars.map fun (b : Bar) => { b with arrived := b.arrived.map (note b) } }

/-! ## Quiet deadlock -/

/-- A stream issued a word in this cycle, or a wait of it ended, or its wait stands before its deadline (02 R45). -/
def StreamSt.lively (x : StreamSt) (t : Nat) : Bool :=
  x.issueBase == t + 1 || (x.notBefore != 0 && x.notBefore == t) || match x.wait with
    | some w => decide (t < w.due) || w.since == t
    | none => false

/-- An engine operation moves data: a command that has begun, a CSEND one of whose destinations is to be reached in a binding that waits,
a collective past its digest round (02 R45). A command that waits for another party moves nothing. -/
def State.moving (s : State) (c : Nat) : Bool := (s.core c).copies.any fun k =>
  k.started && !k.finished && (match k.kind with
    | .send => k.left.isEmpty || decide (s.handleCount k.handle < k.arriveAt) || k.left.any fun d => s.arrivalDue c k d
    | .coll => s.colls.any fun x => x.digested && x.members.any fun m => m.core == c && m.cmd == k.id && !m.done
    | .recv => false
    | _ => true)

/-- Something of R45's list happens in a launch in this cycle. -/
def State.progress (s : State) (l : Launch) : Bool :=
  l.cores.any (fun c =>
    let k := s.core c
    k.helm.lively k.time || k.vec.lively k.time || k.mat.lively k.time || k.cpy.lively k.time || s.moving c) ||
  (match l.xing with
    | some x => x.prog.lively l.count || (match x.prog.wait with
        | some w => (match w.kind with | .hour _ => !s.expired | _ => false)
        | none => false)
    | none => false)

/-- Whether the sequencer of a launch counts: until the last core has stopped (02 R47, R48). -/
def State.counts (s : State) (l : Launch) : Bool := l.stage == .running && l.cores.any fun c => !(s.core c).frozen

/-- The handles of a launch that stops for a pre-emption drain on while its sequencer's count stands (10 R335, 11 R349). -/
def State.ageHandles (s : State) : State :=
  { s with handles := s.handles.map fun (h : Handle) => match s.launch? h.lid with
      | some l => if h.st = .draining ∧ l.stage = .preempting then { h with aged := h.aged + 1 } else h
      | none => h }

/-- Since when each candidate has been ready (11 R342, R345). -/
def State.noteReady (s : State) : State :=
  { s with launches := s.launches.map fun (l : Launch) =>
      if (l.stage = .waiting ∧ s.launchReady l) ∨ l.stage = .preempted then { l with readyAt := l.readyAt.or (some s.wall) }
      else { l with readyAt := none } }

/-- The launches after this cycle: the sequencer's count and the count of quiet cycles (02 R45, R47). -/
def State.advanceLaunches (s : State) : State :=
  { s with launches := s.launches.map fun (l : Launch) =>
      if s.counts l then { l with
        count := l.count + 1, quiet := if l.timedNow || s.progress l then 0 else l.quiet + 1 }
      else l }

/-! ## Time -/

/-- The stopped core keeps its results in flight until its trap is delivered (12 R373). -/
def Core.holdFlights (c : Core) : Core :=
  if c.stopped && (c.trap.isSome || c.inHandlerFault.isSome) then
    { c with flights := shiftFlights 1 c.flights
             accesses := c.accesses.map fun a => if a.captured then a else { a with issued := a.issued + 1 } }
  else c

/-- A core after this cycle: its count advances unless it is frozen; a handler in a frozen launch has its own cycles (02 R46, R48,
12 R375). -/
def Core.tick (c : Core) : Core :=
  if c.held then c.ageBy 1
  else if c.frozen then (if c.handler.isSome then { c.holdFlights with htime := c.htime + 1 } else c.ageBy 1)
  else { c.holdFlights with cyc := c.cyc + 1, sinceRetire := c.sinceRetire + 1 }

/-- CSENDs under way go on while their sequencer's count stands (02 R46). -/
def Core.ageSends (c : Core) : Core :=
  let dec := fun (n : Nat) => if n = 0 then 0 else max 1 (n - 1)
  { c with copies := c.copies.map fun k => if k.finished then k else { k with sendAt := k.sendAt - 1, arriveAt := dec k.arriveAt, ackAt := dec k.ackAt } }

/-- Whether a core's count runs with its launch, or for ever on a purser core; what a retired launch still has under way counts on until its
record is written (09 R294, 11 R346). -/
def State.inCount (s : State) (c : Nat) : Bool := isPurser c || match s.launchOf c with
  | some l => l.stage == .running || l.stage == .preempting || l.stage == .retired
  | none => false

/-- Every core's count after this cycle. -/
def State.advanceCores (s : State) : State :=
  { s with cores := s.cores.map fun p =>
      if s.inCount p.1 then
        let k := match s.launchOf p.1 with
          | some l => if s.counts l then p.2 else p.2.ageSends
          | none => p.2
        (p.1, k.tick)
      else p }

/-- A freeze of a migration or of a clock change ends; a core that a trap has frozen as well stays so (02 R46). -/
def State.thaw (s : State) : State :=
  (s.launches.filter fun l => match l.frozenUntil with | some t => decide (t ≤ s.wall) | none => false).foldl (fun (s : State) l =>
    let s := s.modLaunch l.lid fun l => { l with frozenUntil := none }
    if l.stage = .running then l.cores.foldl (fun (s : State) c => s.modCore c fun k =>
      { k with held := false, frozen := l.freezing && k.freezeAt.isNone }) s else s) s

/-- An event of every stack at each multiple of a period (13 R411, R413). -/
def State.eachPeriod (s : State) (before period : Nat) (i : Instr) : State :=
  if !s.booted || before / period == s.wall / period then s
  else (List.range 8).foldl (fun (s : State) st => s.plan 0 i { a := st }) s

/-- The scrubbers' turns: each granule of a stack once every 24 hours, each sector of a local store once every millisecond; a turn at which there is
nothing bad changes nothing. Every millisecond the eye margins of every stack's pins are measured too (13 R392, R413). -/
def State.scrubs (s : State) (before : Nat) : State :=
  let past := fun (period : Nat) => s.booted && before / period != s.wall / period
  let s := if past (nsUnits 86400000000000) then s.bad.foldl (fun (s : State) g => s.plan 0 .patrolScrub { a := g.1, flag := g.2 }) s else s
  if past (nsUnits 1000000) then
    (List.range 8).foldl (fun (s : State) st => s.plan 0 .eyeMarginMeasurement { a := st, flag := true })
      (s.cores.foldl (fun (s : State) p => p.2.lsLatent.foldl (fun (s : State) n => s.plan 0 .localStoreScrub { a := p.1, b := n }) s) s)
  else s

/-- The clocks advance by a tick: `wall` by 840 / clock units, the clock in quarters of a GHz (01 R15, R16). -/
def State.advanceClocks (s : State) : State :=
  let w := s.wall
  let s := { s with now := s.now + 1, wall := s.wall + 840 / s.clock }
  ((s.eachPeriod w (nsUnits 32000000) .refreshWindow).eachPeriod w (nsUnits 3600000000000) .correctedCountHour).scrubs w

/-- The condition of a stream's wait has held at the start of a cycle (02 R39, R43). -/
def State.latchWait (s : State) (c : Nat) (x : StreamSt) : StreamSt :=
  { x with wait := x.wait.map fun w => if w.held then w else { w with held := s.waitHolds c w.kind } }

/-- Note the conditions of waits at the start of the next cycle. -/
def State.latchWaits (s : State) : State :=
  { s with cores := s.cores.map fun p => (p.1, { p.2 with
      helm := s.latchWait p.1 p.2.helm, vec := s.latchWait p.1 p.2.vec, mat := s.latchWait p.1 p.2.mat, cpy := s.latchWait p.1 p.2.cpy }) }

/-! ## Physical errors -/

/-- What goes wrong physically in a tick, all of it free (notes/assumptions/4.md): an uncorrectable local store sector, a parity error of a
tile register, of an accumulator or of a tag entry, a residue that does not match in the word of a step index, one stored beside a vector container, all in a core, an
uncorrectable or a corrected HBM granule, and a corrected error that a read of a core's local store meets (04 R132; 13 R388-R391). -/
def State.upset (s : State) (e : Nat × Nat × Nat) : State :=
  let c := e.2.1 % 2056
  let n := e.2.2
  match e.1 with
  | 0 => s.modCore c fun k => { k with lsPoison := addOnce k.lsPoison (n % 131072), lsLatent := addOnce k.lsLatent (n % 131072) }
  | 1 => s.modCore c fun k => { k with tBad := addOnce k.tBad (n % 16) }
  | 2 => s.modCore c fun k => { k with aBad := addOnce k.aBad (n % 4) }
  | 3 => s.modCore c fun k => if (tabGet k.tagTab n).isSome then { k with tagBad := addOnce k.tagBad n } else k
  | 4 => s.modCore c fun k => { k with residueBad := addOnce k.residueBad n }
  | 5 => { s with bad := s.bad ++ [(n, false)] }
  | 6 => { s with bad := s.bad ++ [(n, true)] }
  | 7 => s.post (s.ctxOf c) (cause 5 0 0) c 0
  | 8 => s.modCore c fun k => { k with vBad := addOnce k.vBad (n % 8192) }
  | _ => s

/-- The physical errors of this tick. -/
def State.upsets (s : State) : State := (Config.upset s.now).foldl (fun (s : State) e => s.upset e) s

/-- The end of a tick. -/
def State.edge (s : State) : State :=
  let s := s.armAll.notePoints.takeFaults.reachFreezes.noteArrivals.noteGaps.noteReady.ageHandles.advanceLaunches.advanceCores.advanceClocks.thaw.latchWaits.upsets
  { s with tphase := .start, todo := [], cur := {}, on := {} }

end Sys2Proof.Machine
end

