-- ==== Sys2Proof/Machine/Issue.lean ====
section
/-! DEFINITION. A stream's slot in a cycle: whether it has come, the fetch, an interrupt, a trap that is owed, an annulled word, row 1 and the
guard rows of R36, and the word's meaning (02 R35, R36, R441; 05 R142, R145, R146, R173; 08 R260; 12 R380). -/

namespace Sys2Proof.Machine

/-- The scalars that a helm word reads. A word of another stream reads none of its own stream's (02 R441). -/
def scalarsRead : Instr → List SReg
  | .add _ a b | .sub _ a b | .and _ a b | .or _ a b | .xor _ a b | .andn _ a b | .sll _ a b | .srl _ a b | .sra _ a b
  | .mul _ a b | .mulh _ a b | .mulhu _ a b | .div _ a b | .divu _ a b | .rem _ a b | .remu _ a b | .slt _ a b | .sltu _ a b
  | .min _ a b | .max _ a b | .minu _ a b | .maxu _ a b | .aadd _ a b | .aaddf _ a b | .aswap _ a b | .amin _ a b | .amax _ a b
  | .abump _ a b | .qsend _ a b | .tagset a b => [a, b]
  | .acas d a b | .bind d a b | .mstore d a b => [d, a, b]
  | .addi _ a _ | .andi _ a _ | .ori _ a _ | .xori _ a _ | .slli _ a _ | .srli _ a _ | .srai _ a _ | .slti _ a _ | .clz _ a | .ctz _ a
  | .popc _ a | .brev _ a | .bext _ a _ _ | .bexts _ a _ _ | .pfrom _ a | .jmpr a | .callr a | .ldc _ a _ | .acq a | .rel a
  | .mwait a _ | .taglk _ a | .tagclr a | .shld _ a | .phaseb a | .phasec a | .tstart a | .waitid _ a _ | .waitidLaunch a _
  | .tbar a _ _ | .tbarSync a _ _ | .launch _ a _ | .yieldptHold a _ | .csrw _ a => [a]
  | .seth d _ => [d]
  | .bins d a _ _ => [d, a]
  | .fshl o | .fshr o => [o.ra, o.rb]
  | .cmpeq _ a s | .cmpne _ a s | .cmplt _ a s | .cmpltu _ a s | .cmple _ a s | .cmpleu _ a s => match s with
    | .reg b => [a, b]
    | .imm _ => [a]
  | .ld8 o | .ld8s o | .ld16 o | .ld16s o | .ld32 o | .ld32s o | .ld64 o => [o.rb]
  | .st8 o | .st16 o | .st32 o | .st64 o => [o.rb, o.rt]
  | _ => []

/-- The vector register that a source of kind `k` names. -/
def srcReg (k : BitVec 2) (a : BitVec 8) : List (BitVec 6) := if k = 0 then [a.setWidth 6] else []

/-- The vector registers and the lane mask that a vector word reads (03 R74-R78, 06 R181-R193, 07 R209-R216). -/
def vectorReads : Instr → List (BitVec 6) × BitVec 4
  | .vadd o | .vsub o | .vmul o | .vmin o | .vmax o | .vdiv o | .vand o | .vor o | .vxor o | .vshl o | .vshr o | .vsra o | .vbext o
  | .vsel o | .vpart o | .vbcast o | .vperm o => (srcReg o.ka o.a ++ srcReg o.kb o.b, o.msk)
  | .vfma o | .vfms o | .vfnma o | .vfsh o => (o.vd :: (srcReg o.ka o.a ++ srcReg o.kb o.b), o.msk)
  | .vabs o | .vneg o | .vsqrt o | .vrcp o | .vrsq o | .vexp2 o | .vlog2 o | .vpopc o | .vclz o | .viota o | .vmov o => (srcReg o.ka o.a, o.msk)
  | .vcmp o => (srcReg o.ka o.a ++ srcReg o.kb o.b, o.msk)
  | .vextr o => (srcReg o.ka o.a, o.msk)
  | .vcvt o | .vpack o | .vunpack o | .vdeq o => (srcReg o.ka o.a, o.msk)
  | .vquant o => (o.vd :: srcReg o.ka o.a, o.msk)
  | .vrsum o | .vrmax o | .vrmin o | .vscan o | .vrnorm o | .vrsmax o => (srcReg o.ka o.a, o.msk)
  | .vldr o => ([], o.msk)
  | .vld o => ([], o.msk)
  | .vst o => ([o.vd], o.msk)
  | .vlds o => ([], o.msk)
  | .vgath o => ([o.sx], o.msk)
  | .vsts o => ([o.vd], o.msk)
  | .vscat o => ([o.vd, o.sx], o.msk)
  | _ => ([], 0)

/-- Whether a word of a stream takes an entry of the format table: a vector word whose T is 0b111 or whose RM is 5, and the matrix words
that take their types or rounding from it (03 R76, R77, 04 R121, 07 R222). -/
def tableRead : Instr → Bool
  | .vadd o | .vsub o | .vmul o | .vmin o | .vmax o | .vdiv o | .vand o | .vor o | .vxor o | .vshl o | .vshr o | .vsra o | .vbext o
  | .vsel o | .vpart o | .vbcast o | .vperm o | .vfma o | .vfms o | .vfnma o | .vfsh o => o.t == 7 || o.rm == 5
  | .vabs o | .vneg o | .vsqrt o | .vrcp o | .vrsq o | .vexp2 o | .vlog2 o | .vpopc o | .vclz o | .viota o | .vmov o => o.t == 7 || o.rm == 5
  | .vcmp o => o.t == 7
  | .vextr o => o.t == 7 || o.rm == 5
  | .vcvt o | .vpack o | .vunpack o | .vdeq o | .vquant o => o.t == 7 || o.rm == 5
  | .vrsum o | .vrmax o | .vrmin o | .vscan o | .vrnorm o | .vrsmax o => o.t == 7 || o.rm == 5
  | .vldr o => o.t == 7
  | .vld o => o.t == 7
  | .vst o => o.t == 7
  | .vlds o | .vgath o => o.t == 7
  | .vsts o | .vscat o => o.t == 7
  | .mma _ | .mmar _ | .mout _ | .moutq _ _ => true
  | _ => false

/-- Whether a word reads the plain register that an effect of its own stream writes (02 R34). -/
def readsPlain (i : Instr) : Eff → Bool
  | .s r _ => r != 0 && (scalarsRead i).contains r
  | .v r _ _ => (vectorReads i).1.contains r
  | .k r _ => r != 0 && (vectorReads i).2 == r
  | .fmt _ => tableRead i
  | _ => false

/-- A helm access whose window has passed at position `p` holds the helm in elastic mode until it has completed: a load, an atomic, an
ACQ or a LAUNCH until it has landed, a REL, an MSTORE or a FENCE until it is performed (05 R151; 09 R270, R271, R276, R281, R287; 11 R347). -/
def Core.holdsHelm (c : Core) (p : Nat) : Bool := c.accesses.any fun a =>
  !a.captured && !a.late && a.fault.isNone && decide (a.pos + a.window ≤ p) && (match a.kind with
    | .store _ => false
    | .fence _ => !a.performed
    | _ => true)

/-- A command of the core has passed issue + 512 and its walks still run (08 R246). -/
def Core.walksLate (c : Core) : Bool := c.copies.any fun k =>
  k.virt && !k.xlated && !k.finished && k.fault.isNone && decide (k.issued + 512 ≤ c.time)

/-- In elastic mode the helm's slot waits for accesses whose windows have passed, and the copy stream's for walks that are late (05 R151,
08 R246). -/
def State.heldSlot (s : State) : Bool :=
  s.stalls && ((s.cur.st == .helm && s.me.holdsHelm s.cur.pos) || (s.cur.st == .copy && s.me.walksLate))

/-- In elastic mode a word waits for a result of its own stream that it reads and that has not arrived (02 R441). In timed mode no word
waits (R37): one that reads a result which has its position behind it and has not arrived, as a resynchronisation can leave one, reads
the earlier value (DESIGN CHOICE, notes/assumptions/23.md). -/
def State.awaits (s : State) (i : Instr) : Bool :=
  s.stalls && s.cur.st != .crossing && s.me.unsettled s.cur.st s.cur.pos (readsPlain i)

/-- Whether the crossing program of launch `lid` runs (02 R47, 10 R301). -/
def State.crossingRuns (s : State) (lid : Nat) : Bool := match s.launch? lid with
  | some l => s.counts l && (match l.xing with | some x => !x.stopped | none => false)
  | none => false

/-- A fault of the stream has been found. The helm's annulled slots pass all the same, since its fault is taken behind them (05 R146). -/
def Core.barred (k : Core) (st : Stream) : Bool :=
  (k.raised.any fun t => t.st == st) && !(st == .helm && k.helmSt.ncount != 0)

/-- Whether a stream has a slot to come: it runs, has not ended, waits for nothing, and no fault of it has been found in this cycle; `c` is
the launch of a crossing program. -/
def State.hasSlot (s : State) (c : Nat) (st : Stream) : Bool :=
  let x := ({ s with cur := ⟨c, st, 0⟩ }).mine
  !x.ended && x.wait.isNone && match st with
    | .crossing => s.crossingRuns c
    | _ => (s.core c).runs st && s.inCount c && !(s.core c).barred st && !(s.keptAt c)

/-- Whether the word of a stream, with its IDLE, has its slot in cycle `t`: at or after its schedule position, spaced from the word before,
and after the cycle in which a wait ended (02 R35, R441). -/
def StreamSt.slotDue (x : StreamSt) (idle t : Nat) : Bool :=
  decide (x.position idle ≤ t) && (x.posAt.isSome || decide (x.issueBase + idle ≤ t)) && (x.notBefore == 0 || decide (x.notBefore < t))

/-- Whether the helm's slot is annulled (05 R142). -/
def State.annulled (s : State) : Bool := s.cur.st == .helm && s.me.helmSt.ncount != 0

/-- An annulled slot passes (05 R142). -/
def State.passAnnulled (s : State) : State :=
  (s.modMe fun c => { c with helmSt := { c.helmSt with ncount := c.helmSt.ncount - 1 } }).advance

/-- The slot of a word whose guard selects no issue: a LOOP or LOOPS passes its body, every other word its own slot
(02 R36 row 3, 05 R173). -/
def State.passGuarded (s : State) (i : Instr) : State :=
  let skip := fun (len : BitVec 9) =>
    let x := s.mine
    let r := loopNext (x.passed s.cur.pos s.cyc) (x.pc + BitVec.ofNat 64 (8 * len.toNat)) x.loops
    (s.emit 1 r.2).modMine fun _ => r.1
  match i with
  | .loop _ _ len => skip len
  | .loops _ _ len _ _ => skip len
  | _ => s.advance

/-- The core of the issuing stream has issued a word: its physical core is a producer of the context's results (13 R402). -/
def State.noteProducer (s : State) (before : StreamSt) : State :=
  let x := s.mine
  if s.cur.st == .crossing || isPurser s.cur.core || s.me.lid.isNone || (x.step == before.step && x.wait.isNone) then s
  else s.modCtx (s.ctxOf s.cur.core) fun c => { c with producers := addOnce c.producers (s.physCore s.cur.core) }

/-- The producer of what a word did, in every outcome. -/
def noteOutcome (before : StreamSt) : Host.Outcome State Fault Refusal → Host.Outcome State Fault Refusal
  | .next s => .next (s.noteProducer before)
  | o => o

/-- The state in which a word issues: the results of its stream that it must see have taken effect (02 R441). -/
def State.settled (s : State) : State := match s.cur.st with
  | .crossing => s
  | st => s.modMe fun c => c.settle st s.cur.pos

/-- A decoded word at its slot: rows 2 and 3 of R36, then its meaning. -/
def State.issue (s : State) (d : Decoded) : Host.Outcome State Fault Refusal :=
  if d.gm ≠ 0 ∧ !s.me.pIsFull d.gp then (if s.stalls then .next s else .next (s.fault (cause2 s.cur.st emptyC)))
  else if d.gm ≠ 0 ∧ s.me.preg d.gp ≠ (d.gm == 1) then .next (s.passGuarded d.instr)
  else if s.settled.awaits d.instr then .next s
  else noteOutcome s.mine (exec d.instr s.settled)

/-- The trap that the copy stream owes at this slot, if any (08 R260). -/
def State.owedNow (s : State) : Option TrapInfo := if s.cur.st == .copy then s.me.owed.head? else none

/-- Raise the trap that is owed, before the slot's word issues. One that names the word of a command carries that word's cycle
(12 R376), any other the slot's. -/
def State.raiseOwed (s : State) (t : TrapInfo) : State :=
  (s.modMe fun c => { c with owed := c.owed.tail }).raiseAt s.cur.core (if t.xpc.isSome then t else { t with cyc := s.cyc })

/-- A fault of a fetch; poison that it meets is named by its stack (03 R71, 05 R145, 12 R376, R377, 13 R388). -/
def State.fetchFault (s : State) (code : Nat) : State := match s.fetchKey s.cur.core s.cur.st s.mine with
  | .ok k => s.faultWith { s.info code with engine := 6, unit := stackOf (k % 2 ^ 56) }
  | .error _ => s.faultWith { s.info code with va := if causeClass code = 1 ∨ causeCond code = alignC then s.mine.pc else 0 }

/-- A slot that has come, of a stream whose word is `w`. -/
def State.slot (s : State) (w : Word) : Host.Outcome State Fault Refusal :=
  if s.cur.st == .helm && s.interruptDue s.cur.core s.cur.pos then
    exec .interruptTaken { s with on := { a := s.cur.core } }
  else if s.heldSlot then .next s
  else if s.annulled then .next s.passAnnulled
  else match s.owedNow with
  | some t => .next (s.raiseOwed t)
  | none => match decode s.cur.st w with
    | .error e => exec .unassignedOpcode { s with on := { flag := e == .reservedBits } }
    | .ok d => s.issue d

/-- One stream's part in a cycle: `c` is its core, or its launch for a crossing program. A slot whose word cannot be fetched has no IDLE
to read: it counts as 0 (DESIGN CHOICE, notes/assumptions/24.md). -/
def State.runStream (s : State) (c : Nat) (st : Stream) : Host.Outcome State Fault Refusal :=
  let s0 := { s with cur := ⟨c, st, 0⟩ }
  let x := s0.mine
  if !s.hasSlot c st then .next s
  else match s.fetch c st x with
  | .word w =>
    let idle := (fld w 54 10).toNat
    if x.slotDue idle s0.cyc then { s.fetchEffects c st x with cur := ⟨c, st, x.position idle⟩ }.slot w else .next s
  | .fault code =>
    let s1 := { s0 with cur := ⟨c, st, x.position 0⟩ }
    if !x.slotDue 0 s0.cyc then .next s
    else if st == .helm && s1.interruptDue c s1.cur.pos then exec .interruptTaken { s1 with on := { a := c } }
    else if s1.heldSlot then .next s
    else if s1.annulled then .next s1.passAnnulled
    else .next ((s1.fetchFault code).fetchEffects c st x)

/-- A copy stream that has ended has no slot to come; a trap that it owes is raised at once (DEDUCED, notes/assumptions/19.md). -/
def State.owedAtEnd (s : State) (c : Nat) : Bool :=
  let k := s.core c
  k.cpy.ended && k.runs .copy && s.inCount c && !k.owed.isEmpty && !k.raised.any fun t => t.st == .copy

/-- The streams that have a part in this cycle, by core in the order of R33, then the crossing programs. -/
def State.streams (s : State) : List (Nat × Stream) :=
  s.cores.flatMap (fun p =>
    ([Stream.helm, .vector, .matrix, .copy].filter fun st => !(p.2.stream st).ended || (st == .copy && !p.2.owed.isEmpty)).map fun st => (p.1, st))
    ++ (s.launches.filter fun l => l.stage == .running && l.xing.isSome).map fun l => (l.lid, .crossing)

/-- One stream's part in a cycle, an ended copy stream's owed trap included. -/
def State.part (s : State) (c : Nat) (st : Stream) : Host.Outcome State Fault Refusal :=
  if st == .copy && s.owedAtEnd c then
    match (s.core c).owed with
    | t :: _ => .next ({ s with cur := ⟨c, .copy, 0⟩ }.raiseOwed t)
    | [] => .next s
  else s.runStream c st

/-! ## Events -/

/-- The state after an event, if it happens now. -/
def State.happens (s : State) (h : Happening) : Option State := match exec h.1 { s with on := h.2 } with
  | .next s' => some s'
  | _ => none

/-- The state after the first event of a list that happens now. -/
def State.firstOf (s : State) (l : List Happening) : Option State := l.findSome? s.happens

/-- The next event of the agenda that is due, and the agenda without it. -/
def State.popAgenda (s : State) : Option (Happening × State) := match s.agenda with
  | d :: t => if d.at_ ≤ s.now then some ((d.ev, d.on), { s with agenda := t }) else none
  | [] => none

/-- The next alarm that is due. -/
def State.popAlarm (s : State) : Option (Happening × State) := match s.alarms with
  | d :: t => if d.at_ ≤ s.wall then some ((d.ev, d.on), { s with alarms := t }) else none
  | [] => none

/-- The start of a tick: one event of the agenda, of the alarms, or of the candidates; an event of the agenda that finds its condition gone
is dropped. With none left, the streams issue. -/
def State.startStep (s : State) : State := match s.popAgenda.or s.popAlarm with
  | some (h, s') => (s'.happens h).getD s'
  | none => (s.firstOf s.startEvents).getD { s with tphase := .issue, todo := s.streams }

/-- The end of a tick: one landing, arrival or completion; with none left, the edge of the clock. -/
def State.finishStep (s : State) : State := (s.firstOf s.finishEvents).getD s.edge

end Sys2Proof.Machine
end

