-- ==== Sys2Proof/Machine/Step.lean ====
section
/-! DEFINITION. One step: an event at the start of a tick, one stream's slot, or an event at the tick's end. -/

namespace Sys2Proof.Machine

/-- One step of the package. A tick of the core clock is a run of steps: its events, the streams in order, its landings, and its edge. -/
def step (s : State) : Host.Outcome State Fault Refusal := match s.tphase with
  | .start => .next s.startStep
  | .issue => match s.todo with
    | [] => .next { s with tphase := .finish }
    | (c, st) :: t => { s with todo := t }.part c st
  | .finish => .next s.finishStep

/-- The virtual address at which `withFetchWord` places a word. -/
def fetchVa : Nat := 4096

/-- The package running, in elastic mode, a launch of core 0 whose one image is the word `w` of the stream that `tableStream` names, with that
stream next to issue: what loading a program through a quay brings about (DESIGN CHOICE, notes/assumptions/7.md). -/
def State.withFetchWord (s : State) (_nbits w : Nat) : State :=
  let st := tableStream w
  let x : StreamSt := { base := BitVec.ofNat 64 fetchVa, words := 1, ended := false, pc := BitVec.ofNat 64 fetchVa }
  let k : Core := { lid := some s.nextLid, helmSt := { npc := x.pc + 8, nnpc := x.pc + 16 } }
  let pin : Pin := ⟨0, ⟨1, 65536, 0⟩⟩
  let l : Launch := { lid := s.nextLid, ctx := 0, stage := .running, pins := [pin]
                      xing := match st with | .crossing => some { prog := x } | _ => none }
  { s with
    mem := memWrite s.mem (pin.leaf.key fetchVa) (toBytes 8 w)
    launches := s.launches ++ [l], nextLid := s.nextLid + 1
    cores := tabSet s.cores 0 (k.setStream st x)
    tphase := .issue, todo := [(match st with | .crossing => s.nextLid | _ => 0, st)] }

end Sys2Proof.Machine
end

