-- ==== Sys2Proof/Safety.lean ====
section
/-! DEFINITION. What a safe state and a safe run are, in the terms the statements use. -/

namespace Sys2Proof.Machine

/-- The byte stores of a core and its tables have their canonical form. -/
def Core.storesOk (k : Core) : Bool := k.ls.wf && tabRising none k.slotTags && tabRising none k.tagTab

/-- Every byte store of the package has its canonical form: package memory and the local store of every core. -/
def State.storesOk (s : State) : Prop :=
  s.mem.wf = true ∧ tabRising none s.cores = true ∧ ∀ p ∈ s.cores, p.2.storesOk = true

/-- The hard-wired registers of a core hold what the spec says they read: s0 reads 0, p0 reads 1, k0 has every lane on
(03 R83). -/
def Core.hardwired (k : Core) : Prop :=
  vGet (0 : SReg) k.sregs = 0 ∧ vGet (0 : PReg) k.pregs = true ∧ vGet (0 : PReg) k.pfull = true ∧
    vGet (0 : BitVec 4) k.kregs = BitVec.allOnes 128

/-- Every core's hard-wired registers hold their values. -/
def State.hardwired (s : State) : Prop := ∀ c, (s.core c).hardwired

/-- A step that does not stop the machine. -/
def Completes (o : Host.Outcome State Fault Refusal) : Prop := ∃ t, o = .next t

/-- A run of `n` steps that no fault or refusal ends. -/
def SafeRun (s : State) (n : Nat) : Prop := ∃ t, Sys2Proof.core.run n s = .next t

/-! ## Frames -/

/-- What one core's registers, banks and stores hold stays: everything that a word's results reach only at their landing, in
memory or by a copy (02 R32, 03 R83). -/
structure Core.SameFiles (a b : Core) : Prop where
  sregs : b.sregs = a.sregs
  hbank : b.hbank = a.hbank
  pregs : b.pregs = a.pregs
  pfull : b.pfull = a.pfull
  qregs : b.qregs = a.qregs
  qfull : b.qfull = a.qfull
  vregs : b.vregs = a.vregs
  kregs : b.kregs = a.kregs
  tregs : b.tregs = a.tregs
  tfull : b.tfull = a.tfull
  aregs : b.aregs = a.aregs
  afull : b.afull = a.afull
  cbank : b.cbank = a.cbank
  fmt : b.fmt = a.fmt
  ls : b.ls = a.ls
  slotTags : b.slotTags = a.slotTags
  seed : b.seed = a.seed
  tvec : b.tvec = a.tvec
  tcause : b.tcause = a.tcause
  trec : b.trec = a.trec
  bonds : b.bonds = a.bonds
  chst : b.chst = a.chst
  handler : b.handler = a.handler
  cyc : b.cyc = a.cyc

/-- The words of core streams whose issue itself changes more than their own core's pipes: CSRW (12 R384), the returns HRET and HESC
(12 R377), TSTART (11 R347), and the copy commands with a record, which a phase logs in local store (13 R397). -/
def beyondFrame : Instr → Bool
  | .csrw _ _ | .hret | .hesc | .tstart _ => true
  | .cpy _ _ _ | .cpyr _ _ _ _ | .cgath _ _ | .cscat _ _ | .cbin _ _ | .csend _ _ _ _ | .crecvb _ _ | .cnmc _ | .ccoll _
  | .cconst _ => true
  | _ => false

/-- The frame of a word of a core stream: every byte of package memory, every other core, the issuing core's registers, banks
and local store, the clocks, and the landings stay as they were. -/
structure State.Frame (s t : State) : Prop where
  core : t.cur.core = s.cur.core
  stream : t.cur.st = s.cur.st
  mem : t.mem = s.mem
  poison : t.poison = s.poison
  others : ∀ c, c ≠ s.cur.core → t.core c = s.core c
  files : (s.core s.cur.core).SameFiles (t.core s.cur.core)
  now : t.now = s.now
  wall : t.wall = s.wall
  clock : t.clock = s.clock
  landings : t.landings = s.landings
  groups : t.groups = s.groups

/-! ## What a word of a core stream does at its issue -/

/-- The helm's next three addresses after a word that is no taken branch (05 R142). -/
def State.nextPipe (s : State) : HelmSt := match s.cur.st with
  | .helm => { s.me.helmSt with npc := s.me.helmSt.nnpc, nnpc := s.me.helmSt.nnpc + 8 }
  | _ => s.me.helmSt

/-- The issuing stream after its word: the helm at the next address of its pipe, an engine stream where its loops lead, a
crossing program at its next word (05 R142, R164-R166; 10 R299). -/
def State.nextStream (s : State) : StreamSt := match s.cur.st with
  | .helm => { s.mine.passed s.cur.pos s.cyc with pc := s.me.helmSt.npc }
  | .crossing => { s.mine.passed s.cur.pos s.cyc with pc := s.mine.pc + 8 }
  | _ => (loopNext (s.mine.passed s.cur.pos s.cyc) s.mine.pc s.mine.loops).1

/-- The predicate writes of the issuing stream's loops as it passes its word (05 R166). -/
def State.loopEffs (s : State) : List Eff := match s.cur.st with
  | .helm | .crossing => []
  | _ => (loopNext (s.mine.passed s.cur.pos s.cyc) s.mine.pc s.mine.loops).2

/-- Nothing but the issuing core, and the counter of free values, may differ. -/
structure State.Alone (s t : State) : Prop where
  rest : t = { s with cores := t.cores, freeCtr := t.freeCtr }
  others : ∀ c, c ≠ s.cur.core → t.core c = s.core c

/-- The issuing stream has passed its word, and no other stream of the core has moved. -/
structure State.Passed (s t : State) : Prop where
  stream : t.mine = s.nextStream
  pipe : t.me.helmSt = s.nextPipe
  streams : ∀ st, st ≠ s.cur.st → t.me.stream st = s.me.stream st

/-- The results that the issuing word puts in flight, each with its latency L: issued in cycle c it lands at the end of cycle
c + L - 1; the predicate writes of the stream's loops follow (02 R32, 05 R133, R166). -/
def State.Results (s t : State) (effs : List (Nat × Eff)) : Prop :=
  ∃ b, t.me.flights = s.me.flights
    ++ effs.map (fun e => { s.flight e.1 e.2 with checked := b }) ++ s.loopEffs.map (s.flight 1)

/-- The issuing core but for what every word moves: its results in flight, its streams and the occupancy of its units. -/
def State.KeepsUnits (s t : State) : Prop :=
  t.me = { s.me with
    flights := t.me.flights, helm := t.me.helm, vec := t.me.vec, mat := t.me.mat, cpy := t.me.cpy, helmSt := t.me.helmSt
    vbusy := t.me.vbusy, mbusy := t.me.mbusy }

/-- A word whose whole effect is to put results in flight: everything else in the package stays as it was (02 R32). -/
structure State.Issued (s t : State) (effs : List (Nat × Eff)) : Prop where
  alone : s.Alone t
  passed : s.Passed t
  results : s.Results t effs
  units : s.KeepsUnits t

/-- The word completes, with these results and nothing else. -/
def Gives (i : Instr) (s : State) (effs : List (Nat × Eff)) : Prop := ∃ t, exec i s = .next t ∧ s.Issued t effs

/-- The word has no effect but its trap: its core is to stop with the cause `code` (02 R37). -/
def Traps (i : Instr) (s : State) (code : Nat) : Prop :=
  ∃ t, exec i s = .next t ∧ s.Alone t ∧
    t.me = { s.me with raised := s.me.raised ++ [{ s.info code with ofWord := true }] }

/-- A wait: the word may not issue yet. In elastic mode nothing changes, in timed mode it traps with `code` (02 R37, R42). -/
def Stalls (i : Instr) (s : State) (code : Nat) : Prop := if s.stalls then exec i s = .next s else Traps i s code

/-- The helm passes its word with `next` fetched after the two slots in its pipe, `n` of the slots to come annulled, and the shadow
stack `stack`; nothing else changes (05 R142, R147). -/
def Steers (i : Instr) (s : State) (next : Word) (n : BitVec 2) (stack : List Word) : Prop :=
  ∃ t, exec i s = .next t ∧ s.Alone t ∧
    t.me = { s.me with helm := s.nextStream, helmSt := ⟨s.me.helmSt.nnpc, next, n, stack⟩ }

/-- The helm passes its word, and the word then stops the core with a trap that records `stat`: it counts as executed
(05 R148, 12 R377). -/
def Calls (i : Instr) (s : State) (code : Nat) (stat : BitVec 32) : Prop :=
  ∃ t, exec i s = .next t ∧ s.Alone t ∧
    t.me = { s.me with helm := s.nextStream, helmSt := s.nextPipe
                       raised := s.me.raised ++ [{ s.info code with stat := stat, ofWord := true }] }

/-- A write of `n` bytes at `a` breaks a bond table: it meets a closed region, or the bond word of an entry (09 R273, R274). -/
def Breaks (bs : List Bond) (a n : Nat) : Prop := ∃ b ∈ bs,
  (b.isOpen = false ∧ a < b.base + b.len ∧ b.base < a + n) ∨ (a < b.bond + 8 ∧ b.bond < a + n)

/-- The home of a group lies in a package that cannot be reached now (09 R286, 10 R334, 12 R372). -/
def State.Unreachable (s : State) (g : Nat) : Bool := match (s.group g).home with
  | some pk => decide (pk ≠ 0) && !s.reachable pk
  | none => false

/-- The access that a helm word sends on its way: where, what, and with which operands, all read at issue; its translation takes
place within the bound of a hit or of a walk, and its window is 512 cycles until its aperture is known, but that of an MSTORE whose home is
another package is the long one from its issue. A LAUNCH holds its child's place in the tile's pool (02 R64). A broken bond and a home out of
reach are found at issue; their record names the word in CMD (the model's reading, notes/assumptions/25.md; 05 R150-R153; 09 R273, R286,
R287; 12 R369, R375, R376). -/
structure State.Sent (s : State) (a : Access) (k : AccKind) (va : Word) (ac : BitVec 3) (rd : SReg) (v c : Word) : Prop where
  shape : a = { id := s.me.nextAcc, kind := k, va := va, ac := ac, rd := rd, v := v, c := c, issued := s.cyc, pos := s.cur.pos
                window := match k with | .mstore g => if s.mstoreFar g then 1048576 else 512 | _ => 512
                xlatAt := a.xlatAt, fault := a.fault, fenceNo := s.me.fences, tick := s.now, bounded := a.bounded
                pc := s.mine.pc, step := s.mine.step, bank := s.me.handler.isSome, pool := a.pool }
  pool : match k with
    | .launch j => s.poolFor (tileOf s.cur.core) (s.ctxOf s.cur.core) j = some a.pool
    | _ => a.pool = .none
  soon : s.cyc < a.xlatAt ∧ a.xlatAt ≤ s.cyc + s.xlatBound (tileOf s.cur.core) (s.ctxOf s.cur.core) va.toNat
  clear : (∀ g, k ≠ .mstore g) → (k.writes = false ∨ k = .rel ∨ ¬ Breaks s.me.bonds va.toNat k.width) → a.fault = none
  broken : k.writes = true → k ≠ .rel → Breaks s.me.bonds va.toNat k.width →
    a.fault = some { s.info (cause 1 k.axis 4) with va := va, cmd := s.mine.pc.toNat % 2 ^ 48 }
  reaches : ∀ g, k = .mstore g → s.Unreachable g = false → a.fault = none
  lost : ∀ g, k = .mstore g → s.Unreachable g = true →
    a.fault = some { s.info (cause 1 6 2) with va := va, cmd := s.mine.pc.toNat % 2 ^ 48 }

/-- The helm word's whole effect is to send an access on its way. -/
def Sends (i : Instr) (s : State) (k : AccKind) (va : Word) (ac : BitVec 3) (rd : SReg) (v c : Word) : Prop :=
  ∃ t a, exec i s = .next t ∧ s.Alone t ∧ s.Sent a k va ac rd v c ∧
    t.me = { s.me with accesses := s.me.accesses ++ [a], nextAcc := s.me.nextAcc + 1, helm := s.nextStream, helmSt := s.nextPipe }

/-- The helm's accesses that count against the 32 of R152: all but FENCE. -/
def Core.outstanding (c : Core) : Nat := (c.accesses.filter fun a => a.kind.counts).length

/-- The issuing stream passes its word, and the core changes by `f` too; nothing outside the core changes. -/
def Becomes (i : Instr) (s : State) (f : Core → Core) : Prop :=
  ∃ t, exec i s = .next t ∧ s.Alone t ∧ t.me = f { s.me with helm := s.nextStream, helmSt := s.nextPipe }

/-- The wait of kind `k` to the cycle `d` begins, its condition `holds` at the start of this cycle. It stands at its word to its deadline;
one whose deadline has come ends, raises deadline passed, or waits on in elastic mode. Where it issues after its position, the landing
positions of its stream's later results move with it; where it is the last word of a loop's body, the predicate writes of the loop go out at
its issue (02 R39, R43, R441; 05 R166). -/
def Begins (i : Instr) (s : State) (k : WaitKind) (d : Nat) (holds : Bool) : Prop :=
  ∃ t, exec i s = .next t ∧ s.Alone t ∧
    (s.cyc < d ∨ (holds = false ∧ s.stalls = true) → t.mine = { s.mine with wait := some ⟨k, d, d, s.cyc, holds⟩ } ∧
      t.me.flights = s.me.flights.map (fun f =>
        if f.st = s.cur.st ∧ s.cur.pos < f.pos then { f with pos := f.pos + (s.cyc - s.cur.pos) } else f)
        ++ s.loopEffs.map (s.flight 1)) ∧
    (d ≤ s.cyc → holds = true →
      t.mine = { ({ s with cur := { s.cur with pos := d } }).nextStream with wait := none }) ∧
    (d ≤ s.cyc → holds = false → s.stalls = false →
      t.me.raised = s.me.raised ++ [{ s.info (cause2 s.cur.st 3) with ofWord := true }])

/-- The trap record of R376 at the address `a`, but for its IFQ field: `k` is the core `c` as it stopped with `t`. -/
structure IsTrapRecord (m : Memory) (a c : Nat) (k : Core) (timed inHandler : Bool) (t : TrapInfo) : Prop where
  head : memRead m a 2 = t.code % 512 + 512 * streamIdx t.st + (if timed then 4096 else 0) + (if t.more then 8192 else 0)
    + (if inHandler then 16384 else 0)
  place : memRead m (a + 2) 2 = coreX c + 256 * (coreY c % 32) + 8192 * tileOf c
  pc : memRead m (a + 8) 8 = (t.xpc.getD (k.stream t.st).pc).toNat
  npc : memRead m (a + 16) 8 = if t.st = .helm then k.helmSt.npc.toNat else 0
  nnpc : memRead m (a + 24) 8 = if t.st = .helm then k.helmSt.nnpc.toNat else 0
  cmd : memRead m (a + 32) 6 = t.cmd % 2 ^ 48
  engine : memRead m (a + 38) 1 = t.engine % 256
  unit : memRead m (a + 39) 1 = t.unit % 256
  va : memRead m (a + 40) 8 = t.va.toNat
  cyc : memRead m (a + 48) 8 = (if t.st = .crossing then t.cyc else min t.cyc k.cyc) % 2 ^ 64
  stat : memRead m (a + 56) 4 = t.stat.toNat
  rest : memRead m (a + 60) 4 = 0

/-! ## Vector words -/

/-- The element type of a vector word resolves to `t`, of the word's class, and the word's RM is legal for it (06 R175, R178; 03 R77). -/
structure State.Typed (s : State) (f : BitVec 3) (cls : ElemType → Bool) (rm : BitVec 3) (t : ElemType) : Prop where
  resolves : s.vtype f = some t
  class_ : cls t = true
  mode : rm.toNat < 6
  plain : t.isInt = true → rm = 0

/-- An operand that names a register names one of its file (03 R75). -/
def InFile (k : BitVec 2) (a : BitVec 8) : Prop := k.toNat < 2 → a.toNat < 64

/-- The vector word lands `f e` in every element that its mask governs, after `lat` cycles, and the unit takes no other word for `occ`
(06 R176, R179, R180). -/
def Elementwise (i : Instr) (s : State) (vd : BitVec 6) (t : ElemType) (mk : BitVec 4) (lat occ : Nat) (f : Nat → Nat) : Prop :=
  ∃ u, exec i s = .next u ∧ s.Issued u [(lat, velems vd t.width ((s.governed mk t.count).map fun e => (e, f e)))] ∧
    u.me.vbusy = s.cyc + occ

/-- A reduction word's EQ field names no register, a lane mask, or an empty handoff register (07 R208). -/
def State.MaskReady (s : State) (eq : BitVec 6) : Prop :=
  eq.toNat < 16 ∨ (32 ≤ eq.toNat ∧ s.me.qIsEmpty (eq.setWidth 5) = true)

/-- The empty mask of a word with SG = 0: bit 0, or bits 0 and 1 of a lane mask under 64-bit results, says that its one segment is empty
(07 R211, R216). -/
def wholeMask (eq : BitVec 6) (wide empty : Bool) : List Eff :=
  if eq = 0 then []
  else if eq.toNat < 16 then [.k (eq.setWidth 4) (if empty then (if wide then 3 else 1) else 0)]
  else [.q (eq.setWidth 5) (if empty then 1 else 0)]

/-- A finite value, as a rational. -/
def Num.rat : Num → Option Rat
  | .fin neg m e _ => some ((if neg then -1 else 1) * m * 2 ^ e)
  | _ => none

/-- The order of two values, neither a NaN: the infinities at the ends, the finite values by what they are worth (06 R184). -/
def Num.Below : Num → Num → Prop
  | .inf a, .inf b => a = true ∧ b = false
  | .inf a, .fin _ _ _ _ => a = true
  | .fin _ _ _ _, .inf b => b = false
  | .fin a m e _, .fin b n f _ => (if a then -1 else 1 : Rat) * m * 2 ^ e < (if b then -1 else 1) * n * 2 ^ f
  | _, _ => False

/-- What a condition code of VCMP asks of two floating values (06 R184). -/
def floatHolds (cc : Nat) (x y : Num) : Prop :=
  let un := x = .nan ∨ y = .nan
  let same := ¬ un ∧ ¬ x.Below y ∧ ¬ y.Below x
  match cc with
  | 0 => same
  | 1 => ¬ same
  | 2 => x.Below y
  | 3 => same ∨ x.Below y
  | 4 => y.Below x
  | 5 => same ∨ y.Below x
  | 6 => un
  | 7 => ¬ un
  | _ => False

/-- The same of two integers, whose patterns are `a` and `b` (06 R184). -/
def intHolds (cc : Nat) (x y : Int) (a b : Nat) : Prop := match cc with
  | 0 => x = y
  | 1 => x ≠ y
  | 2 => x < y
  | 3 => x ≤ y
  | 4 => y < x
  | 5 => y ≤ x
  | 7 => True
  | 8 => a < b
  | 9 => a ≤ b
  | _ => False

/-- A value is the finite number `r`. -/
def Num.Is (x : Num) (r : Rat) : Prop := ∃ neg m e, x = .fin neg m e false ∧ (if neg then -1 else 1 : Rat) * m * 2 ^ e = r

/-- The magnitude of an FP4 code (04 R106). -/
def fp4Mag (c : Nat) : Rat := [0, 1 / 2, 1, 3 / 2, 2, 3, 4, 6].getD (c % 8) 0

/-- The values of the elements of a block: of FB4 the product of band, scale and element, of an MX type scale and element; a scale of 0xFF makes
every element NaN, and a NaN or an E5M2 infinity keeps its value under any other (04 R106-R108, R111). -/
def BlockValues : Prop :=
  (∀ (band : Num) (b : Rat) (sc el : Nat), band.Is b → sc < 256 → el < 16 → (blockVal .fb4 band sc el).Is
    (b * (if sc < 32 then (sc : Rat) / 128 else 2 ^ ((sc / 32 : Nat) : Int) / 8 * (1 + (sc % 32 : Nat) / 32)) * ((if el < 8 then 1 else -1) * fp4Mag el))) ∧
  (∀ (band : Num) (sc el : Nat), sc < 255 → el < 16 →
    (blockVal .mxfp4 band sc el).Is (2 ^ ((sc : Int) - 127) * ((if el < 8 then 1 else -1) * fp4Mag el))) ∧
  (∀ (band x : Num) (t : ElemType) (sc el : Nat), t = .mxfp8 ∨ t = .mxfp8e5 → sc < 255 → x = t.ffmt.decode el →
    (∀ r, x.Is r → (blockVal t band sc el).Is (2 ^ ((sc : Int) - 127) * r)) ∧ (x = .nan → blockVal t band sc el = .nan) ∧
    (∀ neg, x = .inf neg → blockVal t band sc el = .inf neg)) ∧
  (∀ (band : Num) (t : ElemType) (el : Nat), t = .mxfp4 ∨ t = .mxfp8 ∨ t = .mxfp8e5 → blockVal t band 255 el = .nan)

/-! ## Matrix, copy and crossing words -/

/-- The matrix word lands these results, and its unit takes no other word for `occ` cycles; the other units are as they were (07 R222). -/
def MatrixWord (i : Instr) (s : State) (unit occ : Nat) (effs : List (Nat × Eff)) : Prop :=
  ∃ t, exec i s = .next t ∧ s.Issued t effs ∧ ∀ u, u < 3 → vAt t.me.mbusy u = if u = unit then s.cyc + occ else vAt s.me.mbusy u

/-- What a copy command with a record needs of its registers and its channel: a full register under KG = 1, an empty one for the identifier,
fewer than 64 unfinished commands, and an identifier below 2^48 (08 R240, R241, R243). -/
structure State.CopyReady (s : State) (o : CRecOp) : Prop where
  file : o.kg = 1 → o.rg.toNat < 32
  idField : o.idq = 0 ∨ 32 ≤ o.idq.toNat
  source : o.kg = 1 → s.me.qCanTake (o.rg.setWidth 5) = true
  target : o.idq ≠ 0 → s.me.qIsEmpty (o.idq.setWidth 5) = true
  room : s.me.onChannel o.ch.toNat < 64
  ids : vAt s.me.chIssued o.ch.toNat + 1 < 2 ^ 48

/-- The word adds the copy command `k`, not yet begun: it takes its channel's next identifier, which goes to the handoff register that the word
names, and it empties the register that it read (08 R240, R241). Outside a phase the core's registers and local store stay as they are. -/
structure State.Takes (s t : State) (o : CRecOp) (k : CopyCmd) : Prop where
  passed : s.Passed t
  others : ∀ c, c ≠ s.cur.core → t.core c = s.core c
  copies : t.me.copies = s.me.copies ++ [k]
  next : t.me.nextCopy = s.me.nextCopy + 1
  number : k.id = s.me.nextCopy
  channel : k.ch = o.ch.toNat
  ident : k.ident = vAt s.me.chIssued o.ch.toNat + 1
  issued : ∀ j : Fin 4, t.me.chIssued[j] = if j.val = o.ch.toNat then k.ident else s.me.chIssued[j]
  begun : k.issued = s.cyc ∧ k.fence = s.me.cfences ∧ k.finished = false ∧ k.started = false ∧ k.ready = none
  results : s.Results t ((if o.kg = 1 then [(1, Eff.qEmpty (o.rg.setWidth 5))] else [])
    ++ if o.idq = 0 then [] else [(1, Eff.q (o.idq.setWidth 5) (BitVec.ofNat 64 k.ident))])
  files : s.me.phase = none → s.me.SameFiles t.me

/-- The copy word's whole effect is to add a command of which `ok` holds. -/
def Copies (i : Instr) (s : State) (o : CRecOp) (ok : CopyCmd → Prop) : Prop :=
  ∃ t k, exec i s = .next t ∧ s.Alone t ∧ s.Takes t o k ∧ ok k

/-- The crossing program's word completes: the program goes to `next`, and no core and no byte of package memory changes (10 R299). -/
def XPasses (i : Instr) (s : State) (next : StreamSt) (ok : State → Prop) : Prop :=
  ∃ t, exec i s = .next t ∧ t.mine = next ∧ t.cores = s.cores ∧ t.mem = s.mem ∧ ok t

/-- The crossing program's word faults: the program stops, and the launch's origin core is to trap (10 R301, 12 R373). -/
def XTraps (i : Instr) (s : State) (code : Nat) : Prop :=
  ∃ t l x, exec i s = .next t ∧ s.launch? s.cur.core = some l ∧ t.myXing = some x ∧ x.stopped = true ∧ x.prog = s.mine ∧
    t.core l.origin = { s.core l.origin with raised := (s.core l.origin).raised ++ [{ s.info code with ofWord := true }] } ∧
    (∀ c, c ≠ l.origin → t.core c = s.core c) ∧ t = { s with cores := t.cores, launches := t.launches }

/-- A wait of the crossing program: the word may not issue yet, or in timed mode faults (02 R37, R42). -/
def XStalls (i : Instr) (s : State) (code : Nat) : Prop := if s.stalls then exec i s = .next s else XTraps i s code

/-! ## Events -/

/-- The event completes, and `ok` holds of the state after it. -/
def Happens (i : Instr) (s : State) (ok : State → Prop) : Prop := ∃ t, exec i s = .next t ∧ ok t

/-- A core has been given a fault of cause `code` to take. -/
def State.Raised (t : State) (c code : Nat) : Prop := ∃ i ∈ (t.core c).raised, i.code = code

/-- A core's copy stream has been given a fault of cause `code` to take at its next slot (08 R260). -/
def State.Owes (t : State) (c code : Nat) : Prop := ∃ i ∈ (t.core c).owed, i.code = code

end Sys2Proof.Machine
end

