-- ==== Sys2Proof/Certificates/Slice0/Obligations.lean ====
section
/-! DEFINITION. The statements for the provers: each formalises rules of the spec, or states a property of the model that the rules give. -/

open Sys2Proof Sys2Proof.Machine

/-- 05 R135, R136: the sums and products of the helm, as exact integers wrapped to 64 bits, with each word's latency. MULH and MULHU give the high half of
the exact product; SETH moves RD up by 31 bits. 05 R135, R136: the logic words bit by bit; the immediates are zero-extended. 05 R135, R136: the
shifts. A register amount is taken modulo 64; an immediate amount of 64 or more raises operand range, and the word then has no effect. SRA keeps the
sign: it divides by the power of two, rounding down. 05 R135, R137: division rounds toward zero; the quotient and the remainder rebuild the dividend;
a divisor of 0 raises the arithmetic trap at issue and the word has no effect. -/
def Obligations.IntegerResults : Prop :=
  (∀ (s : State) (rd ra rb : SReg) (i25 : BitVec 25) (i31 : BitVec 31),
     s.cur.st = .helm →
       let a := s.sr ra
       let b := s.sr rb
       let gives := fun (i : Instr) (lat : Nat) (v : Int) => Gives i s [(lat, .s rd (BitVec.ofInt 64 v))]
       gives (.add rd ra rb) 1 (a.toInt + b.toInt) ∧ gives (.sub rd ra rb) 1 (a.toInt - b.toInt) ∧
       gives (.mul rd ra rb) 4 (a.toInt * b.toInt) ∧ gives (.mulh rd ra rb) 4 (a.toInt * b.toInt / 2 ^ 64) ∧
       gives (.mulhu rd ra rb) 4 ((a.toNat : Int) * b.toNat / 2 ^ 64) ∧ gives (.addi rd ra i25) 1 (a.toInt + i25.toInt) ∧
       gives (.ldi rd i31) 1 i31.toInt ∧ gives (.seth rd i31) 1 ((s.sr rd).toNat * 2 ^ 31 + i31.toNat) ∧
       gives (.slt rd ra rb) 1 (if a.toInt < b.toInt then 1 else 0) ∧ gives (.sltu rd ra rb) 1 (if a.toNat < b.toNat then 1 else 0) ∧
       gives (.slti rd ra i25) 1 (if a.toInt < i25.toInt then 1 else 0) ∧
       gives (.min rd ra rb) 1 (min a.toInt b.toInt) ∧ gives (.max rd ra rb) 1 (max a.toInt b.toInt) ∧
       gives (.minu rd ra rb) 1 (min a.toNat b.toNat : Nat) ∧ gives (.maxu rd ra rb) 1 (max a.toNat b.toNat : Nat)) ∧
  (∀ (s : State) (rd ra rb : SReg) (imm : BitVec 25),
     s.cur.st = .helm →
       let bit := fun (r : SReg) (k : Nat) => (s.sr r).getLsbD k
       let gives := fun (i : Instr) (f : Nat → Bool) => ∃ v : Word, Gives i s [(1, .s rd v)] ∧ ∀ k, k < 64 → v.getLsbD k = f k
       gives (.and rd ra rb) (fun k => bit ra k && bit rb k) ∧ gives (.or rd ra rb) (fun k => bit ra k || bit rb k) ∧
       gives (.xor rd ra rb) (fun k => bit ra k != bit rb k) ∧ gives (.andn rd ra rb) (fun k => bit ra k && !bit rb k) ∧
       gives (.andi rd ra imm) (fun k => bit ra k && imm.getLsbD k) ∧ gives (.ori rd ra imm) (fun k => bit ra k || imm.getLsbD k) ∧
       gives (.xori rd ra imm) (fun k => bit ra k != imm.getLsbD k)) ∧
  (∀ (s : State) (rd ra rb : SReg) (imm : BitVec 25),
     s.cur.st = .helm →
       let a := s.sr ra
       let n := (s.sr rb).toNat % 64
       let gives := fun (i : Instr) (v : Int) => Gives i s [(1, .s rd (BitVec.ofInt 64 v))]
       gives (.sll rd ra rb) (a.toNat * 2 ^ n : Nat) ∧ gives (.srl rd ra rb) (a.toNat / 2 ^ n : Nat) ∧
       gives (.sra rd ra rb) (a.toInt / 2 ^ n) ∧
       (imm.toNat < 64 → gives (.slli rd ra imm) (a.toNat * 2 ^ imm.toNat : Nat) ∧
         gives (.srli rd ra imm) (a.toNat / 2 ^ imm.toNat : Nat) ∧ gives (.srai rd ra imm) (a.toInt / 2 ^ imm.toNat)) ∧
       (64 ≤ imm.toNat → ∀ i ∈ [Instr.slli rd ra imm, .srli rd ra imm, .srai rd ra imm], Traps i s (cause 0 0 2))) ∧
  (∀ (s : State) (rd ra rb : SReg),
     s.cur.st = .helm →
       let a := s.sr ra
       let b := s.sr rb
       let gives := fun (i : Instr) (v : Int) => Gives i s [(34, .s rd (BitVec.ofInt 64 v))]
       (b ≠ 0 → gives (.div rd ra rb) (Int.tdiv a.toInt b.toInt) ∧ gives (.rem rd ra rb) (Int.tmod a.toInt b.toInt) ∧
         gives (.divu rd ra rb) (a.toNat / b.toNat : Nat) ∧ gives (.remu rd ra rb) (a.toNat % b.toNat : Nat)) ∧
       (b = 0 → ∀ i ∈ [Instr.div rd ra rb, .divu rd ra rb, .rem rd ra rb, .remu rd ra rb], Traps i s (cause 0 0 7)))

/-- 05 R138: the counts and the reversal. CLZ gives the zeros above the highest one, CTZ the zeros below the lowest one, POPC the ones, and BREV the word
with bit k in bit 63 - k. 05 R138: the bit-field words, for LEN 1 to 64 and POS + LEN at most 64, and the funnel shifts; any other field raises
operand range, and so does a funnel word whose LEN is not 0. -/
def Obligations.BitFieldResults : Prop :=
  (∀ (s : State) (rd ra : SReg),
     s.cur.st = .helm →
       let a := (s.sr ra).toNat
       let gives := fun (i : Instr) (ok : Word → Prop) => ∃ v : Word, Gives i s [(1, .s rd v)] ∧ ok v
       gives (.clz rd ra) (fun v => v.toNat ≤ 64 ∧ a < 2 ^ (64 - v.toNat) ∧ (v.toNat < 64 → 2 ^ (63 - v.toNat) ≤ a)) ∧
       gives (.ctz rd ra) (fun v => v.toNat ≤ 64 ∧ a % 2 ^ v.toNat = 0 ∧ (v.toNat < 64 → a % 2 ^ (v.toNat + 1) ≠ 0)) ∧
       gives (.popc rd ra) (fun v => v.toNat = ((List.range 64).filter (s.sr ra).getLsbD).length) ∧
       gives (.brev rd ra) (fun v => ∀ k, k < 64 → v.getLsbD k = (s.sr ra).getLsbD (63 - k))) ∧
  (∀ (s : State) (rd ra : SReg) (pos : BitVec 6) (len : BitVec 7) (o : HBf),
     s.cur.st = .helm →
       let a := (s.sr ra).toNat
       let p := pos.toNat
       let n := len.toNat
       let gives := fun (i : Instr) (r : SReg) (ok : Word → Prop) => ∃ v : Word, Gives i s [(1, .s r v)] ∧ ok v
       (1 ≤ n ∧ p + n ≤ 64 →
         gives (.bext rd ra pos len) rd (fun v => v.toNat = a / 2 ^ p % 2 ^ n) ∧
         gives (.bexts rd ra pos len) rd (fun v => v.toInt = (BitVec.ofNat n (a / 2 ^ p)).toInt) ∧
         gives (.bins rd ra pos len) rd (fun v => ∀ k, k < 64 → v.getLsbD k =
           if p ≤ k ∧ k < p + n then (s.sr ra).getLsbD (k - p) else (s.sr rd).getLsbD k)) ∧
       (n = 0 ∨ 64 < p + n → ∀ i ∈ [Instr.bext rd ra pos len, .bexts rd ra pos len, .bins rd ra pos len], Traps i s (cause 0 0 2)) ∧
       let x := (s.sr o.ra).toNat * 2 ^ 64 + (s.sr o.rb).toNat
       (o.len = 0 →
         gives (.fshl o) o.rd (fun v => v.toNat = x * 2 ^ o.pos.toNat / 2 ^ 64 % 2 ^ 64) ∧
         gives (.fshr o) o.rd (fun v => v.toNat = x / 2 ^ o.pos.toNat % 2 ^ 64)) ∧
       (o.len ≠ 0 → ∀ i ∈ [Instr.fshl o, .fshr o], Traps i s (cause 0 0 2)))

/-- 05 R139: the compares, whose second source is a scalar or a sign-extended immediate. 05 R140: the predicate words. Sources are read when full; p0
reads 1; PSET takes 0 or 1, and another value raises operand range; PCLR empties its register; PTOS and PFROM go between a predicate and a scalar. 02
R36 row 4, R37, R42: a predicate source that is empty or pending stalls the word in elastic mode and raises empty source in timed mode. -/
def Obligations.PredicateResults : Prop :=
  (∀ (s : State) (pd : PReg) (ra : SReg) (src : CmpSrc),
     s.cur.st = .helm →
       let a := s.sr ra
       let b : Word := match src with
         | .reg rb => s.sr rb
         | .imm v => BitVec.ofInt 64 v.toInt
       let gives := fun (i : Instr) (x : Bool) => Gives i s [(1, .p pd x)]
       gives (.cmpeq pd ra src) (decide (a.toInt = b.toInt)) ∧ gives (.cmpne pd ra src) (decide (a.toInt ≠ b.toInt)) ∧
       gives (.cmplt pd ra src) (decide (a.toInt < b.toInt)) ∧ gives (.cmpltu pd ra src) (decide (a.toNat < b.toNat)) ∧
       gives (.cmple pd ra src) (decide (a.toInt ≤ b.toInt)) ∧ gives (.cmpleu pd ra src) (decide (a.toNat ≤ b.toNat))) ∧
  (∀ (s : State) (pd pa pb : PReg) (ra : SReg),
     s.cur.st = .helm → s.me.pIsFull pa = true → s.me.pIsFull pb = true →
       let x := s.me.preg pa
       let y := s.me.preg pb
       Gives (.pand pd pa pb) s [(1, .p pd (x && y))] ∧ Gives (.por pd pa pb) s [(1, .p pd (x || y))] ∧
       Gives (.pxor pd pa pb) s [(1, .p pd (x != y))] ∧ Gives (.pnot pd pa) s [(1, .p pd (!x))] ∧
       Gives (.ptos pa ra) s [(1, .s ra (if x then 1 else 0))] ∧
       Gives (.pfrom pd ra) s [(1, .p pd (decide (s.sr ra ≠ 0)))] ∧ Gives (.pclr pd) s [(1, .pEmpty pd)] ∧
       (∀ v : PReg, v.toNat ≤ 1 → Gives (.pset pd v) s [(1, .p pd (decide (v.toNat = 1)))]) ∧
       (∀ v : PReg, 1 < v.toNat → Traps (.pset pd v) s (cause 0 0 2)) ∧
       s.me.preg 0 = true ∧ s.me.pIsFull 0 = true) ∧
  (∀ (s : State) (pd pa pb : PReg) (ra : SReg) (off : BitVec 30),
     s.cur.st = .helm → s.me.pIsFull pa = false →
       ∀ i ∈ [Instr.pand pd pa pb, .por pd pa pb, .pxor pd pa pb, .pand pd pb pa, .por pd pb pa, .pxor pd pb pa, .pnot pd pa, .ptos pa ra,
           .brt pa off, .brf pa off, .brtn pa off, .brfn pa off],
         Stalls i s (cause 2 0 0))

/-- 05 R155, R156: LDC reads the constant bank after 2 cycles, its index out of 0 to 255 raising operand range; QRECV takes the value of a full handoff
register and empties it, QPEEK leaves it full; a register number above 31 raises operand range (03 R73). -/
def Obligations.BankAndHandoffReads : Prop := ∀ (s : State) (rd ra qn : SReg) (imm : BitVec 25),
  s.cur.st = .helm →
    let i := (s.sr ra).toNat + imm.toNat
    (∀ h : i < 256, Gives (.ldc rd ra imm) s [(2, .s rd (BitVec.ofNat 64 (s.me.cbank[i]'h).toNat))]) ∧
    (256 ≤ i → Traps (.ldc rd ra imm) s (cause 0 0 2)) ∧
    (∀ h : qn.toNat < 32,
      (s.me.qIsFull (qField qn) = true → Gives (.qpeek rd qn) s [(1, .s rd (s.me.qregs[qn.toNat]'h))]) ∧
      (s.me.qCanTake (qField qn) = true →
        Gives (.qrecv rd qn) s [(1, .qEmpty (qField qn)), (1, .s rd (s.me.qregs[qn.toNat]'h))]) ∧
      (s.me.qIsFull (qField qn) = false → Stalls (.qpeek rd qn) s (cause 2 0 0) ∧ Stalls (.qrecv rd qn) s (cause 2 0 0))) ∧
    (32 ≤ qn.toNat → Traps (.qpeek rd qn) s (cause 0 0 2) ∧ Traps (.qrecv rd qn) s (cause 0 0 2))

/-- 05 R141-R144, R147: the branches. The target of a displacement branch is the word's address plus 8 times its signed offset, and must lie in the helm's
image (a purser core has none, the model's choice: notes/assumptions/7.md) or the word raises control integrity. A taken branch is fetched after its two delay slots; a
branch with annul that is not taken annuls both. Calls push the address after the delay slots. 05 R148, R149, 12 R377: TRAP and SYSCALL count as
executed and stop the core with the software trap of the helm or of the purser, their number in the status word; SYSCALL in handler mode or on a
purser core raises privilege. EXIT ends the helm and discards its loads in flight; in elastic mode it waits for the values of atomics and for FENCEs (the
model's reading of 15 R430 and R431: notes/assumptions/49.md). -/
def Obligations.TransferResults : Prop :=
  (∀ (s : State) (pr : PReg) (off : BitVec 30) (ra : SReg),
     s.cur.st = .helm →
       let h := s.me.helmSt
       let target := s.mine.pc + BitVec.ofInt 64 (8 * off.toInt)
       let inside := isPurser s.cur.core = true ∨
         (s.mine.base.toNat ≤ target.toNat ∧ target.toNat < s.mine.base.toNat + 8 * s.mine.words)
       let takes := fun (i : Instr) => Steers i s target h.ncount h.shadow
       let passes := fun (i : Instr) (n : BitVec 2) => Steers i s (h.nnpc + 8) n h.shadow
       let back := s.mine.pc + 24
       let bad := cause 0 0 4
       (inside → takes (.br off) ∧ (h.shadow.length < 64 → Steers (.call off) s target h.ncount (back :: h.shadow)) ∧
         (s.me.pIsFull pr = true →
           (s.me.preg pr = true → takes (.brt pr off) ∧ passes (.brf pr off) h.ncount ∧ takes (.brtn pr off) ∧ passes (.brfn pr off) 2) ∧
           (s.me.preg pr = false → passes (.brt pr off) h.ncount ∧ takes (.brf pr off) ∧ passes (.brtn pr off) 2 ∧ takes (.brfn pr off)))) ∧
       (¬ inside → Traps (.br off) s bad ∧ Traps (.call off) s bad ∧ (s.me.pIsFull pr = true →
         ∀ i ∈ [Instr.brt pr off, .brf pr off, .brtn pr off, .brfn pr off], Traps i s bad)) ∧
       Steers (.jmpr ra) s (s.sr ra) h.ncount h.shadow ∧
       (h.shadow.length < 64 → Steers (.callr ra) s (s.sr ra) h.ncount (back :: h.shadow)) ∧
       (64 ≤ h.shadow.length → Traps (.callr ra) s bad ∧ Traps (.call off) s bad) ∧
       (h.shadow = [] → Traps .ret s bad) ∧ (∀ a l, h.shadow = a :: l → Steers .ret s a h.ncount l)) ∧
  (∀ (s : State) (imm : BitVec 31) (n : BitVec 13),
     s.cur.st = .helm →
       Calls (.trap imm) s 0x006 (imm.setWidth 32) ∧
       (s.me.handler = none → isPurser s.cur.core = false → Calls (.syscall n) s 0x02E (n.setWidth 32)) ∧
       (s.me.handler ≠ none ∨ isPurser s.cur.core = true → Traps (.syscall n) s (cause 0 0 6)) ∧
       (s.stalls = true → s.me.owesExit = true → exec .exit s = .next s) ∧
       (s.stalls = false ∨ s.me.owesExit = false → Becomes .exit s (fun c => { c with
         helm := { c.helm with ended := true }
         accesses := c.accesses.filter fun a => match a.kind with | .load _ _ => false | _ => true })))

/-- 05 R150-R153, 09 R280, R282, 13 R395: the loads, stores and atomics at issue. The address is the base plus the signed offset (of an atomic, s[RA]
whole); a load names its register and width; a store carries its value and is barred in a phase; an atomic carries s[RB] and s[RD]. A 33rd access
stalls or raises full-register overwrite, a misaligned one raises alignment with no access made. What the record of a fault found at issue names in CMD
is the model's reading (notes/assumptions/25.md). -/
def Obligations.AccessIssue : Prop := ∀ (s : State) (o : HMem) (rd ra rb : SReg),
  s.cur.st = .helm →
    let va := s.sr o.rb + BitVec.ofInt 64 o.off.toInt
    let loads := [(Instr.ld8 o, 1, false), (.ld8s o, 1, true), (.ld16 o, 2, false), (.ld16s o, 2, true), (.ld32 o, 4, false),
      (.ld32s o, 4, true), (.ld64 o, 8, false)]
    let stores := [(Instr.st8 o, 1), (.st16 o, 2), (.st32 o, 4), (.st64 o, 8)]
    let atomics := [(Instr.aadd rd ra rb, AccKind.aadd, 8), (.aaddf rd ra rb, .aaddf, 4), (.aswap rd ra rb, .aswap, 8),
      (.acas rd ra rb, .acas, 8), (.amin rd ra rb, .amin, 8), (.amax rd ra rb, .amax, 8), (.abump rd ra rb, .abump, 8)]
    (s.me.outstanding < 32 →
      (∀ p ∈ loads, (va.toNat % p.2.1 = 0 → Sends p.1 s (.load p.2.1 p.2.2) va o.ac o.rt 0 0) ∧
        (va.toNat % p.2.1 ≠ 0 → Traps p.1 s (cause 0 0 3))) ∧
      (s.me.inPhase = false →
        (∀ p ∈ stores, (va.toNat % p.2 = 0 → Sends p.1 s (.store p.2) va o.ac 0 (s.sr o.rt) 0) ∧
          (va.toNat % p.2 ≠ 0 → Traps p.1 s (cause 0 0 3))) ∧
        (∀ p ∈ atomics, ((s.sr ra).toNat % p.2.2 = 0 → Sends p.1 s p.2.1 (s.sr ra) 0 rd (s.sr rb) (s.sr rd)) ∧
          ((s.sr ra).toNat % p.2.2 ≠ 0 → Traps p.1 s (cause 0 0 3)))) ∧
      (s.me.inPhase = true → (∀ p ∈ stores, Traps p.1 s (cause 0 0 2)) ∧ ∀ p ∈ atomics, Traps p.1 s (cause 0 0 2))) ∧
    (32 ≤ s.me.outstanding →
      (∀ p ∈ loads, Stalls p.1 s (cause 2 0 2)) ∧ (∀ p ∈ stores, Stalls p.1 s (cause 2 0 2)) ∧
        ∀ p ∈ atomics, Stalls p.1 s (cause 2 0 2))

/-- 09 R270, R271, R275, R276, 11 R347: ACQ, REL, FENCE and LAUNCH at issue. ACQ and REL name the bond of an entry, or raise operand range; REL closes the
entries of its bond at the end of its issue cycle, and its window is the long one where it waits for an access behind apertures 1 to 255; a FENCE
holds back the later accesses, with the window of its scope, which is the long one at package and system scope behind such an access, and at core and
tile scope it is past its point at once where every earlier access has been performed and otherwise within its window (the model's reading, notes/assumptions/48.md); LAUNCH
reads its packet at s[RA], a multiple of 64, where its child has a place, which it holds from its issue (notes/assumptions/27.md). -/
def Obligations.OrderWords : Prop := ∀ (s : State) (rd ra : SReg) (scope : BitVec 13) (j : BitVec 1),
  s.cur.st = .helm →
    let a := s.sr ra
    let named := ∃ b ∈ s.me.bonds, b.bond = a.toNat
    let n := scope.toNat
    let far := fun (of_ : AccKind → Bool) => s.farAccess of_ = true
    let w := if 2 ≤ n ∧ far (fun _ => true) then 1048576 else if n = 0 then 8 else if n = 1 then 64 else 512
    let place := (s.poolFor (tileOf s.cur.core) (s.ctxOf s.cur.core) (j == 1)).isSome = true
    (n < 4 → ∃ h, s.cyc ≤ h ∧ h < s.cyc + w ∧ ((∀ a ∈ s.me.accesses, a.performed = true) → h = s.cyc) ∧
      Becomes (.fence scope) s (fun c => { c with
        accesses := c.accesses ++ [{ id := c.nextAcc, kind := .fence n, va := 0, issued := s.cyc, pos := s.cur.pos, window := w
                                     homeAt := h, xlatAt := s.cyc, fenceNo := c.fences, tick := s.now, pc := s.mine.pc
                                     step := s.mine.step }]
        nextAcc := c.nextAcc + 1, fences := c.fences + 1 })) ∧
    (4 ≤ n → Traps (.fence scope) s (cause 0 0 2)) ∧
    (s.me.outstanding < 32 →
      (named → Sends (.acq ra) s .acq a 0 0 0 0) ∧ (¬ named → Traps (.acq ra) s (cause 0 0 2)) ∧
      (s.me.inPhase = true → Traps (.rel ra) s (cause 0 0 2)) ∧
      (s.me.inPhase = false → ¬ named → Traps (.rel ra) s (cause 0 0 2)) ∧
      (s.me.inPhase = false → named → ∃ t x, exec (.rel ra) s = .next t ∧ s.Alone t ∧ s.Sent x .rel a 0 0 0 0 ∧
        t.me = { s.me with
          accesses := s.me.accesses ++ [{ x with window := if far AccKind.released then 1048576 else 512 }], nextAcc := s.me.nextAcc + 1
          flights := s.me.flights ++ [s.flight 1 (.close a.toNat)], helm := s.nextStream, helmSt := s.nextPipe }) ∧
      (place → s.me.inPhase = false → (a.toNat % 64 = 0 → Sends (.launch rd ra j) s (.launch (j == 1)) a 0 rd 0 0) ∧
        (a.toNat % 64 ≠ 0 → Traps (.launch rd ra j) s (cause 0 0 3))) ∧
      (¬ place → Stalls (.launch rd ra j) s (cause 2 7 2)) ∧
      (place → s.me.inPhase = true → Traps (.launch rd ra j) s (cause 0 0 2))) ∧
    (32 ≤ s.me.outstanding → ∀ i ∈ [Instr.acq ra, .rel ra, .launch rd ra j], Stalls i s (cause 2 0 2))

/-- 09 R267, R269, 13 R395: BIND. A misaligned base, length or bond raises alignment; a length of 0 removes the closed entry of that base; any other
length adds an entry that reaches no further than 2^48 and no longer than 2^40, meets no other entry or bond word, and finds a place among the 16;
every other BIND raises operand range. The table changes at the end of the issue cycle. -/
def Obligations.BindResults : Prop := ∀ (s : State) (rd ra rb : SReg),
  s.cur.st = .helm → s.me.inPhase = false →
    let b := (s.sr rd).toNat
    let l := (s.sr ra).toNat
    let w := (s.sr rb).toNat
    let aligned := b % 64 = 0 ∧ l % 64 = 0 ∧ w % 8 = 0
    let meets := fun (a n x m : Nat) => a < x + m ∧ x < a + n
    let legal := if l = 0 then ∃ e ∈ s.me.bonds, e.base = b ∧ e.isOpen = false
      else b + l ≤ 2 ^ 48 ∧ l ≤ 2 ^ 40 ∧ s.me.bonds.length < 16 ∧ ¬ meets b l w 8 ∧
        ∀ e ∈ s.me.bonds, ¬ meets b l e.base e.len ∧ ¬ meets b l e.bond 8 ∧ ¬ meets w 8 e.base e.len
    (¬ aligned → Traps (.bind rd ra rb) s (cause 0 0 3)) ∧
    (aligned → ¬ legal → Traps (.bind rd ra rb) s (cause 0 0 2)) ∧
    (aligned → legal → Gives (.bind rd ra rb) s [(1, .bond b l w)])

/-- 05 R157, 09 R286, R291, 13 R395: QSEND, MSTORE and MWAIT. QSEND arrives at the end of the target's cycle issue + 31 within a tile, and issue + 63 + 32 h
over h service-ring hops otherwise; a value that waits at its target counts no more against the 32 (the model's choice, notes/assumptions/39.md). A register
number above 31, a bit outside the coordinates, a core outside the launch and a phase raise operand range, and a 33rd send stalls or raises
full-register overwrite. MSTORE checks its group in the order of R286 and is sent to its order point; what the record of its fault names in CMD is
the model's reading (notes/assumptions/25.md). MWAIT is an operand check on the member's applied count. -/
def Obligations.SendWords : Prop := ∀ (s : State) (rd ra rb : SReg) (g : BitVec 25) (x y : Nat),
  s.cur.st = .helm →
    let dst := coreAt x y
    let src := s.cur.core
    let ns := (s.sr rb).toNat
    let off := (s.sr ra).toNat
    let gr := s.group ns
    let gw := s.group g.toNat
    let flying := (s.qsends.filter fun q => q.src == src && !q.waiting).length
    (32 ≤ rd.toNat → Traps (.qsend rd ra rb) s (cause 0 0 2)) ∧
    (rd.toNat < 32 → 32 ≤ flying → Stalls (.qsend rd ra rb) s (cause 2 0 2)) ∧
    (rd.toNat < 32 → flying < 32 → s.me.inPhase = true ∨
      (∀ u v : Nat, u < 64 → v < 32 → off = u + 256 * v → s.inLaunch (coreAt u v) = false) → Traps (.qsend rd ra rb) s (cause 0 0 2)) ∧
    (x < 64 → y < 32 → (s.sr ra).toNat = x + 256 * y → rd.toNat < 32 → s.me.inPhase = false → s.inLaunch dst = true →
      flying < 32 →
      ∃ t, exec (.qsend rd ra rb) s = .next t ∧ s.Passed t ∧
        t = { s with cores := t.cores, qsends := s.qsends ++ [{ id := s.nextQ, src := src, dst := dst, q := rd.setWidth 5, v := s.sr rb, due := (s.core dst).cyc + (if tileOf src = tileOf dst then 31 else 63 + 32 * ((tileOf dst + 8 - tileOf src) % 8)) }], nextQ := s.nextQ + 1 }) ∧
    (32 ≤ s.me.outstanding → Stalls (.mstore rd ra rb) s (cause 2 0 2)) ∧
    (s.me.outstanding < 32 → s.me.inPhase = true → Traps (.mstore rd ra rb) s (cause 0 0 2)) ∧
    (s.me.outstanding < 32 → s.me.inPhase = false →
      (64 ≤ ns → Traps (.mstore rd ra rb) s (cause 0 0 2)) ∧
      (ns < 64 → gr.valid = true → gr.bound s.now = true → gr.ownedBy (s.ctxOf src) = true →
        (gr.append = false → off % 8 = 0 → off < 2 ^ gr.lsz → Sends (.mstore rd ra rb) s (.mstore ns) (s.sr ra) 0 0 (s.sr rd) 0) ∧
        (gr.append = true → off = 0 → Sends (.mstore rd ra rb) s (.mstore ns) (s.sr ra) 0 0 (s.sr rd) 0) ∧
        (gr.append = false → off % 8 ≠ 0 → Traps (.mstore rd ra rb) s (cause 0 0 3)) ∧
        (gr.append = false → off % 8 = 0 → 2 ^ gr.lsz ≤ off → Traps (.mstore rd ra rb) s (cause 0 0 2)) ∧
        (gr.append = true → off ≠ 0 → Traps (.mstore rd ra rb) s (cause 0 0 2))) ∧
      (ns < 64 → gr.valid = false ∨ gr.bound s.now = false → Traps (.mstore rd ra rb) s (cause 1 6 0)) ∧
      (ns < 64 → gr.valid = true → gr.bound s.now = true → gr.ownedBy (s.ctxOf src) = false → Traps (.mstore rd ra rb) s (cause 1 6 1))) ∧
    (∀ m, g.toNat < 64 → off < 2 ^ 48 → gw.valid = true → s.memberHere gw = some m →
      (off ≤ gw.appliedOf m → Gives (.mwait ra g) s []) ∧ (gw.appliedOf m < off → Stalls (.mwait ra g) s (cause 2 0 0))) ∧
    (64 ≤ g.toNat ∨ 2 ^ 48 ≤ off ∨ gw.valid = false ∨ s.memberHere gw = none → Traps (.mwait ra g) s (cause 0 0 2))

/-- 08 R235, 13 R395: the tag table, with no entry in parity error. TAGLK gives the local store address of the slot whose key it finds, or all ones, after
4 cycles; TAGSET gives its slot the key and takes it from any other; TAGCLR removes the entry of the key; a slot above 4,095 raises tag table; the
last two are barred in a phase. -/
def Obligations.TagTableWords : Prop := ∀ (s : State) (rd ra rb : SReg),
  s.cur.st = .helm → s.me.tagBad = [] →
    let key := s.sr ra
    let n := (s.sr rb).toNat
    let free := fun (m : Nat) => tabGet s.me.tagTab m ≠ some key
    (∀ m, tabRising none s.me.tagTab = true → tabGet s.me.tagTab m = some key → (∀ j, j ≠ m → free j) →
      Gives (.taglk rd ra) s [(4, .s rd (BitVec.ofNat 64 (1024 * m)))] ∧
      (s.me.inPhase = false → Becomes (.tagclr ra) s fun c => { c with tagTab := tabDel c.tagTab m }) ∧
      (s.me.inPhase = false → n ≤ 4095 → Becomes (.tagset ra rb) s fun c => { c with tagTab := tabSet (tabDel c.tagTab m) n key })) ∧
    (tabRising none s.me.tagTab = true → (∀ j, free j) →
      Gives (.taglk rd ra) s [(4, .s rd (BitVec.allOnes 64))] ∧
      (s.me.inPhase = false → Becomes (.tagclr ra) s id) ∧
      (s.me.inPhase = false → n ≤ 4095 → Becomes (.tagset ra rb) s fun c => { c with tagTab := tabSet c.tagTab n key })) ∧
    (s.me.inPhase = false → 4095 < n → Traps (.tagset ra rb) s (cause 1 1 6)) ∧
    (s.me.inPhase = true → Traps (.tagset ra rb) s (cause 0 0 2) ∧ Traps (.tagclr ra) s (cause 0 0 2))

/-- 07 R197-R201, 02 R442, 13 R395: SHLD and SHINV at issue. SHLD copies the record and the table at s[RA] (at its issue, the model's choice of the cycle:
notes/assumptions/5.md) into a free buffer of its slot, which is loading until the end of cycle issue + 263, the landing naming the buffer; with no
free buffer it stalls or raises full-register overwrite. SHINV takes effect at the end of its issue cycle. -/
def Obligations.ShapeWords : Prop := ∀ (s : State) (z ra : SReg),
  s.cur.st = .helm →
    let a := (s.sr ra).toNat
    let n := z.toNat
    let r := memBytes s.me.ls a 64
    let slot := s.me.slot n
    let has := fun (st : BufState) => slot.b0.st = st ∨ slot.b1.st = st
    (8 ≤ n → Traps (.shld z ra) s (cause 0 0 2) ∧ Traps (.shinv z) s (cause 0 0 2)) ∧
    (n < 8 → ¬ has .free → Stalls (.shld z ra) s (cause 2 0 2)) ∧
    (n < 8 → s.me.inPhase = true → (has .free → Traps (.shld z ra) s (cause 0 0 2)) ∧ Traps (.shinv z) s (cause 0 0 2)) ∧
    (n < 8 → s.me.inPhase = false → Gives (.shinv z) s [(1, .shape (8 + n))]) ∧
    (n < 8 → has .free → s.me.inPhase = false →
      (a % 64 ≠ 0 → Traps (.shld z ra) s (cause 0 0 3)) ∧ (a % 64 = 0 → 0x3FFFC0 ≤ a → Traps (.shld z ra) s (cause 0 0 2)) ∧
      (a % 64 = 0 → a < 0x3FFFC0 → s.me.lsPoison = [] →
        ∃ t, exec (.shld z ra) s = .next t ∧ s.Alone t ∧ s.Passed t ∧
          t.me.flights = s.me.flights ++ [s.flight 264 (.shape (if slot.b0.st = .free then n else n + 16))] ∧
          (let b : ShapeBuf := { st := .loading, record := r, bounds := readBounds s.me.ls r }
           t.me.slot n = if slot.b0.st = .free then { slot with b0 := b } else { slot with b1 := b }) ∧
          ∀ m, m < 8 → m ≠ n → t.me.slot m = s.me.slot m))

/-- 13 R393-R395, R397: PHASEB opens a phase at its descriptor and gives s[SX] the base of the back buffer after 8 cycles; PHASEC closes it and turns
FRONT over in the descriptor. What a descriptor may hold is `PhaseDesc.outside` and `phaseReserved`. 02 R38, R58, R59, R66, 05 R172, 07 R230, 11 R348,
12 R375, 13 R395: the retirement-point words. YIELDPT marks the helm's side of a retirement point, and its hold form waits there for a joined child of
the core; in handler mode neither has any effect. RETIRE marks the matrix stream's side, with no other effect than its slot, and requires every
accumulator to be empty. None may stand in a phase. Of a descriptor's checks the reserved bits come before its fields (00 R9). -/
def Obligations.PhaseWords : Prop :=
  (∀ (s : State) (ra : SReg),
     s.cur.st = .helm →
       let a := (s.sr ra).toNat
       let r := memBytes s.me.ls a 64
       let d := phaseDescOf r
       let inside := d.outside a = false ∧ s.me.phase = none ∧ s.me.tilesEmpty = true
       let fits := a % 64 = 0 ∧ a < 0x3FFFC0 ∧ phaseReserved r = false
       let back : Word := BitVec.ofNat 64 (if d.front % 2 = 0 then d.buf1 else d.buf0)
       (a % 64 ≠ 0 → Traps (.phaseb ra) s (cause 0 0 3)) ∧
       (a % 64 = 0 → 0x3FFFC0 ≤ a → Traps (.phaseb ra) s (cause 0 0 2)) ∧
       (a % 64 = 0 → a < 0x3FFFC0 → phaseReserved r = true → Traps (.phaseb ra) s (cause 0 0 1)) ∧
       (fits → ¬ inside → Traps (.phaseb ra) s (cause 0 0 2)) ∧
       (fits → inside → s.me.spqPending = true → Stalls (.phaseb ra) s (cause 2 0 2)) ∧
       (fits → inside → s.me.spqPending = false →
         Becomes (.phaseb ra) s fun c => { c with
           phase := some (s.me.recordPhase a)
           flights := c.flights ++ [s.flight 1 .phase, s.flight 8 (.s (BitVec.ofNat 6 d.sx) back)] }) ∧
       (∀ p, s.me.phase = some p →
         (a ≠ p.desc ∨ s.me.tilesEmpty = false → Traps (.phasec ra) s (cause 0 0 2)) ∧
         (a = p.desc → s.me.tilesEmpty = true → s.me.phasePending p.start = true → Stalls (.phasec ra) s (cause 2 0 0)) ∧
         (a = p.desc → s.me.tilesEmpty = true → s.me.phasePending p.start = false →
           Gives (.phasec ra) s [(1, .bytes (p.desc + 13) [1 - memGet s.me.ls (p.desc + 13)]), (1, .phaseEnd)])) ∧
       (s.me.phase = none → Traps (.phasec ra) s (cause 0 0 2))) ∧
  (∀ (s : State) (rd ra : SReg) (n : BitVec 24),
     let id := (s.sr ra).toNat
     let mark := if s.me.handler = none then some s.me.time else s.me.yieldAt
     (s.cur.st = .helm → s.me.inPhase = false →
       Becomes (.yieldpt 0 0 0) s (fun c => { c with yieldAt := mark }) ∧
       (rd ≠ 0 ∨ ra ≠ 0 ∨ n ≠ 0 → Traps (.yieldpt rd ra n) s (cause 0 0 2)) ∧
       (s.me.handler ≠ none → Becomes (.yieldptHold ra n) s (fun c => c)) ∧
       (s.me.handler = none → id ∉ s.me.children → Traps (.yieldptHold ra n) s (cause 0 0 2)) ∧
       (s.me.handler = none → id ∈ s.me.children →
         Begins (.yieldptHold ra n) s (.launch id true) (s.cyc + n.toNat) (s.launchDone (s.ctxOf s.cur.core) id) ∧
         (0 < n.toNat → s.cyc ≤ s.cur.pos →
           ∃ t, exec (.yieldptHold ra n) s = .next t ∧ s.Alone t ∧ t.me = { s.me with
             yieldAt := some s.me.time
             helm := { s.me.helm with wait := some ⟨.launch id true, s.cyc + n.toNat, s.cyc + n.toNat, s.cyc,
               s.launchDone (s.ctxOf s.cur.core) id⟩ } }))) ∧
     (s.cur.st = .helm → s.me.inPhase = true → ∀ i ∈ [Instr.yieldpt rd ra n, .yieldptHold ra n], Traps i s (cause 0 0 2)) ∧
     (s.cur.st = .matrix →
       (s.me.inPhase = true → Traps .retire s (cause 0 2 2)) ∧
       (s.me.inPhase = false → (∃ i : BitVec 2, s.me.aIsEmpty i = false) → Traps .retire s (cause 2 2 2)) ∧
       (s.me.inPhase = false → (∀ i : BitVec 2, s.me.aIsEmpty i = true) →
         ∃ t, exec .retire s = .next t ∧ s.Alone t ∧
           t.me = { s.me with retireAt := some s.me.time, mat := s.nextStream, flights := s.me.flights ++ s.loopEffs.map (s.flight 1) })))

/-- 02 R38, R39, R43, 05 R159, R171: the deadline waits that count from their issue. The wait stands until its deadline, issue + N, with what its
condition says at the start of the issue cycle; with N = 0 it ends at once where its condition holds, and raises deadline passed, or waits on in
elastic mode, where it does not. 02 R38, R54-R57, 05 R159, R160, 13 R395: TBAR. The descriptor names a team of the launch that holds the core; the
core arrives at the team's open episode, or opens one, and waits to the deadline in s[RA], or without one in the plain form, which timed mode does not
have. A descriptor of no team, a resynchronise flag or a register without a deadline raise operand range. -/
def Obligations.WaitWords : Prop :=
  (∀ (s : State) (ra : SReg) (ch q : SReg) (n : BitVec 31) (m : BitVec 25) (w : BitVec 28)
       (rk : BitVec 2) (rn : BitVec 7),
     let id := (s.sr ra).toNat
     let free := s.cur.st = .vector → s.me.vbusy ≤ s.cyc
     let full := if rk = 0 then s.me.pIsFull rn else if rk = 1 then s.me.qIsFull (rn.setWidth 5) else s.me.tIsFull (rn.setWidth 4)
     let inFile := rk = 0 ∨ (rk = 1 ∧ rn.toNat < 32) ∨ (rk = 2 ∧ rn.toNat < 16)
     (s.cur.st = .helm →
       Begins (.twait n) s .time (s.cyc + n.toNat) true ∧
       (ch.toNat < 4 → Begins (.waitid ch ra m) s (.channel ch.toNat (id % 2 ^ 48)) (s.cyc + m.toNat)
         (decide (id % 2 ^ 48 ≤ vAt s.me.chst ch.toNat))) ∧
       (let ctx := s.ctxOf s.cur.core
        (0 < id ∧ id < 2 ^ 48 ∧ id ≤ (s.ctx ctx).assigned → Begins (.waitidLaunch ra m) s (.launch id false) (s.cyc + m.toNat)
           (!s.launches.any fun l => l.ctx == ctx && l.cid == id)) ∧
        (id = 0 ∨ 2 ^ 48 ≤ id ∨ (s.ctx ctx).assigned < id → Traps (.waitidLaunch ra m) s (cause 0 0 2))) ∧
       (q.toNat < 32 → Begins (.waitq q m) s (.full 1 (q.setWidth 7)) (s.cyc + m.toNat) (s.me.qIsFull (q.setWidth 5))) ∧
       (32 ≤ q.toNat → Traps (.waitq q m) s (cause 0 0 2))) ∧
     (s.cur.st ≠ .helm → s.cur.st ≠ .crossing → free →
       Begins (.engineTwait n) s .time (s.cyc + n.toNat) true ∧
       (inFile → Begins (.waitf rk rn w) s (.full rk rn) (s.cyc + w.toNat) full) ∧
       (¬ inFile → Traps (.waitf rk rn w) s (cause0 s.cur.st 2)))) ∧
  (∀ (s : State) (l : Launch) (ra : SReg) (desc : BitVec 7) (dl : BitVec 1),
     s.cur.st = .helm → s.launchOf s.cur.core = some l → s.me.inPhase = false →
       let c := s.cur.core
       let d := if dl = 0 then s.cyc else (s.sr ra).toNat
       let bad := fun (sync : Bool) => l.team c desc.toNat = none ∨ (dl = 0 ∧ (sync = true ∨ ra ≠ 0 ∨ l.timedNow = true))
       ∀ p ∈ [(Instr.tbar ra desc dl, false), (.tbarSync ra desc dl, true)],
         (bad p.2 → Traps p.1 s (cause 0 0 2)) ∧
         (¬ bad p.2 → s.cyc < d ∨ l.timedNow = false →
           ∃ t id b, exec p.1 s = .next t ∧ t = { s with cores := t.cores, bars := t.bars, nextBar := t.nextBar } ∧
             t.me = { s.me with helm := { s.me.helm with wait := some ⟨.bar id (dl == 0), d, d, s.cyc, false⟩ } } ∧
             b ∈ t.bars ∧ b.id = id ∧ b.lid = l.lid ∧ some b.team = l.team c desc.toNat ∧ (p.2 = true → b.sync = true) ∧
             ∃ a ∈ b.arrived, a.core = c) ∧
         (¬ bad p.2 → d ≤ s.cyc → l.timedNow = true →
           ∃ t, exec p.1 s = .next t ∧ t.me.raised = s.me.raised ++ [{ s.info (cause 2 0 3) with ofWord := true }]))

/-- 03 R85, R86, 05 R161, 12 R377, R378: CSRR on a launch core. Each assigned number gives its value at the issue cycle after 1 cycle; the words of the
trap record are legal in handler mode only; an unassigned number raises operand range, a purser number privilege. 03 R85, R86, 05 R161, 12 R378, 13
R395: CSRW on a launch core. A write takes effect at the end of the issue cycle; a misaligned `tvec` or `trec` raises alignment and leaves the CSR as
it was; a read-only number raises privilege, an unassigned one operand range. -/
def Obligations.CsrWords : Prop :=
  (∀ (s : State) (l : Launch) (rd : SReg) (csr : BitVec 12),
     s.cur.st = .helm → isPurser s.cur.core = false → s.launchOf s.cur.core = some l →
       let c := s.me
       let n := csr.toNat
       let at_ := s.cur.core
       let gives := fun (k v : Nat) => n = k → Gives (.csrr rd csr) s [(1, .s rd (BitVec.ofNat 64 v))]
       gives 0x000 c.cyc ∧ gives 0x001 s.dayc ∧
       gives 0x002 (s.dayc % 320000 / 20000 + (if s.dayc % 20000 < 2000 then 16 else 0) +
         (if 2000 ≤ s.dayc % 20000 ∧ s.dayc % 20000 < 3000 then 32 else 0)) ∧
       gives 0x010 c.seed.toNat ∧ (∀ j, (h : j < 4) → gives (0x020 + j) (c.chst[j]'h) ∧ gives (0x024 + j) (c.chIssued[j]'h)) ∧
       gives 0x030 c.tvec.toNat ∧ gives 0x031 c.tcause.toNat ∧ gives 0x032 c.trec.toNat ∧
       gives 0x040 (coreX at_ + 2 ^ 8 * (coreY at_ % 32) + 2 ^ 16 * tileOf at_) ∧ gives 0x041 l.cid ∧ gives 0x042 l.ctx ∧
       gives 0x043 ((if l.timed then 1 else 0) + if l.elastic then 2 else 0) ∧
       (∀ j, j < 8 → (c.handler ≠ none → gives (0x050 + j) (memRead c.ls (c.trec.toNat + 8 * j) 8)) ∧
         (c.handler = none → n = 0x050 + j → Traps (.csrr rd csr) s (cause 0 0 6))) ∧
       (n < 0x800 → n ∉ assignedCsrs → Traps (.csrr rd csr) s (cause 0 0 2)) ∧
       (0x800 ≤ n → Traps (.csrr rd csr) s (cause 0 0 6))) ∧
  (∀ (s : State) (ra : SReg) (csr : BitVec 12),
     s.cur.st = .helm → isPurser s.cur.core = false →
       let n := csr.toNat
       let v := s.sr ra
       let w := Instr.csrw csr ra
       (n = 0x010 → (s.me.inPhase = false → Gives w s [(1, .seed v)]) ∧ (s.me.inPhase = true → Traps w s (cause 0 0 2))) ∧
       (n = 0x030 → (v.toNat % 8 = 0 → Becomes w s fun c => { c with tvec := v }) ∧ (v.toNat % 8 ≠ 0 → Traps w s (cause 0 0 3))) ∧
       (n = 0x032 → (v.toNat % 64 = 0 → Becomes w s fun c => { c with trec := v.setWidth 22 }) ∧
         (v.toNat % 64 ≠ 0 → Traps w s (cause 0 0 3))) ∧
       (∀ j, j < 8 → n = 0x050 + j →
         (s.me.handler ≠ none → Gives w s [(1, .bytes (s.me.trec.toNat + 8 * j) (toBytes 8 v.toNat))]) ∧
         (s.me.handler = none → Traps w s (cause 0 0 6))) ∧
       (n < 0x800 → n ∉ assignedCsrs → Traps w s (cause 0 0 2)) ∧
       (n ∈ assignedCsrs → n ∉ writableCsrs → Traps w s (cause 0 0 6)) ∧ (0x800 ≤ n → Traps w s (cause 0 0 6)))

/-- 12 R373-R376, R445: the delivery of a trap that the core of a launch, not in handler mode, has stopped with. Its record goes to `trec`, `tcause` takes
the code, and the trap goes by the rows of R374 to the user handler, at `tvec` with the results in flight captured, or to the supervisor of its tile,
with a copy of the record in the escalation area (whose address is the model's choice, notes/assumptions/3.md), where the memory there is not mapped
out (13 R413). 12 R374 row 1, R446: a fault in handler mode keeps the first trap. Nothing in the core's local store, its handler bank or `tcause`
changes; the new record, marked IN-HANDLER, goes to the escalation area, and 64 bytes above it the first record as it stands. A fault of an elastic
launch's crossing program that the core has no user handler for stands with the supervisor, and the core goes on. -/
def Obligations.TrapDelivered : Prop :=
  (∀ (s : State) (t : TrapInfo) (l : Launch) (cl ax b : Nat),
     let c := s.on.a
     let k := s.core c
     k.trap = some t → k.deliverAt ≤ s.now → isPurser c = false → s.launchOf c = some l → k.handler = none → t.st ≠ .crossing →
     t.code = cause cl ax b → cl < 6 → ax < 8 → b < 8 → s.mem.wf = true → k.ls.wf = true →
       let flag := (s.ctx l.ctx).flags.getLsbD
       let toUser := k.tvec ≠ 0 ∧ k.helm.ended = false ∧ ¬ (cl = 0 ∧ ax = 5 ∧ b = 5) ∧ ¬ (cl = 1 ∧ b = 7) ∧ cl ≠ 5 ∧
         (cl = 3 → (b = 1 ∧ flag 2) ∨ (b = 2 ∧ flag 3) ∨ (b = 5 ∧ flag 4) ∨ b = 6 ∨ b = 7)
       let esc := escalationBase (tileOf c) c
       let kept := s.mappedOut (esc / 64) = false
       ∃ u, exec .trapDelivery s = .next u ∧ (∀ d, d ≠ c → u.core d = s.core d) ∧
         IsTrapRecord (u.core c).ls k.trec.toNat c k l.timed false t ∧ (u.core c).tcause.toNat = t.code ∧ (u.core c).trap = none ∧
         (u.core c).sregs = k.sregs ∧ (u.core c).hbank = k.hbank ∧ (u.core c).stopped = true ∧ (u.core c).flights = [] ∧
         (toUser → u.mem = s.mem ∧ (u.core c).handler = some ⟨t, k.helmSt, k.helm, k.flights, k.time⟩ ∧ (u.core c).helm.pc = k.tvec ∧
           (u.core c).helmSt.npc = k.tvec + 8 ∧ (u.core c).helmSt.nnpc = k.tvec + 16 ∧ (u.core c).helm.ended = false) ∧
         (¬ toUser → (kept → IsTrapRecord u.mem esc c k l.timed false t) ∧ (u.core c).handler = none ∧
           (u.core c).trapped = some ⟨t, k.helmSt, k.helm, k.flights, k.time⟩ ∧ (u.core c).escalated = some esc ∧
           (u.tile (tileOf c)).trapq = (s.tile (tileOf c)).trapq ++ [(c, esc)])) ∧
  (∀ (s : State) (t : TrapInfo) (l : Launch) (st : Stopped),
     let c := s.on.a
     let k := s.core c
     k.trap = some t → k.deliverAt ≤ s.now → isPurser c = false → s.launchOf c = some l → k.handler = some st → s.mem.wf = true →
       let esc := escalationBase (tileOf c) c
       ∃ u, exec .trapDelivery s = .next u ∧ (∀ d, d ≠ c → u.core d = s.core d) ∧
         (u.core c).ls = k.ls ∧ (u.core c).hbank = k.hbank ∧ (u.core c).tcause = k.tcause ∧ (u.core c).handler = some st ∧
         (u.core c).trap = none ∧ (u.core c).escalated = some esc ∧
         (s.mappedOut (esc / 64) = false → IsTrapRecord u.mem esc c k l.timed true t) ∧
         (s.mappedOut (esc / 64 + 1) = false → memBytes u.mem (esc + 64) 64 = memBytes k.ls k.trec.toNat 64) ∧
         (u.tile (tileOf c)).trapq = (s.tile (tileOf c)).trapq ++ [(c, esc)]) ∧
  (∀ (s : State) (t : TrapInfo) (l : Launch),
     let c := s.on.a
     let k := s.core c
     k.xtrap = some t → t.st = .crossing → s.xDeliverDue c = true → s.launchOf c = some l → l.timedNow = false → isPurser c = false →
     k.tvec = 0 →
       let esc := escalationBase (tileOf c) c + 128
       Happens .trapDelivery s fun u => (u.core c).xtrap = none ∧ (u.core c).xEscalated = some esc ∧ (u.core c).stopped = k.stopped ∧
         (u.core c).handler = none ∧ (u.core c).flights = k.flights ∧ (u.core c).tcause = BitVec.ofNat 9 t.code ∧
         (u.tile (tileOf c)).trapq = (s.tile (tileOf c)).trapq ++ [(c, esc)])

/-- 12 R377, R378: HRET leaves handler mode by the record at `trec` as it stands: the helm resumes at its PC, NPC and NNPC, or the stream it names at its
PC, every other stream at its saved state, and the captured results land at the delays they still held. HESC leaves the core stopped and sends the
record to the supervisor, with a copy in the escalation area (whose address is the model's choice, notes/assumptions/3.md). Outside handler mode both
raise privilege, but that HRET passes on a purser core; on a purser core HESC always does. -/
def Obligations.TrapReturns : Prop := ∀ (s : State),
  s.cur.st = .helm →
    let c := s.cur.core
    let k := s.me
    let w := fun (o n : Nat) => memRead k.ls (k.trec.toNat + o) n
    let pc := BitVec.ofNat 64 (w 8 8)
    let stream := w 0 2 / 512 % 8
    let esc := escalationBase (tileOf c) c
    (isPurser c = true → Traps .hesc s (cause 0 0 6)) ∧
    (∀ st, k.handler = some st → st.info.st ≠ .crossing → st.at_ ≤ k.cyc → s.mem.wf = true →
      (∃ t, exec .hret s = .next t ∧ (∀ d, d ≠ c → t.core d = s.core d) ∧ t.mem = s.mem ∧
        (t.core c).handler = none ∧ (t.core c).stopped = false ∧ (t.core c).sregs = k.sregs ∧ (t.core c).hbank = k.hbank ∧
        (stream = 0 → (t.core c).helm = { st.stream with pc := pc } ∧
          (t.core c).helmSt = { st.helm with npc := BitVec.ofNat 64 (w 16 8), nnpc := BitVec.ofNat 64 (w 24 8) }) ∧
        (stream ≠ 0 → (t.core c).helm = st.stream ∧ (t.core c).helmSt = st.helm) ∧
        (t.core c).vec = (if stream = 1 then { k.vec with pc := pc } else k.vec) ∧
        (t.core c).mat = (if stream = 2 then { k.mat with pc := pc } else k.mat) ∧
        (t.core c).cpy = (if stream = 3 then { k.cpy with pc := pc } else k.cpy) ∧
        ∀ f ∈ st.flights, { f with issued := f.issued + (k.cyc - st.at_), due := f.due + (k.cyc - st.at_) } ∈ (t.core c).flights) ∧
      (isPurser c = false → ∃ t, exec .hesc s = .next t ∧ (∀ d, d ≠ c → t.core d = s.core d) ∧ t.me = { k with
        trapped := some st, handler := none, escalated := some esc } ∧
        (s.mappedOut (esc / 64) = false → memBytes t.mem esc 64 = memBytes k.ls k.trec.toNat 64) ∧
        (t.tile (tileOf c)).trapq = (s.tile (tileOf c)).trapq ++ [(c, esc)])) ∧
    (k.handler = none → Traps .hesc s (cause 0 0 6)) ∧
    (k.handler = none → isPurser c = false → Traps .hret s (cause 0 0 6)) ∧
    (k.handler = none → isPurser c = true → Gives .hret s [])

/-- 12 R383: the purser's CSRs. A write acts at the end of the issue cycle on the tile of the purser, or on the context that `psel` selects; `ptrapq`
gives the oldest escalated trap of the tile and removes it, leaving its record's address in `ptrec`; a number that cannot be read, or not be written,
raises privilege. -/
def Obligations.PurserCsrs : Prop := ∀ (s : State) (rd ra : SReg) (csr : BitVec 12),
  s.cur.st = .helm → isPurser s.cur.core = true →
    let n := csr.toNat
    let v := s.sr ra
    let tile := tileOf s.cur.core
    let x := s.ctx ((s.tile tile).psel % 16)
    let gives := fun (m : Nat) (w : Word) => n = m → Gives (.csrr rd csr) s [(1, .s rd w)]
    let takes := fun (m : Nat) (f : State → State → Prop) => n = m → ∃ t, exec (.csrw csr ra) s = .next t ∧ s.Passed t ∧ f s t
    let inTile := fun (f : TileSt → TileSt) (s t : State) => t = { s.modTile tile f with cores := t.cores }
    let inCtx := fun (f : Context → Context) (s t : State) => t = { s.modCtx ((s.tile tile).psel % 16) f with cores := t.cores }
    gives 0x800 (BitVec.ofNat 64 (s.tile tile).psel) ∧ gives 0x801 x.root ∧ gives 0x802 (x.epoch.setWidth 64) ∧ gives 0x803 x.flags ∧
    gives 0x804 x.evt ∧ gives 0x805 x.evtc ∧ gives 0x806 x.save ∧ gives 0x811 (s.tile tile).ptrec ∧ gives 0x81B (s.tile tile).ptvec ∧
    takes 0x800 (inTile fun t => { t with psel := v.toNat % 16 }) ∧ takes 0x81B (inTile fun t => { t with ptvec := v }) ∧
    takes 0x803 (inCtx fun c => { c with flags := v &&& 0x1D#64 }) ∧
    takes 0x804 (inCtx fun c => { c with evt := v &&& 0xFFFFFFFFFFFFF000#64 }) ∧
    takes 0x805 (inCtx fun c => { c with evtc := v &&& 0x1FFFFFFF1F#64 }) ∧ takes 0x806 (inCtx fun c => { c with save := v }) ∧
    (x.active = false → x.restoring = false → takes 0x802 (inCtx fun c => { c with epoch := v.setWidth 8 })) ∧
    (∀ c a rest, (s.tile tile).trapq = (c, a) :: rest → n = 0x810 →
      ∃ t, exec (.csrr rd csr) s = .next t ∧ s.Passed t ∧
        t.me.flights = s.me.flights ++ [s.flight 1 (.s rd (BitVec.ofNat 64 (2 ^ 63 + coreX c + 256 * coreY c)))] ∧
        t = { s.modTile tile (fun t => { t with trapq := rest, ptrec := BitVec.ofNat 64 a }) with cores := t.cores }) ∧
    ((s.tile tile).trapq = [] → gives 0x810 0) ∧
    (n ∈ [0x807, 0x812, 0x813, 0x814, 0x815, 0x817, 0x818, 0x81A] → Traps (.csrr rd csr) s (cause 0 0 6)) ∧
    (n ∈ [0x810, 0x811, 0x819] → Traps (.csrw csr ra) s (cause 0 0 6))

/-- 12 R384, 11 R339-R341, R347, 13 R388, R413: TSTART on a purser core accepts the packet at the physical address s[RA]: it takes the context's next
identifier and loads where its rectangle is free and no limit of 01 R27 bars it; a packet that fails a check of R341 raises that fault and starts
nothing, and neither does one that memory gives as poison. On another core it raises privilege. -/
def Obligations.TstartWord : Prop := ∀ (s : State) (ra : SReg),
  s.cur.st = .helm →
    let r := memBytes s.mem (s.sr ra).toNat 64
    let p := packetOf r
    let tile := tileOf s.cur.core
    let cid := (s.ctx p.ctx).assigned + 1
    let l := s.launchFrom tile p.ctx cid r
    (isPurser s.cur.core = false → Traps (.tstart ra) s (cause 0 0 6)) ∧
    let bad := s.readBad (pkey 0 (s.sr ra).toNat) 64
    (isPurser s.cur.core = true → bad = true → Traps (.tstart ra) s (cause 5 4 1)) ∧
    (isPurser s.cur.core = true → bad = false → (∀ k ∈ s.launches, k.stage ≠ .preempted) →
      (packetReserved r = true → Traps (.tstart ra) s (cause 0 5 1)) ∧
      (packetReserved r = false → p.type ≠ 1 → Traps (.tstart ra) s (cause 0 5 2)) ∧
      (∀ b, p.type = 1 → s.packetFault tile p.ctx cid r = some b → Traps (.tstart ra) s (cause 0 5 b)) ∧
      (p.type = 1 → s.packetFault tile p.ctx cid r = none → p.any = true ∨ s.thermal = true → Traps (.tstart ra) s (cause 0 5 2)) ∧
      (p.type = 1 → s.packetFault tile p.ctx cid r = none → p.any = false → s.thermal = false → s.launchReady l = true →
        (∀ i, i < p.w * p.h → s.coreFree (coreAt (p.x0 + i % p.w) (p.y0 + i / p.w)) = true) → (∀ k ∈ s.launches, k.lid < s.nextLid) →
        ∃ t k, exec (.tstart ra) s = .next t ∧ s.Passed t ∧ k ∈ t.launches ∧ k.stage = .loading ∧ k.ctx = p.ctx ∧ k.cid = cid ∧
          k.packet = r ∧ k.timed = p.timed ∧ (k.x0, k.y0, k.w, k.h) = (p.x0, p.y0, p.w, p.h) ∧ s.now < k.startAt ∧
          (t.ctx p.ctx).assigned = cid ∧ t.mem = s.mem))

/-- 06 R176, R179-R182: the arithmetic words of two and three sources: one exact operation, then one rounding or fit, in each governed element, at the
latency and occupancy of R179; a type outside the class, a register outside its file or an RM that the type does not have raises operand range (that
the words of a floating type that round nothing take RM 1 to 5 is the model's choice, notes/assumptions/37.md). A covered word that reads a container
whose residue does not match goes on, and the check at its landing finds it (04 R131, R132, 13 R389). 06 R176, R179-R182, 04 R130: the words of one
source. VABS, VNEG and VSQRT are exact operations rounded or fitted once; the approximated functions are rounded toward zero, overflow being decided on
the exact result. Their values: 2^x of an integer and the logarithm of a power of two exactly, the reciprocal square root within one unit of the last of
its places, and the special operands by the table of R130. -/
def Obligations.VectorArithmetic : Prop :=
  (∀ (s : State) (o : VBin),
     s.cur.st = .vector → s.me.vbusy ≤ s.cyc →
       let files := InFile o.ka o.a ∧ InFile o.kb o.b
       let sat := o.sat == 1
       let words := [Instr.vadd o, .vsub o, .vmul o, .vfma o, .vfms o, .vfnma o, .vmin o, .vmax o]
       (∀ t, s.Typed o.t isI o.rm t → files → o.ka = 0 →
         (∃ e ∈ s.governed o.msk t.count, ∃ i ∈ containersOf t.width e, 128 * o.a.toNat + i ∈ s.me.vBad) →
         ∀ i ∈ words, ∃ u, exec i s = .next u ∧ s.Alone u ∧ s.Passed u ∧ s.mine.step ∈ u.me.residueBad) ∧
       (∀ t, s.Typed o.t isFI o.rm t → files → s.me.vBad = [] →
         let a := s.src (s.flushes o.t t) o.ka o.a t
         let b := s.src (s.flushes o.t t) o.kb o.b t
         let c := s.src (s.flushes o.t t) 0 (o.vd.setWidth 8) t
         let add := if t = .fp64 then (6, 2) else if t.isInt then (2, 1) else (4, 1)
         let mul := if t = .fp64 ∨ t = .int64 then (6, 2) else (4, 1)
         let div := if t = .fp64 then (26, 8) else (14, 4)
         let gives := fun (i : Instr) (time : Nat × Nat) (ff : Bool → Machine.Num → Machine.Num → Machine.Num → Machine.Num) (fi : Int → Int → Int → Int) =>
           Elementwise i s o.vd t o.msk time.1 time.2 fun e =>
             if t.isInt then t.narrow sat (fi (t.asInt (a e)) (t.asInt (b e)) (t.asInt (c e)))
             else t.ffmt.round (s.rmode o.rm e) sat (ff (s.rmode o.rm e).down (t.value (a e)) (t.value (b e)) (t.value (c e)))
         gives (.vadd o) add (fun d x y _ => x.add d y) (fun x y _ => x + y) ∧
         gives (.vsub o) add (fun d x y _ => x.add d y.neg) (fun x y _ => x - y) ∧
         gives (.vmul o) mul (fun _ x y _ => x.mul y) (fun x y _ => x * y) ∧
         gives (.vfma o) mul (fun d x y z => (x.mul y).add d z) (fun x y z => x * y + z) ∧
         gives (.vfms o) mul (fun d x y z => (x.mul y).add d z.neg) (fun x y z => x * y - z) ∧
         gives (.vfnma o) mul (fun d x y z => (x.mul y).neg.add d z) (fun x y z => z - x * y) ∧
         gives (.vmin o) add (fun _ x y _ => x.min y) (fun x y _ => min x y) ∧
         gives (.vmax o) add (fun _ x y _ => x.max y) (fun x y _ => max x y) ∧
         (isF t = true → gives (.vdiv o) div (fun _ x y _ => x.div y) (fun x _ _ => x))) ∧
       ((¬ ∃ t, s.Typed o.t isFI o.rm t) ∨ ¬ files → ∀ i ∈ words, Traps i s (cause 0 1 2)) ∧
       ((¬ ∃ t, s.Typed o.t isF o.rm t) ∨ ¬ files → Traps (.vdiv o) s (cause 0 1 2))) ∧
  (∀ (s : State) (o : VUn),
     s.cur.st = .vector → s.me.vbusy ≤ s.cyc →
       let sat := o.sat == 1
       (∀ t, s.Typed o.t isFI o.rm t → InFile o.ka o.a → s.me.vBad = [] →
         let a := s.src (s.flushes o.t t) o.ka o.a t
         let gives := fun (i : Instr) (lat occ : Nat) (ff : Machine.Num → Machine.Num) (fi : Int → Int) =>
           Elementwise i s o.vd t o.msk lat occ fun e =>
             if t.isInt then t.narrow sat (fi (t.asInt (a e))) else t.ffmt.round (s.rmode o.rm e) sat (ff (t.value (a e)))
         let near := fun (i : Instr) (f : Machine.Num → Machine.Num) => Elementwise i s o.vd t o.msk 8 1 fun e => t.ffmt.approx sat (f (t.value (a e)))
         gives (.vabs o) 2 1 Machine.Num.abs (fun x => |x|) ∧ gives (.vneg o) 2 1 Machine.Num.neg (fun x => -x) ∧
         (isF t = true → gives (.vsqrt o) (if t = .fp64 then 26 else 14) (if t = .fp64 then 8 else 4) Machine.Num.sqrt id) ∧
         (isF3 t = true → near (.vrcp o) (Machine.Num.ofInt 1).div ∧ near (.vrsq o) Machine.Num.rsqrt ∧ near (.vexp2 o) Machine.Num.exp2 ∧
           near (.vlog2 o) Machine.Num.log2)) ∧
       ((¬ ∃ t, s.Typed o.t isFI o.rm t) ∨ ¬ InFile o.ka o.a → ∀ i ∈ [Instr.vabs o, .vneg o], Traps i s (cause 0 1 2)) ∧
       ((¬ ∃ t, s.Typed o.t isF o.rm t) ∨ ¬ InFile o.ka o.a → Traps (.vsqrt o) s (cause 0 1 2)) ∧
       ((¬ ∃ t, s.Typed o.t isF3 o.rm t) ∨ ¬ InFile o.ka o.a →
         ∀ i ∈ [Instr.vrcp o, .vrsq o, .vexp2 o, .vlog2 o], Traps i s (cause 0 1 2))) ∧
  ((∀ n : Int, n.natAbs < 2 ^ 64 → (Machine.Num.ofInt n).exp2.Is (2 ^ n)) ∧
   (∀ (j : Nat) (e : Int) (x : Bool), (Machine.Num.fin false (2 ^ j) e x).log2.Is (j + e)) ∧
   (∀ (m : Nat) (e : Int) (x : Bool), 0 < m → ∃ r h y, (Machine.Num.fin false m e x).rsqrt = .fin false r h y ∧
     (r * 2 ^ h : Rat) ^ 2 * (m * 2 ^ e) ≤ 1 ∧ 1 < ((r + 1) * 2 ^ h : Rat) ^ 2 * (m * 2 ^ e) ∧
     (y = false ↔ (r * 2 ^ h : Rat) ^ 2 * (m * 2 ^ e) = 1)) ∧
   (∀ f ∈ [Machine.Num.rsqrt, .exp2, .log2], f .nan = .nan) ∧ (∀ (b : Bool) (e : Int) (x : Bool),
     (Machine.Num.fin b 0 e x).rsqrt = .inf b ∧ (Machine.Num.fin b 0 e x).exp2.Is 1 ∧ (Machine.Num.fin b 0 e x).log2 = .inf true) ∧
   (Machine.Num.inf false).rsqrt.Is 0 ∧ (Machine.Num.inf false).exp2 = .inf false ∧ (Machine.Num.inf false).log2 = .inf false ∧
   (Machine.Num.inf true).rsqrt = .nan ∧ (Machine.Num.inf true).exp2.Is 0 ∧ (Machine.Num.inf true).log2 = .nan ∧
   (∀ (m : Nat) (e : Int) (x : Bool), 0 < m → (Machine.Num.fin true m e x).rsqrt = .nan ∧ (Machine.Num.fin true m e x).log2 = .nan))

/-- 06 R176, R179, R183: the bit operations on patterns of `w` bits, a shift amount being taken modulo `w`; VSRA keeps the sign of a signed type, VBEXT
takes a field whose place and length stand in the second source, VFSH shifts two elements as one by the third. That VAND, VOR and VXOR of a floating
type take RM 1 to 5 is the model's choice (notes/assumptions/37.md). -/
def Obligations.VectorBits : Prop := ∀ (s : State) (o : VBin) (u : VUn) (t : ElemType),
  s.cur.st = .vector → s.me.vbusy ≤ s.cyc →
    let w := t.width
    let a := s.rawSrc o.ka o.a t
    let b := s.rawSrc o.kb o.b t
    let c := fun (e : Nat) => elemAt (s.vr o.vd) w e
    let x := s.rawSrc u.ka u.a t
    let gives := fun (i : Instr) (f : Nat → Nat) => Elementwise i s o.vd t o.msk 2 1 f
    let legal := s.Typed o.t isX o.rm t ∧ InFile o.ka o.a ∧ InFile o.kb o.b ∧ o.sat = 0
    (legal → gives (.vand o) (fun e => a e &&& b e) ∧ gives (.vor o) (fun e => a e ||| b e) ∧ gives (.vxor o) (fun e => a e ^^^ b e)) ∧
    (legal → t.isInt = true →
      gives (.vshl o) (fun e => a e * 2 ^ (b e % w) % 2 ^ w) ∧ gives (.vshr o) (fun e => a e / 2 ^ (b e % w)) ∧
      gives (.vsra o) (fun e => (t.asInt (a e) / 2 ^ (b e % w) % 2 ^ w).toNat) ∧
      gives (.vbext o) (fun e => a e / 2 ^ (b e % w) % 2 ^ (b e / w % w + 1)) ∧
      gives (.vfsh o) (fun e => (a e * 2 ^ w + b e) * 2 ^ (c e % w) / 2 ^ w % 2 ^ w)) ∧
    (s.Typed u.t isI u.rm t → InFile u.ka u.a → u.sat = 0 →
      (∃ f, Elementwise (.vpopc u) s u.vd t u.msk 2 1 f ∧ ∀ e, f e = ((List.range w).filter (x e).testBit).length) ∧
      ∃ f, Elementwise (.vclz u) s u.vd t u.msk 2 1 f ∧ ∀ e, f e ≤ w ∧ x e < 2 ^ (w - f e) ∧ (f e < w → 2 ^ (w - 1 - f e) ≤ x e)) ∧
    (o.sat = 1 → ∀ i ∈ [Instr.vand o, .vor o, .vxor o, .vshl o, .vshr o, .vsra o, .vbext o, .vfsh o], Traps i s (cause 0 1 2)) ∧
    (u.sat = 1 → ∀ i ∈ [Instr.vpopc u, .vclz u], Traps i s (cause 0 1 2))

/-- 06 R185, R179: the moves. VMOV copies the source where the mask governs, VSEL takes the first source there and the second elsewhere, VBCAST spreads
one element, VIOTA adds the element number, VPERM moves containers by the second register, and VEXTR gives one element, sign-extended for a signed
type, to an empty handoff register. A KA, KB or mask that the word does not have raises operand range (of VPERM, and of VBCAST's KA, the model's choice:
notes/assumptions/57.md). A move copies a container whose residue does not match without checking it (13 R389; by the model's reading the copy's does
not match either, notes/assumptions/54.md). That the words of a floating type take RM 1 to 5 is the model's choice (notes/assumptions/37.md). -/
def Obligations.VectorMoves : Prop := ∀ (s : State) (o : VBin) (u : VUn) (x : VExtrOp) (t : ElemType),
  s.cur.st = .vector → s.me.vbusy ≤ s.cyc →
    let bin := s.Typed o.t isX o.rm t ∧ InFile o.ka o.a ∧ o.sat = 0 ∧ s.me.vBad = []
    let un := InFile u.ka u.a
    let w := if t.width = 64 then 64 else 32
    let index := fun (k : BitVec 2) (b : BitVec 8) => if k = 1 then (s.me.sreg .vector (b.setWidth 6)).toNat % 2 ^ 32 else b.toNat
    (s.Typed u.t isX u.rm t → un → u.sat = 0 → s.me.vBad = [] → Elementwise (.vmov u) s u.vd t u.msk 2 1 (s.rawSrc u.ka u.a t)) ∧
    (s.Typed u.t isX u.rm t → un → u.sat = 0 → u.ka = 0 → ∃ r f, exec (.vmov u) s = .next r ∧ f ∈ r.me.flights ∧
      f.eff = velems u.vd t.width ((s.governed u.msk t.count).map fun e => (e, s.rawSrc u.ka u.a t e)) ∧
      ∀ e ∈ s.governed u.msk t.count, (∃ i ∈ containersOf t.width e, 128 * u.a.toNat + i ∈ s.me.vBad) → ∀ i ∈ containersOf t.width e, i ∈ f.spoilt) ∧
    (o.ka ≠ 0 ∨ o.kb ≠ 0 → Traps (.vperm o) s (cause 0 1 2)) ∧ (o.ka ≠ 0 ∨ o.kb = 0 ∨ o.kb = 2 → Traps (.vbcast o) s (cause 0 1 2)) ∧
    (s.me.qIsEmpty x.qd = true → x.ka ≠ 0 ∨ x.kb = 0 ∨ x.kb = 2 ∨ x.msk ≠ 0 → Traps (.vextr x) s (cause 0 1 2)) ∧
    (s.Typed u.t isI u.rm t → un → u.ka = 1 ∨ u.ka = 3 →
      Elementwise (.viota u) s u.vd t u.msk 2 1 fun e => t.narrow (u.sat == 1) (t.asInt (s.rawSrc u.ka u.a t e) + e)) ∧
    (s.Typed u.t isI u.rm t → un → u.ka = 0 ∨ u.ka = 2 → Traps (.viota u) s (cause 0 1 2)) ∧
    (bin → InFile o.kb o.b → ∃ r, exec (.vsel o) s = .next r ∧ r.me.vbusy = s.cyc + 1 ∧ s.Issued r [(2, velems o.vd t.width
      ((List.range t.count).map fun e => (e, if governs (s.mask o.msk) t.count e then s.rawSrc o.ka o.a t e else s.rawSrc o.kb o.b t e)))]) ∧
    (bin → o.ka = 0 → (o.kb = 1 ∧ o.b.toNat < 64) ∨ o.kb = 3 →
      (index o.kb o.b < t.count → Elementwise (.vbcast o) s o.vd t o.msk 2 1 fun _ => elemAt (s.vr (o.a.setWidth 6)) t.width (index o.kb o.b)) ∧
      (t.count ≤ index o.kb o.b → Traps (.vbcast o) s (cause 0 1 2))) ∧
    (bin → o.ka = 0 → o.kb = 0 → o.b.toNat < 64 → ∃ r, exec (.vperm o) s = .next r ∧ r.me.vbusy = s.cyc + 1 ∧
      s.Issued r [(4, velems o.vd w ((s.governed o.msk (4096 / w)).map fun e =>
        (e, elemAt (s.vr (o.a.setWidth 6)) w (elemAt (s.vr (o.b.setWidth 6)) w e % (4096 / w)))))]) ∧
    (s.Typed x.t isX x.rm t → x.a.toNat < 64 → x.sat = 0 → x.ka = 0 → (x.kb = 1 ∧ x.b.toNat < 64) ∨ x.kb = 3 → x.msk = 0 →
      index x.kb x.b < t.count →
      let v := elemAt (s.vr (x.a.setWidth 6)) t.width (index x.kb x.b)
      (s.me.qIsEmpty x.qd = true → Gives (.vextr x) s [(2, .q x.qd (if t.isInt then BitVec.ofInt 64 (t.asInt v) else BitVec.ofNat 64 v))]) ∧
      (s.me.qIsEmpty x.qd = false → Stalls (.vextr x) s (cause 2 1 2)))

/-- 06 R184, R186, R179: VCMP writes every bit of a lane mask other than k0: for a lane that its mask governs, whether the condition of its code holds of
every element of the lane (no container read having a bad residue); for the others 0. VPART lists the governed lanes by their code, and counts them. -/
def Obligations.CompareAndPart : Prop := ∀ (s : State) (o : VCmpOp) (p : VBin) (t : ElemType),
  s.cur.st = .vector → s.me.vbusy ≤ s.cyc →
    let a := s.src (s.flushes o.t t) o.ka o.a t
    let b := s.src (s.flushes o.t t) o.kb o.b t
    let holds := fun (e : Nat) => if t.isInt then intHolds o.cc.toNat (t.asInt (a e)) (t.asInt (b e)) (a e) (b e)
      else floatHolds o.cc.toNat (t.value (a e)) (t.value (b e))
    let legal := s.Typed o.t isFI 0 t ∧ InFile o.ka o.a ∧ InFile o.kb o.b ∧ s.me.vBad = []
    let last := if t.isInt then 9 else 7
    (legal → o.kd ≠ 0 → o.cc.toNat ≤ last →
      ∃ m : BitVec 128, Gives (.vcmp o) s [(2, .k o.kd m)] ∧
        (∀ i, i < 128 → t.count ≤ 128 → (m.getLsbD i = true ↔ governs (s.mask o.msk) t.count (i * t.count / 128) = true ∧ holds (i * t.count / 128))) ∧
        (∀ i, i < 128 → 128 < t.count → (m.getLsbD i = true ↔
          (s.mask o.msk).getLsbD i = true ∧ ∀ j, j < t.count / 128 → holds (i * (t.count / 128) + j)))) ∧
    (legal → o.kd = 0 ∨ last < o.cc.toNat → Traps (.vcmp o) s (cause 0 1 2)) ∧
    (let n := p.b.toNat
     let code := elemAt (s.vr (p.a.setWidth 6)) 32
     let lanes := s.governed p.msk 128
     let arm := fun (c : Nat) => lanes.filter fun e => code e == c
     let sorted := (List.range n).flatMap arm
     let before := fun (c : Nat) => (lanes.filter fun e => decide (code e < min c n)).length
     p.t = 4 → p.ka = 0 → p.a.toNat < 64 → p.kb = 3 → 1 ≤ n → n ≤ 16 → p.vd.toNat < 63 → p.rm = 0 → p.sat = 0 →
      ∃ l1 l2, Gives (.vpart p) s [(6, velems p.vd 32 l1), (6, velems (p.vd + 1) 32 l2)] ∧
        (∀ j, j < 128 → l1[j]? = some (j, (sorted[j]?).getD 0xFFFFFFFF)) ∧ l1.length = 128 ∧ l2.length = 128 ∧
        (∀ j, j < 16 → l2[j]? = some (j, if j < n then (arm j).length else 0) ∧ l2[16 + j]? = some (16 + j, before j)) ∧
        l2[32]? = some (32, (lanes.filter fun e => decide (n ≤ code e)).length) ∧ ∀ j, 32 < j → j < 128 → l2[j]? = some (j, 0))

/-- 06 R187, R188, R179: VCVT, VPACK and VUNPACK between the types that are not block types. A source no narrower than the target fills part P of the
target register, governed by source elements; a narrower one gives part P of its own, governed by target elements. Each element is decoded, rounded
once and encoded. -/
def Obligations.Conversions : Prop := ∀ (s : State) (o : VCvOp) (x t : ElemType),
  s.cur.st = .vector → s.me.vbusy ≤ s.cyc →
  ElemType.ofCode o.s.toNat = some x → s.vtype o.t = some t → x.isBlock = false → isX t = true → o.ka = 0 → o.kb = 3 → o.a.toNat < 64 →
  o.rm.toNat < 6 → (x.isInt = true → t.isInt = true → o.rm = 0) →
    let p := o.p.toNat
    let elem := elemAt (s.vr (o.a.setWidth 6)) x.width
    let conv := fun (d b : Nat) => convert x t (s.rmode o.rm d) (o.sat == 1) (if s.flushes o.t x then flushElem x b else b)
    let lat := if x.width = 64 ∨ t.width = 64 then 2 else 1
    let down := (s.governed o.msk x.count).map fun e => (x.count * p + e, conv (x.count * p + e) (elem e))
    let up := (s.governed o.msk t.count).map fun e => (e, conv e (elem (t.count * p + e)))
    let rules := [(Instr.vcvt o, x.width = t.width ∨ (x.width = 64 ∧ t.width = 32) ∨ (x.width = 32 ∧ t.width = 64)),
      (.vpack o, x.width ≤ 32 ∧ (x.width = 2 * t.width ∨ x.width = 4 * t.width)),
      (.vunpack o, t.width ≤ 32 ∧ (t.width = 2 * x.width ∨ t.width = 4 * x.width))]
    ∀ r ∈ rules,
      (r.2 → p < max x.width t.width / min x.width t.width → ∃ u, exec r.1 s = .next u ∧ u.me.vbusy = s.cyc + lat ∧
        s.Issued u [(4, velems o.vd t.width (if t.width ≤ x.width then down else up))]) ∧
      (r.2 → max x.width t.width / min x.width t.width ≤ p → Traps r.1 s (cause 0 1 2)) ∧ (¬ r.2 → Traps r.1 s (cause 0 1 2))

/-- 06 R189-R191, 04 R108, R111: the block conversions. VDEQ, and VCVT of a block type, decode part P of a block image: element i stands in its place with
the scale byte of its block and the band. VQUANT writes the elements and block scales of part P of one, the bytes of the image that are marked zero, and
of part 0 of an FB4 image the band (that the bytes marked zero are written is the model's reading of R189 beside R190, notes/assumptions/10.md). An MX
block's scale is the power of two that brings its largest magnitude to the element's top exponent; an FB4 image's band is the least power of two with
the largest magnitude within 189 of it, and a block's scale its largest magnitude over 6 bands, rounded up. Under an FB4 image with a negative band the
spec states no scale (notes/assumptions/10.md). -/
def Obligations.BlockConversions : Prop := ∀ (s : State) (o : VCvOp) (x t : ElemType),
  s.cur.st = .vector → s.me.vbusy ≤ s.cyc → o.ka = 0 → o.kb = 3 → o.a.toNat < 64 → o.rm.toNat < 6 → o.msk = 0 →
    let p := o.p.toNat
    let v := s.vr (o.a.setWidth 6)
    let image := fun (lat : Nat) (i : Instr) => ∃ u, exec i s = .next u ∧ u.me.vbusy = s.cyc + 1 ∧
      s.Issued u [(lat, velems o.vd t.width ((List.range t.count).map fun e =>
        (e, let i := t.count * p + e
          t.encodeF (s.rmode o.rm e) (o.sat == 1)
            (blockVal x (bf16F.decode (elemAt v 16 160)) (elemAt v 8 (256 + i / if x = .fb4 then 8 else 32)) (elemAt v x.width i)))))]
    let total := fun (x : ElemType) => if x = .fb4 ∨ x = .mxfp4 then 512 else 256
    let zeros := fun (z : Nat) => velems o.vd 8 ((List.range (512 - z)).map fun i => (z + i, 0))
    (ElemType.ofCode o.s.toNat = some x → s.vtype o.t = some t → x.isBlock = true → t = .fp32 ∨ t = .bf16 →
      p < total x / t.count → image 6 (.vdeq o)) ∧
    (s.vtype o.t = some x → x.isBlock = true → ElemType.ofCode o.s.toNat = some t → t.isBlock = false → t.width = 16 ∨ t.width = 32 →
      p < total x / t.count → image 4 (.vcvt o)) ∧
    (o.t = 7 → s.vtype 7 = some t → ElemType.ofCode o.s.toNat = some x → isF3 x = true →
      let n := x.count
      let xs := (List.range n).map fun e => x.value (elemAt v x.width e)
      let mode := fun (e : Nat) => s.rmode o.rm (n * p + e)
      let finite := ∀ y ∈ xs, ∃ r, y.Is r
      let most := fun (l : List Machine.Num) (b : Rat) => ∀ y ∈ l, ∃ r, y.Is r ∧ |r| ≤ b
      let some_ := fun (l : List Machine.Num) (b : Rat) => ∃ y ∈ l, ∃ r, y.Is r ∧ b < |r|
      let bandOld := bf16F.decode (elemAt (s.vr o.vd) 16 160)
      (t = .e4m3 ∨ t = .e5m2 → p < 512 / n → Gives (.vquant o) s [(8, velems o.vd 8 ((List.range n).map fun e =>
        (n * p + e, t.ffmt.round (mode e) (o.sat == 1) (x.value (elemAt v x.width e)))))]) ∧
      (t = .mxfp8 ∨ t = .mxfp4 ∨ t = .mxfp8e5 → p < total t / n →
        let block := fun (b : Nat) => (xs.drop (32 * b)).take 32
        let top : Int := if t = .mxfp4 then 2 else if t = .mxfp8 then 8 else 15
        ∃ scale elem : Nat → Nat,
          Gives (.vquant o) s [(8, velems o.vd t.width ((List.range n).map fun e => (n * p + e, elem e))),
            (8, velems o.vd 8 ((List.range (n / 32)).map fun b => (256 + n * p / 32 + b, scale b))), (8, zeros (if t = .mxfp4 then 272 else 264))] ∧
          ∀ b, b < n / 32 →
            ((∃ y ∈ block b, y = .nan ∨ ∃ neg, y = .inf neg) → scale b = 255 ∧ ∀ i, i < 32 → elem (32 * b + i) = 0) ∧
            ((∀ y ∈ block b, y.Is 0) → scale b = 0 ∧ ∀ i, i < 32 → elem (32 * b + i) = 0) ∧
            (∀ j : Int, (∀ y ∈ block b, ∃ r, y.Is r ∧ |r| < 2 ^ (j + 1)) → (∃ y ∈ block b, ∃ r, y.Is r ∧ 2 ^ j ≤ |r|) →
              let h := max (-127) (min 127 (j - top))
              scale b = (h + 127).toNat ∧ ∀ i, i < 32 → ∀ y, (block b)[i]? = some y →
                elem (32 * b + i) = t.ffmt.round (mode (32 * b + i)) true (y.mul (.fin false 1 (-h) false)))) ∧
      (t = .fb4 → p < 512 / n → (∃ y ∈ xs, y = .nan ∨ ∃ neg, y = .inf neg) → Traps (.vquant o) s (cause 0 1 7)) ∧
      (t = .fb4 → p < 512 / n → p ≠ 0 → finite → bandOld = .nan ∨ bandOld.Is 0 ∨ (∃ neg, bandOld = .inf neg) → Traps (.vquant o) s (cause 0 1 7)) ∧
      (∀ band : Machine.Num, t = .fb4 → p < 512 / n → finite →
        (p = 0 → (most xs 0 ∧ band = .fin false 1 0 false) ∨ (some_ xs 0 ∧ ∃ k : Int, band = .fin false 1 k false ∧ -133 ≤ k ∧ k ≤ 127 ∧
          (k = 127 ∨ most xs (189 * 2 ^ k)) ∧ (k = -133 ∨ some_ xs (189 * 2 ^ (k - 1))))) →
        (p ≠ 0 → band = bandOld ∧ ∃ r, band.Is r ∧ 0 < r) →
        let block := fun (b : Nat) => (xs.drop (8 * b)).take 8
        ∃ scale elem : Nat → Nat,
          Gives (.vquant o) s ([(8, velems o.vd 4 ((List.range n).map fun e => (n * p + e, elem e))),
            (8, velems o.vd 8 ((List.range (n / 8)).map fun b => (256 + n * p / 8 + b, scale b))), (8, zeros 322)]
            ++ if p = 0 then [(8, velems o.vd 16 [(160, bf16F.round .rne false band)])] else []) ∧
          ∀ b, b < n / 8 →
            (∃ y ∈ block b, ∃ r, y.Is r ∧ most (block b) |r| ∧
              scale b = e3m5F.round .rup false (y.abs.div ((Machine.Num.ofInt 6).mul band))) ∧
            ∀ i, i < 8 → ∀ y, (block b)[i]? = some y → elem (8 * b + i) =
              if scale b = 0 then 0 else fp4F.round (mode (8 * b + i)) false (y.div (band.mul (e3m5F.decode (scale b))))))

/-- 07 R208-R213, R216, 04 R126, 06 R176: the reductions and the scan of a whole vector, SG = 0. The lanes are those that the mask governs below the valid
count. A sum, a maximum and a minimum are combined by the tree of R126 over the lanes, each widened exactly, with one rounding of a sum at each
combination; a sum of an integer type is exact in its sum type, wrapping or clamped at each combination; VRMAX and VRMIN give the extreme lane; with no
lane the result is the identity. VSCAN gives the running sums of the lanes in ascending order. The bit of the empty mask says that there is no lane. A
reserved EQ, SAT where it is not legal and a full mask register are turned away; that VRMAX, VRMIN and VRSMAX of a floating type take RM 1 to 5, which
they ignore, is the model's choice (notes/assumptions/37.md). 07 R214, R215, R216: VRSMAX and VRNORM of a whole vector: each lane's
exponential of its distance below the largest lane, and each lane's quotient by the sum of the lanes. -/
def Obligations.Reductions : Prop :=
  (∀ (s : State) (o : VRed) (t : ElemType),
     s.cur.st = .vector → s.me.vbusy ≤ s.cyc → s.Typed o.t isFI o.rm t → o.ka = 0 → o.a.toNat < 64 → o.sg = 0 → s.MaskReady o.eq →
       let d := sumType t
       let vc := s.mine.vc.toNat
       let lanes := (s.governed o.msk t.count).filter fun e => decide (e < vc)
       let lat := if t.width = 64 then 16 else 12
       let occ := if t.width = 64 then 4 else 2
       let src := s.src (s.flushes o.t t) 0 o.a t
       let int := fun (e : Nat) => t.asInt (src e)
       let wide := fun (e : Nat) => convert t d .rne false (src e)
       let gives := fun (i : Instr) (w : Nat) (l : List (Nat × Nat)) => ∃ u, exec i s = .next u ∧ u.me.vbusy = s.cyc + occ ∧
         s.Issued u ((lat, velems o.vd w l) :: (wholeMask o.eq (w == 64) lanes.isEmpty).map fun e => (lat, e))
       let lands := fun (i : Instr) (v : Nat) => gives i d.width [(0, v)]
       let sum := fun (i a b : Nat) => if d.isInt then d.narrow (o.sat == 1) (d.asInt a + d.asInt b)
         else d.ffmt.round (s.rmode o.rm i) (o.sat == 1) ((d.value a).add (s.rmode o.rm i).down (d.value b))
       let top := fun (_ a b : Nat) => if d.isInt then d.narrow false (max (d.asInt a) (d.asInt b))
         else d.ffmt.round .rne false ((d.value a).max (d.value b))
       let low := fun (_ a b : Nat) => if d.isInt then d.narrow false (min (d.asInt a) (d.asInt b))
         else d.ffmt.round .rne false ((d.value a).min (d.value b))
       let total := fun (comb : Comb) => tree comb 0 (levelsOf t.count) 0
         ((List.range t.count).map fun e => if e ∈ lanes then some (wide e) else none)
       (∃ v, lands (.vrsum o) v ∧ v = (total sum).getD 0 ∧ (lanes = [] → v = 0) ∧
         (t.isInt = true → o.sat = 0 → v = d.narrow false (lanes.map int).sum) ∧
         (∀ e, lanes = [e] → v = convert t d .rne false (src e))) ∧
       (o.sat = 0 → ∃ v, lands (.vrmax o) v ∧ v = (total top).getD (if t.isInt then d.narrow false d.intRange.1 else d.ffmt.inf true) ∧
         (t.isInt = true → lanes ≠ [] → (∃ e ∈ lanes, d.asInt v = int e) ∧ ∀ e ∈ lanes, int e ≤ d.asInt v) ∧
         (t.isInt = false → lanes = [] → v = d.ffmt.inf true)) ∧
       (o.sat = 0 → ∃ v, lands (.vrmin o) v ∧ v = (total low).getD (if t.isInt then d.narrow false d.intRange.2 else d.ffmt.inf false) ∧
         (t.isInt = true → lanes ≠ [] → (∃ e ∈ lanes, d.asInt v = int e) ∧ ∀ e ∈ lanes, d.asInt v ≤ int e) ∧
         (t.isInt = false → lanes = [] → v = d.ffmt.inf false)) ∧
       (t = .fp32 ∨ t = .fp64 ∨ t = .int32 ∨ t = .int64 → ∃ l, gives (.vscan o) t.width l ∧ l.map (·.1) = lanes ∧
         (∀ e v, l[0]? = some (e, v) → v = wide e) ∧
         (∀ i e v f x, l[i]? = some (e, v) → l[i + 1]? = some (f, x) → x = sum f v (wide f)) ∧
         (t.isInt = true → o.sat = 0 → ∀ e ∈ lanes, (e, t.narrow false ((lanes.filter (· ≤ e)).map int).sum) ∈ l)) ∧
       (t ≠ .fp32 → t ≠ .fp64 → t ≠ .int32 → t ≠ .int64 → Traps (.vscan o) s (cause 0 1 2)) ∧
       (o.sat = 1 → ∀ i ∈ [Instr.vrmax o, .vrmin o], Traps i s (cause 0 1 2))) ∧
  (∀ (s : State) (o : VRed) (t : ElemType),
     s.cur.st = .vector → s.me.vbusy ≤ s.cyc → s.Typed o.t isF3 o.rm t → o.ka = 0 → o.a.toNat < 64 → o.sg = 0 → s.MaskReady o.eq →
       let vc := s.mine.vc.toNat
       let lanes := (s.governed o.msk t.count).filter fun e => decide (e < vc)
       let src := s.src (s.flushes o.t t) 0 o.a t
       let x := fun (e : Nat) => t.value (src e)
       let gives := fun (i : Instr) (lat : Nat) (l : List (Nat × Nat)) => ∃ u, exec i s = .next u ∧ u.me.vbusy = s.cyc + 4 ∧
         s.Issued u ((lat, velems o.vd t.width l) :: (wholeMask o.eq false lanes.isEmpty).map fun e => (lat, e))
       let total := tree (fun i a b => fp32F.round (s.rmode o.rm i) (o.sat == 1)
           ((fp32F.decode a).add (s.rmode o.rm i).down (fp32F.decode b))) 0 (levelsOf t.count) 0
         ((List.range t.count).map fun e => if e ∈ lanes then some (convert t .fp32 .rne false (src e)) else none)
       (o.sat = 0 → ∃ l, gives (.vrsmax o) 20 l ∧ l.map (·.1) = lanes ∧
         ∀ m, (∀ e ∈ lanes, ∃ neg k i, x e = .fin neg k i false) → (∃ e ∈ lanes, x e = m) → (∀ e ∈ lanes, m.lt0 (x e) = false) →
           ∀ e ∈ lanes, (e, t.ffmt.approx false (Machine.Num.exp2 ((x e).add false m.neg))) ∈ l) ∧
       (∃ l, gives (.vrnorm o) 28 l ∧ l.map (·.1) = lanes ∧
         ((∀ e ∈ lanes, ∃ neg k, x e = .fin neg 0 k false) → ∀ p ∈ l, p.2 = 0) ∧
         ((∃ e ∈ lanes, (x e).isZero = false) →
           ∀ e ∈ lanes, (e, t.ffmt.round (s.rmode o.rm e) (o.sat == 1) ((x e).div (fp32F.decode (total.getD 0)))) ∈ l)) ∧
       (o.sat = 1 → Traps (.vrsmax o) s (cause 0 1 2))) ∧
  (∀ (s : State) (o : VRed),
     s.cur.st = .vector → o.sg = 0 →
       let words := [Instr.vrsum o, .vrmax o, .vrmin o, .vscan o, .vrnorm o, .vrsmax o]
       (16 ≤ o.eq.toNat → o.eq.toNat < 32 → ∀ i ∈ words, Traps i s (cause 0 1 1)) ∧
       (s.me.vbusy ≤ s.cyc → 32 ≤ o.eq.toNat → s.me.qIsEmpty (o.eq.setWidth 5) = false → ∀ i ∈ words, Stalls i s (cause 2 1 2)))

/-- 07 R202, R207-R212, R215: a reduction, a scan or a normalisation by segments, SG = 1, of a loaded slot: it is bound to the slot's generation, lands one
result for each segment of its window from lane 0 up, joined with the carry in the first, and the empty ones of them in its empty mask, and leaves the
carry of its last segment; an empty segment's lane keeps its value under POLICY KEEP and takes the identity otherwise. In MODE FAULT more segments than
result lanes, and of VRNORM and VRSMAX a segment that the window cuts, raise ragged straddle. That the words of a floating type that round nothing take
RM 1 to 5 is the model's choice (notes/assumptions/37.md). -/
def Obligations.SegmentWords : Prop := ∀ (s : State) (o : VRed) (t : ElemType) (g : Shape),
  s.cur.st = .vector → s.me.vbusy ≤ s.cyc → o.ka = 0 → o.a.toNat < 64 → o.sg = 1 → s.MaskReady o.eq → s.me.shape? o.zs.toNat = some g →
    let org := s.origin o.zs.toNat
    let n := t.count
    let segs := g.segments org n
    let lo := segs.headD 0
    let lanes := fun (j : Nat) => (s.governed o.msk n).filter fun e =>
      decide (org + e < g.rows ∧ org + e < s.mine.vc.toNat ∧ g.bounds.getD j 0 ≤ org + e ∧ org + e < g.bounds.getD (j + 1) 0)
    let empty := fun (j : Nat) => lanes j = [] ∧ ¬ (s.me.carry.valid = true ∧ g.bounds.getD j 0 < org)
    let wide := fun (e : Nat) => convert t (sumType t) .rne false (s.src (s.flushes o.t t) 0 o.a t e)
    let lat := fun (i : Instr) => match i with | .vrsmax _ => 20 | .vrnorm _ => 28 | _ => if t.width = 64 then 16 else 12
    let occ := fun (i : Instr) => match i with | .vrsmax _ => 4 | .vrnorm _ => 4 | _ => if t.width = 64 then 4 else 2
    let words := [(Instr.vrsum o, isFI, sumType t, true), (.vrmax o, isFI, sumType t, false), (.vrmin o, isFI, sumType t, false),
      (.vscan o, isScan, t, true), (.vrnorm o, isF3, t, true), (.vrsmax o, isF3, t, false)]
    let whole := fun (i : Instr) => match i with
      | .vrsmax _ | .vrnorm _ => ∀ j ∈ segs, org ≤ g.bounds.getD j 0 ∧ g.bounds.getD (j + 1) 0 ≤ org + n
      | _ => True
    (∀ w ∈ words, s.Typed o.t w.2.1 o.rm t → o.sat = 0 ∨ w.2.2.2 = true →
      (g.fault = false ∨ (segs.length ≤ w.2.2.1.count ∧ whole w.1) →
        ∃ u l em, exec w.1 s = .next u ∧ s.Alone u ∧ s.Passed u ∧ u.me.vbusy = s.cyc + occ w.1 ∧
          u.me.flights = s.me.flights ++ (velems o.vd w.2.2.1.width l :: em).map (s.flight (lat w.1)) ++ s.loopEffs.map (s.flight 1) ∧
          (o.eq = 0 → em = []) ∧ (32 ≤ o.eq.toNat → ∃ m, em = [.q (o.eq.setWidth 5) m]) ∧
          (1 ≤ o.eq.toNat → o.eq.toNat < 16 → ∃ m, em = [.k (o.eq.setWidth 4) m] ∧
            (t.width = 32 → ∀ j ∈ segs, j - lo < 128 →
              (empty j → m.getLsbD (j - lo) = true) ∧ (lanes j ≠ [] → m.getLsbD (j - lo) = false)))) ∧
      (g.fault = true → ¬ (segs.length ≤ w.2.2.1.count ∧ whole w.1) → Traps w.1 s (cause 2 1 6))) ∧
    (s.Typed o.t isFI o.rm t → g.fault = false →
      let d := sumType t
      let comb := fun (i a b : Nat) => if d.isInt then d.narrow (o.sat == 1) (d.asInt a + d.asInt b)
        else d.ffmt.round (s.rmode o.rm i) (o.sat == 1) ((d.value a).add (s.rmode o.rm i).down (d.value b))
      let part := fun (j : Nat) => tree comb (j - lo) (levelsOf n) 0
        ((List.range n).map fun e => if e ∈ lanes j then some (wide e) else none)
      let carried := fun (j : Nat) => j = lo ∧ g.bounds.getD j 0 < org ∧ s.carryMatches 0 o d j org = true ∧ s.me.carry.some = true
      let joined := fun (j : Nat) => if carried j then
          some (match part j with
            | some p => comb (treeIndex (j - lo) 15 0) s.me.carry.value.toNat p
            | none => s.me.carry.value.toNat)
        else part j
      ∃ u l em, exec (.vrsum o) s = .next u ∧
        u.me.flights = s.me.flights ++ (velems o.vd d.width l :: em).map (s.flight (lat (.vrsum o))) ++ s.loopEffs.map (s.flight 1) ∧
        (∀ j ∈ segs, j - lo < d.count → g.policy ≠ 1 ∨ (joined j).isSome = true → (j - lo, (joined j).getD 0) ∈ l) ∧
        (∀ j ∈ segs, g.policy = 1 → joined j = none → ∀ v, (j - lo, v) ∉ l) ∧
        (∀ j ∈ segs, (∀ k ∈ segs, k ≤ j) →
          (org + n < g.bounds.getD (j + 1) 0 → u.me.carry.valid = true ∧ u.me.carry.seg = j ∧ u.me.carry.some = (joined j).isSome ∧
            u.me.carry.value2 = BitVec.ofNat 64 (org + n) ∧ u.me.carry.value = BitVec.ofNat 64 ((joined j).getD 0)) ∧
          (g.bounds.getD (j + 1) 0 ≤ org + n → u.me.carry = {})))

/-- 06 R192, R193, R179, 07 R209, 13 R390: the vector loads of a store with no poisoned sector. An untagged load lands, at its latency, the bytes that
each governed element's address holds at the start of its issue cycle; a misaligned base raises alignment, an address outside the local store operand
range; a tagged one stalls, or raises tag mismatch, while a slot that it reads carries another tag. -/
def Obligations.VectorLoads : Prop := ∀ (s : State) (o : VLdOp) (x : VLdxOp) (r : VLdrOp) (t : ElemType),
  s.cur.st = .vector → s.me.vbusy ≤ s.cyc → s.me.lsPoison = [] →
    let w := t.width / 8
    let base := fun (sb : SReg) => (((s.me.sreg .vector sb).toNat % 2 ^ 48 : Nat) : Int)
    let inside := fun (a : Int) (n : Nat) => 0 ≤ a ∧ a + n ≤ 0x400000
    let lands := fun (i : Instr) (vd : BitVec 6) (lat : Nat) (es : List Nat) (a : Nat → Int) =>
      Gives i s [(lat, velems vd t.width (es.map fun e => (e, memRead s.me.ls (a e).toNat w)))]
    let a := base o.sb + 64 * o.off.toInt
    let tagged := fun (sb : SReg) (es : List Nat) (at_ : Nat → Int) => ∀ e ∈ es,
      (tabGet s.me.slotTags ((at_ e).toNat / 1024)).getD 0 = (s.me.sreg .vector sb).extractLsb' 48 16
    (s.vtype o.t = some t → isX t = true → s.me.phase = none →
      let es := s.governed o.msk t.count
      let at_ := fun (e : Nat) => a + w * e
      (a % 64 ≠ 0 → Traps (.vld o) s (cause 0 1 3)) ∧ (a % 64 = 0 → ¬ inside a 512 → Traps (.vld o) s (cause 0 1 2)) ∧
      (a % 64 = 0 → inside a 512 → o.tg = 0 ∨ tagged o.sb es at_ → lands (.vld o) o.vd 8 es at_) ∧
      (a % 64 = 0 → inside a 512 → o.tg = 1 → ¬ tagged o.sb es at_ → Stalls (.vld o) s (cause 2 1 1))) ∧
    (s.vtype x.t = some t → isX t = true → x.tg = 0 →
      let es := s.governed x.msk t.count
      let st := (s.me.sreg .vector x.sx).toInt
      let row := fun (i : Nat) => base x.sb + i * st
      let idx := fun (e : Nat) => base x.sb + w * (BitVec.ofNat 32 (elemAt (s.vr x.sx) 32 e)).toInt
      (base x.sb % 64 = 0 → st % 64 = 0 → (∀ i, i < 8 → inside (row i) 64) →
        lands (.vlds x) x.vd 9 es fun e => row (w * e / 64) + (w * e % 64 : Nat)) ∧
      (base x.sb % 64 ≠ 0 ∨ st % 64 ≠ 0 → Traps (.vlds x) s (cause 0 1 3)) ∧
      (32 ≤ t.width → base x.sb % w = 0 → (∀ e ∈ es, inside (idx e) w) → lands (.vgath x) x.vd 16 es idx) ∧
      (32 ≤ t.width → base x.sb % w ≠ 0 → Traps (.vgath x) s (cause 0 1 3)) ∧
      (32 ≤ t.width → base x.sb % w = 0 → (∃ e ∈ es, ¬ inside (idx e) w) → Traps (.vgath x) s (cause 0 1 2)) ∧
      (t.width < 32 → Traps (.vgath x) s (cause 0 1 2))) ∧
    (∀ g, s.vtype r.t = some t → isX t = true → r.tg = 0 → s.me.shape? r.zs.toNat = some g → g.fault = false →
      let b := base r.sb + 64 * r.off.toInt
      let org := s.origin r.zs.toNat
      let es := (s.governed r.msk t.count).filter fun e => g.validClip s.mine.vc.toNat org t.count e
      b % 64 = 0 → inside b 512 → ∃ u, exec (.vldr r) s = .next u ∧ s.Alone u ∧ s.Passed u ∧
        u.me.flights = s.me.flights ++ [s.flight 8 (velems r.vd t.width (es.map fun e => (e, memRead s.me.ls (b + w * e).toNat w)))]
          ++ s.loopEffs.map (s.flight 1)) ∧
    (s.me.shape? r.zs.toNat = none → Traps (.vldr r) s (cause 0 1 2))

/-- 06 R192, R193, R179: the vector stores. At the end of the last cycle of its occupancy the bytes of each governed element stand at its address and
every other byte of the local store is as it was; of two rows or elements at one byte the higher stands. -/
def Obligations.VectorStores : Prop := ∀ (s : State) (o : VStOp) (x : VStxOp) (t : ElemType),
  s.cur.st = .vector → s.me.vbusy ≤ s.cyc → s.me.ls.wf = true →
    let w := t.width / 8
    let base := fun (sb : SReg) => (((s.me.sreg .vector sb).toNat % 2 ^ 48 : Nat) : Int)
    let inside := fun (a : Int) (n : Nat) => 0 ≤ a ∧ a + n ≤ 0x400000
    let stores := fun (i : Instr) (vd : BitVec 6) (occ : Nat) (es : List Nat) (at_ : Nat → Int) =>
      ∃ effs : List Eff, Gives i s (effs.map fun e => (occ, e)) ∧
        let after := (effs.foldl Core.land s.me).ls
        (∀ e ∈ es, ∀ j, j < w → (∀ f ∈ es, e < f → ¬ ((at_ f).toNat ≤ (at_ e).toNat + j ∧ (at_ e).toNat + j < (at_ f).toNat + w)) →
          memGet after ((at_ e).toNat + j) = BitVec.ofNat 8 (elemAt (s.vr vd) t.width e / 2 ^ (8 * j))) ∧
        ∀ a, (∀ e ∈ es, ¬ ((at_ e).toNat ≤ a ∧ a < (at_ e).toNat + w)) → memGet after a = memGet s.me.ls a
    let a := base o.sb + 64 * o.off.toInt
    (s.vtype o.t = some t → isX t = true →
      (a % 64 ≠ 0 → Traps (.vst o) s (cause 0 1 3)) ∧ (a % 64 = 0 → ¬ inside a 512 → Traps (.vst o) s (cause 0 1 2)) ∧
      (a % 64 = 0 → inside a 512 → stores (.vst o) o.vd 1 (s.governed o.msk t.count) fun e => a + w * e)) ∧
    (s.vtype x.t = some t → isX t = true →
      let es := s.governed x.msk t.count
      let st := (s.me.sreg .vector x.sx).toInt
      let row := fun (i : Nat) => base x.sb + i * st
      let idx := fun (e : Nat) => base x.sb + w * (BitVec.ofNat 32 (elemAt (s.vr x.sx) 32 e)).toInt
      (base x.sb % 64 = 0 → st % 64 = 0 → (∀ i, i < 8 → inside (row i) 64) →
        stores (.vsts x) x.vd 2 es fun e => row (w * e / 64) + (w * e % 64 : Nat)) ∧
      (base x.sb % 64 ≠ 0 ∨ st % 64 ≠ 0 → Traps (.vsts x) s (cause 0 1 3)) ∧
      (32 ≤ t.width → base x.sb % w = 0 → (∀ e ∈ es, inside (idx e) w) → stores (.vscat x) x.vd 8 es idx) ∧
      (32 ≤ t.width → base x.sb % w = 0 → (∃ e ∈ es, ¬ inside (idx e) w) → Traps (.vscat x) s (cause 0 1 2)) ∧
      (t.width < 32 → Traps (.vscat x) s (cause 0 1 2)))

/-- 06 R174, R176: what a vector result writes at its landing: each of its elements takes its value, and every other element, and every other register,
keeps what it holds. -/
def Obligations.ElementsLand : Prop := ∀ (k : Core) (vd r : BitVec 6) (t : ElemType) (l : List (Nat × Nat)) (e : Nat),
  (l.map (·.1)).Nodup → (∀ p ∈ l, p.1 < t.count ∧ p.2 < 2 ^ t.width) → e < t.count →
    let k' := k.land (velems vd t.width l)
    (∀ v, (e, v) ∈ l → elemAt (vGet vd k'.vregs) t.width e = v) ∧
    ((∀ v, (e, v) ∉ l) → elemAt (vGet vd k'.vregs) t.width e = elemAt (vGet vd k.vregs) t.width e) ∧
    (r ≠ vd → vGet r k'.vregs = vGet r k.vregs) ∧ k'.sregs = k.sregs ∧ k'.kregs = k.kregs ∧ k'.ls = k.ls

/-- 04 R101, R103, R113: the encoding of a value that a format holds is exact in every rounding mode: what RoundTo makes of the value of an encoding is
that encoding, and of a NaN the canonical one. 04 R102, 06 R181: the sums and products of finite values are exact; a quotient and a square root are
held below the exact value by less than their last place, and exactly where they are not marked. 04 R113: RoundTo lands on one of the two multiples of
the last place that enclose the exact value, the smaller magnitude under RTZ, the one above under RUP and below under RDN, the nearer under RNE, the
even one at a tie. -/
def Obligations.FloatRules : Prop :=
  (∀ (m : RMode) (b : Nat),
     ∀ f ∈ [fp32F, fp64F, bf16F, fp16F, e4m3F, e5m2F], b < 2 ^ (1 + f.ebits + f.man) →
       (f.decode b ≠ .nan → f.round m false (f.decode b) = b) ∧ (f.decode b = .nan → f.round m false (f.decode b) = f.nan)) ∧
  (∀ (a b : Machine.Num) (p q : Rat) (dn : Bool),
     a.rat = some p → b.rat = some q →
       (a.add dn b).rat = some (p + q) ∧ (a.mul b).rat = some (p * q) ∧ a.neg.rat = some (-p) ∧ a.abs.rat = some |p| ∧
       (q ≠ 0 → ∃ neg m e x, a.div b = .fin neg m e x ∧ ((m : Rat) * 2 ^ e ≤ |p / q| ∧ |p / q| < (m + 1) * 2 ^ e) ∧
         ((m : Rat) * 2 ^ e = |p / q| ↔ x = false)) ∧
       (0 < p → ∃ m e x, a.sqrt = .fin false m e x ∧ ((m : Rat) * 2 ^ e) ^ 2 ≤ p ∧ p < ((m + 1 : Rat) * 2 ^ e) ^ 2 ∧
         (((m : Rat) * 2 ^ e) ^ 2 = p ↔ x = false))) ∧
  (∀ (neg : Bool) (m : Nat) (e u : Int) (q : Nat) (x : Rat),
     x = m * 2 ^ (e - u) → (q : Rat) ≤ x → x < q + 1 →
       let at_ := fun (mode : RMode) => roundUnit mode neg m e u false
       ((q : Rat) = x → ∀ mode, at_ mode = q) ∧ at_ .rtz = q ∧
       ((q : Rat) < x → at_ .rup = (if neg then q else q + 1) ∧ at_ .rdn = (if neg then q + 1 else q)) ∧
       (x - q < 1 / 2 → at_ .rne = q) ∧ (1 / 2 < x - q → at_ .rne = q + 1) ∧
       (x - q = 1 / 2 → at_ .rne % 2 = 0 ∧ (at_ .rne = q ∨ at_ .rne = q + 1)))

/-- 07 R219-R225, R229: the matrix words that move bytes, with every unit free and nothing in error. Each moves its bytes without conversion; a
destination must be empty and a source full; a consuming read empties its register in the next cycle; a landing in a tile register leaves its sidecar
and its band as they are. 07 R218, R221, R223, R228, 04 R115-R118: MOUT and MOUTQ. They empty the accumulator, convert each element and fill one tile,
or two for a 32-bit type; MOUTQ also gives the largest magnitude and the count of the elements that overflowed or clamped: a finite value whose rounding
passes the largest finite value of the target, an infinity delivered as a finite value, and a value outside an integer target's range. -/
def Obligations.MatrixMoves : Prop :=
  (∀ (s : State) (o : MLdOp) (m : MStOp) (ad : BitVec 2) (ta tb : BitVec 4),
     s.cur.st = .matrix → s.me.tBad = [] → s.me.aBad = [] → s.me.lsPoison = [] → (∀ u, u < 3 → vAt s.me.mbusy u ≤ s.cyc) →
       let addr := fun (sb : SReg) (off : BitVec 14) => (((s.me.sreg .matrix sb).toNat % 2 ^ 48 : Nat) : Int) + 64 * off.toInt
       let a := addr o.sb o.off
       let b := addr m.sb m.off
       let inside := fun (x : Int) (n : Nat) => 0 ≤ x ∧ x + n ≤ 0x400000
       let fits := fun (x : Int) (n : Nat) => x % 64 = 0 ∧ inside x n
       let tile := fun (r : BitVec 4) => (vGet r s.me.tregs).data
       let ac : BitVec 2 := o.d.setWidth 2
       let mc : BitVec 2 := m.d.setWidth 2
       (o.tg = 0 →
         (s.me.tIsEmpty o.d = true →
           (fits a 4096 → MatrixWord (.mldt o) s 0 8 [(12, .t o.d { data := BitVec.ofNat _ (memRead s.me.ls a.toNat 4096) })]) ∧
           (fits a 1024 → MatrixWord (.mlds o) s 0 2 [(6, .tSide o.d (BitVec.ofNat _ (memRead s.me.ls a.toNat 1024)))]) ∧
           (a % 64 ≠ 0 → Traps (.mldt o) s (cause 0 2 3) ∧ Traps (.mlds o) s (cause 0 2 3)) ∧
           (a % 64 = 0 → ¬ inside a 4096 → Traps (.mldt o) s (cause 0 2 2)) ∧
           (a % 64 = 0 → ¬ inside a 1024 → Traps (.mlds o) s (cause 0 2 2))) ∧
         (s.me.tIsEmpty o.d = false → Stalls (.mldt o) s (cause 2 2 2) ∧ Stalls (.mlds o) s (cause 2 2 2)) ∧
         (o.d.toNat < 4 → s.me.aIsEmpty ac = true → fits a 8192 → MatrixWord (.mlda o) s 0 16
           [(20, .a ac { data := BitVec.ofNat _ (memRead s.me.ls a.toNat 8192), int := some s.entryInt })])) ∧
       (4 ≤ o.d.toNat → Traps (.mlda o) s (cause 0 2 2)) ∧
       (s.me.tIsFull m.d = true → fits b 4096 → MatrixWord (.mstt m) s 0 8 [(8, .bytes b.toNat (toBytes 4096 (tile m.d).toNat))]) ∧
       (s.me.tIsFull m.d = false → Stalls (.mstt m) s (cause 2 2 0)) ∧
       (m.d.toNat < 4 → s.me.aCanTake mc = true → fits b 8192 → MatrixWord (.msta m) s 0 16
         [(1, .aEmpty mc), (16, .bytes b.toNat (toBytes 8192 (vGet mc s.me.aregs).data.toNat))]) ∧
       (s.me.aIsEmpty ad = true → tb = 0 → MatrixWord (.mzero ad ta tb) s 2 1 [(2, .a ad { data := 0, int := some s.entryInt })]) ∧
       (tb ≠ 0 → Traps (.mzero ad ta tb) s (cause 0 2 2)) ∧
       (s.me.tCanTake ta = true → MatrixWord (.mzeroRelease ta) s 2 1 [(1, .tEmpty ta)]) ∧
       (ta = tb → Traps (.mband ta tb) s (cause 0 2 2) ∧ Traps (.mtrn ta tb) s (cause 0 2 2)) ∧
       (ta ≠ tb → s.me.tIsFull tb = true → s.me.tIsEmpty ta = true →
         MatrixWord (.mband ta tb) s 2 1 [(2, .tBand ta ((tile tb).extractLsb' 0 16))]) ∧
       (∀ t, entryType s.entry = some t → t.isBlock = false → t.width = 8 ∨ t.width = 16 → ta ≠ tb → s.me.tCanTake ta = true →
         s.me.tIsEmpty tb = true → ∃ x, MatrixWord (.mtrn ta tb) s 1 8 [(1, .tEmpty ta), (12, .t tb { data := x })] ∧
           (t.width = 8 → ∀ r c, r < 64 → c < 64 → elemAt x 8 (64 * r + c) = elemAt (tile ta) 8 (64 * c + r)) ∧
           (t.width = 16 → ∀ h r c, h = 0 ∨ h = 32 → r < 32 → c < 32 →
             elemAt x 16 (32 * (h + r) + c) = elemAt (tile ta) 16 (32 * (h + c) + r))) ∧
       (∀ (k : Core) (r : BitVec 4) (x : Tile), vGet r (k.land (.t r x)).tregs =
         { x with side := (vGet r k.tregs).side, band := (vGet r k.tregs).band } ∧ vGet r (k.land (.t r x)).tfull = true)) ∧
  (∀ (s : State) (o : MOutOp) (qd : BitVec 5) (t : ElemType) (int : Bool),
     s.cur.st = .matrix → s.me.aBad = [] → vAt s.me.mbusy 2 ≤ s.cyc → ElemType.ofCode o.tb.toNat = some t →
       let w := t.width
       let e := 512 / w
       let two := w = 32
       let legal := t ∈ [ElemType.fp32, .bf16, .fp16, .e4m3, .e5m2, .int8, .int32] ∧ (two → o.ta.toNat % 2 = 0)
       let acc := vGet o.ad s.me.aregs
       let el := fun (n : Nat) => elemAt acc.data 32 n
       let conv := fun (i j : Nat) =>
         convert (if int then .int32 else .fp32) t (s.rmode o.rm (64 * i + j)) (o.sat == 1) (el (64 * i + j))
       let occ := if two then 8 else 4
       let isTile := fun (n : Nat) (x : Tile) => ∀ r c, r < 64 → c < e → elemAt x.data w (e * r + c) =
         if w = 8 then (if r < 32 then conv r c else 0) else conv (r % 32) (32 * n + e * (r / 32) + c)
       let lands := fun (i : Instr) (q : List (Nat × Eff)) =>
         if two then ∃ x y, MatrixWord i s 2 occ ([(1, .aEmpty o.ad), (12, .t o.ta x), (12, .t (o.ta + 1) y)] ++ q) ∧ isTile 0 x ∧ isTile 1 y
         else ∃ x, MatrixWord i s 2 occ ([(1, .aEmpty o.ad), (12, .t o.ta x)] ++ q) ∧ isTile 0 x
       let all := (List.range 2048).map el
       let counts := fun (i : Nat) =>
         let mode := s.rmode o.rm i
         match (if int then Machine.Num.ofInt (ElemType.int32.asInt (el i)) else fp32F.decode (el i)) with
         | .nan => False
         | .inf _ => t.isInt = true ∨ o.sat = 1
         | .fin neg m e x =>
           if t.isInt then
             let k : Int := if int then ElemType.int32.asInt (el i) else (if neg then -1 else 1) * (roundUnit mode neg m e 0 x : Int)
             k < t.intRange.1 ∨ t.intRange.2 < k
           else
             let u := t.ffmt.unit m e
             (t.ffmt.maxM : Rat) * 2 ^ t.ffmt.maxE < (roundUnit mode neg m e u x : Rat) * 2 ^ u
       (legal → acc.int = some int → o.rm.toNat < 6 → (int = true → t.isInt = true → o.rm = 0) → s.me.aCanTake o.ad = true →
         s.me.tIsEmpty o.ta = true → (two → s.me.tIsEmpty (o.ta + 1) = true) →
         lands (.mout o) [] ∧
         (s.me.qIsEmpty qd = true → ∃ top n, lands (.moutq o qd) [(12, .q qd (BitVec.ofNat 64 (top + 2 ^ 32 * n)))] ∧
           (∃ l : List Nat, l.Nodup ∧ (∀ i, i ∈ l ↔ i < 2048 ∧ counts i) ∧ n = l.length) ∧
           (int = true → (∀ b ∈ all, (ElemType.int32.asInt b).natAbs ≤ top) ∧ ∃ b ∈ all, (ElemType.int32.asInt b).natAbs = top) ∧
           (int = false → (∃ b ∈ all, fp32F.decode b = .nan) → top = 0x7FC00000) ∧
           (int = false → (∀ b ∈ all, fp32F.decode b ≠ .nan) → (∀ b ∈ all, b % 2 ^ 31 ≤ top) ∧ ∃ b ∈ all, b % 2 ^ 31 = top)) ∧
         (s.me.qIsEmpty qd = false → Stalls (.moutq o qd) s (cause 2 2 2))) ∧
       (¬ legal → Traps (.mout o) s (cause 0 2 2) ∧ Traps (.moutq o qd) s (cause 0 2 2)) ∧
       (legal → s.me.aCanTake o.ad = false → Stalls (.mout o) s (cause 2 2 0)))

/-- 07 R219-R221, R223, R226, R227, 04 R108, R109, R111, R123-R125: MMA and MMAR. Every element of a row below the valid count takes its groups of 32 products
in increasing order: each group is summed exactly, rounded to FP32 and added; an integer group is added exactly, and wraps or clamps once. An element of
a block type is worth its scale, from its tile's sidecar, times its code, and of FB4 its tile's band as well. MMAR computes the elements whose row and
column lie in one segment, and gives every other element of a valid row its mask value. An accumulator that another word than MMA or MMAR has pending is
operand empty (the model's choice, notes/assumptions/59.md). -/
def Obligations.MatrixProducts : Prop := BlockValues ∧ ∀ (s : State) (o : MMaOp) (r : MMarOp) (t : ElemType),
  s.cur.st = .matrix → s.me.tBad = [] → s.me.aBad = [] → vAt s.me.mbusy 1 ≤ s.cyc → entryType s.entry = some t → isMma t = true →
    let w := t.width
    let e := 512 / w
    let tile := fun (n : BitVec 4) => vGet n s.me.tregs
    let raw := fun (x : Tile) (row c : Nat) => elemAt x.data w (e * row + c)
    let scale := fun (x : Tile) (row c : Nat) => elemAt (x.side.getD 0) 8 (if t = .fb4 then 16 * row + c / 8 else if t = .mxfp4 then 4 * row + c / 32
      else 2 * row + c / 32)
    let val := fun (x : Tile) (row c : Nat) =>
      if t.isBlock then blockVal t (bf16F.decode (x.band.getD 0).toNat) (scale x row c) (raw x row c) else t.value (raw x row c)
    let old := fun (ad : BitVec 2) (n : Nat) => elemAt (((s.me.accNow ad).map (·.data)).getD 0) 32 n
    let product := fun (ta tb : BitVec 4) (sat : Bool) (i j acc : Nat) =>
      let a := fun (k : Nat) => if k < e then val (tile ta) i k else val (tile ta) (32 + i) (k - e)
      let b := fun (k : Nat) => if k < e then val (tile tb) j k else val (tile (tb + 1)) j (k - e)
      let ai := fun (k : Nat) => if k < e then t.asInt (raw (tile ta) i k) else t.asInt (raw (tile ta) (32 + i) (k - e))
      let bi := fun (k : Nat) => if k < e then t.asInt (raw (tile tb) j k) else t.asInt (raw (tile (tb + 1)) j (k - e))
      (List.range (2 * e / 32)).foldl (fun acc g =>
        let ks := (List.range 32).map (32 * g + ·)
        if t.isInt then ElemType.int32.narrow sat (ElemType.int32.asInt acc + (ks.map fun k => ai k * bi k).sum)
        else
          let sum := ks.foldl (fun x k => x.add false ((a k).mul (b k))) (.fin false 0 0 false)
          fp32F.round .rne sat ((fp32F.decode acc).add false (fp32F.decode (fp32F.round .rne sat sum)))) acc
    let ready := fun (ad : BitVec 2) (ta tb : BitVec 4) (rm : BitVec 3) => tb.toNat % 2 = 0 ∧ rm.toNat < 6 ∧
      s.me.tIsFull ta = true ∧ s.me.tIsFull tb = true ∧ s.me.tIsFull (tb + 1) = true ∧
      (∀ f ∈ s.me.flights, f.eff.writesA ad = true → f.due + 1 = f.issued + 72) ∧
      ∀ x, s.me.accNow ad = some x → x.int = some s.entryInt
    let vc := s.mine.vc.toNat
    (ready o.ad o.ta o.tb o.rm → ∃ x, MatrixWord (.mma o) s 1 64 [(72, .a o.ad { data := x, int := some s.entryInt })] ∧
      ∀ i j, i < 32 → j < 64 → elemAt x 32 (64 * i + j) =
        if i < vc then product o.ta o.tb (o.sat == 1) i j (old o.ad (64 * i + j)) else old o.ad (64 * i + j)) ∧
    (∀ ga gb, ready r.ad r.ta r.tb r.rm → r.mv ≠ 3 → (r.mv = 0 → s.entryInt = false) →
      s.me.shape? r.za.toNat = some ga → s.me.shape? r.zb.toNat = some gb →
      ∃ u x, exec (.mmar r) s = .next u ∧ s.Alone u ∧ s.Passed u ∧ vAt u.me.mbusy 1 = s.cyc + 64 ∧
        u.me.flights = s.me.flights ++ [s.flight 72 (.a r.ad { data := x, int := some s.entryInt })] ++ s.loopEffs.map (s.flight 1) ∧
        ∀ i j, i < 32 → j < 64 →
          let oi := s.origin r.za.toNat + i
          let oj := s.origin r.zb.toNat + j
          let was := old r.ad (64 * i + j)
          elemAt x 32 (64 * i + j) =
            if ¬ (oi < ga.rows ∧ oi < vc) then was
            else if oj < gb.rows ∧ ga.segOf oi = gb.segOf oj then product r.ta r.tb (r.sat == 1) i j was
            else if r.mv = 0 then 0xFF800000 else if r.mv = 1 then 0 else was) ∧
    (o.tb.toNat % 2 = 1 → Traps (.mma o) s (cause 0 2 2)) ∧
    (o.tb.toNat % 2 = 0 → s.me.tIsFull o.ta = false → Stalls (.mma o) s (cause 2 2 0)) ∧
    (o.tb.toNat % 2 = 0 → s.me.tIsFull o.ta = true → s.me.tIsFull o.tb = true → s.me.tIsFull (o.tb + 1) = true →
      (∃ f ∈ s.me.flights, f.eff.writesA o.ad = true ∧ f.due + 1 ≠ f.issued + 72) → Stalls (.mma o) s (cause 2 2 0))

/-- 08 R239-R244, R253-R257, 11 R353-R356: the copy commands with a record, on a ready channel and register. A command whose record passes its checks
takes the next identifier of its channel and holds the rows that its record gives, the sources and destinations in the loop order of R244; a
misaligned record raises alignment, one outside the store operand range, one in a poisoned sector the local store uncorrectable error (the model's
reading of 13 R390, notes/assumptions/20.md), and a 65th command of a channel stalls. A virtual destination that breaks the core's own bond table is
found at the issue, and CBIN keeps the table of its issue for its rows. What a box may hold is `Box.reserved` and `Box.outOfRange`, a collective `CollRec.reserved` and
`CollRec.outOfRange`. -/
def Obligations.CopyCommands : Prop := ∀ (s : State) (o : CRecOp) (zr nt : BitVec 1) (zs : BitVec 3),
  s.cur.st = .copy →
    let v := if o.kg = 0 then s.me.sreg .copy o.rg else vGet (o.rg.setWidth 5) s.me.qregs
    let a := v.toNat
    let r := memBytes s.me.ls a 64
    let num := fun (at_ n : Nat) => ofBytes ((r.drop at_).take n)
    let sgn := fun (at_ : Nat) => (BitVec.ofNat 32 (num at_ 4)).toInt
    let index := fun (at_ i : Nat) => (BitVec.ofNat 32 (memRead s.me.ls (at_ + 4 * i) 4)).toInt
    let virt := fun (x : Int) => (x % 2 ^ 64).toNat
    let b := boxOf r
    let nd := num 16 4 / 64 % 4
    let e := fun (d : Nat) => if d ≤ nd then num (24 + 4 * d) 4 else 1
    let far := fun (kind n : Nat) (x : Int) => if kind = 2 then virt x else if kind = 3 then n * e 0 else x.toNat
    let row := fun (i1 i2 i3 : Nat) =>
      let n := (i3 * e 2 + i2) * e 1 + i1
      ({ src := far (num 16 4 % 8) n (num 0 8 + i1 * sgn 40 + i2 * sgn 44 + i3 * sgn 48)
         dst := far (num 16 4 / 8 % 8) n (num 8 8 + i1 * sgn 52 + i2 * sgn 56 + i3 * sgn 60), len := e 0 } : Span)
    let boxOk := b.reserved r = false ∧ b.outOfRange (zr == 1) s.inLaunch = false
    let some_ := e 0 * e 1 * e 2 * e 3 ≠ 0
    let tilesOk := (num 16 4 % 8 = 3 → s.me.tIsFull (BitVec.ofNat 4 (num 0 8)) = true ∧ num 0 8 % 16 ∉ s.me.tBad) ∧
      (num 16 4 / 8 % 8 = 3 → s.me.tIsEmpty (BitVec.ofNat 4 (num 8 8)) = true)
    let clear := fun (k : CopyCmd) (ws : List (Nat × Nat)) => ((∀ w ∈ ws, w.2 ≠ 0 → ¬ Breaks s.me.bonds w.1 w.2) → k.fault = none) ∧
      ((∃ w ∈ ws, w.2 ≠ 0 ∧ Breaks s.me.bonds w.1 w.2) → ∃ f, k.fault = some f ∧ f.code = cause 1 (if k.kind = .nmc then 7 else 4) 4)
    let isBox := fun (k : CopyCmd) => k.record = r ∧ k.recAddr = a ∧ k.sk = num 16 4 % 8 ∧ k.dk = num 16 4 / 8 % 8 ∧ k.nt = (nt == 1) ∧
      (k.zero = true ↔ ¬ some_) ∧ s.cyc < k.xlatAt ∧ (num 16 4 / 8 % 8 ≠ 2 → k.fault = none)
    let words := [Instr.cpy o zr nt, .cgath o nt, .cscat o nt, .cbin o nt, .cnmc o, .ccoll o]
    (s.CopyReady o → (a % 64 ≠ 0 → ∀ i ∈ words, Traps i s (cause 0 3 3)) ∧
      (a % 64 = 0 → 0x400000 ≤ a → ∀ i ∈ words, Traps i s (cause 0 3 2)) ∧
      (a % 64 = 0 → a < 0x400000 → (∃ q ∈ s.me.lsPoison, 32 * q < a + 64 ∧ a < 32 * q + 32) → ∀ i ∈ words, Traps i s (cause 5 0 1)) ∧
      (a % 64 = 0 → a < 0x400000 → s.me.lsPoison = [] →
        (b.reserved r = true → Traps (.cpy o zr nt) s (cause 0 3 1)) ∧
        (b.reserved r = false → b.outOfRange (zr == 1) s.inLaunch = true → Traps (.cpy o zr nt) s (cause 0 3 2)) ∧
        (boxOk → (some_ → tilesOk) → Copies (.cpy o zr nt) s o fun k => k.kind = .box ∧ isBox k ∧
          (some_ → ∀ i1 i2 i3, i1 < e 1 → i2 < e 2 → i3 < e 3 → k.spans[(i3 * e 2 + i2) * e 1 + i1]? = some (row i1 i2 i3)) ∧
          (k.spans.length = if some_ then e 1 * e 2 * e 3 else 0) ∧
          (num 16 4 / 8 % 8 = 2 → clear k (k.spans.map fun x => (x.dst, x.len))) ∧
          (k.virt = true ↔ some_ ∧ (num 16 4 % 8 = 2 ∨ num 16 4 / 8 % 8 = 2))) ∧
        (∀ g w, boxOk → (some_ → tilesOk) → s.me.shape? zs.toNat = some g → ElemType.ofCode g.etype = some w →
          8 * e 0 = g.cols * w.width → (g.fault = false ∨ g.straddles s.mine.vc.toNat (s.origin zs.toNat) (e 1) = false) →
          Copies (.cpyr o zr nt zs) s o fun k => k.kind = .ragged ∧ isBox k ∧
            (∀ x, x ∈ k.spans ↔ some_ ∧ ∃ i1 i2 i3, i1 < e 1 ∧ i2 < e 2 ∧ i3 < e 3 ∧ x = row i1 i2 i3 ∧
              g.validClip s.mine.vc.toNat (s.origin zs.toNat) (e 1) i1 = true) ∧
            (num 16 4 / 8 % 8 = 2 → clear k (k.spans.map fun x => (x.dst, x.len)))) ∧
        (let n := num 16 4
         let at_ := fun (i : Nat) => virt (num 0 8 + index (num 12 4) i * sgn 24)
         (∀ x ∈ r.drop 28, x = 0) → num 8 4 < 2 ^ 22 → num 12 4 % 4 = 0 → n ≤ 65535 → 1 ≤ num 20 4 → num 20 4 ≤ 65536 →
         (n ≠ 0 → num 8 4 + n * num 20 4 ≤ 0x400000 ∧ num 12 4 + 4 * n ≤ 0x400000 ∧
           (blocksIn ((List.range n).map fun i => (at_ i, num 20 4))).length ≤ 1024) →
          Copies (.cgath o nt) s o (fun k => k.kind = .gath ∧ k.sk = 2 ∧ k.dk = 0 ∧ k.spans.length = n ∧
            k.record = r ∧ k.recAddr = a ∧ k.nt = (nt == 1) ∧ (k.zero = true ↔ n = 0) ∧ k.fault = none ∧ s.cyc < k.xlatAt ∧
            ∀ i, i < n → k.spans[i]? = some ⟨at_ i, num 8 4 + i * num 20 4, num 20 4⟩) ∧
          Copies (.cscat o nt) s o (fun k => k.kind = .scat ∧ k.sk = 0 ∧ k.dk = 2 ∧ k.spans.length = n ∧
            k.record = r ∧ k.recAddr = a ∧ k.nt = (nt == 1) ∧ (k.zero = true ↔ n = 0) ∧ s.cyc < k.xlatAt ∧
            clear k (k.spans.map fun x => (x.dst, x.len)) ∧
            ∀ i, i < n → k.spans[i]? = some ⟨num 8 4 + i * num 20 4, at_ i, num 20 4⟩)) ∧
        (let n := num 8 4
         (∀ x ∈ r.drop 28, x = 0) → num 4 4 % 4 = 0 → n ≤ 65535 → 1 ≤ num 12 4 → num 12 4 ≤ 65536 →
         num 16 8 % 32 = 0 → 1 ≤ num 24 4 → num 24 4 ≤ 4096 → (n ≠ 0 → num 0 4 + n * num 12 4 ≤ 0x400000 ∧ num 4 4 + 4 * n ≤ 0x400000) →
          Copies (.cbin o nt) s o fun k => k.kind = .bin ∧ k.record = r ∧ k.recAddr = a ∧ k.nt = (nt == 1) ∧
            k.idx = (List.range n).map (index (num 4 4)) ∧ k.bonds = s.me.bonds ∧ (k.zero = true ↔ n = 0) ∧ s.cyc < k.xlatAt) ∧
        (let junk := num 2 2 ≠ 0 ∨ (∃ x ∈ (r.drop 36).take 12, x ≠ 0) ∨ (∃ x ∈ (r.drop 56).take 8, x ≠ 0) ∨ (num 0 1 = 4 ∧ num 8 8 ≠ 0)
         let legal := 1 ≤ num 0 1 ∧ num 0 1 ≤ 5 ∧ num 1 1 ∈ [0, 2, 4] ∧ ¬ (num 0 1 = 1 ∧ num 1 1 = 4) ∧ num 8 8 % 64 = 0 ∧
           num 16 8 % 64 = 0 ∧ num 4 4 ≤ 0x4000000
         (junk → Traps (.cnmc o) s (cause 0 7 1)) ∧ (¬ junk → ¬ legal → Traps (.cnmc o) s (cause 0 7 2)) ∧
          (¬ junk → legal → Copies (.cnmc o) s o fun k => k.kind = .nmc ∧ k.record = r ∧ k.recAddr = a ∧ (k.zero = true ↔ num 4 4 = 0) ∧
            s.cyc < k.xlatAt ∧ clear k [(num 16 8, num 4 4 * if num 1 1 = 2 ∧ num 0 1 ≠ 1 ∧ num 0 1 ≠ 3 then 2 else 4)])) ∧
        (let team := (s.launchOf s.cur.core).bind fun l => l.team s.cur.core (num 2 1)
         (collOf r).reserved = false → (collOf r).outOfRange team = false →
          Copies (.ccoll o) s o fun k => k.kind = .coll ∧ k.record = r ∧ k.recAddr = a ∧ s.cyc < k.xlatAt ∧
            clear k [((collOf r).dst, (collOf r).shardLen (collOf r).dstl ((collOf r).axes (team.getD (0, 0, 1, 1))))])) ∧
      (let junk := a / 2 ^ 22 % 2 ^ 10 ≠ 0 ∨ a / 2 ^ 49 ≠ 0
       let n := a / 2 ^ 40 % 2 ^ 9
       let first := a / 2 ^ 32 % 2 ^ 8
       let src := a % 2 ^ 22
       (src % 4 ≠ 0 → Traps (.cconst o) s (cause 0 3 3)) ∧
       (src % 4 = 0 → junk ∨ n = 0 ∨ 256 < first + n ∨ 0x400000 < src + 4 * n → Traps (.cconst o) s (cause 0 3 2)) ∧
       (src % 4 = 0 → ¬ junk → n ≠ 0 → first + n ≤ 256 → src + 4 * n ≤ 0x400000 →
        Copies (.cconst o) s o fun k => k.kind = .const ∧ k.spans = [⟨src, first, n⟩]))) ∧
    ((o.kg = 1 → o.rg.toNat < 32) → (o.idq = 0 ∨ 32 ≤ o.idq.toNat) → (o.kg = 1 → s.me.qCanTake (o.rg.setWidth 5) = true) →
      (o.idq ≠ 0 → s.me.qIsEmpty (o.idq.setWidth 5) = true) → 64 ≤ s.me.onChannel o.ch.toNat →
      ∀ i ∈ words ++ [.cconst o], Stalls i s (cause 2 3 2))

/-- 08 R250, R251, 10 R313-R317, R327, R332: CSEND and CRECVB, which a handle holds as well as their channel, and CWAIT and CFENCE. A CSEND is accepted on
a live handle of its context whose source landing is on its tile, toward a fibre landing only where it leaves in the hour's program portion; a binding
on a handle with fewer than four in its queue (which queue is the model's choice, notes/assumptions/33.md); a send on a handle that is free, windowed,
draining or lost stops the core with send without live crossing, naming the handle, and is an event of the landing's tile. CWAIT waits for its
channel's completed identifier, and CFENCE holds back the later commands. -/
def Obligations.CopySends : Prop := ∀ (s : State) (o : CRecOp) (zr nt : BitVec 1) (hd : BitVec 6) (ch : BitVec 2) (kg : BitVec 1) (rg : BitVec 6),
  s.cur.st = .copy →
    let v := fun (kg : BitVec 1) (rg : BitVec 6) => if kg = 0 then s.me.sreg .copy rg else vGet (rg.setWidth 5) s.me.qregs
    let a := (v o.kg o.rg).toNat
    let r := memBytes s.me.ls a 64
    let num := fun (at_ n : Nat) => ofBytes ((r.drop at_).take n)
    let b := boxOf r
    let h := hd.toNat
    let x := s.handle h
    let ctx := s.ctxOf s.cur.core
    let tile := tileOf s.cur.core
    let others := fun (t : State) => t = { s with cores := t.cores, freeCtr := t.freeCtr, handles := t.handles } ∧
      ∀ j, j < 64 → j ≠ h → t.handle j = s.handle j
    let record := s.CopyReady o ∧ a % 64 = 0 ∧ a < 0x400000 ∧ s.me.lsPoison = []
    let sendOk := sendReserved b r = false ∧ b.sendRange (zr == 1) = false ∧ x.owner = some ctx ∧ s.holdsXing = true
    let here := isFibre x.src = false ∧ landingTile x.src = tile
    let count := ((s.launchOf s.cur.core).map (·.count)).getD 0
    let sent := s.sendCopy o a h (nt == 1)
    let inTime := (∀ l ∈ x.dsts, isFibre l = false) ∨
      (s.inProgram = true ∧ s.fitsHour count (s.me.sendStart sent count (s.freeOf x count) + sendCycles sent.granules) = true)
    let tileOk := b.isZero = false → b.sk = 3 → s.me.tIsFull (BitVec.ofNat 4 b.src) = true ∧ b.src % 16 ∉ s.me.tBad
    let refused := fun (code : Nat) => ∃ t, exec (.csend o zr nt hd) s = .next t ∧ (∀ c, c ≠ s.cur.core → t.core c = s.core c) ∧
      t = { s with cores := t.cores, events := s.events ++ [(16, code, x.src, 0)] } ∧
      t.me = { s.me with raised := s.me.raised ++ [{ s.info code with engine := 4, unit := h, ofWord := true }] }
    (record → sendOk → here → x.st = .live → inTime → tileOk →
      ∃ t k, exec (.csend o zr nt hd) s = .next t ∧ s.Takes t o k ∧ others t ∧ k.kind = .send ∧ k.record = r ∧ k.handle = h ∧
        k.left = x.dsts ∧ k.nt = (nt == 1) ∧ t.handle h = { x with sends := x.sends ++ [(s.cur.core, k.id)] }) ∧
    (record → sendOk → x.st = .free → refused (cause 3 7 6)) ∧
    (record → sendOk → here → x.st = .windowed ∨ x.st = .draining ∨ x.st = .lost → refused (cause 3 7 6)) ∧
    (record → sendOk → here → x.st = .live → ¬ inTime → refused (cause 3 7 7)) ∧
    (record → sendOk → x.st ≠ .free → ¬ here → Traps (.csend o zr nt hd) s (cause 0 3 2)) ∧
    (let dk := num 8 4
     let peerOk := dk = 1 → ∃ c, coreOfWord (num 12 4) = some c ∧ s.inLaunch c = true ∧ tileOf c = tile
     record → (∀ y ∈ r.drop 25, y = 0) → dk < 4 → num 12 4 < 8192 → num 12 4 / 64 % 4 = 0 → (dk < 2 → num 0 8 + num 16 4 ≤ 0x400000) →
      (dk = 3 → num 0 8 < 16 ∧ num 16 4 = 4096 ∧ (num 20 4 ≠ 0 → s.me.tIsEmpty (BitVec.ofNat 4 (num 0 8)) = true)) →
      1 ≤ num 16 4 → num 16 4 ≤ 0x1000000 → num 20 4 ≤ num 16 4 → peerOk →
      (dk = 2 → (blocksOf (num 0 8) (num 16 4)).length ≤ 1024) → x.owner = some ctx → s.holdsXing = true →
      (x.st = .free ∨ (∃ l ∈ x.dsts, isFibre l = false ∧ landingTile l = tile) →
        (num 20 4 ≠ 0 → s.queued h tile < 4) →
        ∃ t k, exec (.crecvb o hd) s = .next t ∧ s.Takes t o k ∧ others t ∧ k.kind = .recv ∧ k.record = r ∧ k.handle = h ∧
          (k.zero = true ↔ num 20 4 = 0) ∧
          t.handle h = if num 20 4 = 0 then x else { x with bindings := x.bindings ++ [(s.cur.core, k.id)] }) ∧
      (x.st ≠ .free → (∀ l ∈ x.dsts, isFibre l = true ∨ landingTile l ≠ tile) → Traps (.crecvb o hd) s (cause 0 3 2))) ∧
    (kg = 1 → 32 ≤ rg.toNat → Traps (.cwait ch kg rg) s (cause 0 3 2)) ∧
    (kg = 0 ∨ (rg.toNat < 32 ∧ s.me.qCanTake (rg.setWidth 5) = true) →
      let id := (v kg rg).toNat
      let reached := id % 2 ^ 48 ≤ vAt s.me.chst ch.toNat
      (reached → 2 ^ 48 ≤ id → Traps (.cwait ch kg rg) s (cause 0 3 2)) ∧
      (reached → id < 2 ^ 48 → Gives (.cwait ch kg rg) s (if kg = 1 then [(1, .qEmpty (rg.setWidth 5))] else [])) ∧
      (¬ reached → Stalls (.cwait ch kg rg) s (cause 2 3 0))) ∧
    (∃ t, exec .cfence s = .next t ∧ s.Alone t ∧ s.Passed t ∧ t.me.cfences = s.me.cfences + 1 ∧ t.me.copies = s.me.copies ∧
      s.me.SameFiles t.me ∧ t.me.flights = s.me.flights ++ s.loopEffs.map (s.flight 1))

/-- 05 R163-R170, 06 R180, 02 R61, R37: the stream-control words, and NOP on every stream of a core; a word that no decoding of R68 takes has no effect
but its trap, with unassigned opcode or reserved bits. LOOP and LOOPS begin a loop at the next word, or pass its
body when the count is 0, and LOOPS writes its stage predicates; END ends the stream; SETVC sets the valid count; FMTLD lands the format table. -/
def Obligations.StreamControl : Prop := ∀ (s : State) (lv : BitVec 1) (n : Count) (len : BitVec 9) (stg : BitVec 3) (ps : PReg) (zs : BitVec 3)
    (sb : SReg),
  s.cur.st ≠ .crossing → (s.cur.st = .vector → s.me.vbusy ≤ s.cyc) →
    let st := s.cur.st
    let x := s.mine
    let y := x.passed s.cur.pos s.cyc
    let count := match n with | .imm k => k.toNat | .reg r => (s.me.sreg st r).toNat
    let last := x.pc + BitVec.ofNat 64 (8 * len.toNat)
    let goes := fun (i : Instr) (next : StreamSt) (effs : List Eff) => ∃ t, exec i s = .next t ∧ s.Alone t ∧ t.mine = next ∧
      (∀ d, d ≠ st → t.me.stream d = s.me.stream d) ∧ s.me.SameFiles t.me ∧ t.me.flights = s.me.flights ++ effs.map (s.flight 1)
    let enters := fun (trips : Nat) (stages : Option (PReg × Nat × Nat)) =>
      { y with pc := x.pc + 8, lc0 := if lv = 0 then 0 else y.lc0, lc1 := if lv = 0 then y.lc1 else 0
               loops := ⟨lv, x.pc + 8, last, 0, trips, stages⟩ :: x.loops }
    let nests := ∃ top rest, x.loops = top :: rest ∧ (lv = 1 ∨ top.lv = 0 ∨ top.last.toNat < last.toNat)
    let k := stg.toNat + 1
    let p := ps.toNat
    let shares := ∃ d ∈ [Stream.vector, .matrix, .copy], d ≠ st ∧ (s.me.stream d).ended = false ∧ ∃ l ∈ (s.me.stream d).loops, ∃ q m t, l.stages = some (q, m, t) ∧
      p < q.toNat + m ∧ q.toNat < p + k
    let both := [Instr.loop lv n len, .loops lv n len stg ps]
    let stages := fun (f : Nat → Bool) => (List.range k).map fun j => Eff.p (ps + BitVec.ofNat 7 j) (f j)
    Gives .nop s [] ∧
    (s.on.flag = false → Traps .unassignedOpcode s (cause0 st 0)) ∧ (s.on.flag = true → Traps .unassignedOpcode s (cause0 st 1)) ∧
    (st ≠ .helm →
      (2 ^ 32 ≤ count ∨ len = 0 → ∀ i ∈ both, Traps i s (cause0 st 2)) ∧
      (count < 2 ^ 32 → len ≠ 0 →
        (nests → Traps (.loop lv n len) s (cause2 st 7)) ∧
        (¬ nests → count ≠ 0 → goes (.loop lv n len) (enters count none) []) ∧
        (x.loops = [] → count = 0 → goes (.loop lv n len) { y with pc := last + 8, loops := [] } []) ∧
        (p = 0 ∨ 127 < p + stg.toNat → Traps (.loops lv n len stg ps) s (cause0 st 2)) ∧
        (1 ≤ p → p + stg.toNat ≤ 127 →
          (nests ∨ shares → Traps (.loops lv n len stg ps) s (cause2 st 7)) ∧
          (¬ nests → ¬ shares → count ≠ 0 →
            goes (.loops lv n len stg ps) (enters (count + stg.toNat) (some (ps, k, count))) (stages fun j => j == 0)) ∧
          (x.loops = [] → ¬ shares → count = 0 → goes (.loops lv n len stg ps) { y with pc := last + 8, loops := [] } (stages fun _ => false)))) ∧
      goes .endStream { s.nextStream with ended := true } s.loopEffs ∧
      (count < 2 ^ 32 → goes (.setvc (.count n)) { s.nextStream with vc := BitVec.ofNat 32 count } s.loopEffs) ∧
      (2 ^ 32 ≤ count → Traps (.setvc (.count n)) s (cause0 st 2)) ∧
      (∀ g, s.me.shape? zs.toNat = some g → goes (.setvc (.shape zs)) { s.nextStream with vc := BitVec.ofNat 32 g.rows } s.loopEffs) ∧
      (s.me.shape? zs.toNat = none → Traps (.setvc (.shape zs)) s (cause0 st 2)) ∧
      (let a := (s.me.sreg st sb).toNat
       let entry := fun (j : Nat) => memRead s.me.ls (a + 4 * j) 4
       let reserved := ∃ j, j < 16 ∧ (1024 ≤ entry j ∨ 5 ≤ entry j / 64 % 8)
       let bad := ∃ j, j < 16 ∧ (entry j % 16 = 15 ∨
         entry j / 16 % 4 ≠ if entry j % 16 = 11 then 1 else if 12 ≤ entry j % 16 then 2 else 0)
       (s.me.inPhase = true → Traps (.fmtld sb) s (cause0 st 2)) ∧
       (s.me.inPhase = false → a % 64 ≠ 0 → Traps (.fmtld sb) s (cause0 st 3)) ∧
       (s.me.inPhase = false → a % 64 = 0 → 0x400000 ≤ a → Traps (.fmtld sb) s (cause0 st 2)) ∧
       (s.me.inPhase = false → a % 64 = 0 → a < 0x400000 → s.me.lsPoison = [] →
         (reserved → Traps (.fmtld sb) s (cause0 st 1)) ∧ (¬ reserved → bad → Traps (.fmtld sb) s (cause0 st 2)) ∧
         (¬ reserved → ¬ bad → Gives (.fmtld sb) s [(4, .fmt ((List.range 16).map fun j => BitVec.ofNat 32 (entry j)))]))))

/-- 10 R296-R298, R303, R304, R309, R310, R312, R316: the words that establish, end and mark crossings, of the program of a launch of context `ctx`. XEST
and XESTM make a free handle settling for 1,536 cycles from its landings, whose flits count from 0 again (R320); XDROP frees a handle and drops the bindings that wait on it, or drains it where
sends are still to complete; XWIN gives it to the collective engine, XRELAY marks it, and XRETRAIN begins a bring-up. That a dropped binding's command
leaves its core's list with it is the model's (notes/assumptions/34.md). A word that is no instruction faults (R299). -/
def Obligations.CrossingHandles : Prop := ∀ (s : State) (l : Launch) (hd : BitVec 6) (sl dl pk : BitVec 8) (nd : BitVec 3) (list : BitVec 20)
    (fl : BitVec 2) (len : BitVec 31) (w : Word),
  s.cur.st = .crossing → s.launch? s.cur.core = some l → l.xing ≠ none →
    let h := hd.toNat
    let x := s.handle h
    let mine := x.owner = some l.ctx
    let frame := fun (t : State) => t.landings = s.landings ∧ t.groups = s.groups ∧ ∀ j, j < 64 → j ≠ h → t.handle j = s.handle j
    let becomes := fun (i : Instr) (y : Handle) => XPasses i s s.nextStream fun t => frame t ∧ t.handle h = y
    let fibre := fun (m : Nat) => decide (128 ≤ m ∧ m ≤ 131)
    let usable := fun (m : Nat) => decide (m ≤ 131 ∧ ¬ (m < 128 ∧ m % 16 = 15))
    let ours := fun (m : Nat) => (s.landing m).owner = some l.ctx
    let ready := fun (m : Nat) => (s.landing m).failed = false ∧ (s.landing m).trained = true
    let clear := fun (src : Nat) (ds : List Nat) => x.st = .free ∧
      ∀ j, j < 64 → (s.handle j).st ≠ .free → (s.handle j).src ≠ src ∧ ∀ d ∈ ds, d ∉ (s.handle j).dsts
    let settles := fun (src : Nat) (ds : List Nat) => { x with
      st := .settling, lid := s.cur.core, src := src, dsts := ds, liveAt := s.cyc + 1536, window := none, relay := none, free := 0
      lastDone := 0, sends := [] }
    let founds := fun (i : Instr) (src : Nat) (ds : List Nat) => XPasses i s s.nextStream fun t => t.groups = s.groups ∧
      (∀ j, j < 64 → j ≠ h → t.handle j = s.handle j) ∧ t.handle h = settles src ds ∧
      ∀ m, m < 132 → t.landing m = if m = src then { s.landing m with nextFlit := 0, acked := 0, sent := 0, stored := 0, full := none }
        else if m ∈ ds then { s.landing m with expect := 0, discarding := false } else s.landing m
    let a := sl.toNat
    let b := dl.toNat
    let twoOk := usable a = true ∧ usable b = true ∧ a ≠ b ∧ ¬ (fibre a = true ∧ fibre b = true)
    let ds := (List.range (nd.toNat + 1)).map fun j => w.toNat / 2 ^ (8 * j) % 256
    let manyOk := usable a = true ∧ (∀ d ∈ ds, usable d = true ∧ fibre d = false ∧ d ≠ a) ∧ ds.Pairwise (· < ·) ∧
      ∀ j, nd.toNat < j → j < 8 → w.toNat / 2 ^ (8 * j) % 256 = 255
    let usesOne := x.st = .settling ∨ x.st = .live
    let frees := ∃ t, exec (.xdrop hd) s = .next t ∧ t.mine = s.nextStream ∧ t.mem = s.mem ∧ frame t ∧ t.handle h = { owner := x.owner } ∧
      ∀ c, t.core c = { s.core c with copies := (s.core c).copies.filter fun k => !x.bindings.contains (c, k.id) }
    (s.on.flag = false → XTraps .unassignedOpcode s (cause 0 4 0)) ∧ (s.on.flag = true → XTraps .unassignedOpcode s (cause 0 4 1)) ∧
    (¬ twoOk → XTraps (.xest hd sl dl) s (cause 0 4 2)) ∧
    (twoOk → (¬ (mine ∧ ours a ∧ ours b) → XTraps (.xest hd sl dl) s (cause 0 4 6)) ∧
      (mine → ours a → ours b →
        ((s.landing a).failed = true → XTraps (.xest hd sl dl) s (s.landing a).lastFail) ∧
        ((s.landing a).failed = false → (s.landing b).failed = true → XTraps (.xest hd sl dl) s (s.landing b).lastFail) ∧
        ((s.landing a).failed = false → (s.landing b).failed = false →
          (s.landing a).trained = false ∨ (s.landing b).trained = false → XStalls (.xest hd sl dl) s (cause 2 4 0)) ∧
        (ready a → ready b → (clear a [b] → founds (.xest hd sl dl) a [b]) ∧
          (¬ clear a [b] → XStalls (.xest hd sl dl) s (cause 2 4 2))))) ∧
    (list.toNat < s.mine.words → s.fetch s.cur.core .crossing { s.mine with pc := s.mine.base + BitVec.ofNat 64 (8 * list.toNat) } = .word w →
      (¬ manyOk → XTraps (.xestm hd sl nd list) s (cause 0 4 2)) ∧
      (manyOk → mine → (∀ d ∈ a :: ds, ours d ∧ ready d) →
        (clear a ds → founds (.xestm hd sl nd list) a ds) ∧ (¬ clear a ds → XStalls (.xestm hd sl nd list) s (cause 2 4 2)))) ∧
    (s.mine.words ≤ list.toNat → XTraps (.xestm hd sl nd list) s (cause 0 4 2)) ∧
    (mine →
      (x.st = .windowed ∨ x.st = .free ∨ x.st = .draining → XTraps (.xdrop hd) s (cause 0 4 2)) ∧
      (x.st = .settling ∨ x.st = .lost → frees) ∧
      (x.st = .live → x.sends = [] → x.lastDone = 0 ∨ x.lastDone + 64 ≤ s.cyc → frees) ∧
      (x.st = .live → x.sends ≠ [] ∨ (x.lastDone ≠ 0 ∧ s.cyc < x.lastDone + 64) → becomes (.xdrop hd) { x with st := .draining }) ∧
      (let start := max s.cyc x.liveAt
       usesOne → x.window = none → len ≠ 0 → becomes (.xwin hd len) { x with
        window := some (start, start + len.toNat), st := if x.st = .live then .windowed else .settling }) ∧
      (¬ usesOne ∨ x.window ≠ none ∨ len = 0 → XTraps (.xwin hd len) s (cause 0 4 2)) ∧
      (let legal := usesOne ∧ x.dsts ≠ [] ∧ (∀ d ∈ x.dsts, fibre d = true) ∧ pk ≠ 0 ∧ pk ≠ 255
       (legal → becomes (.xrelay hd pk fl) { x with relay := some (pk.toNat, 128 + fl.toNat) }) ∧
        (¬ legal → XTraps (.xrelay hd pk fl) s (cause 0 4 2)))) ∧
    (¬ mine → ∀ i ∈ [Instr.xdrop hd, .xwin hd len, .xrelay hd pk fl], XTraps i s (cause 0 4 6)) ∧
    (let held := ∃ j, j < 64 ∧ (s.handle j).st ∉ [HState.free, .lost] ∧ ((s.handle j).src = a ∨ a ∈ (s.handle j).dsts)
     (usable a = false → XTraps (.xretrain sl) s (cause 0 4 2)) ∧
     (usable a = true → ¬ ours a → XTraps (.xretrain sl) s (cause 0 4 6)) ∧
     (usable a = true → ours a → held → XTraps (.xretrain sl) s (cause 0 4 2)) ∧
     (usable a = true → ours a → ¬ held → XPasses (.xretrain sl) s s.nextStream fun t => t.handles = s.handles ∧
      (t.landing a).stage = some 0 ∧ (t.landing a).trained = false ∧ ∀ j, j < 132 → j ≠ a → t.landing j = s.landing j))

/-- 10 R305-R308, R311, 02 R62: the words of the crossing program that wait, loop and end, and XGROUP. XSTEP waits out its cycles and XSTEP.AT to a cycle
of the sequencer's count; XHOUR ends at once in the program portion of its hour and waits for it otherwise; XLOOP runs its body n times by its own
stack of four; XJMP goes to a word of its image; XGROUP binds its group to its home. -/
def Obligations.CrossingFlow : Prop := ∀ (s : State) (l : Launch) (n : BitVec 36) (hr : BitVec 4) (trips : BitVec 16) (off : BitVec 21)
    (far : BitVec 37) (g : BitVec 6) (pk : BitVec 8),
  s.cur.st = .crossing → s.launch? s.cur.core = some l → l.xing ≠ none →
    let x := s.mine
    let still := fun (t : State) => t.handles = s.handles ∧ t.landings = s.landings
    let same := fun (t : State) => still t ∧ t.groups = s.groups
    let ends := ({ s with cur := { s.cur with pos := s.cyc } }).nextStream
    let waits := fun (i : Instr) (d : Nat) =>
      (s.cyc < d → XPasses i s { x with wait := some ⟨.time, d, d, s.cyc, true⟩ } same) ∧ (d = s.cyc → XPasses i s { ends with wait := none } same)
    let goes := fun (i : Instr) (pc : Word) (loops : List Loop) => XPasses i s { s.nextStream with pc := pc, loops := loops } same
    let inside := fun (a : Word) => x.base.toNat ≤ a.toNat ∧ a.toNat < x.base.toNat + 8 * x.words
    waits (.xstep n) (s.cyc + n.toNat) ∧
    (s.cyc ≤ n.toNat → waits (.xstepAt n) n.toNat) ∧
    (n.toNat < s.cyc → if s.stalls then XPasses (.xstepAt n) s { ends with wait := none } same else XTraps (.xstepAt n) s (cause 2 4 3)) ∧
    (s.expired = true → XTraps (.xhour hr) s (cause 3 7 7)) ∧
    (s.expired = false → (s.inProgram = true ∧ s.hourNow = hr.toNat → XPasses (.xhour hr) s { ends with wait := none } same) ∧
      (¬ (s.inProgram = true ∧ s.hourNow = hr.toNat) →
        XPasses (.xhour hr) s { x with wait := some ⟨.hour hr.toNat, s.cyc, s.cyc, s.cyc, false⟩ } same)) ∧
    (let to_ := x.pc + BitVec.ofInt 64 (8 * off.toInt)
     let i := Instr.xloop trips off
     (trips = 0 → XTraps i s (cause 0 4 2)) ∧
     (trips ≠ 0 → 0 ≤ off.toInt ∨ ¬ inside to_ → XTraps i s (cause 0 4 4)) ∧
     (trips ≠ 0 → off.toInt < 0 → inside to_ →
      (∀ top rest, x.loops = top :: rest → top.first = x.pc →
        (1 < top.iter → goes i to_ ({ top with iter := top.iter - 1 } :: rest)) ∧ (top.iter ≤ 1 → goes i (x.pc + 8) rest)) ∧
      ((∀ top rest, x.loops = top :: rest → top.first ≠ x.pc) →
        (4 ≤ x.loops.length → XTraps i s (cause 2 4 7)) ∧
        (x.loops.length < 4 → 1 < trips.toNat → goes i to_ (⟨0, x.pc, to_, trips.toNat - 1, trips.toNat, none⟩ :: x.loops)) ∧
        (x.loops.length < 4 → trips.toNat = 1 → goes i (x.pc + 8) x.loops)))) ∧
    (let to_ := x.pc + BitVec.ofInt 64 (8 * far.toInt)
     (inside to_ → goes (.xjmp far) to_ x.loops) ∧ (¬ inside to_ → XTraps (.xjmp far) s (cause 0 4 4))) ∧
    XPasses .xend s { s.nextStream with ended := true } same ∧
    (let y := s.group g.toNat
     let refused := pk = 255 ∨ y.valid = false ∨ (y.ownedBy l.ctx = true ∧ ∃ p, y.home = some p ∧ p ≠ pk.toNat)
     (refused → XTraps (.xgroup g pk) s (cause 0 4 2)) ∧
     (pk ≠ 255 → y.valid = true → y.ownedBy l.ctx = false → XTraps (.xgroup g pk) s (cause 0 4 6)) ∧
     (pk ≠ 255 → y.valid = true → y.ownedBy l.ctx = true → (∀ p, y.home = some p → p = pk.toNat) →
      XPasses (.xgroup g pk) s s.nextStream fun t => still t ∧ (∀ j, j < 64 → j ≠ g.toNat → t.group j = s.group j) ∧
        (t.outbox = if y.home = none ∧ pk ≠ 0 then s.outbox ++ [(pk.toNat, .groupAsk g.toNat)] else s.outbox) ∧
        (let z := t.group g.toNat
         if y.home = none then z = { y with home := some pk.toNat, boundAt := z.boundAt } ∧ (pk = 0 → z.boundAt = s.now + 512) ∧
          (pk ≠ 0 → s.now < 2 ^ 64 → z.bound s.now = false) else z = y)))

/-- 02 R39, R43, R45, R48, R49, R57, R59, 10 R305, R306, 12 R379, R380: the ends of waits, the releases, and the faults that time brings. A wait whose
condition has held ends at its deadline, a late one in elastic mode; one whose condition has not held raises deadline passed in timed mode; a
barrier's members are released together, one whose wait a trap has saved as well; a quiet elastic launch and a core past its retirement bound are stopped. -/
def Obligations.WaitEvents : Prop := ∀ (s : State) (l : Launch) (w : Wait) (x : Xing) (b : Bar) (tag : BitVec 32) (n : Nat),
  let c := s.on.a
  let st := s.on.st
  let k := s.core c
  let ended := fun (t : State) => ((t.core c).stream st).wait = none ∧ ((t.core c).stream st).posBase = w.pos + 1 ∧
    (∀ d, d ≠ st → (t.core c).stream d = k.stream d) ∧ (∀ d, d ≠ c → t.core d = s.core d) ∧ t.mem = s.mem
  (st ≠ .crossing → k.runs st = true → (k.stream st).wait = some w → (∀ h, w.kind ≠ .hour h) → (∀ i, w.kind ≠ .bar i true) →
    (w.due = k.time → w.held = true → Happens .deadlineReached s ended) ∧
    (w.due = k.time → w.held = false → s.timedAt c = true →
      Happens .deadlineReached s fun t => t.Raised c (cause2 st 3) ∧ ((t.core c).stream st).wait = none) ∧
    (w.due < k.time → w.held = true → Happens .elasticWaitEnd s ended)) ∧
  (s.launch? c = some l → l.xing = some x → x.stopped = false → l.frozenUntil = none → l.stage = .running → x.prog.wait = some w →
    let resumed := fun (t : State) => ∃ m y, t.launch? c = some m ∧ m.xing = some y ∧ y.prog.wait = none ∧ y.prog.pc = x.prog.pc + 8
    (st = .crossing → (∀ h, w.kind ≠ .hour h) → w.due ≤ l.count → Happens .deadlineReached s resumed) ∧
    (∀ h, w.kind = .hour h → s.inProgram = true → s.hourNow = h → Happens .xhourEnd s resumed)) ∧
  (s.launch? c = some l → l.stage = .running → l.timedNow = false → 2 ^ 24 ≤ l.quiet →
    Happens .quietDeadlock s fun t => ∀ d ∈ l.cores, t.Raised d (cause 2 7 5)) ∧
  (s.launchOf c = some l → l.stage = .running → k.frozen = false → k.stopped = false → l.bound < k.sinceRetire →
    l.timedNow = true ∨ s.pointWanted l = true →
    Happens .retirementBoundExceeded s fun t => t.Raised c (cause 2 7 4) ∧ ∀ d, d ≠ c → t.core d = s.core d) ∧
  (s.bars.find? (·.id == c) = some b → s.barReady b = true →
    (s.barResync b = false → Happens .barrierRelease s fun t => (∀ q ∈ t.bars, q.id ≠ c) ∧
      ∀ a ∈ b.arrived, ∀ v p, v.kind = .bar c p →
        ((s.core a.core).helm.wait = some v → (t.core a.core).helm.wait = some { v with held := true }) ∧
        (∀ h, (s.core a.core).trapped = some h → h.stream.wait = some v →
          ∃ y, (t.core a.core).trapped = some y ∧ y.stream.wait = some { v with held := true })) ∧
    (s.barResync b = true → s.launch? b.lid = some l → Happens .barrierRelease s fun t =>
      (∀ d ∈ l.cores, (t.core d).cyc = l.count) ∧ (∃ m, t.launch? b.lid = some m ∧ m.elastic = false) ∧
      ∀ d ∈ l.cores, ∀ h v, (s.core d).trapped = some h → h.stream.wait = some v →
        ∃ y u, (t.core d).trapped = some y ∧ y.stream.wait = some u ∧ u.held = true ∧ u.due = l.count)) ∧
  (s.interruptDue c s.cur.pos = true → k.interrupt = some (tag, n) →
    Happens .interruptTaken s fun t => (∃ i ∈ (t.core c).raised, i.code = 0x036 ∧ i.stat = tag) ∧ (t.core c).interrupt = none) ∧
  (s.launch? c = some l → l.freezing = true → l.owing = [] → l.frozenUntil = none → (∀ d ∈ l.cores, (s.core d).freezeAt = none ∧ (s.core d).trap = none) →
    Happens .trapResume s fun t => (∀ d ∈ l.cores, (t.core d).frozen = false) ∧ ∃ m, t.launch? c = some m ∧ m.elastic = true ∧ m.freezing = false)

/-- 02 R32, R34, R441, 05 R158, 07 R197, R199, R200, 13 R398: landings. A plain register's result arrives; any other takes effect on the core's files; a
shape load makes its generation current, or raises its fault, and a cancelled one has no effect; a QSEND fills an empty handoff register, and otherwise is lost with full-register
overwrite or waits; a cancelled phase runs again from its record, with every tile and accumulator empty. -/
def Obligations.LandingEvents : Prop := ∀ (s : State) (f : Flight) (b : ShapeBuf) (q : QSend) (n i : Nat),
  let c := s.on.a
  let k := s.core c
  let one := k.flights = [f] ∧ k.accesses = [] ∧ f.arrived = false ∧ k.held = false
  (one → f.due ≤ k.time → f.checked = false → (∀ z, f.eff ≠ .shape z) →
    (f.eff.plain = true → Happens .resultLanding s fun t => (t.core c).flights = [{ f with arrived := true }] ∧ k.SameFiles (t.core c)) ∧
    (f.eff.plain = false → f.eff ≠ .phase → f.eff ≠ .phaseEnd → (∀ code, f.eff ≠ .raise code) →
      Happens .resultLanding s fun t => (t.core c).flights = [] ∧ (k.land f.eff).SameFiles (t.core c))) ∧
  (one → f.due = k.time → f.eff = .shape (n + 16 * i) → n < 8 → i < 2 → (if i = 0 then (k.slot n).b0 else (k.slot n).b1) = b → b.st = .loading →
    (b.record = [] → Happens .shapeLoadLanding s fun t => (t.core c).shape? n = k.shape? n ∧ (t.core c).flights = []) ∧
    (b.record ≠ [] →
      (b.shape.check b.record = none → Happens .shapeLoadLanding s fun t => (t.core c).shape? n = some b.shape ∧ (t.core c).flights = []) ∧
      (∀ z, b.shape.check b.record = some z → Happens .shapeLoadLanding s fun t => (t.core c).shape? n = k.shape? n ∧
        (t.core c).flights = [{ f with due := f.due + 1, eff := .raise (cause 0 0 z) }]))) ∧
  (s.qsends.find? (·.id == c) = some q → s.arrivesNow q = true →
    let d := s.core q.dst
    (d.qFillable q.q = true → Happens .qsendArrival s fun t => vGet q.q (t.core q.dst).qregs = q.v ∧ vGet q.q (t.core q.dst).qfull = true ∧
      (∀ r, r ≠ q.q → vGet r (t.core q.dst).qregs = vGet r d.qregs) ∧ ∀ p ∈ t.qsends, p.id ≠ q.id) ∧
    (d.qFillable q.q = false → q.waiting = false → s.timedAt q.dst = true →
      Happens .qsendArrival s fun t => t.Raised q.dst 0x083 ∧ (t.core q.dst).qregs = d.qregs ∧ ∀ p ∈ t.qsends, p.id ≠ q.id) ∧
    (d.qFillable q.q = false → q.waiting = false → s.timedAt q.dst = false →
      Happens .qsendArrival s fun t => t.cores = s.cores ∧ ∃ p ∈ t.qsends, p = { q with waiting := true })) ∧
  (k.phaseWait = true → k.frozen = false → k.stopped = false → ∀ p, k.phase = some p → (∀ x ∈ k.copies, x.id ∈ p.log → x.finished = true) →
    Happens .phaseRerun s fun t => (t.core c).sregs = p.sregs ∧ (t.core c).pregs = p.pregs ∧ (t.core c).pfull = p.pfull ∧
      (t.core c).qregs = p.qregs ∧ (t.core c).qfull = p.qfull ∧ (t.core c).carry = p.carry ∧
      (∀ r : BitVec 4, vGet r (t.core c).tfull = false) ∧ (∀ r : BitVec 2, vGet r (t.core c).afull = false) ∧ (t.core c).helmSt = p.helm ∧
      (t.core c).helm.pc = p.helmS.pc ∧ (t.core c).vec.pc = p.vecS.pc ∧ (t.core c).mat.pc = p.matS.pc ∧ (t.core c).phaseWait = false)

/-- 05 R151-R154, 09 R262, R270, R271, R276, R281, R287, R288, 11 R347: a helm's accesses after issue, `a` being one of core `c` at its home. A load gives
the bytes, a store writes them, an atomic gives the old value and writes the new one; ACQ opens its bond's entries at the end of its window, REL adds
1 to its word; a late access raises deadline passed. A fault of translation stands for issue + 512 and one of the home for issue + W at the latest, and a
refusal's for the cycle in which it comes; a FENCE of core or tile scope puts the earlier accesses ahead at the core's egress or the tile's port. A fault
found for an access whose window has been reported passed raises nothing; one of a launch that has retired is recorded for the tile's supervisor
(notes/assumptions/26.md). The record names the access by the address of its word (notes/assumptions/25.md). -/
def Obligations.AccessEvents : Prop := ∀ (s : State) (a : Access) (l : Leaf) (m : MStore) (g : Nat),
  let c := s.on.a
  let k := s.core c
  let va := a.va.toNat
  let key := l.key va
  let n := a.kind.width
  let old := memRead s.mem key n
  let clean := s.readBad key n = false
  let plain := ¬ (l.ap = 0 ∧ regSpace ≤ l.pa va)
  let ctx := s.ctx (s.ctxOf c)
  let epoch := (s.fresh l).epoch
  let opened := (∀ x ∈ granulesOf key n, s.mappedOut x = false) ∧ (l.ap ≠ 0 ∨ (olderEpoch ctx.epoch epoch = false ∧
    olderEpoch (ctx.epoch - 1) epoch = false ∧ ctx.beyondPoint c a.id false = false))
  let wrote := fun (t : State) (v : Nat) => ∀ x, memGet t.mem x =
    if key ≤ x ∧ x < key + n then BitVec.ofNat 8 (v / 2 ^ (8 * (x - key))) else memGet s.mem x
  let done := fun (t : State) (v : Word) => ∃ x ∈ (t.core c).accesses, x.id = a.id ∧ x.performed = true ∧ x.value = some v
  let left := fun (t : State) => ∀ x ∈ (t.core c).accesses, x.id ≠ a.id
  let sold := (BitVec.ofNat 64 old).toInt
  let swaps := fun (v : Nat) => Happens .helmAccessAtHome s fun t => done t (BitVec.ofNat 64 old) ∧ wrote t v
  let keeps := Happens .helmAccessAtHome s fun t => done t (BitVec.ofNat 64 old) ∧ t.mem = s.mem
  s.mem.wf = true → k.access? s.on.b = some a →
    (a.performed = false →
      (a.untranslated = true → a.xlatAt ≤ k.time →
        (∀ z, s.translate (tileOf c) (s.ctxOf c) va a.kind.need (isPurser c) = .bad z → Happens .translationResult s fun t =>
          t.mem = s.mem ∧ if a.late = true then left t else
            ∃ x ∈ (t.core c).accesses, x.id = a.id ∧ x.reportIn = 512 ∧ ∃ i, x.fault = some i ∧ i.va = a.va ∧ i.cmd = a.pc.toNat % 2 ^ 48 ∧
              (∀ w sg, a.kind = .load w sg → i.code = if z = poisonC then cause 5 4 1 else cause 1 0 z) ∧
              ∀ w, a.kind = .store w → i.code = if z = poisonC then cause 5 4 1 else cause 1 1 z) ∧
        (s.translate (tileOf c) (s.ctxOf c) va a.kind.need (isPurser c) = .ok l → plain → (∀ j, a.kind ≠ .launch j) →
          Happens .translationResult s fun t => t.mem = s.mem ∧
            ∃ x ∈ (t.core c).accesses, x.id = a.id ∧ x.leaf = some l ∧ x.window = if l.ap = 0 then a.window else 1048576)) ∧
      (∀ i, a.fault = some i → k.accessFaultDue a = true →
        Happens .translationResult s fun t => left t ∧ (isWake c = false → i ∈ (t.core c).raised) ∧
          ∀ b, isWake c = true → s.launchOf c = some b → (∃ e, (c % 4096, e) ∈ (t.tile (tileOf c)).trapq) ∧
            ∃ m, t.launch? b.lid = some m ∧ m.traps = min 65535 (b.traps + 1) ∧ m.cause = i.code) ∧
      (a.leaf = some l → s.homeDue c a = true → plain →
        (∀ w sg, a.kind = .load w sg → clean → Happens .helmAccessAtHome s fun t => t.mem = s.mem ∧
          done t (if sg then BitVec.ofInt 64 (BitVec.ofNat (8 * w) old).toInt else BitVec.ofNat 64 old)) ∧
        (∀ w sg, a.kind = .load w sg → ¬ clean → a.late = false → Happens .helmAccessAtHome s fun t => t.mem = s.mem ∧
          ∃ x ∈ (t.core c).accesses, x.id = a.id ∧ a.issued + x.reportIn ≤ max k.time (a.issued + a.window) ∧ ∃ i, x.fault = some i ∧ i.code = cause 5 4 1) ∧
        (∀ w, a.kind = .store w → opened → Happens .helmAccessAtHome s fun t => left t ∧ wrote t a.v.toNat) ∧
        (l.ap ≠ 255 → clean → opened →
          (a.kind = .aadd → swaps ((old + a.v.toNat) % 2 ^ 64)) ∧
          (a.kind = .aaddf → swaps (fp32F.round .rne false ((fp32F.decode old).add false (fp32F.decode (a.v.toNat % 2 ^ 32))))) ∧
          (a.kind = .aswap → swaps a.v.toNat) ∧
          (a.kind = .acas → if old = a.c.toNat then swaps a.v.toNat else keeps) ∧
          (a.kind = .amin → swaps (if sold ≤ a.v.toInt then old else a.v.toNat)) ∧
          (a.kind = .amax → swaps (if a.v.toInt ≤ sold then old else a.v.toNat)) ∧
          (a.kind = .abump → if old < a.v.toNat then swaps (old + 1) else keeps)) ∧
        (a.kind = .acq → clean → Happens .helmAccessAtHome s fun t => t.mem = s.mem ∧ ∃ x ∈ (t.core c).accesses, x.id = a.id ∧ x.performed = true)) ∧
      (a.leaf = some l → s.relDue c a = true → clean → opened → Happens .relIncrement s fun t => left t ∧ wrote t (memRead s.mem key 8 + 1)) ∧
      (s.expiryDue c a = true → Happens .accessWindowExpiry s fun t => t.Raised c 0x084 ∧ ((∃ w sg, a.kind = .load w sg) → left t)) ∧
      (∀ z, a.kind = .fence z → k.fenceHolds a z = true → Happens .fenceComplete s fun t =>
        t.mem = s.mem ∧ (∃ x ∈ (t.core c).accesses, x.id = a.id ∧ x.performed = true) ∧
        (z < 2 → ∀ x ∈ (t.core c).accesses, x.id < a.id → x.performed = false → x.egress ≠ none ∧ (z = 1 → x.port ≠ none))) ∧
      (s.ackFor c s.on.b = some (g, m) → (m.n ≠ 2 ^ 48 → Happens .mstoreAck s left) ∧
        (m.n = 2 ^ 48 → Happens .mstoreAck s fun t => if a.late = true then left t else
          ∃ x ∈ (t.core c).accesses, x.id = a.id ∧ x.reportIn = k.time - a.issued ∧ ∃ i, x.fault = some i ∧ i.code = cause 4 4 7))) ∧
    (a.performed = true → a.captured = false → k.held = false → a.issued + a.window ≤ k.time + 1 →
      (a.kind = .acq → Happens .acqLanding s fun t => left t ∧
        (t.core c).bonds = k.bonds.map fun b => if b.bond = a.va.toNat then { b with isOpen := true } else b) ∧
      (∀ z, a.kind = .fence z → Happens .fenceComplete s fun t => left t ∧ (t.core c).bonds = k.bonds))

/-- 10 R320-R328, 13 R414, R416, R417: landings. `l` is the landing of the event. Frames of which no more than one rail's fails give the flit that they
were made of; a flit with fewer than two failing rails is accepted and acknowledged, any other is discarded with every later one and asked for again,
and the sender resends from it; an acknowledgment frees the replay buffer up to its flit; a rail that fails 1,024 times in a row is lost; a pause of 20 µs, or backpressure of
20 µs, loses the handles that use the landing, and where no core holds a command on them a routed overflow traps the launch's origin; bring-up goes stage by stage, and fails for good at its third timeout in a row. -/
def Obligations.LinkEvents : Prop := ∀ (s : State) (k n : Nat),
  let l := s.on.a
  let x := s.landing l
  let bad := (x.failing s.on.bytes).length
  let posted := fun (t : State) (code place stat : Nat) => (16, code, place, stat) ∈ t.events
  let asked := fun (t : State) (ev : Instr) => ∀ h, s.handleTo l = some h →
    ∃ d ∈ t.agenda, d.ev = ev ∧ d.on.a = (s.handle h).src ∧ d.on.b = x.expect ∧ s.now < d.at_ ∧ d.at_ ≤ s.now + 256
  let rails := fun (t : State) => x.railLost = none → ∀ r : Fin 5, r.val ∈ x.failing s.on.bytes → x.railFails[r] = 1023 →
    (t.landing l).railLost ≠ none ∧ posted t (cause 5 6 6) l 0 ∧ t.pkstat = s.pkstat ||| 1#4
  let monitored := fun (t : State) (b flag : Nat) => s.on.b % 5 ∈ (t.landing l).weak ∧ posted t (cause 3 7 b) l s.on.b ∧
    ∀ ctx, x.owner = some ctx → (s.ctx ctx).flags.getLsbD flag = true → ∀ c ∈ s.routeCores l ctx, t.Raised c (cause 3 7 b)
  (x.trained = true → x.pause = none → isFibre l = false ∨ 2000 ≤ s.hourOff →
    (x.discarding = true → 2 ≤ bad → Happens .flitReceive s (· = s)) ∧
    (bad < 2 → Happens .flitReceive s fun t => (t.landing l).expect = (x.expect + 1) % 65536 ∧
      (t.landing l).discarding = false ∧ asked t .flitAck ∧ (bad = 1 → posted t (cause 3 7 3) l 0) ∧ rails t ∧
      ∀ f : List Byte, f.length = 32 → (∀ j, j < 5 → j ∉ x.failing s.on.bytes → frameOf s.on.bytes j = frameOf (framesOf f x.expect) j) →
        (t.landing l).flit = f) ∧
    (x.discarding = false → 2 ≤ bad → Happens .flitReceive s fun t => (t.landing l).expect = x.expect ∧
      (t.landing l).discarding = true ∧ asked t .replayRequest ∧ posted t (cause 3 7 4) l 0 ∧ rails t)) ∧
  (∀ f : List Byte, f.length = 32 → x.expect < 65536 → x.weak = [] → x.railLost = none → x.failing (framesOf f x.expect) = []) ∧
  (s.on.b < 65536 → Happens .replayRequest s fun t => t.cores = s.cores ∧
    (∀ i, x.acked ≤ i → i < x.nextFlit → i < x.acked + 65536 → i % 65536 = s.on.b → (t.landing l).sent = i) ∧
    ∀ h, h < 64 → (s.handle h).src = l → ∀ d ∈ (s.handle h).dsts, (s.landing d).expect = s.on.b → (t.landing d).discarding = false) ∧
  (x.acked ≤ n → n < x.nextFlit → n < x.acked + 65536 → s.on.b = n % 65536 → Happens .flitAck s fun t => (t.landing l).acked = n + 1 ∧
    (x.nextFlit - (n + 1) < 16384 → (t.landing l).full = none)) ∧
  (x.trained = true → x.pause = none → Happens .retrainingPause s fun t => (t.landing l).pause = some s.wall ∧
    (∃ d ∈ t.alarms, d.ev = .pauseBoundExceeded ∧ d.on.a = l ∧ d.at_ = s.wall + nsUnits 1000) ∧
    (∃ d ∈ t.alarms, d.ev = .backpressureLimit ∧ d.on.a = l ∧ d.at_ = s.wall + nsUnits 20000)) ∧
  (x.pause = some n → Happens .retrainingPauseEnd s fun t => (t.landing l).pause = none ∧ t.cores = s.cores ∧ t.handles = s.handles) ∧
  (x.pause = some n → n + nsUnits 1000 ≤ s.wall → x.reported = false → Happens .pauseBoundExceeded s fun t =>
    posted t (cause 3 2 0) l 0 ∧ (t.landing l).reported = true ∧ t.handles = s.handles) ∧
  (x.pause = some n ∨ x.full = some n → n + nsUnits 20000 ≤ s.wall → Happens .backpressureLimit s fun t =>
    (t.landing l).stage = some 0 ∧ (t.landing l).trained = false ∧
    (∀ h ∈ s.handlesAt l, (t.handle h).st = .lost ∧ posted t (cause 3 7 5) l h) ∧
    ∀ ctx y, x.owner = some ctx → (s.ctx ctx).flags.getLsbD 4 = true → s.xingLaunch ctx = some y → s.handlesAt l ≠ [] →
      (∀ h ∈ s.handlesAt l, (s.handle h).sends = [] ∧ (s.handle h).bindings = []) → t.Raised y.origin (cause 3 7 5)) ∧
  (Happens .laserPowerLow s fun t => monitored t 1 2) ∧
  (Happens .ringTuningOutOfRange s fun t => monitored t 2 3) ∧
  (x.stage = some k → Happens .bringUpStageEnd s fun t =>
    if k < 6 then (t.landing l).stage = some (k + 1) ∧ (t.landing l).trained = false
    else (t.landing l).stage = none ∧ (t.landing l).trained = true ∧ (t.landing l).nextFlit = 0 ∧ (t.landing l).acked = 0 ∧
      (t.landing l).sent = 0 ∧ (t.landing l).stored = 0 ∧ (t.landing l).expect = 0 ∧ (t.landing l).fails = 0) ∧
  (x.stage = some k → x.stageAt + nsUnits (stageTimeouts.getD k 0) ≤ s.wall → Happens .bringUpTimeout s fun t =>
    let b := if (k = 0 ∧ s.on.b = 1) ∨ (k = 1 ∧ s.on.b = 2) then s.on.b else 0
    posted t (cause 3 k b) l k ∧ (t.landing l).fails = x.fails + 1 ∧
    if x.fails + 1 < 3 then (t.landing l).stage = some 0
    else (t.landing l).stage = none ∧ (t.landing l).failed = true ∧ t.pkstat = s.pkstat ||| 1#4) ∧
  (Happens .supervisorRetrain s fun t => if s.on.flag then (t.landing l).failed = false ∧ (t.landing l).fails = 0
    else (t.landing l).stage = some 0 ∧ (t.landing l).trained = false)

/-- 10 R329-R334, 09 R284-R291, 13 R415: the day clock, the service ring, relays and ordered multicast. A pulse within 1 µs of its time starts a
correction, at most 100 ns in each guard that follows and never backwards; 100 ms without one end fibre traffic, until the guard after the next; a
message, of a peer in a service minute in which it is faced, does what it says, and what is to leave leaves then; relayed data is stored or refused,
leaves in a later hour in its sender's name, its poison marked, and goes after 640 µs, of which its sender learns. What a peer asks is acknowledged once
the commands that use its memory have completed. A collective's message that comes before a member here has joined waits. -/
def Obligations.RotorEvents : Prop := ∀ (s : State) (n : Nat) (l : Launch) (x : Xing) (w : Wait) (m : Message) (r : Relay),
  let e := s.on.off
  let step := min s.dayError.natAbs 100
  (e.natAbs ≤ 1000 → Happens .dawnPulse s fun t => t.dayError = e ∧ t.holdover = none ∧ t.dayc = s.dayc ∧ t.expired = s.expired ∧
    t.correctionDue = false) ∧
  (1000 < e.natAbs → Happens .dawnPulse s fun t => t.dayError = s.dayError ∧ t.holdover = some (s.holdover.getD s.wall)) ∧
  (s.hourOff < 2000 → s.guardDone ≠ s.dayc / 20000 + 1 → s.dayError ≠ 0 ∨ (s.expired = true ∧ s.holdover = none) → Happens .daycCorrection s fun t =>
    t.dayError.natAbs = s.dayError.natAbs - step ∧ t.guardDone = s.dayc / 20000 + 1 ∧ t.expired = (s.expired && s.holdover.isSome) ∧
    (0 < s.dayError → t.daycAdj = s.daycAdj + step ∧ t.daycHold = s.daycHold) ∧ (s.dayError < 0 → t.dayc = s.dayc)) ∧
  (s.booted = true → s.holdover = none → (s.lastDawn + 1) * 320000 + 1000 < s.dayc → Happens .holdoverStart s fun t =>
    t.holdover = some s.wall ∧ t.pkstat = s.pkstat ||| 2#4) ∧
  (s.expired = false → s.holdover = some n → n + nsUnits 100000000 ≤ s.wall → Happens .holdoverExpiry s fun t => t.expired = true ∧
    t.pkstat = s.pkstat ||| 8#4 ∧ (s.launch? l.lid = some l → l.xing = some x → x.stopped = false → x.prog.wait = some w → (∃ h, w.kind = .hour h) →
      t.Raised l.origin hourC ∧ ∃ y z, t.launch? l.lid = some y ∧ y.xing = some z ∧ z.stopped = true)) ∧
  (∀ p note rest, s.on.flag = true → s.on.flag2 = false → s.outbox = (p, note) :: rest → s.minuteOf p = true →
    Happens .serviceMessage s (· = { s with outbox := rest })) ∧
  (∀ p note rest, s.on.flag = true → s.on.flag2 = true → s.outbox = (p, note) :: rest → s.inMinute = true → s.facesPeer p = false →
    Happens .serviceMessage s (· = { s with outbox := rest })) ∧
  (s.on.flag = false → s.messages.find? (·.id == s.on.a) = some m → m.at_ ≤ s.now → (m.minute = true → s.minuteOf m.peer = true) →
    (∀ i p rs, m.note = .shootWait i p rs → s.usesPeer p rs = false) →
    (∀ e y n, m.note.coll = some (e, y, n) → m.minute = true ∨ (s.collAt e y n).isSome = true ∨ s.collPast e y n = true) →
    Happens .serviceMessage s fun t =>
    m ∉ t.messages ∧
    (∀ g a, m.note = .mstore g a → ∃ h ∈ (t.group g).arriving, h = { a with n := 0, at_ := s.now, peer := m.peer }) ∧
    (∀ g, m.note = .groupAsk g → (m.peer, Note.groupAck g) ∈ t.outbox) ∧ (∀ p note, m.note = .relayed p note → (p, note) ∈ t.outbox) ∧
    (∀ g a i, m.note = .memberCount g a i → (t.group g).appliedOf a = max i ((s.group g).appliedOf a)) ∧
    (∀ g a, m.note = .stampedStore g a → ∃ h ∈ (t.group g).held, h.n = a.n) ∧
    (∀ c i lost, m.note = .relayEnd c i lost → t.Owes c (cause 4 5 (if lost then 2 else 6))) ∧
    (∀ c a, m.note = .trapRecord c a → (c, a) ∈ (t.tile (tileOf c)).trapq) ∧
    (∀ i rs, m.note = .shootdown i rs → (∃ q ∈ t.messages, q.note = .shootWait i m.peer rs) ∧
      ∀ j, ∀ u ∈ (t.tile j).tu, s.samePeer u.2.2.ap m.peer = true → ∀ p ∈ rs, overlaps u.2.2.page u.2.2.size p.1 p.2 = false) ∧
    (∀ i p rs, m.note = .shootWait i p rs → (p, Note.shootAck i) ∈ t.outbox) ∧
    (∀ i, m.note = .shootAck i → ∀ y ∈ t.shoots, y.id = i → ∀ p ∈ y.mask, s.samePeer p m.peer = false) ∧
    (∀ rs, m.note = .replay rs → (m.peer, Note.replayAck) ∈ t.outbox ∧
      ∀ j, ∀ u ∈ (t.tile j).tu, s.samePeer u.2.2.ap m.peer = true → ∀ p ∈ rs, overlaps u.2.2.page u.2.2.size p.1 p.2 = false) ∧
    (m.note = .replayAck → ∀ e ∈ s.namesOf m.peer, (s.aperture e).replayed = true →
      (t.aperture e).log = [] ∧ (t.aperture e).quarantine = false) ∧
    (∀ c i, m.note = .relayStored c i → ∀ k ∈ (t.core c).copies, k.id = i → k.left = []) ∧
    (∀ e y n, m.note.coll = some (e, y, n) →
      (s.collAt e y n = none → s.collPast e y n = false → t.colls = s.colls ∧ ∃ q ∈ t.messages, q.note = m.note) ∧
      (s.collAt e y n = none → s.collPast e y n = true → t.colls = s.colls) ∧
      ∀ k, s.collAt e y n = some k → ∀ z ∈ t.colls, z.id = k.id →
        (∀ p, m.note = .part e y n p → ∃ q ∈ z.parts, q.m = p.m) ∧ (∀ st who, m.note = .outcome e y n st who → z.status ≠ none) ∧
        ∀ ms, m.note = .released e y n ms → z.digested = false → z.only ≠ none) ∧
    (∀ g, m.note = .groupAck g → ∃ d ∈ t.agenda, d.ev = .xgroupAck ∧ d.on.a = g)) ∧
  (let by_ := 128 + s.on.d % 4
   let of_ := (s.on.list.getD 0 0, s.on.list.getD 1 0)
   s.fibreOpen by_ = true → s.still by_ = false → s.samePeer (s.facing by_) s.on.a = true → Happens .relayArrival s fun t => t = if s.on.flag then
    { s with relays := s.relays ++ [⟨s.nextRelay, s.on.a, of_, s.on.b, s.on.c, s.on.bytes, s.dayc / 20000, s.wall, s.on.err != .none⟩]
             nextRelay := s.nextRelay + 1
             outbox := s.outbox ++ [(s.on.a, .relayStored of_.1 of_.2)] }
    else { s with outbox := s.outbox ++ [(s.on.a, .relayEnd of_.1 of_.2 false)] }) ∧
  (s.relays.find? (·.id == s.on.a) = some r →
    let by_ := 128 + r.fl % 4
    let rest := s.relays.filter (·.id != s.on.a)
    (s.inProgram = true → s.fibreOpen by_ = true → s.still by_ = false → r.hour < s.dayc / 20000 → s.samePeer (s.facing by_) r.dst = true →
      (∀ q ∈ s.relays, q.fl = r.fl → q.dst = r.dst → r.id ≤ q.id) →
      Happens .relayForward s fun t => t.relays = rest ∧ t.outbox = s.outbox ∧
        (t.landing by_).lastOut = some { dst := r.dst, src := r.src, runs := [(0, r.bytes, r.bad)] }) ∧
    (r.at_ + nsUnits 640000 ≤ s.wall → Happens .relayTimeout s fun t => t = { s with
      relays := rest, outbox := s.outbox ++ [(r.src, .relayEnd r.of_.1 r.of_.2 true)] }))

/-- 09 R284-R291, 10 R311, 13 R415: ordered multicast after issue. `g` is the group and `m` the member of the event. -/
def Obligations.MulticastEvents : Prop := ∀ (s : State) (a h : MStore) (l : Leaf),
  let g := s.on.a
  let m := s.on.b
  let x := s.group g
  let new : Group := { x with words := s.on.words, revoked := false }
  let place := x.target m h
  (s.arrival g = some a → (∀ i ∈ x.members, x.next ≤ x.appliedOf i + 256) → Happens .orderPointStamp s fun t =>
    (t.group g).next = x.next + 1 ∧ ∃ y, (t.group g).held = x.held ++ [y] ∧ y.n = x.next ∧ y.core = a.core ∧ y.acc = a.acc ∧ y.off = a.off ∧
      y.v = a.v ∧ s.now < y.at_ ∧ y.at_ ≤ s.now + 250 ∧ (∀ i ∈ x.members, x.pk i ≠ 0 → (x.pk i, Note.stampedStore g { a with n := x.next }) ∈ t.outbox) ∧
      (a.peer ≠ 0 → (a.peer, Note.stampAck g a.core a.acc x.next) ∈ t.outbox)) ∧
  (s.arrival g = some a → (∃ i ∈ x.members, x.appliedOf i + 256 < x.next) → Happens .orderPointStamp s fun t =>
    (t.group g).next = x.next ∧ (t.group g).held = x.held ∧ if a.peer = 0 then ∃ y ∈ (t.group g).arriving, y.core = a.core ∧ y.acc = a.acc ∧ y.n = 2 ^ 48
      else (a.peer, Note.stampAck g a.core a.acc 0) ∈ t.outbox) ∧
  (s.nextStore g m = some h → s.translate (tileOf (x.coreOf m)) x.owner place.1 .write false = .ok l →
    l.ap ≠ 0 ∨ olderEpoch (s.ctx x.owner).epoch (s.fresh l).epoch = false → (∀ i ∈ granulesOf (l.key place.1) place.2.length, s.mappedOut i = false) → s.mem.wf = true →
    Happens .multicastApply s fun t => memBytes t.mem (l.key place.1) place.2.length = place.2 ∧ (t.group g).appliedOf m = h.n ∧
      (∀ i, i < l.key place.1 ∨ l.key place.1 + place.2.length ≤ i → memGet t.mem i = memGet s.mem i) ∧
      (∀ p, x.home = some p → p ≠ 0 → (p, Note.memberCount g m h.n) ∈ t.outbox) ∧
      place.2 = (if x.append then toBytes 8 h.n ++ toBytes 8 h.v.toNat else toBytes 8 h.v.toNat)) ∧
  (∀ b, s.nextStore g m = some h → s.translate (tileOf (x.coreOf m)) x.owner place.1 .write false = .bad b →
    Happens .multicastApply s fun t => m ∈ (t.group g).stoppedM ∧ t.mem = s.mem ∧
      ((s.core (x.coreOf m)).lid ≠ none → t.Raised (x.coreOf m) (if b = poisonC then cause 5 4 1 else cause 1 6 b))) ∧
  (s.gapDue g m = true → Happens .orderGap s fun t => m ∈ (t.group g).stoppedM ∧ t.mem = s.mem ∧
    ((s.core (x.coreOf m)).lid ≠ none → t.Raised (x.coreOf m) (cause 4 4 5))) ∧
  (∀ pk, x.home = some pk → pk ≠ 0 → x.boundAt = neverBound → Happens .xgroupAck s fun t => (t.group g).boundAt = s.now) ∧
  (m ∈ x.stoppedM → x.inForce m = true → Happens .memberResend s fun t => m ∉ (t.group g).stoppedM ∧
    ∀ y ∈ x.held, x.appliedOf m < y.n → y.at_ ≤ s.now → ∃ z ∈ (t.group g).held, z.n = y.n ∧ z.v = y.v ∧ s.now < z.at_ ∧ z.at_ ≤ s.now + 250) ∧
  (g < 64 → new.valid = false ∨ x.valid = false → Happens .groupTableWrite s fun t => t.group g = { words := s.on.words }) ∧
  (g < 64 → new.valid = true → x.valid = true → Happens .groupTableWrite s fun t => (t.group g).words = s.on.words ∧
    (t.group g).home = x.home ∧ (t.group g).next = x.next ∧
    ∀ i, i < 16 → new.inForce i = true → (t.group g).appliedOf i = if x.inForce i then x.appliedOf i else x.next - 1)

/-- 11 R336-R346, 02 R52, R62-R65: packets, placement, starting and retirement. `n` is the number that the event names: a quay, a tile or a launch. A
packet takes the next identifier and is rejected with its cause or waits; a waiting launch ages; the first that fits is loaded, counts cycle 0 in
every core at once, retires when all of it has ended, and completes with its record. What a core still has on its way at its launch's retirement goes on
apart from the core, which is free. Where a quay's header stands, and that the 240 entries are the unreserved ones, is the model's choice
(notes/assumptions/3.md, 27.md); that a reserved entry which frees takes a joined child is its reading (27.md). -/
def Obligations.LaunchEvents : Prop := ∀ (s : State) (key ctx i : Nat) (r : List Byte) (l : Launch),
  let n := s.on.a
  let ridx := recField (s.quay n) 8 8
  let consumed := fun (t : State) => s.mem.wf = true → s.mappedOut (quayHeader n / 64) = false →
    memRead t.mem (quayHeader n + 8) 8 = (ridx + 1) % 2 ^ 64
  let now := fun (t : State) (ok : Launch → Prop) => ∃ m, t.launch? n = some m ∧ ok m
  (s.packetDue n false = true → s.readySlot n = some (key, r) → s.quayCtx n = some ctx → Happens .launchPacket s fun t => consumed t ∧
    (t.ctx ctx).assigned = (s.ctx ctx).assigned + 1 ∧ t.cores = s.cores ∧ ∃ m, t.launches = s.launches ++ [m] ∧ m.ctx = ctx ∧
      m.cid = (s.ctx ctx).assigned + 1 ∧ m.quay = some n ∧ m.packet = r ∧
      (packetReserved r = true → m.stage = .retired ∧ m.status = 2 ∧ m.cause = cause 0 6 1) ∧
      (packetReserved r = false → (packetOf r).ctx ≠ ctx → m.stage = .retired ∧ m.status = 2 ∧ m.cause = cause 0 6 2) ∧
      (packetReserved r = false → (packetOf r).ctx = ctx → ∀ b, s.packetFault (s.quayTile n) ctx m.cid r = some b →
        m.stage = .retired ∧ m.status = 2 ∧ m.cause = cause 0 6 b) ∧
      ((packetOf r).ctx = ctx → s.packetFault (s.quayTile n) ctx m.cid r = none → m.stage = .waiting)) ∧
  (s.packetDue n true = true → s.readySlot n = some (key, r) → Happens .noopPacket s fun t => consumed t ∧
    t.launches = s.launches ∧ t.contexts = s.contexts ∧ t.cores = s.cores) ∧
  (s.booted = true → s.turn ≤ s.now / 128 → n = s.now / 128 % 8 → s.thermal = false → s.launches = [l] → l.tile = n →
    l.stage = .waiting → l.quay = some i → l.level < 4 → l.dep = 0 → (imgOf l.desc 4).1 = 0 → l.heldAt = none → l.any = false →
    rectFree l.x0 l.y0 l.w l.h s.coreFree = true → Happens .placementTurn s fun t => t.turn = s.now / 128 + 1 ∧
      ∃ m, t.launches = [m] ∧ m.stage = .loading ∧ m.x0 = l.x0 ∧ m.y0 = l.y0 ∧ s.now < m.startAt ∧
        ∀ b, s.loadBound l (l.x0, l.y0) = some b → m.startAt ≤ s.now + (2048 + b)) ∧
  (s.booted = true → s.turn ≤ s.now / 128 → n = s.now / 128 % 8 → (∀ q ∈ s.launches, q.stage ≠ .waiting ∧ q.stage ≠ .preempted) →
    Happens .placementTurn s fun t => t = { s with turn := s.now / 128 + 1 }) ∧
  (s.launch? n = some l → l.waits = true → l.level < s.levelNow l → Happens .agingStep s fun t => now t fun m => m.level = l.level + 1) ∧
  (∀ j, s.launch? n = some l → l.waits = true → l.level3 = some i → l.heldAt = none → l.readyAt = some j → max i j + nsUnits 10000000 ≤ s.wall →
    Happens .heldCandidate s fun t => now t fun m => m.heldAt = some s.wall) ∧
  (s.launch? n = some l → l.stage = .loading → l.startAt ≤ s.now → Happens .startBroadcast s fun t =>
    (now t fun m => m.stage = .running ∧ m.count = 0) ∧ t.mem = s.mem ∧
    (l.x0 + l.w ≤ 64 → i < l.w * l.h → let k := t.core (coreAt (l.x0 + i % l.w) (l.y0 + i / l.w))
      k.lid = some n ∧ k.cyc = 0 ∧ k.frozen = false ∧ vGet (1 : SReg) k.sregs = BitVec.ofNat 64 (i % l.w) ∧
        vGet (2 : SReg) k.sregs = BitVec.ofNat 64 (i / l.w) ∧ k.seed = l.seed)) ∧
  (s.inPool n .unreserved < 240 → s.oldestOverflow n (fun _ => true) = some l →
    Happens .poolEntryFreed s fun t => t = s.modLaunch l.lid fun q => { q with pool := .unreserved }) ∧
  (240 ≤ s.inPool n .unreserved → s.inPool n .reserved < 16 → s.oldestOverflow n (·.joined) = some l →
    Happens .poolEntryFreed s fun t => t = s.modLaunch l.lid fun q => { q with pool := .reserved }) ∧
  (s.launch? n = some l → s.retireDue l = true → (∀ c ∈ l.cores, c < 4096) → Happens .launchRetirement s fun t => t.mem = s.mem ∧
    (∀ c, c < 4096 → t.core c = if c ∈ l.cores then { s.core c with accesses := [] } else s.core c) ∧
    (∀ c ∈ l.cores, ((s.core c).underWay n).accesses ≠ [] → t.core (wakeOf n c) = (s.core c).underWay n) ∧
    (now t fun m => m.stage = .retired ∧ m.status = (if l.lost = [] then 0 else 1) ∧ m.cause = l.firstCause) ∧
    (∀ b ∈ t.bars, b.lid ≠ n) ∧ ∀ h, (s.handle h).holds = true → (s.handle h).lid = n → (t.handle h).st = .free) ∧
  (s.launch? n = some l → s.recordDue l = true → l.ctx < 16 → Happens .completionRecord s fun t =>
    let x := s.ctx l.ctx
    (∀ q ∈ t.launches, q.lid ≠ n) ∧ (t.ctx l.ctx).ringW = x.ringW + 1 ∧ tabGet (t.ctx l.ctx).completed l.cid = some l.status ∧
    (s.mem.wf = true → l.w * l.h ≤ 128 ∨ l.bmap = 0 → (∀ g ∈ granulesOf (x.ringKey x.ringW) 64, s.mappedOut g = false) →
      memRead t.mem (x.ringKey x.ringW) 1 = 1 ∧ memRead t.mem (x.ringKey x.ringW + 8) 8 = l.cid % 2 ^ 64 ∧
        memRead t.mem (x.ringKey x.ringW + 24) 8 = l.lastCyc % 2 ^ 64 ∧ memRead t.mem (x.ringKey x.ringW + 40) 8 = l.evtag.toNat))

/-- 02 R46, R60, 10 R335, 11 R349-R352, 12 R383: pre-emption, termination and resumption of launches. At the common retirement point every core stops;
once what had begun has ended the images are saved, the launch leaves the collectives that have not passed their digest, and the cores are free; a
resumed launch restarts in one cycle from its images, which hold each register at the place that R350 gives; where the control area holds the helm's pc
is the model's (notes/assumptions/35.md). -/
def Obligations.PreemptionEvents : Prop := ∀ (s : State) (l : Launch) (q : Image),
  let n := s.on.a
  let now := fun (t : State) (m : Nat) (ok : Launch → Prop) => ∃ x, t.launch? m = some x ∧ ok x
  let key := s.imageKey l.ctx q.core
  (s.launch? n = some l → s.stopDue l = true → Happens .preemptionStop s fun t => t.mem = s.mem ∧
    (now t n fun m => m.stage = .preempting) ∧ ∀ c ∈ l.cores, (t.core c).frozen = true ∧ (t.core c).held = true ∧ (s.core c).SameFiles (t.core c)) ∧
  (s.launch? n = some l → s.saveDue l = true → Happens .preemptionStop s fun t =>
    (now t n fun m => m.stage = .preempted ∧ ∃ f : Nat → Core, m.saved = ((l.cores.zipIdx).map fun c => ⟨c.2, f c.1⟩) ∧
      ∀ c, (s.core c).SameFiles (f c) ∧ (f c).flights = (s.core c).flights ∧ (f c).cyc = (s.core c).cyc ∧
        (c ∉ l.cores ∨ (s.core c).waitingColls = [] → f c = s.core c)) ∧
    (∀ c ∈ l.cores, t.core c = {}) ∧ ∀ h, (s.handle h).holds = true → (s.handle h).lid = n → (t.handle h).st = .free) ∧
  (s.launch? n = some l → l.stage = .resuming → l.startAt ≤ s.now → l.savedHandles = [] → l.saved = [q] → Happens .preemptedResume s fun t =>
    t.mem = s.mem ∧ (now t n fun m => m.stage = .running ∧ m.saved = []) ∧
    let k := t.core (l.cores.getD q.core 0)
    k.frozen = false ∧ k.held = false ∧ k.cyc = q.st.cyc ∧ k.helm.pc = BitVec.ofNat 64 (memRead s.mem key 8) ∧
      (∀ r : SReg, vGet r k.sregs = BitVec.ofNat 64 (memRead s.mem (key + 0x400 + 8 * r.toNat) 8)) ∧
      (∀ r : PReg, vGet r k.pregs = (memRead s.mem (key + 0x700 + r.toNat / 8) 1 / 2 ^ (r.toNat % 8) % 2 == 1)) ∧
      (∀ r : BitVec 5, vGet r k.qregs = BitVec.ofNat 64 (memRead s.mem (key + 0x740 + 8 * r.toNat) 8)) ∧
      ∀ r : BitVec 6, vGet r k.vregs = BitVec.ofNat 4096 (memRead s.mem (key + 0x2000 + 512 * r.toNat) 512)) ∧
  (s.named s.on.word = some l → s.launch? l.lid = some l → Happens .pterm s fun t => t.mem = s.mem ∧
    (now t l.lid fun m => m.stage = .retired ∧ m.status = 3) ∧
    (l.holdsCores = true → ∀ c ∈ l.cores, (t.core c).helm.ended = true ∧ (t.core c).accesses = [] ∧ (t.core c).copies = [])) ∧
  (s.named s.on.word = none → Happens .pterm s fun t => t = s) ∧
  (s.named s.on.word = some l → s.launch? l.lid = some l → l.stage = .running → Happens .ppre s fun t => t.cores = s.cores ∧
    now t l.lid fun m => ∃ i, m.preempt = some i ∧ s.now < i ∧ i ≤ s.now + 64) ∧
  (s.named s.on.word = none → Happens .ppre s fun t => t = s)

/-- 12 R363, R370-R372, R377-R380, R383, 11 R336, 13 R413: the supervisor's controls. The event's subject names the purser's tile (`a`), the context (`b`)
and the resource (`c`), or the register's number and value. 10 R296, 11 R336, 12 R363, R383: grants. A grant makes the context the owner; a revocation
takes the resource from it, but a grant or revocation that would take one that a running launch holds raises operand range at the purser and changes
nothing; a service landing is never granted; a quay's owner is its header's CTX, and a header with a reserved bit set is not registered. 12 R370-R372: shootdowns. `pshoot` drops the entries of the range in every unit; once nothing is in
flight in the range every peer of the mask is asked, and the shootdown completes when each has acknowledged or is revoked; a peer silent for 640 µs
from being asked (notes/assumptions/41.md) is revoked under each of its names, and its log goes to it on its return, under quarantine until its
acknowledgment (O42). A record that a register reads from its stack raises on the purser where it is poison. Where a quay's header stands is the model's
choice (notes/assumptions/3.md). Which of two escalated traps of a
core a `presume` answers is the model's (notes/assumptions/21.md), and how BAR2 gets its base (notes/assumptions/30.md). -/
def Obligations.SupervisorEvents : Prop :=
  (∀ (s : State) (v : Word) (f : TrapInfo) (st : Stopped) (c esc : Nat) (rest : List (Nat × Nat)),
     let tile := s.on.a
     let w := s.on.word
     let named := coordCore w
     let k := s.core named
     let sel := (s.tile tile).selected
     let r : SReg := BitVec.ofNat 6 s.on.b
     let rests := (s.core sel.1).stopped = true ∧ ((s.core sel.1).handler = none ∨ (s.core sel.1).inHandlerFault ≠ none)
     let clean := fun (a : Nat) => s.readBad (pkey 0 a) 64 = false
     let ofX := ∃ x, k.xEscalated = some x ∧ (k.escalated = none ∨ x = (s.tile tile).ptrec.toNat)
     (k.escalated = none → k.xEscalated = none → Happens .presume s fun t => t = s) ∧
     (∀ x i l p, k.xEscalated = some x → (k.escalated = none ∨ x = (s.tile tile).ptrec.toNat) → k.lid = some i → s.launch? i = some l → l.xing = some p →
       clean x → Happens .presume s fun t => t.mem = s.mem ∧ (t.core named).xEscalated = none ∧
         (t.core named).sregs = k.sregs ∧ (t.core named).handler = k.handler ∧ (t.core named).helm = k.helm ∧
         (k.handler ≠ none ∨ k.trapped ≠ none → t.core named = { k with xEscalated := none }) ∧
         (k.handler = none → k.trapped = none → k.ls.wf = true → k.trec.toNat + 64 ≤ 0x400000 →
           memBytes (t.core named).ls k.trec.toNat 64 = memBytes s.mem x 64) ∧ ∃ m y, t.launch? i = some m ∧ m.xing = some y ∧
         y.stopped = false ∧ y.prog.pc = BitVec.ofNat 64 (recField (memBytes s.mem x 64) 8 8)) ∧
     (¬ ofX → k.escalated = some esc → ¬ clean esc → Happens .presume s fun t => t.Raised (purserOf tile) (cause 5 4 1) ∧
       (named ≠ purserOf tile → t.core named = k)) ∧
     (¬ ofX → k.escalated = some esc → clean esc → k.inHandlerFault = some f → Happens .presume s fun t => t.mem = s.mem ∧ (t.core named).inHandlerFault = none ∧
       (t.core named).escalated = none ∧ (t.core named).helm.pc = BitVec.ofNat 64 (recField (memBytes s.mem esc 64) 8 8) ∧
       ∀ d, d ≠ named → t.core d = s.core d) ∧
     (¬ ofX → k.escalated = some esc → clean esc → k.inHandlerFault = none → k.handler = none → k.trapped = some st → Happens .presume s fun t => t.mem = s.mem ∧
       (t.core named).escalated = none ∧ (t.core named).trapped = none ∧ (t.core named).stopped = false ∧ ∀ d, d ≠ named → t.core d = s.core d) ∧
     ((s.tile tile).pintr = none → Happens .pintr s fun t => (t.tile tile).pintr = some w ∧ t.cores = s.cores) ∧
     ((s.tile tile).pintr = some v → Happens .pintr s fun t => (t.tile tile).pintr = none ∧
       (t.core (coordCore v)).interrupt = some (BitVec.ofNat 32 (bits v 47 16), w.toNat)) ∧
     ((s.tile tile).trapq = (c, esc) :: rest → r ≠ 0 → (s.core (purserOf tile)).handler = none → Happens .ptrapq s fun t =>
       (t.tile tile).trapq = rest ∧ (t.tile tile).ptrec = BitVec.ofNat 64 esc ∧
       vGet r (t.core (purserOf tile)).sregs = BitVec.ofNat 64 (2 ^ 63 + coreX c + 256 * coreY c)) ∧
     ((s.tile tile).trapq = [] → r ≠ 0 → (s.core (purserOf tile)).handler = none → Happens .ptrapq s fun t =>
       vGet r (t.core (purserOf tile)).sregs = 0) ∧
     ((s.core sel.1).stopped = false ∨ ((s.core sel.1).handler ≠ none ∧ (s.core sel.1).inHandlerFault = none) →
       Happens .pcdat s fun t => t.Raised (purserOf tile) (cause 0 5 2)) ∧
     (rests → s.on.flag = true → sel.2 ≠ 0 → Happens .pcdat s fun t =>
       vGet sel.2 (t.core sel.1).sregs = (s.core (purserOf tile)).sreg .helm r ∧
         (t.core sel.1).stoppedScalar sel.2 = (s.core (purserOf tile)).sreg .helm r) ∧
     (rests → s.on.flag = false → r ≠ 0 → (s.core (purserOf tile)).handler = none → Happens .pcdat s fun t =>
       vGet r (t.core (purserOf tile)).sregs = (s.core sel.1).stoppedScalar sel.2) ∧
     (Happens .contextRootChange s fun t => (t.ctx s.on.a).root = w ∧ ∀ i, ∀ u ∈ (t.tile i).tu, u.1 = s.on.a → overlaps u.2.1 u.2.2.size 0 (2 ^ 48) = false) ∧
     (s.on.flag = true → Happens .registerWrite s fun t => t = s.modCtx ((s.tile tile).psel % 16) fun x => { x with bar2 := w.toNat }) ∧
     (s.on.flag = false →
       (s.on.b = 0x800 → Happens .registerWrite s fun t => (t.tile tile).psel = bits w 3 0 ∧ t.mem = s.mem ∧ t.cores = s.cores) ∧
       (s.on.b = 0x81B → Happens .registerWrite s fun t => (t.tile tile).ptvec = w ∧ t.mem = s.mem ∧ t.cores = s.cores) ∧
       (∀ i, i < 8 → s.on.b = regSpace + 0x10000 + 256 * i → Happens .registerWrite s fun t => t.mem = s.mem ∧ t.cores = s.cores ∧
         (t.stack i).hcethr = if 1 ≤ w.toNat ∧ w.toNat ≤ 65535 then w.toNat else (s.stack i).hcethr))) ∧
  (∀ s : State,
     let tile := s.on.a
     let x := s.on.b
     let n := s.on.c
     let refused := fun (t : State) => t.Raised (purserOf tile) (cause 0 5 2) ∧ t.landings = s.landings ∧ t.handles = s.handles
     let free := fun (o : Option Nat) (held : Bool) => o = none ∨ o = some x ∨ held = false
     (isService n = true → s.landingHeld n = false → Happens .pgrantLanding s (· = s)) ∧
     (n ≤ 131 → isService n = false →
       (free (s.landing n).owner (s.landingHeld n) → Happens .pgrantLanding s fun t =>
         (t.landing n).owner = some x ∧ ∀ m, m ≤ 131 → m ≠ n → t.landing m = s.landing m) ∧
       (¬ free (s.landing n).owner (s.landingHeld n) → Happens .pgrantLanding s refused) ∧
       ((s.landing n).owner = some x → s.landingHeld n = true → Happens .prevokeLanding s refused) ∧
       (s.landingHeld n = false → Happens .prevokeLanding s fun t =>
         (t.landing n).owner = if (s.landing n).owner = some x then none else (s.landing n).owner)) ∧
     (n < 64 →
       (free (s.handle n).owner (s.handleHeld n) → Happens .pgrantHandle s fun t =>
         (t.handle n).owner = some x ∧ ∀ m, m < 64 → m ≠ n → t.handle m = s.handle m) ∧
       (¬ free (s.handle n).owner (s.handleHeld n) → Happens .pgrantHandle s refused) ∧
       ((s.handle n).owner = some x → s.handleHeld n = true → Happens .prevokeHandle s refused) ∧
       (s.handleHeld n = false → Happens .prevokeHandle s fun t =>
         (t.handle n).owner = if (s.handle n).owner = some x then none else (s.handle n).owner)) ∧
     (n < 64 → x < 16 → (Happens .pgrantGroup s fun t => (t.group n).ownedBy x = true) ∧ Happens .prevokeGroup s fun t => (t.group n).ownedBy x = false) ∧
     (n < 64 → x < 16 →
       (s.headerReserved n = true → Happens .pgrantQuay s fun t => t.Raised (purserOf tile) (cause 0 5 1) ∧ t.quays = s.quays ∧ t.mem = s.mem) ∧
       (s.headerReserved n = false → (s.quays.filter fun q => s.quayCtx q.1 == some x && q.1 != n).length < 4 → s.mem.wf = true →
         s.mappedOut (quayHeader n / 64) = false → Happens .pgrantQuay s fun t => t.quayCtx n = some x ∧ memRead t.mem (quayHeader n + 26) 1 = x ∧
           ∀ a, a ≠ quayHeader n + 26 → memGet t.mem a = memGet s.mem a) ∧
       (s.headerReserved n = false → (s.quays.filter fun q => s.quayCtx q.1 == some x && q.1 != n).length ≥ 4 → Happens .pgrantQuay s (· = s)) ∧
       Happens .prevokeQuay s fun t => t.quayCtx n ≠ some x ∧ t.mem = s.mem)) ∧
  (∀ (s : State) (x : Shoot) (ap : Nat),
     let dropped := fun (t : State) (ctx va len : Nat) => ∀ i, ∀ u ∈ (t.tile i).tu, u.1 = ctx → overlaps u.2.1 u.2.2.size va len = false
     let r := memBytes s.mem (pkey 0 s.on.word.toNat) 64
     (s.readBad (pkey 0 s.on.word.toNat) 64 = true → Happens .pshoot s fun t => t.Raised (purserOf s.on.a) (cause 5 4 1) ∧ t.shoots = s.shoots) ∧
     (s.readBad (pkey 0 s.on.word.toNat) 64 = false → Happens .pshoot s fun t => (t.tile s.on.a).pshst = 0 ∧ dropped t (recField r 0 1 % 16) (recField r 8 8) (65536 * recField r 16 4) ∧
       ∃ y, t.shoots = s.shoots ++ [y] ∧ y.id = s.nextShoot ∧ y.ctx = recField r 0 1 % 16 ∧ y.va = recField r 8 8 ∧ y.pages = recField r 16 4 ∧
         y.sent = false ∧ y.ranges = s.rangesOf y.ctx y.va (65536 * y.pages)) ∧
     (s.shoots.find? (·.id == s.on.a) = some x →
       (s.inFlight x.ctx x.va (65536 * x.pages) = false →
         ((∀ p ∈ x.mask, p ∈ x.lost) → Happens .shootdownComplete s fun t =>
           (t.tile x.tile).pshst = x.status ∧ dropped t x.ctx x.va (65536 * x.pages) ∧ ∀ y ∈ t.shoots, y.id ≠ s.on.a) ∧
         (x.sent = false → (∃ p ∈ x.mask, p ∉ x.lost) → Happens .shootdownComplete s fun t => t.tiles = s.tiles ∧
           t.outbox = s.outbox ++ (x.mask.map fun p => (p, Note.shootdown x.id x.ranges)) ∧
           ∃ y, t.shoots.find? (·.id == s.on.a) = some y ∧ y = { x with sent := true, at_ := s.wall })) ∧
       (x.sent = true → s.on.b ∈ x.mask → s.on.b ∉ x.lost → x.at_ + nsUnits 640000 ≤ s.wall ∨ s.expired = true → Happens .peerUnreachable s fun t =>
         (∀ e, e = s.on.b ∨ (e ∈ s.apertures.map (·.1) ∧ s.samePeer e s.on.b = true) →
           (t.aperture e).revoked = true ∧ (t.aperture e).quarantine = true ∧ ∀ y ∈ t.shoots, y.id = x.id → e ∈ y.lost) ∧
         (t.aperture s.on.b).log = (s.aperture s.on.b).log ++ x.ranges)) ∧
     ((s.aperture s.on.a).quarantine = true → (s.aperture s.on.a).replayed = false → s.inMinute = true → s.facesPeer s.on.a = true →
       Happens .pendingInvalidationReplay s fun t => t.aperture s.on.a = { s.aperture s.on.a with replayed := true } ∧
         (s.samePeer ap s.on.a = false → t.aperture ap = s.aperture ap)))

/-- 01 R24, 09 R281, 11 R336, R337, 12 R368, R385, R386: event records, interrupts, and accesses from the host and from peers. A ring's interrupt goes by
its vector, and one behind the vector's mask waits (PRESUMED, notes/assumptions/36.md); a function's BAR0 presents its status page, its quays' headers,
its read index and its MSI-X table, of which the host writes the last two, the read index to the write index at most (DESIGN CHOICE,
notes/assumptions/52.md; where a quay's header stands, 3.md); an access that may not be made writes nothing and is counted; any other is performed
whole at its home, a peer's in a service minute, or in a program's portion in which the peer is faced. -/
def Obligations.HostEvents : Prop := ∀ (s : State) (l : Leaf) (a n : Nat) (b : List Byte),
  let ring := s.on.a
  let x := s.ring ring
  let ctx := s.on.a % 16
  let acc := s.on.access
  let va := (s.ctx ctx).bar2 + a
  let refused := fun (t : State) => t.mem = s.mem ∧ (t.ctx ctx).refused = (s.ctx ctx).refused + 1
  let opened := fun (key len : Nat) => s.mem.wf = true ∧ ∀ g ∈ granulesOf key len, s.mappedOut g = false
  let comes := (s.inMinute = true ∧ ∃ p ∈ s.apertures, p.2.valid = true ∧ s.facesPeer p.1 = true) ∨
    (3000 ≤ s.hourOff ∧ s.expired = false ∧ ∃ p ∈ s.apertures, p.2.valid = true ∧ p.2.rack = s.on.a ∧ s.facesPeer p.1 = true)
  let wrote := fun (t : State) (key : Nat) (b : List Byte) => memBytes t.mem key b.length = b ∧
    ∀ i, i < key ∨ key + b.length ≤ i → memGet t.mem i = memGet s.mem i
  ((ring, s.on.b, s.on.c, s.on.d) ∈ s.events → s.newestEvent ring = none →
    (x.ringRoom = true → ring ≤ 16 → opened (x.ringKey x.ringW) 64 → Happens .eventRecord s fun t => (t.ring ring).ringW = x.ringW + 1 ∧
      memRead t.mem (x.ringKey x.ringW) 1 = 2 ∧ memRead t.mem (x.ringKey x.ringW + 16) 8 = s.on.c % 2 ^ 64 ∧
      t.events = s.events.erase (ring, s.on.b, s.on.c, s.on.d)) ∧
    (x.ringRoom = false → ring ≤ 16 → Happens .eventRecord s fun t => t.mem = s.mem ∧ (t.ring ring).dropped = x.dropped + 1)) ∧
  (s.irqDue ring = true → ring ≤ 16 → Happens .msixInterrupt s fun t => (t.ring ring).sinceIrq = 0 ∧ t.mem = s.mem ∧
    let v := bits x.evtc 36 32
    if x.masked v then v ∈ (t.ring ring).irqPending ∧ (t.ring ring).irqs = x.irqs
    else tabGet (t.ring ring).irqs v = some ((tabGet x.irqs v).getD 0 + 1) ∧ v ∉ (t.ring ring).irqPending) ∧
  (s.on.flag = true →
    let gives := fun (v : Nat) => Happens .bar0Access s fun t => t = { s with answer := some (toBytes 8 v) }
    (s.on.b = 0x2000 → gives x.ringR) ∧
    (ring < 16 → (s.on.b = 0x08 → gives (s.doneUpTo ring)) ∧ (s.on.b = 0x10 → gives x.ringW) ∧ (s.on.b = 0x18 → gives s.dayc) ∧
      (s.on.b = 0x48 → gives x.dropped) ∧ (s.on.b = 0x50 → gives x.trapsTaken) ∧ (s.on.b = 0x58 → gives x.refused) ∧
      ∀ q j m, j < 64 → j % 8 = 0 → s.on.b = 0x1000 + 64 * q + j → q < 4 → (s.quaysOf ring)[q]? = some m →
        (s.readBad (pkey 0 (quayHeader m + j)) 8 = false → Happens .bar0Access s fun t =>
          t = { s with answer := some (memBytes s.mem (pkey 0 (quayHeader m + j)) 8) }) ∧
        (s.readBad (pkey 0 (quayHeader m + j)) 8 = true → Happens .bar0Access s fun t => t = { s with answer := none })) ∧
    (∀ v, 0x8000 ≤ s.on.b → s.on.b < 0x8200 → s.on.b % 8 = 0 → tabGet x.msix s.on.b = some v → gives v)) ∧
  (s.on.flag = false → ring ≤ 16 → s.on.b = 0x2000 → Happens .bar0Access s fun t =>
    (t.ring ring).ringR = min s.on.word.toNat x.ringW ∧ t.mem = s.mem) ∧
  (s.on.flag = false → ring ≤ 16 → 0x8000 ≤ s.on.b → s.on.b < 0x8200 → s.on.b % 8 = 0 → Happens .bar0Access s fun t =>
    tabGet (t.ring ring).msix s.on.b = some s.on.word.toNat ∧ t.mem = s.mem ∧
    ∀ v, s.on.b = 0x8000 + 16 * v + 8 → s.on.word.getLsbD 32 = false → v ∈ x.irqPending →
      tabGet (t.ring ring).irqs v = some ((tabGet x.irqs v).getD 0 + 1) ∧ v ∉ (t.ring ring).irqPending) ∧
  (s.on.flag = false → s.on.b ≠ 0x2000 → s.on.b < 0x8000 ∨ 0x8200 ≤ s.on.b ∨ s.on.b % 8 ≠ 0 → Happens .bar0Access s fun t => t = s) ∧
  (acc = .read a n →
    (bar2Size < a + n → Happens .bar2Access s refused) ∧
    (a + n ≤ bar2Size → ∀ z, s.translate 0 ctx va .read false = .bad z → Happens .bar2Access s refused) ∧
    (a + n ≤ bar2Size → s.translate 0 ctx va .read false = .ok l → l.ap ≠ 0 → Happens .bar2Access s refused) ∧
    (a + n ≤ bar2Size → s.translate 0 ctx va .read false = .ok l → l.ap = 0 → va % l.size + n ≤ l.size → Happens .bar2Access s fun t =>
      t.mem = s.mem ∧ t.answer = if s.readBad (l.key va) n = true then none else some (memBytes s.mem (l.key va) n)) ∧
    (comes → Happens .remoteAccessRequest s fun t => t.mem = s.mem ∧ t.answer =
      if s.namesPeer s.on.a = true ∧ backed a = true ∧ backed (a + n - 1) = true ∧ s.readBad a n = false then some (memBytes s.mem a n) else none)) ∧
  (∀ v, acc = .fetchAdd a v → a + 8 ≤ bar2Size → s.translate 0 ctx va (.atomic false) false = .ok l → l.ap = 0 → va % l.size + 8 ≤ l.size →
    olderEpoch (s.ctx ctx).epoch (s.fresh l).epoch = false → opened (l.key va) 8 → s.readBad (l.key va) 8 = false → Happens .bar2Access s fun t =>
      wrote t (l.key va) (toBytes 8 (memRead s.mem (l.key va) 8 + v.toNat)) ∧ t.answer = some (memBytes s.mem (l.key va) 8)) ∧
  (acc = .write a b →
    (bar2Size < a + b.length → Happens .bar2Access s refused) ∧
    (a + b.length ≤ bar2Size → s.translate 0 ctx va .write false = .ok l → l.ap = 0 → va % l.size + b.length ≤ l.size →
      olderEpoch (s.ctx ctx).epoch (s.fresh l).epoch = false → opened (l.key va) b.length → Happens .bar2Access s fun t => wrote t (l.key va) b) ∧
    (comes → s.namesPeer s.on.a = false → Happens .remoteAccessRequest s fun t => t = s) ∧
    (comes → s.namesPeer s.on.a = true → backed a = true → backed (a + b.length - 1) = true → opened a b.length →
      Happens .remoteAccessRequest s fun t => wrote t a b)) ∧
  (∀ q, (s.quaysOf ctx)[s.on.b]? = some q → opened (quayHeader q) 8 → Happens .hostFetchadd s fun t =>
    wrote t (quayHeader q) (toBytes 8 (memRead s.mem (quayHeader q) 8 + s.on.word.toNat)) ∧
      (s.readBad (quayHeader q) 8 = false → t.answer = some (memBytes s.mem (quayHeader q) 8))) ∧
  ((s.quaysOf ctx)[s.on.b]? = none → Happens .hostFetchadd s refused)

/-- 01 R14, R16, R27, 10 R324, R330, 12 R385, 13 R412: the core clock and boot. A limit that is passed takes the clock down by 0.25 GHz at a time, to
1.0 GHz, each change holding every running launch for 4 µs of wall-clock time at most, and 10 ms there traps every running launch; 100 ms within both
limits take it up again; a cold boot trains every stack and brings up every landing, and a warm reset keeps memory and what has been mapped out
(PRESUMED, notes/assumptions/13.md, as is the form of the CRC-32 beside the stored training values). That memory is empty after a cold boot is the
model's choice (notes/assumptions/1.md). That the thermal trap comes on every core is DEDUCED (notes/assumptions/18.md); where a purser's firmware starts is
open (notes/assumptions/7.md). -/
def Obligations.ClockEvents : Prop := ∀ (s : State) (l : Launch) (n : Nat),
  let down := s.on.flag
  let decided := fun (t : State) (b : Bool) => ∃ d, t.clockDue = some d ∧ s.now < d ∧ d ≤ s.now + 512 ∧
    ∃ e ∈ t.agenda, e.ev = .clockChange ∧ e.on.flag = b ∧ e.at_ = d
  let pursers := fun (t : State) => (∀ c, (∀ i, i < 8 → c ≠ purserOf i) → t.core c = {}) ∧ ∀ i, i < 8 → match Config.purserStart i with
    | none => t.core (purserOf i) = {}
    | some a => (t.core (purserOf i)).helm.pc = BitVec.ofNat 64 a ∧ (t.core (purserOf i)).helm.ended = false
  (down = true → s.hot = false → Happens .thermalOrPower s fun t => t.hot = true ∧ t.limitAt = s.wall ∧
    (∀ i, i < 8 → (16, cause 5 7 7, i, 0) ∈ t.events) ∧
    (4 < s.clock → s.clockDue = none → decided t true)) ∧
  (down = true → s.hot = true → Happens .thermalOrPower s fun t => t = s) ∧
  (down = false → Happens .thermalOrPower s fun t => t.hot = false ∧ t.cores = s.cores ∧ t.clock = s.clock ∧
    (s.hot = true → t.limitAt = s.wall ∧ t.thermal = false)) ∧
  (s.clockDue = some n → (down = true ∧ s.hot = true ∧ 4 < s.clock) ∨ (down = false ∧ s.hot = false ∧ s.clock < 8) →
    Happens .clockChange s fun t => t.clock = (if down then s.clock - 1 else s.clock + 1) ∧
      (s.hot = true → 4 < t.clock → decided t true) ∧
      (s.launch? l.lid = some l → l.stage = .running → (∀ c ∈ l.cores, (t.core c).frozen = true ∧ (t.core c).held = true) ∧
        ∃ m i, t.launch? l.lid = some m ∧ m.frozenUntil = some i ∧ s.wall < i ∧ i ≤ max (s.wall + nsUnits 4000) (l.frozenUntil.getD 0))) ∧
  (s.clockDue = some n → (down = true ∧ (s.hot = false ∨ s.clock ≤ 4)) ∨ (down = false ∧ (s.hot = true ∨ 8 ≤ s.clock)) →
    Happens .clockChange s fun t => if s.hot = true ∧ 4 < s.clock then t.clock = s.clock ∧ t.cores = s.cores ∧ decided t true
      else t = { s with clockDue := none }) ∧
  (s.hot = false → s.clock < 8 → s.clockDue = none → s.limitAt + nsUnits 100000000 ≤ s.wall → Happens .clockRestore s (decided · false)) ∧
  (s.hot = true → s.clock = 4 → s.thermal = false → s.lowAt + nsUnits 10000000 ≤ s.wall → Happens .thermalTrap s fun t => t.thermal = true ∧
    (l ∈ s.launches → l.stage = .running → ∀ c ∈ l.cores, t.Raised c (cause 5 7 7))) ∧
  (Happens .coldBoot s fun t => t.booted = true ∧ t.mem = [] ∧ pursers t ∧ t.launches = [] ∧ t.clock = 8 ∧
    (∀ i, i < 8 → (t.stack i).trained = true ∧ vAt t.nv i = nvRecord (t.stack i).training) ∧ ∀ i, i < 132 → (t.landing i).stage = some 0 ∧ (t.landing i).trained = false) ∧
  (Happens .warmReset s fun t => t.booted = true ∧ t.mem = s.mem ∧ pursers t ∧ t.launches = [] ∧
    (∀ i, i < 8 → (t.stack i).trained = true ∧ (t.stack i).disarmed = [] ∧ (t.stack i).mapped = (s.stack i).mapped ∧
      (∀ v, i ∉ s.on.list → nvValues (vAt s.nv i) = some v → (t.stack i).training = v ∧ vAt t.nv i = vAt s.nv i) ∧
      (i ∈ s.on.list ∨ nvValues (vAt s.nv i) = none → vAt t.nv i = nvRecord (t.stack i).training)) ∧
    (∀ i, i < 132 → (s.landing i).failed = false → (t.landing i).stage = some 0) ∧
    ∀ i, i < 8 → (t.tile i).badCores = (s.tile i).badCores ∧ (t.tile i).map = (s.tile i).map)

/-- 01 R18, 13 R388, R392, R410, R411, R413, R417: the stack controllers and the scrubbers. An access to a row that one of its bank's four buffers holds
is no activation; it comes first of them, and a dirty row that leaves, or that is refreshed, is written back. 13 R400-R403, R416, R417: the rotation scan. A coordinate of
no running launch moves to the spare at once, another at its launch's common retirement point with every core frozen, its open phase saved; a pass makes the physical core
the spare, a fail maps it out and ends the tile's scanning. -/
def Obligations.StackEvents : Prop :=
  (∀ (s : State) (i : Nat),
     let x := s.stack s.on.a
     let y := fun (t : State) => t.stack s.on.a
     let cs := (tabGet x.mg s.on.b).getD []
     let row := s.on.c
     let m := s.on.c
     let g := s.on.a
     let pc := channelOf g
     let posted := fun (t : State) (code place stat : Nat) => (16, code, place, stat) ∈ t.events
     let armed := s.on.b ∉ x.disarmed
     let held := x.buffers s.on.b
     let miss := ∀ p ∈ held, p.1 ≠ row
     (¬ miss → Happens .misraGriesActivation s fun t => (y t).mg = x.mg ∧ (y t).refreshes = x.refreshes ∧
       (y t).buffers s.on.b = (row, s.on.flag || held.contains (row, true)) :: (held.filter (·.1 != row)).take 3) ∧
     (miss → ∀ u v w r, held = [u, v, w, (r, true)] → Happens .misraGriesActivation s fun t => (s.on.b, r) ∈ (y t).backs) ∧
     (miss → (∀ p ∈ cs, p.1 ≠ row) → cs.length < 16 → 1 < x.hmgthr → Happens .misraGriesActivation s fun t =>
       tabGet (y t).mg s.on.b = some (cs ++ [(row, 1)]) ∧ (y t).refreshes = x.refreshes) ∧
     (miss → (∀ p ∈ cs, p.1 ≠ row) → 16 ≤ cs.length → Happens .misraGriesActivation s fun t => (y t).refreshes = x.refreshes ∧
       tabGet (y t).mg s.on.b = some ((cs.map fun p => (p.1, p.2 - 1)).filter (·.2 != 0))) ∧
     (miss → cs = [(row, i)] → i + 1 < x.hmgthr → Happens .misraGriesActivation s fun t =>
       tabGet (y t).mg s.on.b = some [(row, i + 1)] ∧ (y t).refreshes = x.refreshes) ∧
     (miss → cs = [(row, i)] → x.hmgthr ≤ i + 1 → 2 ≤ row → Happens .misraGriesActivation s fun t => tabGet (y t).mg s.on.b = some [(row, 0)] ∧
       (y t).refreshes = x.refreshes ++ [(s.on.b, row - 2), (s.on.b, row - 1), (s.on.b, row + 1), (s.on.b, row + 2)]) ∧
     (s.on.flag = true → Happens .refreshWindow s fun t => t.mem = s.mem ∧ (y t).mg = x.mg ∧ (y t).refreshes = x.refreshes ∧
       (row, true) ∉ (y t).buffers s.on.b ∧ ((row, true) ∈ held → (s.on.b, row) ∈ (y t).backs ∧ (row, false) ∈ (y t).buffers s.on.b) ∧
       ∀ p, p ≠ (row, true) → p ∈ held → p ∈ (y t).buffers s.on.b) ∧
     (s.on.flag = false → Happens .refreshWindow s fun t => t.mem = s.mem ∧ (∀ b, ∀ p ∈ (y t).buffers b, p.2 = false) ∧
       (∀ b rs r, (b, rs) ∈ x.rows → (r, true) ∈ rs → (b, r) ∈ (y t).backs) ∧
       if s.on.flag2 then (y t).mg = x.mg ∧ (y t).refreshes = x.refreshes else (y t).mg = [] ∧ (y t).refreshes = []) ∧
     (s.on.flag = true → Happens .eyeMarginMeasurement s fun t => t.mem = s.mem ∧ t.cores = s.cores ∧
       ∀ pin, pin < 2048 → (y t).eyeMin.1 ≤ 255 - Config.eyeLoss s.wall s.on.a pin % 256) ∧
     (s.on.flag = false → Happens .eyeMarginMeasurement s fun t => (y t).eyeMin = (if m < x.eyeMin.1 then (m, s.on.b) else x.eyeMin) ∧
       (armed → m < x.heye → posted t (cause 5 4 5) s.on.a (s.on.b + 65536 * m) ∧ s.on.b ∈ (y t).disarmed) ∧
       (¬ (armed ∧ m < x.heye) → t.events = s.events) ∧ (min (x.heye + 8) 255 ≤ m → ¬ (armed ∧ m < x.heye) → s.on.b ∉ (y t).disarmed)) ∧
     (s.on.b < 64 → Happens .hpcout s fun t => s.on.b ∈ (y t).mapped ∧ posted t (cause 5 4 6) s.on.a 0 ∧ t.pkstat = s.pkstat ||| 1#4) ∧
     (64 ≤ s.on.b → Happens .hpcout s fun t => t = s) ∧
     (Happens .heyemin s fun t => (y t).eyeMin = (255, x.eyeMin.2)) ∧
     (Happens .correctedCountHour s fun t => (y t).corrected = [] ∧ (y t).hcecnt = largest x.corrected) ∧
     (s.on.flag2 = true → Happens .patrolScrub s (· = s) ∧ Happens .localStoreScrub s (· = s)) ∧
     (s.on.flag2 = false → Happens .patrolScrub s fun t => t.mem = s.mem ∧ (∀ p ∈ t.bad, p.1 ≠ g) ∧
       (s.on.flag = true → posted t (cause 5 4 0) (stackOf (64 * g)) 0 ∧ t.poison = s.poison ∧
         tabGet (t.stack (stackOf (64 * g))).corrected pc = some ((tabGet (s.stack (stackOf (64 * g))).corrected pc).getD 0 + 1)) ∧
       (s.on.flag = false → g ∈ t.poison ∧ posted t (cause 5 4 2) (stackOf (64 * g)) 0)) ∧
     (s.on.flag2 = false → Happens .localStoreScrub s fun t => t.mem = s.mem ∧ (t.core s.on.a).ls = (s.core s.on.a).ls ∧
       (s.on.flag = true → t.cores = s.cores ∧ (s.ctxOf s.on.a, cause 5 0 0, s.on.a, 0) ∈ t.events) ∧
       (s.on.flag = false → s.on.b ∈ (t.core s.on.a).lsPoison ∧ (s.ctxOf s.on.a, cause 5 0 2, s.on.a, 0) ∈ t.events))) ∧
  (∀ (s : State) (l : Launch) (p start sp : Nat),
     let tile := s.on.a
     let x := s.tile tile
     let c := scanCore tile x.scanNext
     let moved := fun (t : State) => tabGet (t.tile tile).map x.scanNext = some sp ∧ (t.tile tile).spare = none ∧
       (t.tile tile).scanning = some (x.phys x.scanNext, s.now) ∧ (t.tile tile).scanNext = (x.scanNext + 1) % 256 ∧ (t.tile tile).migrating = none
     let due := s.booted = true ∧ x.coverage = true ∧ x.scanning = none ∧ x.migrating = none ∧ x.scanAt ≤ s.wall
     (due → x.spare = some sp → s.launchOf c = none → Happens .rotationScanStep s fun t => moved t ∧ t.cores = s.cores ∧ t.mem = s.mem) ∧
     (due → x.spare = some sp → s.launchOf c = some l → l.stage ≠ .running → Happens .rotationScanStep s fun t =>
       moved t ∧ t.cores = s.cores ∧ t.mem = s.mem) ∧
     (due → x.spare = some sp → s.launchOf c = some l → l.stage = .running → Happens .rotationScanStep s fun t =>
       (t.tile tile).migrating = some c ∧ (t.tile tile).map = x.map ∧ t.cores = s.cores) ∧
     (x.migrating = some p → x.spare = some sp → s.launchOf p = none ∨ (s.launchOf p = some l ∧ l.stage ≠ .running) →
       Happens .rotationMigration s fun t => moved t ∧ t.cores = s.cores ∧ t.mem = s.mem) ∧
     (x.migrating = some p → x.spare = some sp → s.launchOf p = some l → l.stage = .running → l.frozenUntil = none →
       (∀ d ∈ l.cores, (s.core d).atRetire = true) → Happens .rotationMigration s fun t => moved t ∧
         (∀ d ∈ l.cores, (t.core d).frozen = true ∧ (t.core d).held = true ∧ (s.core d).SameFiles (t.core d)) ∧
         ((s.core p).phase = none → t.mem = s.mem) ∧
         (∀ f, (s.core p).phase = some f → s.mem.wf = true →
           let at_ := s.imageKey l.ctx (l.cores.findIdx (· == p)) + 0xA4000
           (∀ g ∈ granulesOf at_ f.bytes.length, s.mappedOut g = false) → memBytes t.mem at_ f.bytes.length = f.bytes) ∧
         ∃ m i, t.launch? l.lid = some m ∧ m.frozenUntil = some i ∧ s.wall < i ∧ i ≤ s.wall + nsUnits 10000) ∧
     (x.scanning = some (p, start) → Happens .scanPass s fun t => (t.tile tile).spare = some p ∧ (t.tile tile).scanning = none ∧
       ∀ i, (s.ctx i).active = true → (s.ctx i).beginAt ≤ start → 257 * tile + p ∈ (t.ctx i).scanned ∧
         ((∀ q ∈ (s.ctx i).activeProducers, q ∈ (s.ctx i).scanned ∨ q = 257 * tile + p) → (t.ctx i).verified = true)) ∧
     (x.scanning = some (p, start) → Happens .scanFail s fun t => (t.tile tile).spare = none ∧ (t.tile tile).coverage = false ∧
       p ∈ (t.tile tile).badCores ∧ (16, cause 5 3 3, tile, p) ∈ t.events ∧ t.pkstat = s.pkstat ||| 1#4 ∧
       ∀ i, i < 16 → (257 * tile + p ∈ (s.ctx i).producers ∨ (s.ctx i).active = true ∧ 257 * tile + p ∈ (s.ctx i).activeProducers) →
         (i, cause 5 3 3, tile, p) ∈ t.events ∧ ((s.ctx i).active = true → (t.ctx i).failed = true)))

/-- 08 R247, 13 R404-R409: snapshots of context `a`. A begin is refused or waits for every core's retirement point; at it the epoch advances; a first
write and the drain copy a page to its slot in the pool, the drain page by page (where a slot and the map stand in the pool is the model's choice,
notes/assumptions/47.md); a commit writes the root word that names the new descriptor; a restore takes every page back. -/
def Obligations.SnapshotEvents : Prop := ∀ (s t' : State) (k : BitVec 8) (l : Leaf) (sh : Shadow) (p : ShadowPage),
  let n := s.on.a
  let x := s.ctx n
  let y := fun (t : State) => t.ctx n
  let refused := fun (t : State) => (y t).refusedCmd = true ∧ (y t).epoch = x.epoch ∧ (y t).active = x.active ∧ t.mem = s.mem
  let root := x.snroot.toNat
  let writable := s.mem.wf = true ∧ ∀ g ∈ granulesOf root 48, s.mappedOut g = false
  let committed := fun (t : State) (bit17 : Nat) => (y t).active = false ∧ (y t).committed = x.epoch ∧ (y t).commitValid = true ∧
    memRead t.mem root 8 = (if (s.rootWord n).getLsbD 0 then 0 else 1) + 256 * x.epoch.toNat + 65536 + bit17 ∧
    memRead t.mem (root + if (s.rootWord n).getLsbD 0 then 16 else 32) 8 = x.epoch.toNat ∧ t.cores = s.cores
  (BitVec.ofNat 8 s.on.b ≠ x.epoch + 1 ∨ x.active = true ∨ x.restoring = true ∨ x.failed = true → Happens .sncmdBegin s refused) ∧
  (BitVec.ofNat 8 s.on.b = x.epoch + 1 → x.active = false → x.restoring = false → x.failed = false → Happens .sncmdBegin s fun t =>
    (y t).refusedCmd = false ∧ (y t).pendingBegin = some (BitVec.ofNat 8 s.on.b) ∧ (y t).epoch = x.epoch ∧
    ∀ q ∈ s.launches, q.ctx = n → q.stage = .running → ∀ c ∈ q.cores, c ∈ (y t).beginPts) ∧
  (x.pendingBegin = some k → x.beginPts = [] → Happens .snapshotBeginPoint s fun t => (y t).epoch = k ∧ (y t).active = true ∧
    (y t).drained = false ∧ (y t).pendingBegin = none ∧ (y t).activeProducers = x.producers ∧ (y t).producers = [] ∧ t.mem = s.mem ∧
    ∀ c, ∃ cs, t.core c = { s.core c with copies := cs }) ∧
  (s.lookup 0 n s.on.b = .ok l → s.copyDue n (s.fresh l) = true → s.imageDone n = true → s.copyToShadow n s.on.b (s.fresh l) x.epoch = some t' →
    let base := s.on.b / l.size * l.size
    Happens .snapshotCopyOnWrite s fun t => (y t).slots = (t'.ctx n).slots ∧
      (s.mem.wf = true → (∀ g ∈ granulesOf l.home 8, s.mappedOut g = false) → (memRead t.mem l.home 8 / 256) % 256 = x.epoch.toNat) ∧
      ∀ i, x.slots.find? (·.va == base) = none → s.slotPlace n l.units = some i →
        let at_ := x.slotKey ⟨x.epoch, i⟩
        (∃ q ∈ (y t).slots, q.va = base ∧ q.a = some ⟨x.epoch, i⟩ ∧ q.b = none) ∧
        (s.mem.wf = true → (∀ g ∈ granulesOf at_ l.size, s.mappedOut g = false) → l.home + 8 ≤ at_ ∨ at_ + l.size ≤ l.home →
          ∀ j, j < l.size → memGet t.mem (at_ + j) = memGet s.mem (pkey 0 l.page + j))) ∧
  (x.active = true → x.drained = false → x.drainAt ≤ s.now → s.imageDone n = true → s.writableLeaves n = [] → Happens .snapshotDrain s fun t =>
    (y t).drained = true ∧ t.mem = s.mem ∧ t.cores = s.cores) ∧
  (x.active = true → x.drained = false → x.drainAt ≤ s.now → s.imageDone n = true → s.writableLeaves n = [(s.on.b, l)] → l.epoch = x.epoch - 1 →
    (x.drainNext ≠ some s.on.b → Happens .snapshotDrain s fun t => (y t).drained = false ∧ (y t).drainNext = some s.on.b ∧
      (y t).drainAt = s.now + 4096 * (l.size / 65536) ∧ (y t).pagesLeft = l.size / 65536 ∧ t.mem = s.mem) ∧
    (x.drainNext = some s.on.b → s.copyToShadow n s.on.b l x.epoch = some t' → Happens .snapshotDrain s fun t =>
      (y t).drained = true ∧ (y t).slots = (t'.ctx n).slots ∧
      (s.mem.wf = true → (∀ g ∈ granulesOf l.home 8, s.mappedOut g = false) → (memRead t.mem l.home 8 / 256) % 256 = (x.epoch - 2).toNat))) ∧
  (x.active = true → x.drained = true → x.verified = true → x.failed = false → writable → Happens .snapshotCommit s fun t => committed t 0) ∧
  (x.active = true → x.drained = true → x.failed = false → writable → Happens .sncmdCommitUnverified s fun t =>
    committed t 131072 ∧ (y t).refusedCmd = false) ∧
  (x.active = false ∨ x.drained = false ∨ x.failed = true → Happens .sncmdCommitUnverified s refused) ∧
  ((∃ q ∈ s.launches, q.ctx = n ∧ q.stage = .running) ∨ (s.rootWord n).getLsbD 16 = false → Happens .sncmdRestore s refused) ∧
  ((∀ q ∈ s.launches, q.ctx = n → q.holdsCores = false) → (s.rootWord n).getLsbD 16 = true → Happens .sncmdRestore s fun t =>
    (y t).restoring = true ∧ (y t).refusedCmd = false ∧ t.mem = s.mem) ∧
  (x.restoring = true → Happens .snapshotRestoreEnd s fun t => let c : BitVec 8 := (s.rootWord n).extractLsb' 8 8
    (y t).restoring = false ∧ (y t).active = false ∧ (y t).epoch = c ∧ (y t).committed = c ∧ (y t).producers = [] ∧ t.cores = s.cores ∧
    (s.writableLeaves n = [(s.on.b, l)] → x.slots.find? (·.va == s.on.b) = some p → p.a = some sh → p.b = none → atOrBelow c sh.label = true →
      s.mem.wf = true → (∀ g ∈ granulesOf (pkey 0 l.page) l.size, s.mappedOut g = false) → l.home + 8 ≤ pkey 0 l.page ∨ pkey 0 l.page + l.size ≤ l.home →
      (∀ i, i < l.size → memGet t.mem (pkey 0 l.page + i) = memGet s.mem (x.slotKey sh + i)) ∧
      (l.page % 64 = 0 → (∀ g ∈ granulesOf (x.slotKey sh) l.size, g ∉ s.poison ∧ s.mappedOut g = false ∧ ∀ b, (g, b) ∉ s.bad) →
        ∀ g ∈ granulesOf (pkey 0 l.page) l.size, g ∉ t.poison)))

/-- 08 R232, R237-R255, R260, 10 R317-R319, R322, R333, 12 R376: copy commands after issue, `k` being a command of core `a`. A command passes translation,
or its stream goes back to its word with its fault 512 cycles after its issue, as it does in timed mode where its walks still run; a byte that no stack
backs is not mapped; a completed one has moved its bytes and joins its channel's completed ones; a CSEND goes whole into the oldest binding, waits in the
landing's arrival buffer where there is none, or leaves by a fibre landing with the poison of its rows, and completes when every destination has
acknowledged it, with its trap where its source was poisoned. That all bytes of a command are read and land in the one step of its completion is the
model's choice (notes/assumptions/29.md). -/
def Obligations.CopyEvents : Prop := ∀ (s : State) (k b : CopyCmd) (f : TrapInfo) (x : Span) (l : Leaf) (n : Nat) (r : List Byte),
  let c := s.on.a
  let q := s.core c
  let done := fun (t : State) => (∀ j ∈ (t.core c).copies, j.id = k.id → j.finished = true) ∧
    (k.ident = vAt q.chst k.ch + 1 → k.ident ≤ vAt (t.core c).chst k.ch)
  let badAt := fun (axis z : Nat) => Happens .copyTranslation s fun t =>
    t.mem = s.mem ∧ ∃ j ∈ (t.core c).copies, j.id = k.id ∧ ∃ i, j.fault = some i ∧ i.code = (if z = poisonC then cause 5 4 1 else cause 1 axis z) ∧
      i.va = BitVec.ofNat 64 n
  let back := fun (t : State) => t.mem = s.mem ∧ (∀ j ∈ (t.core c).copies, j.id = k.id → j.reissued = true) ∧ (t.core c).cpy = k.before
  q.copy? s.on.b = some k → k.finished = false →
    (k.virt = true → k.xlated = false → k.fault = none → k.xlatAt ≤ q.time → k.kind = .box →
      (k.reads = [] → k.writes = [n] → s.translate (tileOf c) (s.ctxOf c) n .write false = .ok l → touchesHole (k.runs true) l n = false →
        Happens .copyTranslation s fun t => t.mem = s.mem ∧ ∃ j ∈ (t.core c).copies, j.id = k.id ∧ j.xlated = true ∧ j.pages = [(n, l)]) ∧
      (k.reads = [] → k.writes = [n] → s.lookup (tileOf c) (s.ctxOf c) n = .ok l → touchesHole (k.runs true) l n = true → badAt 4 0) ∧
      (∀ z, k.reads = [] → k.writes = [n] → s.translate (tileOf c) (s.ctxOf c) n .write false = .bad z →
        (s.lookup (tileOf c) (s.ctxOf c) n = .ok l → touchesHole (k.runs true) l n = false) →
        (s.lookup (tileOf c) (s.ctxOf c) n = .ok l ∨ s.lookup (tileOf c) (s.ctxOf c) n = .bad z) → badAt 4 z) ∧
      (∀ z, k.reads = [n] → s.translate (tileOf c) (s.ctxOf c) n .read false = .bad z →
        (s.lookup (tileOf c) (s.ctxOf c) n = .ok l → touchesHole (k.runs false) l n = false) →
        (s.lookup (tileOf c) (s.ctxOf c) n = .ok l ∨ s.lookup (tileOf c) (s.ctxOf c) n = .bad z) → badAt 3 z)) ∧
    (k.issued + 512 ≤ q.time → k.passed = false → q.frozen = false → q.stopped = false → q.trap = none → q.handler = none →
      (∀ j ∈ q.copies, j.id < k.id → j.passed = true ∨ j.finished = true) → k.reissued = false →
      (k.fault = some f → Happens .copyTranslation s fun t => back t ∧ f ∈ (t.core c).raised) ∧
      (k.fault = none → k.virt = true → k.xlated = false → q.time < k.xlatAt → s.timedAt c = true →
        Happens .copyTranslation s fun t => back t ∧ t.Raised c (cause 2 3 3))) ∧
    (k.fault = none → k.zero = true → k.kind ≠ .nmc → k.issued ≤ q.time → q.beforeXlat k = false → Happens .copyCompletion s fun t => done t ∧
      t.mem = s.mem ∧ (t.core c).ls = q.ls ∧ (k.kind = .send → (c, k.id) ∉ (t.handle k.handle).sends)) ∧
    (s.completes c k = true → k.zero = false → k.kind = .box → k.status = 0 → k.sk = 0 → k.dk = 0 → k.srcTile = none → k.spans = [x] →
      k.writes = [] → x.dst + x.len ≤ x.src ∨ x.src + x.len ≤ x.dst → q.lsPoison = [] → q.ls.wf = true → Happens .copyCompletion s fun t => done t ∧
        t.mem = s.mem ∧ memBytes (t.core c).ls x.dst x.len = memBytes q.ls x.src x.len ∧
        ∀ i, i < x.dst ∨ x.dst + x.len ≤ i → memGet (t.core c).ls i = memGet q.ls i) ∧
    (s.completes c k = true → k.zero = false → k.kind = .const → k.taken = some (r, []) → k.spans = [x] →
      Happens .copyCompletion s fun t => done t ∧ t.mem = s.mem ∧ ∀ i : Fin 256, (t.core c).cbank[i] =
        if x.dst ≤ i.val ∧ i.val < x.dst + x.len then BitVec.ofNat 32 (recField r (4 * (i.val - x.dst)) 4) else q.cbank[i]) ∧
    (k.kind = .send → k.zero = false → k.left = [] → k.arriveAt ≠ 0 → k.ackAt ≤ s.handleCount k.handle → (c, k.id) ∈ (s.handle k.handle).sends →
      Happens .csendAck s fun t => done t ∧ (k.status ≠ 0 → t.Owes c (if k.sk = 2 then cause 5 4 1 else cause 5 0 1)) ∧ (c, k.id) ∉ (t.handle k.handle).sends ∧ t.mem = s.mem ∧
        (t.landing (s.handle k.handle).src).acked = min (s.landing (s.handle k.handle).src).nextFlit (max (s.landing (s.handle k.handle).src).acked k.flits)) ∧
    (s.on.flag = false → s.arrivalDue c k s.on.c = true → isFibre s.on.c = true → Happens .csendDelivery s fun t => t.mem = s.mem ∧
      ((s.handle k.handle).relay = none → ∃ j ∈ (t.core c).copies, j.id = k.id ∧ j.left = k.left.filter (· != s.on.c)) ∧
      ((s.handle k.handle).relay.isSome = true → ∃ j ∈ (t.core c).copies, j.id = k.id ∧ j.gone = true ∧ j.left = k.left) ∧
      (k.sk = 0 → k.spans = [x] → 0 < x.len → k.heldAt s.on.c = [] →
        let bad := q.lsPoison.any fun p => decide (32 * p < x.src + x.len ∧ x.src < 32 * p + 32)
        (t.landing s.on.c).lastOut = some { dst := ((s.handle k.handle).relay.map (·.1)).getD (s.facing s.on.c), via := (s.handle k.handle).relay.map (·.2)
                                            runs := [((BitVec.ofNat 64 x.dst).toInt, memBytes q.ls x.src x.len, bad)] } ∧
        (bad = true → ∃ j ∈ (t.core c).copies, j.id = k.id ∧ j.status = 1))) ∧
    (s.on.flag = false → s.arrivalDue c k s.on.c = true → isFibre s.on.c = false → s.arrivalBinding k s.on.c = none → k.sk = 0 → q.lsPoison = [] →
      k.spans = [x] → k.heldAt s.on.c = [] → k.held = [] → 0 < x.len → s.buffered s.on.c + x.len + 32 ≤ 65536 → Happens .csendDelivery s fun t =>
        t.mem = s.mem ∧ ∃ j ∈ (t.core c).copies, j.id = k.id ∧ j.left = k.left ∧ (j.heldAt s.on.c).flatMap (·.2.1) = memBytes q.ls x.src x.len) ∧
    (s.on.flag = false → s.arrivalDue c k s.on.c = true → isFibre s.on.c = false → s.arrivalBinding k s.on.c = some (n, b) → n ≠ c → b.virt = false →
      b.writes = [] → k.sk = 0 → q.lsPoison = [] → k.spans = [x] → x.dst = 0 → (recvOf b.record).dk = 0 → (recvOf b.record).len = x.len → b.dk = 0 →
      k.heldAt s.on.c = [] → (s.core n).ls.wf = true → Happens .csendDelivery s fun t => (∃ j ∈ (t.core c).copies, j.id = k.id ∧ s.on.c ∉ j.left) ∧ t.mem = s.mem ∧
        memBytes (t.core n).ls (recvOf b.record).dst x.len = memBytes q.ls x.src x.len)

/-- 08 R247, R258-R260: near-memory commands, stated over a command of one element; `x` and `y` are its operands as the stack `a` holds them. A chunk
computes in FP32 or INT32, each step rounded to nearest even; the completion writes STATUS and CHUNK, and an error also traps the issuing core. 10
R298, R310, R316, R326, R327, 11 R361: handles. At S + 1,536 a handle is live, or windowed, and lost with a fault of its program and an event of its
landing's tile where its landings have not relocked; it is free 64 cycles after its last CSEND, and what waited on it is dropped (that its commands
leave their cores is the model's, notes/assumptions/34.md); its window ends. -/
def Obligations.NearMemoryEvents : Prop :=
  (∀ (s : State) (c : Nat) (k : CopyCmd),
     let n := nearOf k.record
     let x := memRead s.mem (k.key n.x) n.xw
     let y := memRead s.mem (k.key n.y) n.yw
     let r := fp32F.round .rne false
     let d := fp32F.decode
     let ran := fun (t : State) (v : Nat) => memRead t.mem (k.key n.y) n.yw = v % 256 ^ n.yw ∧
       (∀ i, i < k.key n.y ∨ k.key n.y + n.yw ≤ i → memGet t.mem i = memGet s.mem i) ∧ ∃ j ∈ (t.core c).copies, j.id = k.id ∧ j.count = 1
     let ready := fun (opc : Nat) => s.nearNext s.on.a opc = some (c, k) ∧ k ∈ (s.core c).copies ∧ k.count = 0 ∧ n.count = 1 ∧ s.mem.wf = true ∧ s.nearBad k n = [] ∧
       s.nearKeeps n n.y = false ∧ ∀ g, s.mappedOut g = false
     let record := fun (t : State) (st chunk : Nat) => (s.core c).ls.wf = true → memRead (t.core c).ls (k.recAddr + 48) 4 = st ∧
       memRead (t.core c).ls (k.recAddr + 52) 4 = chunk % 2 ^ 32
     (ready 1 → n.type = 0 → Happens .nmupd s fun t => ran t (r ((d y).add false (d (r ((d n.a).mul (d (r ((d x).add false (d (r ((d n.b).mul (d y)))))))))).neg))) ∧
     (ready 2 → n.type = 4 → Happens .nmaxpby s fun t => ran t (n.a * x + n.b * y)) ∧
     (ready 2 → n.type = 0 → Happens .nmaxpby s fun t => ran t (r ((d (r ((d n.a).mul (d x)))).add false (d (r ((d n.b).mul (d y))))))) ∧
     (ready 3 → n.type = 4 → Happens .nmred s fun t => ran t (x + y)) ∧
     (ready 3 → n.type = 0 → Happens .nmred s fun t => ran t (r ((d y).add false (d x)))) ∧
     (ready 4 → Happens .nmfill s fun t => ran t n.f) ∧
     (ready 5 → Happens .nmcpy s fun t => ran t x) ∧
     ((s.nearCmds s.on.a).find? (fun q => q.2.nearOver) = some (c, k) → Happens .nearMemoryCompletion s fun t => t.mem = s.mem ∧
       (∀ j ∈ (t.core c).copies, j.id = k.id → j.finished = true) ∧ (k.status = 0 → record t 0 0xFFFFFFFF) ∧
       (k.status ≠ 0 → record t 1 k.count ∧ t.Owes c (cause 5 4 (if k.status = 2 then 4 else 1))))) ∧
  (∀ (s : State) (l : Launch),
     let h := s.on.a
     let x := s.handle h
     (x.st = .settling → x.liveAt ≤ s.handleCount h → s.on.flag = true → Happens .handleLive s fun t => t.cores = s.cores ∧
       (t.handle h).st = if x.window = none then .live else .windowed) ∧
     (x.st = .settling → x.liveAt ≤ s.handleCount h → s.on.flag = false → Happens .handleLive s fun t => (t.handle h).st = .lost ∧
       (16, hourC, x.src, h) ∈ t.events ∧ (s.launch? x.lid = some l → t.Raised l.origin hourC)) ∧
     (x.st = .draining → x.sends = [] → x.lastDone + 64 ≤ s.handleCount h + x.aged → Happens .drainEnd s fun t => (t.handle h).st = .free ∧
       (t.handle h).owner = x.owner ∧ (∀ i, i % 64 ≠ h % 64 → t.handle i = s.handle i) ∧
       (∀ b ∈ x.bindings, ∀ j ∈ (t.core b.1).copies, j.id ≠ b.2) ∧ t.mem = s.mem) ∧
     (∀ w, x.st = .windowed → x.window = some w → w.2 ≤ s.handleCount h → Happens .windowEnd s fun t => (t.handle h).st = .live ∧
       (t.handle h).window = none ∧ ((∀ k ∈ s.colls, k.lid ≠ x.lid ∨ k.digested = false ∨ k.status ≠ none) → t.cores = s.cores) ∧
       ∀ k ∈ s.colls, k.lid = x.lid → k.digested = true → k.status = none → ∀ y ∈ s.collUsers k x, t.Owes y.core (cause 4 k.q.kindOf 6)))

/-- 11 R353-R362, 04 R128, 13 R391: collectives. `x` is the collective `a`. Member 0 compares the digests; the contributions to an element combine in
ascending member order, here for a team of two that reduces one element to both members, and that moves one; every member completes with its STATUS,
and traps where the status says so. A release combines what has come, halts at a NaN or an infinity (notes/assumptions/32.md), keeps a straggler's
shard until it comes, and tells the other packages who contributes, where it combines the same (that it travels so is the model's,
notes/assumptions/32.md). -/
def Obligations.CollectiveEvents : Prop := ∀ (s : State) (x : Coll) (y z : Member) (j k : CopyCmd) (st who : Nat),
  let ctx := match s.launch? x.lid with | some l => l.ctx | none => 0
  let now := fun (t : State) (ok : Coll → Prop) => ∃ w ∈ t.colls, w.id = x.id ∧ ok w
  let p := (collOf y.record).dst
  let q := (collOf z.record).dst
  let a := memRead s.mem (j.key (collOf y.record).src) 4
  let b := memRead s.mem (k.key (collOf z.record).src) 4
  let sgn := fun (v : Nat) => (BitVec.ofNat 32 v).toInt
  let moved := fun (i : Instr) (u v : Nat) => Happens i s fun t => t.cores = s.cores ∧ (now t fun w => w.status = some (0, 0)) ∧
    memRead t.mem (j.key p) 4 = u ∧ memRead t.mem (k.key q) 4 = v ∧
    ∀ i, (i < j.key p ∨ j.key p + 4 ≤ i) → (i < k.key q ∨ k.key q + 4 ≤ i) → memGet t.mem i = memGet s.mem i
  let pair := fun (opc srcl : Nat) => x.members = [y, z] ∧ y.m = 0 ∧ z.m = 1 ∧ x.team.2.2 = (2, 1) ∧ x.size = 2 ∧ (collOf y.record).opc = opc ∧
    (collOf y.record).type = 4 ∧ (collOf y.record).npk = 0 ∧ (collOf y.record).srcl = srcl ∧ (collOf y.record).dstl = 0 ∧
    (collOf y.record).d0 = 1 ∧ (collOf y.record).d1 = 1 ∧ (s.core y.core).copy? y.cmd = some j ∧ (s.core z.core).copy? z.cmd = some k ∧
    x.digested = true ∧ x.status = none ∧ x.released = false ∧ x.only = none ∧ x.at_ ≤ s.now ∧ s.mem.wf = true ∧ (j.key p + 4 ≤ k.key q ∨ k.key q + 4 ≤ j.key p) ∧
    (∀ g, s.mappedOut g = false) ∧ s.poison = [] ∧ s.bad = [] ∧ s.collOpen x = true
  s.coll? s.on.a = some x →
    (x.digestDue = true → s.collRuns x = true → x.agrees = true → Happens .collectiveDigest s fun t => t.mem = s.mem ∧
      now t fun w => w.digested = true ∧ w.status = none ∧ s.now < w.at_ ∧ w.at_ ≤ s.now + 65536) ∧
    (x.digestDue = true → s.collRuns x = true → x.agrees = false → Happens .collectiveDigest s fun t => t.mem = s.mem ∧ now t fun w => w.status = some (4, 0)) ∧
    (pair 1 1 → moved .collectiveSum ((a + b) % 2 ^ 32) ((a + b) % 2 ^ 32)) ∧
    (pair 2 1 → let v := if sgn a < sgn b then b else a; moved .collectiveMax v v) ∧
    (pair 3 1 → let v := if sgn b < sgn a then b else a; moved .collectiveMin v v) ∧
    (pair 4 0 → moved .collectiveMove a b) ∧
    (x.status = none → s.memberGone x s.on.b = true → Happens .memberLost s fun t => t.mem = s.mem ∧ now t fun w => w.status = some (3, s.on.b)) ∧
    (x.digested = true → x.status = none → (s.on.flag = true → s.collUsers x { src := s.on.list.headD 0, dsts := s.on.list.tail } ≠ []) → Happens .chunkRerun s fun t => t.mem = s.mem ∧ (ctx, cause 4 x.q.kindOf 3, 0, x.k) ∈ t.events ∧
      now t fun w => w.status = none ∧ s.now < w.at_) ∧
    (x.members.find? (fun w => w.m == s.on.b && s.collLate x w) = some y → Happens .collectiveDeadline s fun t => t.mem = s.mem ∧
      t.Raised y.core (cause 2 6 3) ∧ now t fun w => w.status = x.status) ∧
    (x.status = some (st, who) → x.members.find? (fun w => w.m == s.on.b && !w.done) = some y → (s.core y.core).copy? y.cmd = some k →
      Happens .collectiveCompletion s fun t => t.mem = (s.writeKept x y k).mem ∧ (tabGet x.kept y.m = none → t.mem = s.mem) ∧
        (∀ o d, tabGet x.kept y.m = some [(o, d, false)] → x.map = [] → s.mem.wf = true → (∀ g, s.mappedOut g = false) →
          memBytes t.mem (k.key ((collOf y.record).dst + o)) d.length = d) ∧ (∀ i ∈ (t.core y.core).copies, i.id = k.id → i.finished = true) ∧
        ((s.core y.core).ls.wf = true → memRead (t.core y.core).ls (k.recAddr + 40) 4 = st % 2 ^ 32 ∧
          memRead (t.core y.core).ls (k.recAddr + 44) 2 = who % 2 ^ 16) ∧
        (st = 4 → t.Owes y.core (cause 4 7 0)) ∧ (st = 3 → t.Owes y.core (cause 4 x.q.kindOf 2)) ∧
        (st = 1 → y.m = who → t.Owes y.core (cause 4 x.q.kindOf 1))) ∧
    (s.releaseDue x = true → s.collOpen x = true →
      let who := (List.range x.total).filter fun m => x.has m && (x.only.getD (List.range x.total)).contains m
      let r := { x with released := true, only := some who }
      Happens .deadlineRelease s fun t => (ctx, cause 4 x.q.kindOf 4, 0, who.length) ∈ t.events ∧ (now t fun w => w.released = true ∧ w.only = some who) ∧
        (x.q.pkl.head? = some 0 → ∀ ap ∈ x.q.pkl.take (x.q.npk + 1), ap ≠ 0 → (ap, Note.released ctx x.team x.k who) ∈ t.outbox) ∧
        (s.collHalt r = none → now t fun w => w.status = some (2, who.length) ∧
          w.map = toBytes (((x.total + 7) / 8 + 63) / 64 * 64) (who.foldl (fun n m => n + 2 ^ m) 0) ∧
          (x.q.npk = 0 → x.q.pkl.head? = some 0 → ∀ m, m < x.size → (∀ y ∈ x.members, y.m ≠ m) →
            (m, s.keptFor r m (x.elems * (x.q.width / 8))) ∈ w.kept)) ∧
        ∀ h, s.collHalt r = some h → now t fun w => w.status = some (1, h.2.2))

/-- 03 R68, R69, R87-R93, 00 R9, tier 3: every instruction of a stream's map has a word. For every well-formed instruction of a stream, with every IDLE
and every guard that R68 allows, decoding its word gives back that instruction, IDLE and guard, with every operand at every value that the format
admits. -/
def Obligations.DecodeEncode : Prop := ∀ (st : Stream) (d : Decoded),
  d.instr.wf st = true → d.gm ≠ 3 → (d.gm = 0 → d.gp = 0) → (st = .crossing → d.gm = 0) → decode st (encodeDecoded d) = .ok d

/-- 03 R68, R69, 00 R9, tier 3: each word has one meaning. A word that decodes in a stream is the very word of what it decodes to, and what it decodes to
is well formed in that stream. -/
def Obligations.EncodeDecode : Prop := ∀ (st : Stream) (w : Word) (d : Decoded),
  decode st w = .ok d → encodeDecoded d = w ∧ d.instr.wf st = true ∧ d.gm ≠ 3 ∧ (d.gm = 0 → d.gp = 0) ∧ (st = .crossing → d.gm = 0)

/-- 03 R68-R93: words that the spec writes out decode to the instructions they stand for, with their IDLE and guard, at least two of each stream; a
reserved bit, a guard of 3, and an opcode that the stream's map does not list decode to no instruction. -/
def Obligations.SpecWordsDecode : Prop :=
  decode .helm 0x0140000000000000 = .ok ⟨5, 0, 0, .nop⟩ ∧ decode .helm 0x000003E200002000 = .ok ⟨0, 0, 0, .ldi 4 0x2000⟩ ∧
  decode .helm 0x0000094140010000 = .ok ⟨0, 0, 0, .pset 5 1⟩ ∧ decode .helm 0x00000A6240000008 = .ok ⟨0, 0, 0, .brtn 9 8⟩ ∧
  decode .helm 0x00000F628C380000 = .ok ⟨0, 0, 0, .mstore 5 6 7⟩ ∧ decode .helm 0x0000132000000011 = .ok ⟨0, 0, 0, .syscall 17⟩ ∧
  decode .vector 0x0090AC0081000000 = .ok ⟨2, 1, 5, .vld ⟨1, 0, 4, 0, 0, 0⟩⟩ ∧
  decode .vector 0x01C0002100060000 = .ok ⟨7, 0, 0, .vadd ⟨2, 0, 0, 1, 2, 0, 0, 0, 0⟩⟩ ∧
  decode .vector 0x00001E2000100D14 = .ok ⟨0, 0, 0, .loops 0 (.imm 2) 3 2 20⟩ ∧
  decode .matrix 0x000000C010200000 = .ok ⟨0, 0, 0, .mmar ⟨0, 0, 2, 0, 1, 0, 0, 0⟩⟩ ∧
  decode .matrix 0x00001E4000000000 = .ok ⟨0, 0, 0, .endStream⟩ ∧
  decode .copy 0x00000028C9400000 = .ok ⟨0, 0, 0, .cpy ⟨1, 0, 12, 37⟩ 0 0⟩ ∧
  decode .copy 0x000000E8E8C00000 = .ok ⟨0, 0, 0, .crecvb ⟨1, 0, 14, 35⟩ 0⟩ ∧
  decode .crossing 0x0000004602200028 = .ok ⟨0, 0, 0, .xestm 12 4 2 40⟩ ∧
  decode .crossing 0x00000120009FFFFD = .ok ⟨0, 0, 0, .xloop 4 (-3)⟩ ∧
  decode .helm 0x0000002000000001 = .error .reservedBits ∧ decode .helm 0x0030000000000000 = .error .reservedBits ∧
  decode .helm 0x00001FE000000000 = .error .unassignedOpcode ∧ decode .vector 0x0000106112000000 = .error .unassignedOpcode

/-- 02 R32-R36, 03 R71, 05 R142, R173, 08 R260, 12 R380: a step runs the decoded instruction. In the streams' part of a tick, where the next stream has a
word `w` whose slot has come, with no interrupt, annulment or owed trap before it: a word that decodes and whose guard selects it issues in the state
where what it must see has landed, and the step is `exec` of it, which only notes the core as a producer (13 R402); one that must wait for a result
leaves its slot to come, and so does a helm slot that accesses past their windows hold in elastic mode (05 R151); an empty guard stalls or traps, a guard that does not select passes the word; an undecodable word traps. An event that is due
at the start of a tick runs, and one whose condition has gone is dropped. -/
def Obligations.StepRunsDecoded : Prop :=
  (∀ (s : State) (c : Nat) (st : Stream) (rest : List (Nat × Stream)) (w : Word) (d : Decoded) (e : DecodeError),
    s.tphase = .issue → s.todo = (c, st) :: rest →
    let r := { s with todo := rest }
    let x := ({ r with cur := ⟨c, st, 0⟩ }).mine
    let idle := w.toNat / 2 ^ 54
    let at_ := { r.fetchEffects c st x with cur := ⟨c, st, x.position idle⟩ }
    r.hasSlot c st = true → r.fetch c st x = .word w → x.slotDue idle at_.cyc = true →
    (st = .helm → at_.interruptDue c (x.position idle) = false) →
    (at_.heldSlot = true → step s = .next at_) ∧ (at_.heldSlot = false → at_.annulled = false → at_.owedNow = none →
    let full := at_.me.pIsFull d.gp = true
    let selects := d.gm = 0 ∨ (full ∧ at_.me.preg d.gp = (d.gm == 1))
    (decode st w = .ok d →
      (selects → at_.settled.awaits d.instr = false → step s = noteOutcome at_.mine (exec d.instr at_.settled)) ∧
      (selects → at_.settled.awaits d.instr = true → step s = .next at_) ∧
      (d.gm ≠ 0 → ¬ full → step s = .next (if at_.stalls then at_ else at_.fault (cause2 st 0))) ∧
      (¬ selects → full → step s = .next (at_.passGuarded d.instr))) ∧
    (decode st w = .error e → st ≠ .crossing → ∃ t, step s = .next t ∧ t.mem = s.mem ∧ (∀ k, k ≠ c → t.core k = s.core k) ∧
      t.core c = { s.core c with raised := (s.core c).raised ++
        [{ at_.info (cause0 st (if e = .reservedBits then 1 else 0)) with ofWord := true }] }))) ∧
  (∀ (s : State) (d : Due) (l : List Due) (t : State), s.tphase = .start →
    (s.agenda = d :: l → d.at_ ≤ s.now →
      let r := { s with agenda := l, on := d.on }
      (exec d.ev r = .next t → step s = .next t) ∧ ((∀ u, exec d.ev r ≠ .next u) → step s = .next { s with agenda := l })) ∧
    (s.agenda = [] → s.alarms = d :: l → d.at_ ≤ s.wall →
      let r := { s with alarms := l, on := d.on }
      (exec d.ev r = .next t → step s = .next t) ∧ ((∀ u, exec d.ev r ≠ .next u) → step s = .next { s with alarms := l }))) ∧
  (∀ (s : State) (before : StreamSt) (t : State), noteOutcome before (.next s) = .next t → t.cores = s.cores ∧ t.mem = s.mem ∧ t.launches = s.launches ∧
    t = { s with contexts := t.contexts })

/-- 03 R83, R85, 10 R298, 13 R410, R412, R413: what reset leaves. Registers, banks and stores of every core stand as R83 has them before a launch, the
stores in their canonical form; no launch, crossing, grant or event exists; the stacks' thresholds stand at their reset values. That memory reads 0
everywhere, and the supervisor's zeros, are the model's choice (notes/assumptions/1.md, notes/assumptions/2.md). -/
def Obligations.ResetState : Prop :=
  let s := State.reset
  s.storesOk ∧ s.hardwired ∧ (∀ a, memGet s.mem a = 0) ∧ s.launches = [] ∧ s.bars = [] ∧ s.qsends = [] ∧ s.colls = [] ∧ s.shoots = [] ∧
  s.quays = [] ∧ (∀ h, (s.handle h).st = .free ∧ (s.handle h).owner = none) ∧ (∀ l, (s.landing l).trained = false ∧ (s.landing l).owner = none) ∧
  (∀ g, (s.group g).valid = false) ∧ (∀ i, (s.stack i).hcethr = 64 ∧ (s.stack i).hmgthr = 2048 ∧ (s.stack i).heye = 32) ∧
  ∀ c, (∀ r : SReg, vGet r (s.core c).sregs = 0) ∧ (∀ r : BitVec 6, vGet r (s.core c).vregs = 0) ∧
    (∀ r : BitVec 5, vGet r (s.core c).qfull = false) ∧ (∀ r : BitVec 4, vGet r (s.core c).tfull = false) ∧
    (∀ r : BitVec 2, vGet r (s.core c).afull = false) ∧ (s.core c).ls = [] ∧ (s.core c).bonds = [] ∧ (s.core c).tvec = 0 ∧
    (s.core c).tcause = 0 ∧ (s.core c).trec.toNat = 0x3FFFC0 ∧ (s.core c).handler = none ∧ (s.core c).phase = none

/-- Tier 3, the memory's canonical form: from every state whose package memory is in it, every step that gives a next state keeps it, whatever word or
event runs in it. -/
def Obligations.StepKeepsMemory : Prop := ∀ s t : State, s.mem.wf = true → step s = .next t → t.mem.wf = true

/-- 02 R32, 03 R83, 05 R134: the frame of every word of a core's streams but the CSR writes, the returns and TSTART. Whatever the word, and whether it
completes, waits or traps, every byte of package memory, every other core, every register, bank, flag, special register and byte of the local store of
its own core, its bond table, the clocks, landings and groups read after it as they read before: its results arrive at their landing. A copy command
outside a phase has the same frame; HRET and HESC leave every register of the core. -/
def Obligations.WordFrame : Prop := ∀ (i : Instr) (s t : State),
  i.streams.contains s.cur.st = true → s.cur.st ≠ .crossing → exec i s = .next t →
    let copies := fun (i : Instr) => match i with
      | .cpy _ _ _ | .cpyr _ _ _ _ | .cgath _ _ | .cscat _ _ | .cbin _ _ | .csend _ _ _ _ | .crecvb _ _ | .cnmc _ | .ccoll _ | .cconst _ => true
      | _ => false
    (beyondFrame i = false → s.Frame t) ∧ (copies i = true → s.me.phase = none → s.Frame t) ∧
    (i = .hret ∨ i = .hesc → (∀ c, c ≠ s.cur.core → t.core c = s.core c) ∧ t.me.sregs = s.me.sregs ∧ t.me.hbank = s.me.hbank ∧
      t.me.pregs = s.me.pregs ∧ t.me.qregs = s.me.qregs ∧ t.me.vregs = s.me.vregs ∧ t.me.ls = s.me.ls ∧ t.me.tcause = s.me.tcause)
end

