-- ==== Sys2Proof/Laws/Memory.lean ====
section
/-! SUPPORT. The byte stores: what a write leaves, what a read sees, and that every operation keeps the canonical form. -/

namespace Sys2Proof.Machine

/-! ## Rising keys -/

theorem tabRising_weaken {α : Type} {lo : Nat} (t : Tab α) (h : tabRising (some lo) t = true) : tabRising none t = true := by
  cases t with
  | nil => rfl
  | cons p t => obtain ⟨a, x⟩ := p; simp_all [tabRising]

theorem tabRising_cons {α : Type} {o : Option Nat} {a : Nat} {x : α} {t : Tab α} :
    tabRising o ((a, x) :: t) = true ↔ (∀ l, o = some l → l < a) ∧ tabRising (some a) t = true := by
  cases o <;> simp [tabRising]

theorem tabRising_mono {α : Type} {o : Option Nat} {l m : Nat} {t : Tab α} (ho : ∀ k, o = some k → k ≤ l)
    (hlm : l ≤ m) (h : tabRising (some m) t = true) : tabRising o t = true := by
  cases t with
  | nil => cases o <;> rfl
  | cons p t =>
    obtain ⟨a, x⟩ := p
    rw [tabRising_cons] at h ⊢
    exact ⟨fun k hk => by have := ho k hk; have := h.1 m rfl; omega, h.2⟩

/-- Every key of a rising table lies above the bound. -/
theorem tabRising_above {α : Type} {l : Nat} {t : Tab α} (h : tabRising (some l) t = true) :
    ∀ p ∈ t, l < p.1 := by
  induction t generalizing l with
  | nil => simp
  | cons q t ih =>
    obtain ⟨a, x⟩ := q
    rw [tabRising_cons] at h
    have ha := h.1 l rfl
    intro p hp
    rcases List.mem_cons.1 hp with rfl | hp
    · exact ha
    · have := ih h.2 p hp; omega

/-- A filter keeps keys rising. -/
theorem tabRising_filter {α : Type} {o : Option Nat} {t : Tab α} (p : Nat × α → Bool) (h : tabRising o t = true) :
    tabRising o (t.filter p) = true := by
  induction t generalizing o with
  | nil => simpa using h
  | cons q t ih =>
    obtain ⟨a, x⟩ := q
    rw [tabRising_cons] at h
    by_cases hp : p (a, x) = true
    · rw [List.filter_cons_of_pos hp, tabRising_cons]; exact ⟨h.1, ih h.2⟩
    · rw [List.filter_cons_of_neg hp]
      exact tabRising_mono (fun k hk => Nat.le_of_lt (h.1 k hk)) (Nat.le_refl a) (ih h.2)

/-! ## Setting a key of a table -/

theorem tabSet_rising {α : Type} {o : Option Nat} {t : Tab α} (k : Nat) (x : α) (h : tabRising o t = true)
    (hk : ∀ l, o = some l → l < k) : tabRising o (tabSet t k x) = true := by
  induction t generalizing o with
  | nil => rw [tabSet, tabRising_cons]; exact ⟨hk, rfl⟩
  | cons q t ih =>
    obtain ⟨a, y⟩ := q
    rw [tabRising_cons] at h
    unfold tabSet
    split
    · rename_i hka
      rw [tabRising_cons, tabRising_cons]
      exact ⟨hk, fun l hl => by cases hl; exact hka, h.2⟩
    · split
      · subst_vars; rw [tabRising_cons]; exact h
      · rw [tabRising_cons]
        refine ⟨h.1, ih h.2 ?_⟩
        intro l hl; cases hl; omega

theorem tabDel_rising {α : Type} {o : Option Nat} {t : Tab α} (k : Nat) (h : tabRising o t = true) :
    tabRising o (tabDel t k) = true := by
  induction t generalizing o with
  | nil => simpa [tabDel] using h
  | cons q t ih =>
    obtain ⟨a, y⟩ := q
    rw [tabRising_cons] at h
    unfold tabDel
    split
    · exact tabRising_mono (fun k hk => Nat.le_of_lt (h.1 k hk)) (Nat.le_refl a) h.2
    · rw [tabRising_cons]; exact ⟨h.1, ih h.2⟩

@[simp] theorem tabGet_tabSet_same {α : Type} (t : Tab α) (k : Nat) (x : α) : tabGet (tabSet t k x) k = some x := by
  induction t with
  | nil => simp [tabSet, tabGet]
  | cons q t ih =>
    obtain ⟨a, y⟩ := q
    unfold tabSet
    split
    · simp [tabGet]
    · split <;> simp_all [tabGet]

theorem tabGet_tabSet_other {α : Type} (t : Tab α) (k j : Nat) (x : α) (h : j ≠ k) :
    tabGet (tabSet t k x) j = tabGet t j := by
  induction t with
  | nil => simp [tabSet, tabGet, Ne.symm h]
  | cons q t ih =>
    obtain ⟨a, y⟩ := q
    unfold tabSet
    split
    · simp [tabGet, Ne.symm h]
    · split
      · subst_vars; simp [tabGet, Ne.symm h]
      · simp only [tabGet, ih]

/-! ## One byte -/

theorem tabSet_tabSet {α : Type} (t : Tab α) (k : Nat) (x y : α) : tabSet (tabSet t k x) k y = tabSet t k y := by
  induction t with
  | nil => simp [tabSet]
  | cons p t ih =>
    obtain ⟨a, z⟩ := p
    simp only [tabSet]
    split
    · simp [tabSet]
    · split
      · simp_all [tabSet]
      · simp_all [tabSet]

theorem memDel_eq (m : Memory) (a : Nat) : memDel m a = tabDel m a := by
  induction m with
  | nil => rfl
  | cons q t ih => obtain ⟨k, b⟩ := q; simp only [memDel, tabDel, ih]

theorem memPut_eq (m : Memory) (a : Nat) (b : Byte) : memPut m a b = tabSet m a b := by
  induction m with
  | nil => rfl
  | cons q t ih => obtain ⟨k, c⟩ := q; simp only [memPut, tabSet, ih]

theorem memGet_eq (m : Memory) (a : Nat) : memGet m a = (tabGet m a).getD 0 := by
  induction m with
  | nil => rfl
  | cons q t ih =>
    obtain ⟨k, b⟩ := q
    simp only [memGet, tabGet]
    split
    · rfl
    · exact ih

theorem tabGet_none_of_above {α : Type} {l k : Nat} {t : Tab α} (h : tabRising (some l) t = true) (hk : k ≤ l) :
    tabGet t k = none := by
  induction t generalizing l with
  | nil => rfl
  | cons q t ih =>
    obtain ⟨a, x⟩ := q
    rw [tabRising_cons] at h
    have := h.1 l rfl
    rw [tabGet, if_neg (by omega)]
    exact ih h.2 (by omega)

theorem tabGet_tabDel_same {α : Type} {o : Option Nat} {t : Tab α} (k : Nat) (h : tabRising o t = true) :
    tabGet (tabDel t k) k = none := by
  induction t generalizing o with
  | nil => rfl
  | cons q t ih =>
    obtain ⟨a, y⟩ := q
    rw [tabRising_cons] at h
    unfold tabDel
    split
    · subst_vars; exact tabGet_none_of_above h.2 (Nat.le_refl _)
    · rename_i hne; rw [tabGet, if_neg hne]; exact ih h.2

theorem tabGet_tabDel_other {α : Type} (t : Tab α) (k j : Nat) (h : j ≠ k) : tabGet (tabDel t k) j = tabGet t j := by
  induction t with
  | nil => rfl
  | cons q t ih =>
    obtain ⟨a, y⟩ := q
    unfold tabDel
    split
    · subst_vars; simp [tabGet, Ne.symm h]
    · simp only [tabGet, ih]

/-- The canonical form, as two facts. -/
theorem Memory.wf_iff (m : Memory) : Memory.wf m = true ↔ tabRising none m = true ∧ ∀ c ∈ m, c.2 ≠ 0 := by
  simp [Memory.wf]

theorem memSet_wf (m : Memory) (a : Nat) (b : Byte) (h : Memory.wf m = true) : Memory.wf (memSet m a b) = true := by
  rw [Memory.wf_iff] at h ⊢
  unfold memSet
  split
  · rw [memDel_eq]
    refine ⟨tabDel_rising a h.1, fun c hc => h.2 c ?_⟩
    clear h
    induction m with
    | nil => simp [tabDel] at hc
    | cons q t ih =>
      obtain ⟨k, x⟩ := q
      unfold tabDel at hc
      split at hc
      · exact List.mem_cons_of_mem _ hc
      · rcases List.mem_cons.1 hc with rfl | hc
        · exact List.mem_cons_self
        · exact List.mem_cons_of_mem _ (ih hc)
  · rename_i hb
    rw [memPut_eq]
    refine ⟨tabSet_rising a b h.1 (by simp), fun c hc => ?_⟩
    have : c ∈ m ∨ c = (a, b) := by
      clear h
      induction m with
      | nil => simp [tabSet] at hc; exact .inr hc
      | cons q t ih =>
        obtain ⟨k, x⟩ := q
        unfold tabSet at hc
        split at hc
        · rcases List.mem_cons.1 hc with rfl | hc
          · exact .inr rfl
          · exact .inl hc
        · split at hc
          · rcases List.mem_cons.1 hc with rfl | hc
            · subst_vars; exact .inr rfl
            · exact .inl (List.mem_cons_of_mem _ hc)
          · rcases List.mem_cons.1 hc with rfl | hc
            · exact .inl List.mem_cons_self
            · rcases ih hc with h | h
              · exact .inl (List.mem_cons_of_mem _ h)
              · exact .inr h
    rcases this with hm | rfl
    · exact h.2 c hm
    · exact hb

theorem memGet_memSet_other (m : Memory) (a i : Nat) (b : Byte) (h : i ≠ a) : memGet (memSet m a b) i = memGet m i := by
  unfold memSet
  split
  · rw [memDel_eq, memGet_eq, memGet_eq, tabGet_tabDel_other _ _ _ h]
  · rw [memPut_eq, memGet_eq, memGet_eq, tabGet_tabSet_other _ _ _ _ h]

theorem memGet_memSet_same (m : Memory) (a : Nat) (b : Byte) (h : Memory.wf m = true) : memGet (memSet m a b) a = b := by
  unfold memSet
  split
  · rename_i hb
    rw [memDel_eq, memGet_eq, tabGet_tabDel_same a ((Memory.wf_iff m).1 h).1, hb]; rfl
  · rw [memPut_eq, memGet_eq, tabGet_tabSet_same]; rfl

/-! ## Runs of bytes -/

theorem memWrite_wf (b : List Byte) (m : Memory) (a : Nat) (h : Memory.wf m = true) : Memory.wf (memWrite m a b) = true := by
  induction b generalizing m a with
  | nil => exact h
  | cons x t ih => exact ih _ _ (memSet_wf m a x h)

/-- A run of byte writes at any addresses keeps the form: what restores and partial writes come to. -/
theorem foldl_memSet_wf {β : Type} (l : List β) (f : β → Nat) (g : β → Byte) (p : β → Bool) (m : Memory)
    (h : Memory.wf m = true) :
    Memory.wf (l.foldl (fun m x => if p x then m else memSet m (f x) (g x)) m) = true := by
  induction l generalizing m with
  | nil => exact h
  | cons x t ih =>
    rw [List.foldl_cons]
    split
    · exact ih m h
    · exact ih _ (memSet_wf _ _ _ h)

theorem Memory.wf_filter (m : Memory) (p : Host.Cell → Bool) (h : Memory.wf m = true) :
    Memory.wf (List.filter p m) = true := by
  rw [Memory.wf_iff] at h ⊢
  exact ⟨tabRising_filter p h.1, fun c hc => h.2 c (List.mem_filter.1 hc).1⟩

theorem memGet_memWrite_outside (b : List Byte) (m : Memory) (a i : Nat) (h : i < a ∨ a + b.length ≤ i) :
    memGet (memWrite m a b) i = memGet m i := by
  induction b generalizing m a with
  | nil => rfl
  | cons x t ih =>
    rw [memWrite, ih _ _ (by simp only [List.length_cons] at h; omega), memGet_memSet_other]
    simp only [List.length_cons] at h; omega

theorem memBytes_memWrite_same (b : List Byte) (m : Memory) (a : Nat) (h : Memory.wf m = true) :
    memBytes (memWrite m a b) a b.length = b := by
  induction b generalizing m a with
  | nil => rfl
  | cons x t ih =>
    rw [memWrite, List.length_cons, memBytes, ih _ _ (memSet_wf m a x h),
      memGet_memWrite_outside _ _ _ _ (by omega), memGet_memSet_same m a x h]

theorem toBytes_length (n v : Nat) : (toBytes n v).length = n := by
  induction n generalizing v with
  | zero => rfl
  | succ n ih => simp [toBytes, ih]

/-- Bytes of a number, read back: the number modulo its width. -/
theorem ofBytes_toBytes (n v : Nat) : ofBytes (toBytes n v) = v % 256 ^ n := by
  induction n generalizing v with
  | zero => simp [toBytes, ofBytes, Nat.mod_one]
  | succ n ih =>
    rw [toBytes, ofBytes, ih, BitVec.toNat_ofNat, show (2 : Nat) ^ 8 = 256 from rfl, Nat.pow_succ', Nat.mod_mul]

/-- A number written and read back. -/
theorem memRead_memWrite_same (m : Memory) (a n v : Nat) (h : Memory.wf m = true) :
    memRead (memWrite m a (toBytes n v)) a n = v % 256 ^ n := by
  have := memBytes_memWrite_same (toBytes n v) m a h
  rw [toBytes_length] at this
  rw [memRead, this, ofBytes_toBytes]

/-- A write at a home keeps the canonical form of package memory (08 R260). -/
theorem State.writeHome_wf (s : State) (key : Nat) (b : List Byte) (h : Memory.wf s.mem = true) :
    Memory.wf (s.writeHome key b).mem = true := by
  unfold State.writeHome
  split
  · exact foldl_memSet_wf _ (fun x : Byte × Nat => key + x.2) (fun x => x.1) (fun x => s.mappedOut ((key + x.2) / 64)) _ h
  · exact memWrite_wf b s.mem key h

/-- A restored range keeps the canonical form (13 R406). -/
theorem State.restoreCells_wf (s : State) (key len : Nat) (cs : List Host.Cell) (h : Memory.wf s.mem = true) :
    Memory.wf (s.restoreCells key len cs).mem = true := by
  have := foldl_memSet_wf cs (fun c => key + c.1) (fun c => c.2) (fun c => s.mappedOut ((key + c.1) / 64))
    (List.filter (fun c => !(decide (key ≤ c.1 ∧ c.1 < key + len) && !s.mappedOut (c.1 / 64))) s.mem) (Memory.wf_filter _ _ h)
  simpa [State.restoreCells, ite_not, ← Bool.not_eq_true] using this

end Sys2Proof.Machine
end

