-- ==== Sys2Proof/Laws/State.lean ====
section
/-! SUPPORT. One lemma per field of the state for each of its update operations: the field an operation writes, and every
other field as it was. -/

namespace Sys2Proof.Machine

@[simp] theorem State.setCore_now (s : State) (c : Nat) (x : Core) : (s.setCore c x).now = s.now := rfl
@[simp] theorem State.setCore_wall (s : State) (c : Nat) (x : Core) : (s.setCore c x).wall = s.wall := rfl
@[simp] theorem State.setCore_clock (s : State) (c : Nat) (x : Core) : (s.setCore c x).clock = s.clock := rfl
@[simp] theorem State.setCore_tphase (s : State) (c : Nat) (x : Core) : (s.setCore c x).tphase = s.tphase := rfl
@[simp] theorem State.setCore_todo (s : State) (c : Nat) (x : Core) : (s.setCore c x).todo = s.todo := rfl
@[simp] theorem State.setCore_cur (s : State) (c : Nat) (x : Core) : (s.setCore c x).cur = s.cur := rfl
@[simp] theorem State.setCore_on (s : State) (c : Nat) (x : Core) : (s.setCore c x).on = s.on := rfl
@[simp] theorem State.setCore_freeCtr (s : State) (c : Nat) (x : Core) : (s.setCore c x).freeCtr = s.freeCtr := rfl
@[simp] theorem State.setCore_agenda (s : State) (c : Nat) (x : Core) : (s.setCore c x).agenda = s.agenda := rfl
@[simp] theorem State.setCore_alarms (s : State) (c : Nat) (x : Core) : (s.setCore c x).alarms = s.alarms := rfl
@[simp] theorem State.setCore_cores (s : State) (c : Nat) (x : Core) : (s.setCore c x).cores = tabSet s.cores c x := rfl
@[simp] theorem State.setCore_launches (s : State) (c : Nat) (x : Core) : (s.setCore c x).launches = s.launches := rfl
@[simp] theorem State.setCore_nextLid (s : State) (c : Nat) (x : Core) : (s.setCore c x).nextLid = s.nextLid := rfl
@[simp] theorem State.setCore_bars (s : State) (c : Nat) (x : Core) : (s.setCore c x).bars = s.bars := rfl
@[simp] theorem State.setCore_nextBar (s : State) (c : Nat) (x : Core) : (s.setCore c x).nextBar = s.nextBar := rfl
@[simp] theorem State.setCore_qsends (s : State) (c : Nat) (x : Core) : (s.setCore c x).qsends = s.qsends := rfl
@[simp] theorem State.setCore_nextQ (s : State) (c : Nat) (x : Core) : (s.setCore c x).nextQ = s.nextQ := rfl
@[simp] theorem State.setCore_mem (s : State) (c : Nat) (x : Core) : (s.setCore c x).mem = s.mem := rfl
@[simp] theorem State.setCore_poison (s : State) (c : Nat) (x : Core) : (s.setCore c x).poison = s.poison := rfl
@[simp] theorem State.setCore_bad (s : State) (c : Nat) (x : Core) : (s.setCore c x).bad = s.bad := rfl
@[simp] theorem State.setCore_handles (s : State) (c : Nat) (x : Core) : (s.setCore c x).handles = s.handles := rfl
@[simp] theorem State.setCore_landings (s : State) (c : Nat) (x : Core) : (s.setCore c x).landings = s.landings := rfl
@[simp] theorem State.setCore_groups (s : State) (c : Nat) (x : Core) : (s.setCore c x).groups = s.groups := rfl
@[simp] theorem State.setCore_contexts (s : State) (c : Nat) (x : Core) : (s.setCore c x).contexts = s.contexts := rfl
@[simp] theorem State.setCore_quays (s : State) (c : Nat) (x : Core) : (s.setCore c x).quays = s.quays := rfl
@[simp] theorem State.setCore_tiles (s : State) (c : Nat) (x : Core) : (s.setCore c x).tiles = s.tiles := rfl
@[simp] theorem State.setCore_hbm (s : State) (c : Nat) (x : Core) : (s.setCore c x).hbm = s.hbm := rfl
@[simp] theorem State.setCore_apertures (s : State) (c : Nat) (x : Core) : (s.setCore c x).apertures = s.apertures := rfl
@[simp] theorem State.setCore_shoots (s : State) (c : Nat) (x : Core) : (s.setCore c x).shoots = s.shoots := rfl
@[simp] theorem State.setCore_nextShoot (s : State) (c : Nat) (x : Core) : (s.setCore c x).nextShoot = s.nextShoot := rfl
@[simp] theorem State.setCore_colls (s : State) (c : Nat) (x : Core) : (s.setCore c x).colls = s.colls := rfl
@[simp] theorem State.setCore_nextColl (s : State) (c : Nat) (x : Core) : (s.setCore c x).nextColl = s.nextColl := rfl
@[simp] theorem State.setCore_messages (s : State) (c : Nat) (x : Core) : (s.setCore c x).messages = s.messages := rfl
@[simp] theorem State.setCore_outbox (s : State) (c : Nat) (x : Core) : (s.setCore c x).outbox = s.outbox := rfl
@[simp] theorem State.setCore_relays (s : State) (c : Nat) (x : Core) : (s.setCore c x).relays = s.relays := rfl
@[simp] theorem State.setCore_nextRelay (s : State) (c : Nat) (x : Core) : (s.setCore c x).nextRelay = s.nextRelay := rfl
@[simp] theorem State.setCore_events (s : State) (c : Nat) (x : Core) : (s.setCore c x).events = s.events := rfl
@[simp] theorem State.setCore_pfRing (s : State) (c : Nat) (x : Core) : (s.setCore c x).pfRing = s.pfRing := rfl
@[simp] theorem State.setCore_pkstat (s : State) (c : Nat) (x : Core) : (s.setCore c x).pkstat = s.pkstat := rfl
@[simp] theorem State.setCore_daycAdj (s : State) (c : Nat) (x : Core) : (s.setCore c x).daycAdj = s.daycAdj := rfl
@[simp] theorem State.setCore_dayError (s : State) (c : Nat) (x : Core) : (s.setCore c x).dayError = s.dayError := rfl
@[simp] theorem State.setCore_daycHold (s : State) (c : Nat) (x : Core) : (s.setCore c x).daycHold = s.daycHold := rfl
@[simp] theorem State.setCore_holdover (s : State) (c : Nat) (x : Core) : (s.setCore c x).holdover = s.holdover := rfl
@[simp] theorem State.setCore_expired (s : State) (c : Nat) (x : Core) : (s.setCore c x).expired = s.expired := rfl
@[simp] theorem State.setCore_lastDawn (s : State) (c : Nat) (x : Core) : (s.setCore c x).lastDawn = s.lastDawn := rfl
@[simp] theorem State.setCore_guardDone (s : State) (c : Nat) (x : Core) : (s.setCore c x).guardDone = s.guardDone := rfl
@[simp] theorem State.setCore_hot (s : State) (c : Nat) (x : Core) : (s.setCore c x).hot = s.hot := rfl
@[simp] theorem State.setCore_limitAt (s : State) (c : Nat) (x : Core) : (s.setCore c x).limitAt = s.limitAt := rfl
@[simp] theorem State.setCore_lowAt (s : State) (c : Nat) (x : Core) : (s.setCore c x).lowAt = s.lowAt := rfl
@[simp] theorem State.setCore_clockDue (s : State) (c : Nat) (x : Core) : (s.setCore c x).clockDue = s.clockDue := rfl
@[simp] theorem State.setCore_thermal (s : State) (c : Nat) (x : Core) : (s.setCore c x).thermal = s.thermal := rfl
@[simp] theorem State.setCore_turn (s : State) (c : Nat) (x : Core) : (s.setCore c x).turn = s.turn := rfl
@[simp] theorem State.setCore_booted (s : State) (c : Nat) (x : Core) : (s.setCore c x).booted = s.booted := rfl
@[simp] theorem State.setCore_answer (s : State) (c : Nat) (x : Core) : (s.setCore c x).answer = s.answer := rfl
@[simp] theorem State.setCore_nv (s : State) (c : Nat) (x : Core) : (s.setCore c x).nv = s.nv := rfl

@[simp] theorem State.modCore_now (s : State) (c : Nat) (f : Core → Core) : (s.modCore c f).now = s.now := rfl
@[simp] theorem State.modCore_wall (s : State) (c : Nat) (f : Core → Core) : (s.modCore c f).wall = s.wall := rfl
@[simp] theorem State.modCore_clock (s : State) (c : Nat) (f : Core → Core) : (s.modCore c f).clock = s.clock := rfl
@[simp] theorem State.modCore_tphase (s : State) (c : Nat) (f : Core → Core) : (s.modCore c f).tphase = s.tphase := rfl
@[simp] theorem State.modCore_todo (s : State) (c : Nat) (f : Core → Core) : (s.modCore c f).todo = s.todo := rfl
@[simp] theorem State.modCore_cur (s : State) (c : Nat) (f : Core → Core) : (s.modCore c f).cur = s.cur := rfl
@[simp] theorem State.modCore_on (s : State) (c : Nat) (f : Core → Core) : (s.modCore c f).on = s.on := rfl
@[simp] theorem State.modCore_freeCtr (s : State) (c : Nat) (f : Core → Core) : (s.modCore c f).freeCtr = s.freeCtr := rfl
@[simp] theorem State.modCore_agenda (s : State) (c : Nat) (f : Core → Core) : (s.modCore c f).agenda = s.agenda := rfl
@[simp] theorem State.modCore_alarms (s : State) (c : Nat) (f : Core → Core) : (s.modCore c f).alarms = s.alarms := rfl
@[simp] theorem State.modCore_cores (s : State) (c : Nat) (f : Core → Core) : (s.modCore c f).cores = tabSet s.cores c (f (s.core c)) := rfl
@[simp] theorem State.modCore_launches (s : State) (c : Nat) (f : Core → Core) : (s.modCore c f).launches = s.launches := rfl
@[simp] theorem State.modCore_nextLid (s : State) (c : Nat) (f : Core → Core) : (s.modCore c f).nextLid = s.nextLid := rfl
@[simp] theorem State.modCore_bars (s : State) (c : Nat) (f : Core → Core) : (s.modCore c f).bars = s.bars := rfl
@[simp] theorem State.modCore_nextBar (s : State) (c : Nat) (f : Core → Core) : (s.modCore c f).nextBar = s.nextBar := rfl
@[simp] theorem State.modCore_qsends (s : State) (c : Nat) (f : Core → Core) : (s.modCore c f).qsends = s.qsends := rfl
@[simp] theorem State.modCore_nextQ (s : State) (c : Nat) (f : Core → Core) : (s.modCore c f).nextQ = s.nextQ := rfl
@[simp] theorem State.modCore_mem (s : State) (c : Nat) (f : Core → Core) : (s.modCore c f).mem = s.mem := rfl
@[simp] theorem State.modCore_poison (s : State) (c : Nat) (f : Core → Core) : (s.modCore c f).poison = s.poison := rfl
@[simp] theorem State.modCore_bad (s : State) (c : Nat) (f : Core → Core) : (s.modCore c f).bad = s.bad := rfl
@[simp] theorem State.modCore_handles (s : State) (c : Nat) (f : Core → Core) : (s.modCore c f).handles = s.handles := rfl
@[simp] theorem State.modCore_landings (s : State) (c : Nat) (f : Core → Core) : (s.modCore c f).landings = s.landings := rfl
@[simp] theorem State.modCore_groups (s : State) (c : Nat) (f : Core → Core) : (s.modCore c f).groups = s.groups := rfl
@[simp] theorem State.modCore_contexts (s : State) (c : Nat) (f : Core → Core) : (s.modCore c f).contexts = s.contexts := rfl
@[simp] theorem State.modCore_quays (s : State) (c : Nat) (f : Core → Core) : (s.modCore c f).quays = s.quays := rfl
@[simp] theorem State.modCore_tiles (s : State) (c : Nat) (f : Core → Core) : (s.modCore c f).tiles = s.tiles := rfl
@[simp] theorem State.modCore_hbm (s : State) (c : Nat) (f : Core → Core) : (s.modCore c f).hbm = s.hbm := rfl
@[simp] theorem State.modCore_apertures (s : State) (c : Nat) (f : Core → Core) : (s.modCore c f).apertures = s.apertures := rfl
@[simp] theorem State.modCore_shoots (s : State) (c : Nat) (f : Core → Core) : (s.modCore c f).shoots = s.shoots := rfl
@[simp] theorem State.modCore_nextShoot (s : State) (c : Nat) (f : Core → Core) : (s.modCore c f).nextShoot = s.nextShoot := rfl
@[simp] theorem State.modCore_colls (s : State) (c : Nat) (f : Core → Core) : (s.modCore c f).colls = s.colls := rfl
@[simp] theorem State.modCore_nextColl (s : State) (c : Nat) (f : Core → Core) : (s.modCore c f).nextColl = s.nextColl := rfl
@[simp] theorem State.modCore_messages (s : State) (c : Nat) (f : Core → Core) : (s.modCore c f).messages = s.messages := rfl
@[simp] theorem State.modCore_outbox (s : State) (c : Nat) (f : Core → Core) : (s.modCore c f).outbox = s.outbox := rfl
@[simp] theorem State.modCore_relays (s : State) (c : Nat) (f : Core → Core) : (s.modCore c f).relays = s.relays := rfl
@[simp] theorem State.modCore_nextRelay (s : State) (c : Nat) (f : Core → Core) : (s.modCore c f).nextRelay = s.nextRelay := rfl
@[simp] theorem State.modCore_events (s : State) (c : Nat) (f : Core → Core) : (s.modCore c f).events = s.events := rfl
@[simp] theorem State.modCore_pfRing (s : State) (c : Nat) (f : Core → Core) : (s.modCore c f).pfRing = s.pfRing := rfl
@[simp] theorem State.modCore_pkstat (s : State) (c : Nat) (f : Core → Core) : (s.modCore c f).pkstat = s.pkstat := rfl
@[simp] theorem State.modCore_daycAdj (s : State) (c : Nat) (f : Core → Core) : (s.modCore c f).daycAdj = s.daycAdj := rfl
@[simp] theorem State.modCore_dayError (s : State) (c : Nat) (f : Core → Core) : (s.modCore c f).dayError = s.dayError := rfl
@[simp] theorem State.modCore_daycHold (s : State) (c : Nat) (f : Core → Core) : (s.modCore c f).daycHold = s.daycHold := rfl
@[simp] theorem State.modCore_holdover (s : State) (c : Nat) (f : Core → Core) : (s.modCore c f).holdover = s.holdover := rfl
@[simp] theorem State.modCore_expired (s : State) (c : Nat) (f : Core → Core) : (s.modCore c f).expired = s.expired := rfl
@[simp] theorem State.modCore_lastDawn (s : State) (c : Nat) (f : Core → Core) : (s.modCore c f).lastDawn = s.lastDawn := rfl
@[simp] theorem State.modCore_guardDone (s : State) (c : Nat) (f : Core → Core) : (s.modCore c f).guardDone = s.guardDone := rfl
@[simp] theorem State.modCore_hot (s : State) (c : Nat) (f : Core → Core) : (s.modCore c f).hot = s.hot := rfl
@[simp] theorem State.modCore_limitAt (s : State) (c : Nat) (f : Core → Core) : (s.modCore c f).limitAt = s.limitAt := rfl
@[simp] theorem State.modCore_lowAt (s : State) (c : Nat) (f : Core → Core) : (s.modCore c f).lowAt = s.lowAt := rfl
@[simp] theorem State.modCore_clockDue (s : State) (c : Nat) (f : Core → Core) : (s.modCore c f).clockDue = s.clockDue := rfl
@[simp] theorem State.modCore_thermal (s : State) (c : Nat) (f : Core → Core) : (s.modCore c f).thermal = s.thermal := rfl
@[simp] theorem State.modCore_turn (s : State) (c : Nat) (f : Core → Core) : (s.modCore c f).turn = s.turn := rfl
@[simp] theorem State.modCore_booted (s : State) (c : Nat) (f : Core → Core) : (s.modCore c f).booted = s.booted := rfl
@[simp] theorem State.modCore_answer (s : State) (c : Nat) (f : Core → Core) : (s.modCore c f).answer = s.answer := rfl
@[simp] theorem State.modCore_nv (s : State) (c : Nat) (f : Core → Core) : (s.modCore c f).nv = s.nv := rfl

@[simp] theorem State.modMe_now (s : State) (f : Core → Core) : (s.modMe f).now = s.now := rfl
@[simp] theorem State.modMe_wall (s : State) (f : Core → Core) : (s.modMe f).wall = s.wall := rfl
@[simp] theorem State.modMe_clock (s : State) (f : Core → Core) : (s.modMe f).clock = s.clock := rfl
@[simp] theorem State.modMe_tphase (s : State) (f : Core → Core) : (s.modMe f).tphase = s.tphase := rfl
@[simp] theorem State.modMe_todo (s : State) (f : Core → Core) : (s.modMe f).todo = s.todo := rfl
@[simp] theorem State.modMe_cur (s : State) (f : Core → Core) : (s.modMe f).cur = s.cur := rfl
@[simp] theorem State.modMe_on (s : State) (f : Core → Core) : (s.modMe f).on = s.on := rfl
@[simp] theorem State.modMe_freeCtr (s : State) (f : Core → Core) : (s.modMe f).freeCtr = s.freeCtr := rfl
@[simp] theorem State.modMe_agenda (s : State) (f : Core → Core) : (s.modMe f).agenda = s.agenda := rfl
@[simp] theorem State.modMe_alarms (s : State) (f : Core → Core) : (s.modMe f).alarms = s.alarms := rfl
@[simp] theorem State.modMe_cores (s : State) (f : Core → Core) : (s.modMe f).cores = tabSet s.cores s.cur.core (f s.me) := rfl
@[simp] theorem State.modMe_launches (s : State) (f : Core → Core) : (s.modMe f).launches = s.launches := rfl
@[simp] theorem State.modMe_nextLid (s : State) (f : Core → Core) : (s.modMe f).nextLid = s.nextLid := rfl
@[simp] theorem State.modMe_bars (s : State) (f : Core → Core) : (s.modMe f).bars = s.bars := rfl
@[simp] theorem State.modMe_nextBar (s : State) (f : Core → Core) : (s.modMe f).nextBar = s.nextBar := rfl
@[simp] theorem State.modMe_qsends (s : State) (f : Core → Core) : (s.modMe f).qsends = s.qsends := rfl
@[simp] theorem State.modMe_nextQ (s : State) (f : Core → Core) : (s.modMe f).nextQ = s.nextQ := rfl
@[simp] theorem State.modMe_mem (s : State) (f : Core → Core) : (s.modMe f).mem = s.mem := rfl
@[simp] theorem State.modMe_poison (s : State) (f : Core → Core) : (s.modMe f).poison = s.poison := rfl
@[simp] theorem State.modMe_bad (s : State) (f : Core → Core) : (s.modMe f).bad = s.bad := rfl
@[simp] theorem State.modMe_handles (s : State) (f : Core → Core) : (s.modMe f).handles = s.handles := rfl
@[simp] theorem State.modMe_landings (s : State) (f : Core → Core) : (s.modMe f).landings = s.landings := rfl
@[simp] theorem State.modMe_groups (s : State) (f : Core → Core) : (s.modMe f).groups = s.groups := rfl
@[simp] theorem State.modMe_contexts (s : State) (f : Core → Core) : (s.modMe f).contexts = s.contexts := rfl
@[simp] theorem State.modMe_quays (s : State) (f : Core → Core) : (s.modMe f).quays = s.quays := rfl
@[simp] theorem State.modMe_tiles (s : State) (f : Core → Core) : (s.modMe f).tiles = s.tiles := rfl
@[simp] theorem State.modMe_hbm (s : State) (f : Core → Core) : (s.modMe f).hbm = s.hbm := rfl
@[simp] theorem State.modMe_apertures (s : State) (f : Core → Core) : (s.modMe f).apertures = s.apertures := rfl
@[simp] theorem State.modMe_shoots (s : State) (f : Core → Core) : (s.modMe f).shoots = s.shoots := rfl
@[simp] theorem State.modMe_nextShoot (s : State) (f : Core → Core) : (s.modMe f).nextShoot = s.nextShoot := rfl
@[simp] theorem State.modMe_colls (s : State) (f : Core → Core) : (s.modMe f).colls = s.colls := rfl
@[simp] theorem State.modMe_nextColl (s : State) (f : Core → Core) : (s.modMe f).nextColl = s.nextColl := rfl
@[simp] theorem State.modMe_messages (s : State) (f : Core → Core) : (s.modMe f).messages = s.messages := rfl
@[simp] theorem State.modMe_outbox (s : State) (f : Core → Core) : (s.modMe f).outbox = s.outbox := rfl
@[simp] theorem State.modMe_relays (s : State) (f : Core → Core) : (s.modMe f).relays = s.relays := rfl
@[simp] theorem State.modMe_nextRelay (s : State) (f : Core → Core) : (s.modMe f).nextRelay = s.nextRelay := rfl
@[simp] theorem State.modMe_events (s : State) (f : Core → Core) : (s.modMe f).events = s.events := rfl
@[simp] theorem State.modMe_pfRing (s : State) (f : Core → Core) : (s.modMe f).pfRing = s.pfRing := rfl
@[simp] theorem State.modMe_pkstat (s : State) (f : Core → Core) : (s.modMe f).pkstat = s.pkstat := rfl
@[simp] theorem State.modMe_daycAdj (s : State) (f : Core → Core) : (s.modMe f).daycAdj = s.daycAdj := rfl
@[simp] theorem State.modMe_dayError (s : State) (f : Core → Core) : (s.modMe f).dayError = s.dayError := rfl
@[simp] theorem State.modMe_daycHold (s : State) (f : Core → Core) : (s.modMe f).daycHold = s.daycHold := rfl
@[simp] theorem State.modMe_holdover (s : State) (f : Core → Core) : (s.modMe f).holdover = s.holdover := rfl
@[simp] theorem State.modMe_expired (s : State) (f : Core → Core) : (s.modMe f).expired = s.expired := rfl
@[simp] theorem State.modMe_lastDawn (s : State) (f : Core → Core) : (s.modMe f).lastDawn = s.lastDawn := rfl
@[simp] theorem State.modMe_guardDone (s : State) (f : Core → Core) : (s.modMe f).guardDone = s.guardDone := rfl
@[simp] theorem State.modMe_hot (s : State) (f : Core → Core) : (s.modMe f).hot = s.hot := rfl
@[simp] theorem State.modMe_limitAt (s : State) (f : Core → Core) : (s.modMe f).limitAt = s.limitAt := rfl
@[simp] theorem State.modMe_lowAt (s : State) (f : Core → Core) : (s.modMe f).lowAt = s.lowAt := rfl
@[simp] theorem State.modMe_clockDue (s : State) (f : Core → Core) : (s.modMe f).clockDue = s.clockDue := rfl
@[simp] theorem State.modMe_thermal (s : State) (f : Core → Core) : (s.modMe f).thermal = s.thermal := rfl
@[simp] theorem State.modMe_turn (s : State) (f : Core → Core) : (s.modMe f).turn = s.turn := rfl
@[simp] theorem State.modMe_booted (s : State) (f : Core → Core) : (s.modMe f).booted = s.booted := rfl
@[simp] theorem State.modMe_answer (s : State) (f : Core → Core) : (s.modMe f).answer = s.answer := rfl
@[simp] theorem State.modMe_nv (s : State) (f : Core → Core) : (s.modMe f).nv = s.nv := rfl

@[simp] theorem State.modLaunch_now (s : State) (n : Nat) (f : Launch → Launch) : (s.modLaunch n f).now = s.now := rfl
@[simp] theorem State.modLaunch_wall (s : State) (n : Nat) (f : Launch → Launch) : (s.modLaunch n f).wall = s.wall := rfl
@[simp] theorem State.modLaunch_clock (s : State) (n : Nat) (f : Launch → Launch) : (s.modLaunch n f).clock = s.clock := rfl
@[simp] theorem State.modLaunch_tphase (s : State) (n : Nat) (f : Launch → Launch) : (s.modLaunch n f).tphase = s.tphase := rfl
@[simp] theorem State.modLaunch_todo (s : State) (n : Nat) (f : Launch → Launch) : (s.modLaunch n f).todo = s.todo := rfl
@[simp] theorem State.modLaunch_cur (s : State) (n : Nat) (f : Launch → Launch) : (s.modLaunch n f).cur = s.cur := rfl
@[simp] theorem State.modLaunch_on (s : State) (n : Nat) (f : Launch → Launch) : (s.modLaunch n f).on = s.on := rfl
@[simp] theorem State.modLaunch_freeCtr (s : State) (n : Nat) (f : Launch → Launch) : (s.modLaunch n f).freeCtr = s.freeCtr := rfl
@[simp] theorem State.modLaunch_agenda (s : State) (n : Nat) (f : Launch → Launch) : (s.modLaunch n f).agenda = s.agenda := rfl
@[simp] theorem State.modLaunch_alarms (s : State) (n : Nat) (f : Launch → Launch) : (s.modLaunch n f).alarms = s.alarms := rfl
@[simp] theorem State.modLaunch_cores (s : State) (n : Nat) (f : Launch → Launch) : (s.modLaunch n f).cores = s.cores := rfl
@[simp] theorem State.modLaunch_launches (s : State) (n : Nat) (f : Launch → Launch) : (s.modLaunch n f).launches = updIf (·.lid == n) f s.launches := rfl
@[simp] theorem State.modLaunch_nextLid (s : State) (n : Nat) (f : Launch → Launch) : (s.modLaunch n f).nextLid = s.nextLid := rfl
@[simp] theorem State.modLaunch_bars (s : State) (n : Nat) (f : Launch → Launch) : (s.modLaunch n f).bars = s.bars := rfl
@[simp] theorem State.modLaunch_nextBar (s : State) (n : Nat) (f : Launch → Launch) : (s.modLaunch n f).nextBar = s.nextBar := rfl
@[simp] theorem State.modLaunch_qsends (s : State) (n : Nat) (f : Launch → Launch) : (s.modLaunch n f).qsends = s.qsends := rfl
@[simp] theorem State.modLaunch_nextQ (s : State) (n : Nat) (f : Launch → Launch) : (s.modLaunch n f).nextQ = s.nextQ := rfl
@[simp] theorem State.modLaunch_mem (s : State) (n : Nat) (f : Launch → Launch) : (s.modLaunch n f).mem = s.mem := rfl
@[simp] theorem State.modLaunch_poison (s : State) (n : Nat) (f : Launch → Launch) : (s.modLaunch n f).poison = s.poison := rfl
@[simp] theorem State.modLaunch_bad (s : State) (n : Nat) (f : Launch → Launch) : (s.modLaunch n f).bad = s.bad := rfl
@[simp] theorem State.modLaunch_handles (s : State) (n : Nat) (f : Launch → Launch) : (s.modLaunch n f).handles = s.handles := rfl
@[simp] theorem State.modLaunch_landings (s : State) (n : Nat) (f : Launch → Launch) : (s.modLaunch n f).landings = s.landings := rfl
@[simp] theorem State.modLaunch_groups (s : State) (n : Nat) (f : Launch → Launch) : (s.modLaunch n f).groups = s.groups := rfl
@[simp] theorem State.modLaunch_contexts (s : State) (n : Nat) (f : Launch → Launch) : (s.modLaunch n f).contexts = s.contexts := rfl
@[simp] theorem State.modLaunch_quays (s : State) (n : Nat) (f : Launch → Launch) : (s.modLaunch n f).quays = s.quays := rfl
@[simp] theorem State.modLaunch_tiles (s : State) (n : Nat) (f : Launch → Launch) : (s.modLaunch n f).tiles = s.tiles := rfl
@[simp] theorem State.modLaunch_hbm (s : State) (n : Nat) (f : Launch → Launch) : (s.modLaunch n f).hbm = s.hbm := rfl
@[simp] theorem State.modLaunch_apertures (s : State) (n : Nat) (f : Launch → Launch) : (s.modLaunch n f).apertures = s.apertures := rfl
@[simp] theorem State.modLaunch_shoots (s : State) (n : Nat) (f : Launch → Launch) : (s.modLaunch n f).shoots = s.shoots := rfl
@[simp] theorem State.modLaunch_nextShoot (s : State) (n : Nat) (f : Launch → Launch) : (s.modLaunch n f).nextShoot = s.nextShoot := rfl
@[simp] theorem State.modLaunch_colls (s : State) (n : Nat) (f : Launch → Launch) : (s.modLaunch n f).colls = s.colls := rfl
@[simp] theorem State.modLaunch_nextColl (s : State) (n : Nat) (f : Launch → Launch) : (s.modLaunch n f).nextColl = s.nextColl := rfl
@[simp] theorem State.modLaunch_messages (s : State) (n : Nat) (f : Launch → Launch) : (s.modLaunch n f).messages = s.messages := rfl
@[simp] theorem State.modLaunch_outbox (s : State) (n : Nat) (f : Launch → Launch) : (s.modLaunch n f).outbox = s.outbox := rfl
@[simp] theorem State.modLaunch_relays (s : State) (n : Nat) (f : Launch → Launch) : (s.modLaunch n f).relays = s.relays := rfl
@[simp] theorem State.modLaunch_nextRelay (s : State) (n : Nat) (f : Launch → Launch) : (s.modLaunch n f).nextRelay = s.nextRelay := rfl
@[simp] theorem State.modLaunch_events (s : State) (n : Nat) (f : Launch → Launch) : (s.modLaunch n f).events = s.events := rfl
@[simp] theorem State.modLaunch_pfRing (s : State) (n : Nat) (f : Launch → Launch) : (s.modLaunch n f).pfRing = s.pfRing := rfl
@[simp] theorem State.modLaunch_pkstat (s : State) (n : Nat) (f : Launch → Launch) : (s.modLaunch n f).pkstat = s.pkstat := rfl
@[simp] theorem State.modLaunch_daycAdj (s : State) (n : Nat) (f : Launch → Launch) : (s.modLaunch n f).daycAdj = s.daycAdj := rfl
@[simp] theorem State.modLaunch_dayError (s : State) (n : Nat) (f : Launch → Launch) : (s.modLaunch n f).dayError = s.dayError := rfl
@[simp] theorem State.modLaunch_daycHold (s : State) (n : Nat) (f : Launch → Launch) : (s.modLaunch n f).daycHold = s.daycHold := rfl
@[simp] theorem State.modLaunch_holdover (s : State) (n : Nat) (f : Launch → Launch) : (s.modLaunch n f).holdover = s.holdover := rfl
@[simp] theorem State.modLaunch_expired (s : State) (n : Nat) (f : Launch → Launch) : (s.modLaunch n f).expired = s.expired := rfl
@[simp] theorem State.modLaunch_lastDawn (s : State) (n : Nat) (f : Launch → Launch) : (s.modLaunch n f).lastDawn = s.lastDawn := rfl
@[simp] theorem State.modLaunch_guardDone (s : State) (n : Nat) (f : Launch → Launch) : (s.modLaunch n f).guardDone = s.guardDone := rfl
@[simp] theorem State.modLaunch_hot (s : State) (n : Nat) (f : Launch → Launch) : (s.modLaunch n f).hot = s.hot := rfl
@[simp] theorem State.modLaunch_limitAt (s : State) (n : Nat) (f : Launch → Launch) : (s.modLaunch n f).limitAt = s.limitAt := rfl
@[simp] theorem State.modLaunch_lowAt (s : State) (n : Nat) (f : Launch → Launch) : (s.modLaunch n f).lowAt = s.lowAt := rfl
@[simp] theorem State.modLaunch_clockDue (s : State) (n : Nat) (f : Launch → Launch) : (s.modLaunch n f).clockDue = s.clockDue := rfl
@[simp] theorem State.modLaunch_thermal (s : State) (n : Nat) (f : Launch → Launch) : (s.modLaunch n f).thermal = s.thermal := rfl
@[simp] theorem State.modLaunch_turn (s : State) (n : Nat) (f : Launch → Launch) : (s.modLaunch n f).turn = s.turn := rfl
@[simp] theorem State.modLaunch_booted (s : State) (n : Nat) (f : Launch → Launch) : (s.modLaunch n f).booted = s.booted := rfl
@[simp] theorem State.modLaunch_answer (s : State) (n : Nat) (f : Launch → Launch) : (s.modLaunch n f).answer = s.answer := rfl
@[simp] theorem State.modLaunch_nv (s : State) (n : Nat) (f : Launch → Launch) : (s.modLaunch n f).nv = s.nv := rfl

@[simp] theorem State.modCtx_now (s : State) (n : Nat) (f : Context → Context) : (s.modCtx n f).now = s.now := rfl
@[simp] theorem State.modCtx_wall (s : State) (n : Nat) (f : Context → Context) : (s.modCtx n f).wall = s.wall := rfl
@[simp] theorem State.modCtx_clock (s : State) (n : Nat) (f : Context → Context) : (s.modCtx n f).clock = s.clock := rfl
@[simp] theorem State.modCtx_tphase (s : State) (n : Nat) (f : Context → Context) : (s.modCtx n f).tphase = s.tphase := rfl
@[simp] theorem State.modCtx_todo (s : State) (n : Nat) (f : Context → Context) : (s.modCtx n f).todo = s.todo := rfl
@[simp] theorem State.modCtx_cur (s : State) (n : Nat) (f : Context → Context) : (s.modCtx n f).cur = s.cur := rfl
@[simp] theorem State.modCtx_on (s : State) (n : Nat) (f : Context → Context) : (s.modCtx n f).on = s.on := rfl
@[simp] theorem State.modCtx_freeCtr (s : State) (n : Nat) (f : Context → Context) : (s.modCtx n f).freeCtr = s.freeCtr := rfl
@[simp] theorem State.modCtx_agenda (s : State) (n : Nat) (f : Context → Context) : (s.modCtx n f).agenda = s.agenda := rfl
@[simp] theorem State.modCtx_alarms (s : State) (n : Nat) (f : Context → Context) : (s.modCtx n f).alarms = s.alarms := rfl
@[simp] theorem State.modCtx_cores (s : State) (n : Nat) (f : Context → Context) : (s.modCtx n f).cores = s.cores := rfl
@[simp] theorem State.modCtx_launches (s : State) (n : Nat) (f : Context → Context) : (s.modCtx n f).launches = s.launches := rfl
@[simp] theorem State.modCtx_nextLid (s : State) (n : Nat) (f : Context → Context) : (s.modCtx n f).nextLid = s.nextLid := rfl
@[simp] theorem State.modCtx_bars (s : State) (n : Nat) (f : Context → Context) : (s.modCtx n f).bars = s.bars := rfl
@[simp] theorem State.modCtx_nextBar (s : State) (n : Nat) (f : Context → Context) : (s.modCtx n f).nextBar = s.nextBar := rfl
@[simp] theorem State.modCtx_qsends (s : State) (n : Nat) (f : Context → Context) : (s.modCtx n f).qsends = s.qsends := rfl
@[simp] theorem State.modCtx_nextQ (s : State) (n : Nat) (f : Context → Context) : (s.modCtx n f).nextQ = s.nextQ := rfl
@[simp] theorem State.modCtx_mem (s : State) (n : Nat) (f : Context → Context) : (s.modCtx n f).mem = s.mem := rfl
@[simp] theorem State.modCtx_poison (s : State) (n : Nat) (f : Context → Context) : (s.modCtx n f).poison = s.poison := rfl
@[simp] theorem State.modCtx_bad (s : State) (n : Nat) (f : Context → Context) : (s.modCtx n f).bad = s.bad := rfl
@[simp] theorem State.modCtx_handles (s : State) (n : Nat) (f : Context → Context) : (s.modCtx n f).handles = s.handles := rfl
@[simp] theorem State.modCtx_landings (s : State) (n : Nat) (f : Context → Context) : (s.modCtx n f).landings = s.landings := rfl
@[simp] theorem State.modCtx_groups (s : State) (n : Nat) (f : Context → Context) : (s.modCtx n f).groups = s.groups := rfl
@[simp] theorem State.modCtx_contexts (s : State) (n : Nat) (f : Context → Context) : (s.modCtx n f).contexts = vPut s.contexts n (f (s.ctx n)) := rfl
@[simp] theorem State.modCtx_quays (s : State) (n : Nat) (f : Context → Context) : (s.modCtx n f).quays = s.quays := rfl
@[simp] theorem State.modCtx_tiles (s : State) (n : Nat) (f : Context → Context) : (s.modCtx n f).tiles = s.tiles := rfl
@[simp] theorem State.modCtx_hbm (s : State) (n : Nat) (f : Context → Context) : (s.modCtx n f).hbm = s.hbm := rfl
@[simp] theorem State.modCtx_apertures (s : State) (n : Nat) (f : Context → Context) : (s.modCtx n f).apertures = s.apertures := rfl
@[simp] theorem State.modCtx_shoots (s : State) (n : Nat) (f : Context → Context) : (s.modCtx n f).shoots = s.shoots := rfl
@[simp] theorem State.modCtx_nextShoot (s : State) (n : Nat) (f : Context → Context) : (s.modCtx n f).nextShoot = s.nextShoot := rfl
@[simp] theorem State.modCtx_colls (s : State) (n : Nat) (f : Context → Context) : (s.modCtx n f).colls = s.colls := rfl
@[simp] theorem State.modCtx_nextColl (s : State) (n : Nat) (f : Context → Context) : (s.modCtx n f).nextColl = s.nextColl := rfl
@[simp] theorem State.modCtx_messages (s : State) (n : Nat) (f : Context → Context) : (s.modCtx n f).messages = s.messages := rfl
@[simp] theorem State.modCtx_outbox (s : State) (n : Nat) (f : Context → Context) : (s.modCtx n f).outbox = s.outbox := rfl
@[simp] theorem State.modCtx_relays (s : State) (n : Nat) (f : Context → Context) : (s.modCtx n f).relays = s.relays := rfl
@[simp] theorem State.modCtx_nextRelay (s : State) (n : Nat) (f : Context → Context) : (s.modCtx n f).nextRelay = s.nextRelay := rfl
@[simp] theorem State.modCtx_events (s : State) (n : Nat) (f : Context → Context) : (s.modCtx n f).events = s.events := rfl
@[simp] theorem State.modCtx_pfRing (s : State) (n : Nat) (f : Context → Context) : (s.modCtx n f).pfRing = s.pfRing := rfl
@[simp] theorem State.modCtx_pkstat (s : State) (n : Nat) (f : Context → Context) : (s.modCtx n f).pkstat = s.pkstat := rfl
@[simp] theorem State.modCtx_daycAdj (s : State) (n : Nat) (f : Context → Context) : (s.modCtx n f).daycAdj = s.daycAdj := rfl
@[simp] theorem State.modCtx_dayError (s : State) (n : Nat) (f : Context → Context) : (s.modCtx n f).dayError = s.dayError := rfl
@[simp] theorem State.modCtx_daycHold (s : State) (n : Nat) (f : Context → Context) : (s.modCtx n f).daycHold = s.daycHold := rfl
@[simp] theorem State.modCtx_holdover (s : State) (n : Nat) (f : Context → Context) : (s.modCtx n f).holdover = s.holdover := rfl
@[simp] theorem State.modCtx_expired (s : State) (n : Nat) (f : Context → Context) : (s.modCtx n f).expired = s.expired := rfl
@[simp] theorem State.modCtx_lastDawn (s : State) (n : Nat) (f : Context → Context) : (s.modCtx n f).lastDawn = s.lastDawn := rfl
@[simp] theorem State.modCtx_guardDone (s : State) (n : Nat) (f : Context → Context) : (s.modCtx n f).guardDone = s.guardDone := rfl
@[simp] theorem State.modCtx_hot (s : State) (n : Nat) (f : Context → Context) : (s.modCtx n f).hot = s.hot := rfl
@[simp] theorem State.modCtx_limitAt (s : State) (n : Nat) (f : Context → Context) : (s.modCtx n f).limitAt = s.limitAt := rfl
@[simp] theorem State.modCtx_lowAt (s : State) (n : Nat) (f : Context → Context) : (s.modCtx n f).lowAt = s.lowAt := rfl
@[simp] theorem State.modCtx_clockDue (s : State) (n : Nat) (f : Context → Context) : (s.modCtx n f).clockDue = s.clockDue := rfl
@[simp] theorem State.modCtx_thermal (s : State) (n : Nat) (f : Context → Context) : (s.modCtx n f).thermal = s.thermal := rfl
@[simp] theorem State.modCtx_turn (s : State) (n : Nat) (f : Context → Context) : (s.modCtx n f).turn = s.turn := rfl
@[simp] theorem State.modCtx_booted (s : State) (n : Nat) (f : Context → Context) : (s.modCtx n f).booted = s.booted := rfl
@[simp] theorem State.modCtx_answer (s : State) (n : Nat) (f : Context → Context) : (s.modCtx n f).answer = s.answer := rfl
@[simp] theorem State.modCtx_nv (s : State) (n : Nat) (f : Context → Context) : (s.modCtx n f).nv = s.nv := rfl

@[simp] theorem State.modTile_now (s : State) (n : Nat) (f : TileSt → TileSt) : (s.modTile n f).now = s.now := rfl
@[simp] theorem State.modTile_wall (s : State) (n : Nat) (f : TileSt → TileSt) : (s.modTile n f).wall = s.wall := rfl
@[simp] theorem State.modTile_clock (s : State) (n : Nat) (f : TileSt → TileSt) : (s.modTile n f).clock = s.clock := rfl
@[simp] theorem State.modTile_tphase (s : State) (n : Nat) (f : TileSt → TileSt) : (s.modTile n f).tphase = s.tphase := rfl
@[simp] theorem State.modTile_todo (s : State) (n : Nat) (f : TileSt → TileSt) : (s.modTile n f).todo = s.todo := rfl
@[simp] theorem State.modTile_cur (s : State) (n : Nat) (f : TileSt → TileSt) : (s.modTile n f).cur = s.cur := rfl
@[simp] theorem State.modTile_on (s : State) (n : Nat) (f : TileSt → TileSt) : (s.modTile n f).on = s.on := rfl
@[simp] theorem State.modTile_freeCtr (s : State) (n : Nat) (f : TileSt → TileSt) : (s.modTile n f).freeCtr = s.freeCtr := rfl
@[simp] theorem State.modTile_agenda (s : State) (n : Nat) (f : TileSt → TileSt) : (s.modTile n f).agenda = s.agenda := rfl
@[simp] theorem State.modTile_alarms (s : State) (n : Nat) (f : TileSt → TileSt) : (s.modTile n f).alarms = s.alarms := rfl
@[simp] theorem State.modTile_cores (s : State) (n : Nat) (f : TileSt → TileSt) : (s.modTile n f).cores = s.cores := rfl
@[simp] theorem State.modTile_launches (s : State) (n : Nat) (f : TileSt → TileSt) : (s.modTile n f).launches = s.launches := rfl
@[simp] theorem State.modTile_nextLid (s : State) (n : Nat) (f : TileSt → TileSt) : (s.modTile n f).nextLid = s.nextLid := rfl
@[simp] theorem State.modTile_bars (s : State) (n : Nat) (f : TileSt → TileSt) : (s.modTile n f).bars = s.bars := rfl
@[simp] theorem State.modTile_nextBar (s : State) (n : Nat) (f : TileSt → TileSt) : (s.modTile n f).nextBar = s.nextBar := rfl
@[simp] theorem State.modTile_qsends (s : State) (n : Nat) (f : TileSt → TileSt) : (s.modTile n f).qsends = s.qsends := rfl
@[simp] theorem State.modTile_nextQ (s : State) (n : Nat) (f : TileSt → TileSt) : (s.modTile n f).nextQ = s.nextQ := rfl
@[simp] theorem State.modTile_mem (s : State) (n : Nat) (f : TileSt → TileSt) : (s.modTile n f).mem = s.mem := rfl
@[simp] theorem State.modTile_poison (s : State) (n : Nat) (f : TileSt → TileSt) : (s.modTile n f).poison = s.poison := rfl
@[simp] theorem State.modTile_bad (s : State) (n : Nat) (f : TileSt → TileSt) : (s.modTile n f).bad = s.bad := rfl
@[simp] theorem State.modTile_handles (s : State) (n : Nat) (f : TileSt → TileSt) : (s.modTile n f).handles = s.handles := rfl
@[simp] theorem State.modTile_landings (s : State) (n : Nat) (f : TileSt → TileSt) : (s.modTile n f).landings = s.landings := rfl
@[simp] theorem State.modTile_groups (s : State) (n : Nat) (f : TileSt → TileSt) : (s.modTile n f).groups = s.groups := rfl
@[simp] theorem State.modTile_contexts (s : State) (n : Nat) (f : TileSt → TileSt) : (s.modTile n f).contexts = s.contexts := rfl
@[simp] theorem State.modTile_quays (s : State) (n : Nat) (f : TileSt → TileSt) : (s.modTile n f).quays = s.quays := rfl
@[simp] theorem State.modTile_tiles (s : State) (n : Nat) (f : TileSt → TileSt) : (s.modTile n f).tiles = vPut s.tiles n (f (s.tile n)) := rfl
@[simp] theorem State.modTile_hbm (s : State) (n : Nat) (f : TileSt → TileSt) : (s.modTile n f).hbm = s.hbm := rfl
@[simp] theorem State.modTile_apertures (s : State) (n : Nat) (f : TileSt → TileSt) : (s.modTile n f).apertures = s.apertures := rfl
@[simp] theorem State.modTile_shoots (s : State) (n : Nat) (f : TileSt → TileSt) : (s.modTile n f).shoots = s.shoots := rfl
@[simp] theorem State.modTile_nextShoot (s : State) (n : Nat) (f : TileSt → TileSt) : (s.modTile n f).nextShoot = s.nextShoot := rfl
@[simp] theorem State.modTile_colls (s : State) (n : Nat) (f : TileSt → TileSt) : (s.modTile n f).colls = s.colls := rfl
@[simp] theorem State.modTile_nextColl (s : State) (n : Nat) (f : TileSt → TileSt) : (s.modTile n f).nextColl = s.nextColl := rfl
@[simp] theorem State.modTile_messages (s : State) (n : Nat) (f : TileSt → TileSt) : (s.modTile n f).messages = s.messages := rfl
@[simp] theorem State.modTile_outbox (s : State) (n : Nat) (f : TileSt → TileSt) : (s.modTile n f).outbox = s.outbox := rfl
@[simp] theorem State.modTile_relays (s : State) (n : Nat) (f : TileSt → TileSt) : (s.modTile n f).relays = s.relays := rfl
@[simp] theorem State.modTile_nextRelay (s : State) (n : Nat) (f : TileSt → TileSt) : (s.modTile n f).nextRelay = s.nextRelay := rfl
@[simp] theorem State.modTile_events (s : State) (n : Nat) (f : TileSt → TileSt) : (s.modTile n f).events = s.events := rfl
@[simp] theorem State.modTile_pfRing (s : State) (n : Nat) (f : TileSt → TileSt) : (s.modTile n f).pfRing = s.pfRing := rfl
@[simp] theorem State.modTile_pkstat (s : State) (n : Nat) (f : TileSt → TileSt) : (s.modTile n f).pkstat = s.pkstat := rfl
@[simp] theorem State.modTile_daycAdj (s : State) (n : Nat) (f : TileSt → TileSt) : (s.modTile n f).daycAdj = s.daycAdj := rfl
@[simp] theorem State.modTile_dayError (s : State) (n : Nat) (f : TileSt → TileSt) : (s.modTile n f).dayError = s.dayError := rfl
@[simp] theorem State.modTile_daycHold (s : State) (n : Nat) (f : TileSt → TileSt) : (s.modTile n f).daycHold = s.daycHold := rfl
@[simp] theorem State.modTile_holdover (s : State) (n : Nat) (f : TileSt → TileSt) : (s.modTile n f).holdover = s.holdover := rfl
@[simp] theorem State.modTile_expired (s : State) (n : Nat) (f : TileSt → TileSt) : (s.modTile n f).expired = s.expired := rfl
@[simp] theorem State.modTile_lastDawn (s : State) (n : Nat) (f : TileSt → TileSt) : (s.modTile n f).lastDawn = s.lastDawn := rfl
@[simp] theorem State.modTile_guardDone (s : State) (n : Nat) (f : TileSt → TileSt) : (s.modTile n f).guardDone = s.guardDone := rfl
@[simp] theorem State.modTile_hot (s : State) (n : Nat) (f : TileSt → TileSt) : (s.modTile n f).hot = s.hot := rfl
@[simp] theorem State.modTile_limitAt (s : State) (n : Nat) (f : TileSt → TileSt) : (s.modTile n f).limitAt = s.limitAt := rfl
@[simp] theorem State.modTile_lowAt (s : State) (n : Nat) (f : TileSt → TileSt) : (s.modTile n f).lowAt = s.lowAt := rfl
@[simp] theorem State.modTile_clockDue (s : State) (n : Nat) (f : TileSt → TileSt) : (s.modTile n f).clockDue = s.clockDue := rfl
@[simp] theorem State.modTile_thermal (s : State) (n : Nat) (f : TileSt → TileSt) : (s.modTile n f).thermal = s.thermal := rfl
@[simp] theorem State.modTile_turn (s : State) (n : Nat) (f : TileSt → TileSt) : (s.modTile n f).turn = s.turn := rfl
@[simp] theorem State.modTile_booted (s : State) (n : Nat) (f : TileSt → TileSt) : (s.modTile n f).booted = s.booted := rfl
@[simp] theorem State.modTile_answer (s : State) (n : Nat) (f : TileSt → TileSt) : (s.modTile n f).answer = s.answer := rfl
@[simp] theorem State.modTile_nv (s : State) (n : Nat) (f : TileSt → TileSt) : (s.modTile n f).nv = s.nv := rfl

@[simp] theorem State.modStack_now (s : State) (n : Nat) (f : Stack → Stack) : (s.modStack n f).now = s.now := rfl
@[simp] theorem State.modStack_wall (s : State) (n : Nat) (f : Stack → Stack) : (s.modStack n f).wall = s.wall := rfl
@[simp] theorem State.modStack_clock (s : State) (n : Nat) (f : Stack → Stack) : (s.modStack n f).clock = s.clock := rfl
@[simp] theorem State.modStack_tphase (s : State) (n : Nat) (f : Stack → Stack) : (s.modStack n f).tphase = s.tphase := rfl
@[simp] theorem State.modStack_todo (s : State) (n : Nat) (f : Stack → Stack) : (s.modStack n f).todo = s.todo := rfl
@[simp] theorem State.modStack_cur (s : State) (n : Nat) (f : Stack → Stack) : (s.modStack n f).cur = s.cur := rfl
@[simp] theorem State.modStack_on (s : State) (n : Nat) (f : Stack → Stack) : (s.modStack n f).on = s.on := rfl
@[simp] theorem State.modStack_freeCtr (s : State) (n : Nat) (f : Stack → Stack) : (s.modStack n f).freeCtr = s.freeCtr := rfl
@[simp] theorem State.modStack_agenda (s : State) (n : Nat) (f : Stack → Stack) : (s.modStack n f).agenda = s.agenda := rfl
@[simp] theorem State.modStack_alarms (s : State) (n : Nat) (f : Stack → Stack) : (s.modStack n f).alarms = s.alarms := rfl
@[simp] theorem State.modStack_cores (s : State) (n : Nat) (f : Stack → Stack) : (s.modStack n f).cores = s.cores := rfl
@[simp] theorem State.modStack_launches (s : State) (n : Nat) (f : Stack → Stack) : (s.modStack n f).launches = s.launches := rfl
@[simp] theorem State.modStack_nextLid (s : State) (n : Nat) (f : Stack → Stack) : (s.modStack n f).nextLid = s.nextLid := rfl
@[simp] theorem State.modStack_bars (s : State) (n : Nat) (f : Stack → Stack) : (s.modStack n f).bars = s.bars := rfl
@[simp] theorem State.modStack_nextBar (s : State) (n : Nat) (f : Stack → Stack) : (s.modStack n f).nextBar = s.nextBar := rfl
@[simp] theorem State.modStack_qsends (s : State) (n : Nat) (f : Stack → Stack) : (s.modStack n f).qsends = s.qsends := rfl
@[simp] theorem State.modStack_nextQ (s : State) (n : Nat) (f : Stack → Stack) : (s.modStack n f).nextQ = s.nextQ := rfl
@[simp] theorem State.modStack_mem (s : State) (n : Nat) (f : Stack → Stack) : (s.modStack n f).mem = s.mem := rfl
@[simp] theorem State.modStack_poison (s : State) (n : Nat) (f : Stack → Stack) : (s.modStack n f).poison = s.poison := rfl
@[simp] theorem State.modStack_bad (s : State) (n : Nat) (f : Stack → Stack) : (s.modStack n f).bad = s.bad := rfl
@[simp] theorem State.modStack_handles (s : State) (n : Nat) (f : Stack → Stack) : (s.modStack n f).handles = s.handles := rfl
@[simp] theorem State.modStack_landings (s : State) (n : Nat) (f : Stack → Stack) : (s.modStack n f).landings = s.landings := rfl
@[simp] theorem State.modStack_groups (s : State) (n : Nat) (f : Stack → Stack) : (s.modStack n f).groups = s.groups := rfl
@[simp] theorem State.modStack_contexts (s : State) (n : Nat) (f : Stack → Stack) : (s.modStack n f).contexts = s.contexts := rfl
@[simp] theorem State.modStack_quays (s : State) (n : Nat) (f : Stack → Stack) : (s.modStack n f).quays = s.quays := rfl
@[simp] theorem State.modStack_tiles (s : State) (n : Nat) (f : Stack → Stack) : (s.modStack n f).tiles = s.tiles := rfl
@[simp] theorem State.modStack_hbm (s : State) (n : Nat) (f : Stack → Stack) : (s.modStack n f).hbm = vPut s.hbm n (f (s.stack n)) := rfl
@[simp] theorem State.modStack_apertures (s : State) (n : Nat) (f : Stack → Stack) : (s.modStack n f).apertures = s.apertures := rfl
@[simp] theorem State.modStack_shoots (s : State) (n : Nat) (f : Stack → Stack) : (s.modStack n f).shoots = s.shoots := rfl
@[simp] theorem State.modStack_nextShoot (s : State) (n : Nat) (f : Stack → Stack) : (s.modStack n f).nextShoot = s.nextShoot := rfl
@[simp] theorem State.modStack_colls (s : State) (n : Nat) (f : Stack → Stack) : (s.modStack n f).colls = s.colls := rfl
@[simp] theorem State.modStack_nextColl (s : State) (n : Nat) (f : Stack → Stack) : (s.modStack n f).nextColl = s.nextColl := rfl
@[simp] theorem State.modStack_messages (s : State) (n : Nat) (f : Stack → Stack) : (s.modStack n f).messages = s.messages := rfl
@[simp] theorem State.modStack_outbox (s : State) (n : Nat) (f : Stack → Stack) : (s.modStack n f).outbox = s.outbox := rfl
@[simp] theorem State.modStack_relays (s : State) (n : Nat) (f : Stack → Stack) : (s.modStack n f).relays = s.relays := rfl
@[simp] theorem State.modStack_nextRelay (s : State) (n : Nat) (f : Stack → Stack) : (s.modStack n f).nextRelay = s.nextRelay := rfl
@[simp] theorem State.modStack_events (s : State) (n : Nat) (f : Stack → Stack) : (s.modStack n f).events = s.events := rfl
@[simp] theorem State.modStack_pfRing (s : State) (n : Nat) (f : Stack → Stack) : (s.modStack n f).pfRing = s.pfRing := rfl
@[simp] theorem State.modStack_pkstat (s : State) (n : Nat) (f : Stack → Stack) : (s.modStack n f).pkstat = s.pkstat := rfl
@[simp] theorem State.modStack_daycAdj (s : State) (n : Nat) (f : Stack → Stack) : (s.modStack n f).daycAdj = s.daycAdj := rfl
@[simp] theorem State.modStack_dayError (s : State) (n : Nat) (f : Stack → Stack) : (s.modStack n f).dayError = s.dayError := rfl
@[simp] theorem State.modStack_daycHold (s : State) (n : Nat) (f : Stack → Stack) : (s.modStack n f).daycHold = s.daycHold := rfl
@[simp] theorem State.modStack_holdover (s : State) (n : Nat) (f : Stack → Stack) : (s.modStack n f).holdover = s.holdover := rfl
@[simp] theorem State.modStack_expired (s : State) (n : Nat) (f : Stack → Stack) : (s.modStack n f).expired = s.expired := rfl
@[simp] theorem State.modStack_lastDawn (s : State) (n : Nat) (f : Stack → Stack) : (s.modStack n f).lastDawn = s.lastDawn := rfl
@[simp] theorem State.modStack_guardDone (s : State) (n : Nat) (f : Stack → Stack) : (s.modStack n f).guardDone = s.guardDone := rfl
@[simp] theorem State.modStack_hot (s : State) (n : Nat) (f : Stack → Stack) : (s.modStack n f).hot = s.hot := rfl
@[simp] theorem State.modStack_limitAt (s : State) (n : Nat) (f : Stack → Stack) : (s.modStack n f).limitAt = s.limitAt := rfl
@[simp] theorem State.modStack_lowAt (s : State) (n : Nat) (f : Stack → Stack) : (s.modStack n f).lowAt = s.lowAt := rfl
@[simp] theorem State.modStack_clockDue (s : State) (n : Nat) (f : Stack → Stack) : (s.modStack n f).clockDue = s.clockDue := rfl
@[simp] theorem State.modStack_thermal (s : State) (n : Nat) (f : Stack → Stack) : (s.modStack n f).thermal = s.thermal := rfl
@[simp] theorem State.modStack_turn (s : State) (n : Nat) (f : Stack → Stack) : (s.modStack n f).turn = s.turn := rfl
@[simp] theorem State.modStack_booted (s : State) (n : Nat) (f : Stack → Stack) : (s.modStack n f).booted = s.booted := rfl
@[simp] theorem State.modStack_answer (s : State) (n : Nat) (f : Stack → Stack) : (s.modStack n f).answer = s.answer := rfl
@[simp] theorem State.modStack_nv (s : State) (n : Nat) (f : Stack → Stack) : (s.modStack n f).nv = s.nv := rfl

@[simp] theorem State.modHandle_now (s : State) (n : Nat) (f : Handle → Handle) : (s.modHandle n f).now = s.now := rfl
@[simp] theorem State.modHandle_wall (s : State) (n : Nat) (f : Handle → Handle) : (s.modHandle n f).wall = s.wall := rfl
@[simp] theorem State.modHandle_clock (s : State) (n : Nat) (f : Handle → Handle) : (s.modHandle n f).clock = s.clock := rfl
@[simp] theorem State.modHandle_tphase (s : State) (n : Nat) (f : Handle → Handle) : (s.modHandle n f).tphase = s.tphase := rfl
@[simp] theorem State.modHandle_todo (s : State) (n : Nat) (f : Handle → Handle) : (s.modHandle n f).todo = s.todo := rfl
@[simp] theorem State.modHandle_cur (s : State) (n : Nat) (f : Handle → Handle) : (s.modHandle n f).cur = s.cur := rfl
@[simp] theorem State.modHandle_on (s : State) (n : Nat) (f : Handle → Handle) : (s.modHandle n f).on = s.on := rfl
@[simp] theorem State.modHandle_freeCtr (s : State) (n : Nat) (f : Handle → Handle) : (s.modHandle n f).freeCtr = s.freeCtr := rfl
@[simp] theorem State.modHandle_agenda (s : State) (n : Nat) (f : Handle → Handle) : (s.modHandle n f).agenda = s.agenda := rfl
@[simp] theorem State.modHandle_alarms (s : State) (n : Nat) (f : Handle → Handle) : (s.modHandle n f).alarms = s.alarms := rfl
@[simp] theorem State.modHandle_cores (s : State) (n : Nat) (f : Handle → Handle) : (s.modHandle n f).cores = s.cores := rfl
@[simp] theorem State.modHandle_launches (s : State) (n : Nat) (f : Handle → Handle) : (s.modHandle n f).launches = s.launches := rfl
@[simp] theorem State.modHandle_nextLid (s : State) (n : Nat) (f : Handle → Handle) : (s.modHandle n f).nextLid = s.nextLid := rfl
@[simp] theorem State.modHandle_bars (s : State) (n : Nat) (f : Handle → Handle) : (s.modHandle n f).bars = s.bars := rfl
@[simp] theorem State.modHandle_nextBar (s : State) (n : Nat) (f : Handle → Handle) : (s.modHandle n f).nextBar = s.nextBar := rfl
@[simp] theorem State.modHandle_qsends (s : State) (n : Nat) (f : Handle → Handle) : (s.modHandle n f).qsends = s.qsends := rfl
@[simp] theorem State.modHandle_nextQ (s : State) (n : Nat) (f : Handle → Handle) : (s.modHandle n f).nextQ = s.nextQ := rfl
@[simp] theorem State.modHandle_mem (s : State) (n : Nat) (f : Handle → Handle) : (s.modHandle n f).mem = s.mem := rfl
@[simp] theorem State.modHandle_poison (s : State) (n : Nat) (f : Handle → Handle) : (s.modHandle n f).poison = s.poison := rfl
@[simp] theorem State.modHandle_bad (s : State) (n : Nat) (f : Handle → Handle) : (s.modHandle n f).bad = s.bad := rfl
@[simp] theorem State.modHandle_handles (s : State) (n : Nat) (f : Handle → Handle) : (s.modHandle n f).handles = vPut s.handles n (f (s.handle n)) := rfl
@[simp] theorem State.modHandle_landings (s : State) (n : Nat) (f : Handle → Handle) : (s.modHandle n f).landings = s.landings := rfl
@[simp] theorem State.modHandle_groups (s : State) (n : Nat) (f : Handle → Handle) : (s.modHandle n f).groups = s.groups := rfl
@[simp] theorem State.modHandle_contexts (s : State) (n : Nat) (f : Handle → Handle) : (s.modHandle n f).contexts = s.contexts := rfl
@[simp] theorem State.modHandle_quays (s : State) (n : Nat) (f : Handle → Handle) : (s.modHandle n f).quays = s.quays := rfl
@[simp] theorem State.modHandle_tiles (s : State) (n : Nat) (f : Handle → Handle) : (s.modHandle n f).tiles = s.tiles := rfl
@[simp] theorem State.modHandle_hbm (s : State) (n : Nat) (f : Handle → Handle) : (s.modHandle n f).hbm = s.hbm := rfl
@[simp] theorem State.modHandle_apertures (s : State) (n : Nat) (f : Handle → Handle) : (s.modHandle n f).apertures = s.apertures := rfl
@[simp] theorem State.modHandle_shoots (s : State) (n : Nat) (f : Handle → Handle) : (s.modHandle n f).shoots = s.shoots := rfl
@[simp] theorem State.modHandle_nextShoot (s : State) (n : Nat) (f : Handle → Handle) : (s.modHandle n f).nextShoot = s.nextShoot := rfl
@[simp] theorem State.modHandle_colls (s : State) (n : Nat) (f : Handle → Handle) : (s.modHandle n f).colls = s.colls := rfl
@[simp] theorem State.modHandle_nextColl (s : State) (n : Nat) (f : Handle → Handle) : (s.modHandle n f).nextColl = s.nextColl := rfl
@[simp] theorem State.modHandle_messages (s : State) (n : Nat) (f : Handle → Handle) : (s.modHandle n f).messages = s.messages := rfl
@[simp] theorem State.modHandle_outbox (s : State) (n : Nat) (f : Handle → Handle) : (s.modHandle n f).outbox = s.outbox := rfl
@[simp] theorem State.modHandle_relays (s : State) (n : Nat) (f : Handle → Handle) : (s.modHandle n f).relays = s.relays := rfl
@[simp] theorem State.modHandle_nextRelay (s : State) (n : Nat) (f : Handle → Handle) : (s.modHandle n f).nextRelay = s.nextRelay := rfl
@[simp] theorem State.modHandle_events (s : State) (n : Nat) (f : Handle → Handle) : (s.modHandle n f).events = s.events := rfl
@[simp] theorem State.modHandle_pfRing (s : State) (n : Nat) (f : Handle → Handle) : (s.modHandle n f).pfRing = s.pfRing := rfl
@[simp] theorem State.modHandle_pkstat (s : State) (n : Nat) (f : Handle → Handle) : (s.modHandle n f).pkstat = s.pkstat := rfl
@[simp] theorem State.modHandle_daycAdj (s : State) (n : Nat) (f : Handle → Handle) : (s.modHandle n f).daycAdj = s.daycAdj := rfl
@[simp] theorem State.modHandle_dayError (s : State) (n : Nat) (f : Handle → Handle) : (s.modHandle n f).dayError = s.dayError := rfl
@[simp] theorem State.modHandle_daycHold (s : State) (n : Nat) (f : Handle → Handle) : (s.modHandle n f).daycHold = s.daycHold := rfl
@[simp] theorem State.modHandle_holdover (s : State) (n : Nat) (f : Handle → Handle) : (s.modHandle n f).holdover = s.holdover := rfl
@[simp] theorem State.modHandle_expired (s : State) (n : Nat) (f : Handle → Handle) : (s.modHandle n f).expired = s.expired := rfl
@[simp] theorem State.modHandle_lastDawn (s : State) (n : Nat) (f : Handle → Handle) : (s.modHandle n f).lastDawn = s.lastDawn := rfl
@[simp] theorem State.modHandle_guardDone (s : State) (n : Nat) (f : Handle → Handle) : (s.modHandle n f).guardDone = s.guardDone := rfl
@[simp] theorem State.modHandle_hot (s : State) (n : Nat) (f : Handle → Handle) : (s.modHandle n f).hot = s.hot := rfl
@[simp] theorem State.modHandle_limitAt (s : State) (n : Nat) (f : Handle → Handle) : (s.modHandle n f).limitAt = s.limitAt := rfl
@[simp] theorem State.modHandle_lowAt (s : State) (n : Nat) (f : Handle → Handle) : (s.modHandle n f).lowAt = s.lowAt := rfl
@[simp] theorem State.modHandle_clockDue (s : State) (n : Nat) (f : Handle → Handle) : (s.modHandle n f).clockDue = s.clockDue := rfl
@[simp] theorem State.modHandle_thermal (s : State) (n : Nat) (f : Handle → Handle) : (s.modHandle n f).thermal = s.thermal := rfl
@[simp] theorem State.modHandle_turn (s : State) (n : Nat) (f : Handle → Handle) : (s.modHandle n f).turn = s.turn := rfl
@[simp] theorem State.modHandle_booted (s : State) (n : Nat) (f : Handle → Handle) : (s.modHandle n f).booted = s.booted := rfl
@[simp] theorem State.modHandle_answer (s : State) (n : Nat) (f : Handle → Handle) : (s.modHandle n f).answer = s.answer := rfl
@[simp] theorem State.modHandle_nv (s : State) (n : Nat) (f : Handle → Handle) : (s.modHandle n f).nv = s.nv := rfl

@[simp] theorem State.modLanding_now (s : State) (n : Nat) (f : Landing → Landing) : (s.modLanding n f).now = s.now := rfl
@[simp] theorem State.modLanding_wall (s : State) (n : Nat) (f : Landing → Landing) : (s.modLanding n f).wall = s.wall := rfl
@[simp] theorem State.modLanding_clock (s : State) (n : Nat) (f : Landing → Landing) : (s.modLanding n f).clock = s.clock := rfl
@[simp] theorem State.modLanding_tphase (s : State) (n : Nat) (f : Landing → Landing) : (s.modLanding n f).tphase = s.tphase := rfl
@[simp] theorem State.modLanding_todo (s : State) (n : Nat) (f : Landing → Landing) : (s.modLanding n f).todo = s.todo := rfl
@[simp] theorem State.modLanding_cur (s : State) (n : Nat) (f : Landing → Landing) : (s.modLanding n f).cur = s.cur := rfl
@[simp] theorem State.modLanding_on (s : State) (n : Nat) (f : Landing → Landing) : (s.modLanding n f).on = s.on := rfl
@[simp] theorem State.modLanding_freeCtr (s : State) (n : Nat) (f : Landing → Landing) : (s.modLanding n f).freeCtr = s.freeCtr := rfl
@[simp] theorem State.modLanding_agenda (s : State) (n : Nat) (f : Landing → Landing) : (s.modLanding n f).agenda = s.agenda := rfl
@[simp] theorem State.modLanding_alarms (s : State) (n : Nat) (f : Landing → Landing) : (s.modLanding n f).alarms = s.alarms := rfl
@[simp] theorem State.modLanding_cores (s : State) (n : Nat) (f : Landing → Landing) : (s.modLanding n f).cores = s.cores := rfl
@[simp] theorem State.modLanding_launches (s : State) (n : Nat) (f : Landing → Landing) : (s.modLanding n f).launches = s.launches := rfl
@[simp] theorem State.modLanding_nextLid (s : State) (n : Nat) (f : Landing → Landing) : (s.modLanding n f).nextLid = s.nextLid := rfl
@[simp] theorem State.modLanding_bars (s : State) (n : Nat) (f : Landing → Landing) : (s.modLanding n f).bars = s.bars := rfl
@[simp] theorem State.modLanding_nextBar (s : State) (n : Nat) (f : Landing → Landing) : (s.modLanding n f).nextBar = s.nextBar := rfl
@[simp] theorem State.modLanding_qsends (s : State) (n : Nat) (f : Landing → Landing) : (s.modLanding n f).qsends = s.qsends := rfl
@[simp] theorem State.modLanding_nextQ (s : State) (n : Nat) (f : Landing → Landing) : (s.modLanding n f).nextQ = s.nextQ := rfl
@[simp] theorem State.modLanding_mem (s : State) (n : Nat) (f : Landing → Landing) : (s.modLanding n f).mem = s.mem := rfl
@[simp] theorem State.modLanding_poison (s : State) (n : Nat) (f : Landing → Landing) : (s.modLanding n f).poison = s.poison := rfl
@[simp] theorem State.modLanding_bad (s : State) (n : Nat) (f : Landing → Landing) : (s.modLanding n f).bad = s.bad := rfl
@[simp] theorem State.modLanding_handles (s : State) (n : Nat) (f : Landing → Landing) : (s.modLanding n f).handles = s.handles := rfl
@[simp] theorem State.modLanding_landings (s : State) (n : Nat) (f : Landing → Landing) : (s.modLanding n f).landings = vPut s.landings n (f (s.landing n)) := rfl
@[simp] theorem State.modLanding_groups (s : State) (n : Nat) (f : Landing → Landing) : (s.modLanding n f).groups = s.groups := rfl
@[simp] theorem State.modLanding_contexts (s : State) (n : Nat) (f : Landing → Landing) : (s.modLanding n f).contexts = s.contexts := rfl
@[simp] theorem State.modLanding_quays (s : State) (n : Nat) (f : Landing → Landing) : (s.modLanding n f).quays = s.quays := rfl
@[simp] theorem State.modLanding_tiles (s : State) (n : Nat) (f : Landing → Landing) : (s.modLanding n f).tiles = s.tiles := rfl
@[simp] theorem State.modLanding_hbm (s : State) (n : Nat) (f : Landing → Landing) : (s.modLanding n f).hbm = s.hbm := rfl
@[simp] theorem State.modLanding_apertures (s : State) (n : Nat) (f : Landing → Landing) : (s.modLanding n f).apertures = s.apertures := rfl
@[simp] theorem State.modLanding_shoots (s : State) (n : Nat) (f : Landing → Landing) : (s.modLanding n f).shoots = s.shoots := rfl
@[simp] theorem State.modLanding_nextShoot (s : State) (n : Nat) (f : Landing → Landing) : (s.modLanding n f).nextShoot = s.nextShoot := rfl
@[simp] theorem State.modLanding_colls (s : State) (n : Nat) (f : Landing → Landing) : (s.modLanding n f).colls = s.colls := rfl
@[simp] theorem State.modLanding_nextColl (s : State) (n : Nat) (f : Landing → Landing) : (s.modLanding n f).nextColl = s.nextColl := rfl
@[simp] theorem State.modLanding_messages (s : State) (n : Nat) (f : Landing → Landing) : (s.modLanding n f).messages = s.messages := rfl
@[simp] theorem State.modLanding_outbox (s : State) (n : Nat) (f : Landing → Landing) : (s.modLanding n f).outbox = s.outbox := rfl
@[simp] theorem State.modLanding_relays (s : State) (n : Nat) (f : Landing → Landing) : (s.modLanding n f).relays = s.relays := rfl
@[simp] theorem State.modLanding_nextRelay (s : State) (n : Nat) (f : Landing → Landing) : (s.modLanding n f).nextRelay = s.nextRelay := rfl
@[simp] theorem State.modLanding_events (s : State) (n : Nat) (f : Landing → Landing) : (s.modLanding n f).events = s.events := rfl
@[simp] theorem State.modLanding_pfRing (s : State) (n : Nat) (f : Landing → Landing) : (s.modLanding n f).pfRing = s.pfRing := rfl
@[simp] theorem State.modLanding_pkstat (s : State) (n : Nat) (f : Landing → Landing) : (s.modLanding n f).pkstat = s.pkstat := rfl
@[simp] theorem State.modLanding_daycAdj (s : State) (n : Nat) (f : Landing → Landing) : (s.modLanding n f).daycAdj = s.daycAdj := rfl
@[simp] theorem State.modLanding_dayError (s : State) (n : Nat) (f : Landing → Landing) : (s.modLanding n f).dayError = s.dayError := rfl
@[simp] theorem State.modLanding_daycHold (s : State) (n : Nat) (f : Landing → Landing) : (s.modLanding n f).daycHold = s.daycHold := rfl
@[simp] theorem State.modLanding_holdover (s : State) (n : Nat) (f : Landing → Landing) : (s.modLanding n f).holdover = s.holdover := rfl
@[simp] theorem State.modLanding_expired (s : State) (n : Nat) (f : Landing → Landing) : (s.modLanding n f).expired = s.expired := rfl
@[simp] theorem State.modLanding_lastDawn (s : State) (n : Nat) (f : Landing → Landing) : (s.modLanding n f).lastDawn = s.lastDawn := rfl
@[simp] theorem State.modLanding_guardDone (s : State) (n : Nat) (f : Landing → Landing) : (s.modLanding n f).guardDone = s.guardDone := rfl
@[simp] theorem State.modLanding_hot (s : State) (n : Nat) (f : Landing → Landing) : (s.modLanding n f).hot = s.hot := rfl
@[simp] theorem State.modLanding_limitAt (s : State) (n : Nat) (f : Landing → Landing) : (s.modLanding n f).limitAt = s.limitAt := rfl
@[simp] theorem State.modLanding_lowAt (s : State) (n : Nat) (f : Landing → Landing) : (s.modLanding n f).lowAt = s.lowAt := rfl
@[simp] theorem State.modLanding_clockDue (s : State) (n : Nat) (f : Landing → Landing) : (s.modLanding n f).clockDue = s.clockDue := rfl
@[simp] theorem State.modLanding_thermal (s : State) (n : Nat) (f : Landing → Landing) : (s.modLanding n f).thermal = s.thermal := rfl
@[simp] theorem State.modLanding_turn (s : State) (n : Nat) (f : Landing → Landing) : (s.modLanding n f).turn = s.turn := rfl
@[simp] theorem State.modLanding_booted (s : State) (n : Nat) (f : Landing → Landing) : (s.modLanding n f).booted = s.booted := rfl
@[simp] theorem State.modLanding_answer (s : State) (n : Nat) (f : Landing → Landing) : (s.modLanding n f).answer = s.answer := rfl
@[simp] theorem State.modLanding_nv (s : State) (n : Nat) (f : Landing → Landing) : (s.modLanding n f).nv = s.nv := rfl

@[simp] theorem State.modGroup_now (s : State) (n : Nat) (f : Group → Group) : (s.modGroup n f).now = s.now := rfl
@[simp] theorem State.modGroup_wall (s : State) (n : Nat) (f : Group → Group) : (s.modGroup n f).wall = s.wall := rfl
@[simp] theorem State.modGroup_clock (s : State) (n : Nat) (f : Group → Group) : (s.modGroup n f).clock = s.clock := rfl
@[simp] theorem State.modGroup_tphase (s : State) (n : Nat) (f : Group → Group) : (s.modGroup n f).tphase = s.tphase := rfl
@[simp] theorem State.modGroup_todo (s : State) (n : Nat) (f : Group → Group) : (s.modGroup n f).todo = s.todo := rfl
@[simp] theorem State.modGroup_cur (s : State) (n : Nat) (f : Group → Group) : (s.modGroup n f).cur = s.cur := rfl
@[simp] theorem State.modGroup_on (s : State) (n : Nat) (f : Group → Group) : (s.modGroup n f).on = s.on := rfl
@[simp] theorem State.modGroup_freeCtr (s : State) (n : Nat) (f : Group → Group) : (s.modGroup n f).freeCtr = s.freeCtr := rfl
@[simp] theorem State.modGroup_agenda (s : State) (n : Nat) (f : Group → Group) : (s.modGroup n f).agenda = s.agenda := rfl
@[simp] theorem State.modGroup_alarms (s : State) (n : Nat) (f : Group → Group) : (s.modGroup n f).alarms = s.alarms := rfl
@[simp] theorem State.modGroup_cores (s : State) (n : Nat) (f : Group → Group) : (s.modGroup n f).cores = s.cores := rfl
@[simp] theorem State.modGroup_launches (s : State) (n : Nat) (f : Group → Group) : (s.modGroup n f).launches = s.launches := rfl
@[simp] theorem State.modGroup_nextLid (s : State) (n : Nat) (f : Group → Group) : (s.modGroup n f).nextLid = s.nextLid := rfl
@[simp] theorem State.modGroup_bars (s : State) (n : Nat) (f : Group → Group) : (s.modGroup n f).bars = s.bars := rfl
@[simp] theorem State.modGroup_nextBar (s : State) (n : Nat) (f : Group → Group) : (s.modGroup n f).nextBar = s.nextBar := rfl
@[simp] theorem State.modGroup_qsends (s : State) (n : Nat) (f : Group → Group) : (s.modGroup n f).qsends = s.qsends := rfl
@[simp] theorem State.modGroup_nextQ (s : State) (n : Nat) (f : Group → Group) : (s.modGroup n f).nextQ = s.nextQ := rfl
@[simp] theorem State.modGroup_mem (s : State) (n : Nat) (f : Group → Group) : (s.modGroup n f).mem = s.mem := rfl
@[simp] theorem State.modGroup_poison (s : State) (n : Nat) (f : Group → Group) : (s.modGroup n f).poison = s.poison := rfl
@[simp] theorem State.modGroup_bad (s : State) (n : Nat) (f : Group → Group) : (s.modGroup n f).bad = s.bad := rfl
@[simp] theorem State.modGroup_handles (s : State) (n : Nat) (f : Group → Group) : (s.modGroup n f).handles = s.handles := rfl
@[simp] theorem State.modGroup_landings (s : State) (n : Nat) (f : Group → Group) : (s.modGroup n f).landings = s.landings := rfl
@[simp] theorem State.modGroup_groups (s : State) (n : Nat) (f : Group → Group) : (s.modGroup n f).groups = vPut s.groups n (f (s.group n)) := rfl
@[simp] theorem State.modGroup_contexts (s : State) (n : Nat) (f : Group → Group) : (s.modGroup n f).contexts = s.contexts := rfl
@[simp] theorem State.modGroup_quays (s : State) (n : Nat) (f : Group → Group) : (s.modGroup n f).quays = s.quays := rfl
@[simp] theorem State.modGroup_tiles (s : State) (n : Nat) (f : Group → Group) : (s.modGroup n f).tiles = s.tiles := rfl
@[simp] theorem State.modGroup_hbm (s : State) (n : Nat) (f : Group → Group) : (s.modGroup n f).hbm = s.hbm := rfl
@[simp] theorem State.modGroup_apertures (s : State) (n : Nat) (f : Group → Group) : (s.modGroup n f).apertures = s.apertures := rfl
@[simp] theorem State.modGroup_shoots (s : State) (n : Nat) (f : Group → Group) : (s.modGroup n f).shoots = s.shoots := rfl
@[simp] theorem State.modGroup_nextShoot (s : State) (n : Nat) (f : Group → Group) : (s.modGroup n f).nextShoot = s.nextShoot := rfl
@[simp] theorem State.modGroup_colls (s : State) (n : Nat) (f : Group → Group) : (s.modGroup n f).colls = s.colls := rfl
@[simp] theorem State.modGroup_nextColl (s : State) (n : Nat) (f : Group → Group) : (s.modGroup n f).nextColl = s.nextColl := rfl
@[simp] theorem State.modGroup_messages (s : State) (n : Nat) (f : Group → Group) : (s.modGroup n f).messages = s.messages := rfl
@[simp] theorem State.modGroup_outbox (s : State) (n : Nat) (f : Group → Group) : (s.modGroup n f).outbox = s.outbox := rfl
@[simp] theorem State.modGroup_relays (s : State) (n : Nat) (f : Group → Group) : (s.modGroup n f).relays = s.relays := rfl
@[simp] theorem State.modGroup_nextRelay (s : State) (n : Nat) (f : Group → Group) : (s.modGroup n f).nextRelay = s.nextRelay := rfl
@[simp] theorem State.modGroup_events (s : State) (n : Nat) (f : Group → Group) : (s.modGroup n f).events = s.events := rfl
@[simp] theorem State.modGroup_pfRing (s : State) (n : Nat) (f : Group → Group) : (s.modGroup n f).pfRing = s.pfRing := rfl
@[simp] theorem State.modGroup_pkstat (s : State) (n : Nat) (f : Group → Group) : (s.modGroup n f).pkstat = s.pkstat := rfl
@[simp] theorem State.modGroup_daycAdj (s : State) (n : Nat) (f : Group → Group) : (s.modGroup n f).daycAdj = s.daycAdj := rfl
@[simp] theorem State.modGroup_dayError (s : State) (n : Nat) (f : Group → Group) : (s.modGroup n f).dayError = s.dayError := rfl
@[simp] theorem State.modGroup_daycHold (s : State) (n : Nat) (f : Group → Group) : (s.modGroup n f).daycHold = s.daycHold := rfl
@[simp] theorem State.modGroup_holdover (s : State) (n : Nat) (f : Group → Group) : (s.modGroup n f).holdover = s.holdover := rfl
@[simp] theorem State.modGroup_expired (s : State) (n : Nat) (f : Group → Group) : (s.modGroup n f).expired = s.expired := rfl
@[simp] theorem State.modGroup_lastDawn (s : State) (n : Nat) (f : Group → Group) : (s.modGroup n f).lastDawn = s.lastDawn := rfl
@[simp] theorem State.modGroup_guardDone (s : State) (n : Nat) (f : Group → Group) : (s.modGroup n f).guardDone = s.guardDone := rfl
@[simp] theorem State.modGroup_hot (s : State) (n : Nat) (f : Group → Group) : (s.modGroup n f).hot = s.hot := rfl
@[simp] theorem State.modGroup_limitAt (s : State) (n : Nat) (f : Group → Group) : (s.modGroup n f).limitAt = s.limitAt := rfl
@[simp] theorem State.modGroup_lowAt (s : State) (n : Nat) (f : Group → Group) : (s.modGroup n f).lowAt = s.lowAt := rfl
@[simp] theorem State.modGroup_clockDue (s : State) (n : Nat) (f : Group → Group) : (s.modGroup n f).clockDue = s.clockDue := rfl
@[simp] theorem State.modGroup_thermal (s : State) (n : Nat) (f : Group → Group) : (s.modGroup n f).thermal = s.thermal := rfl
@[simp] theorem State.modGroup_turn (s : State) (n : Nat) (f : Group → Group) : (s.modGroup n f).turn = s.turn := rfl
@[simp] theorem State.modGroup_booted (s : State) (n : Nat) (f : Group → Group) : (s.modGroup n f).booted = s.booted := rfl
@[simp] theorem State.modGroup_answer (s : State) (n : Nat) (f : Group → Group) : (s.modGroup n f).answer = s.answer := rfl
@[simp] theorem State.modGroup_nv (s : State) (n : Nat) (f : Group → Group) : (s.modGroup n f).nv = s.nv := rfl

@[simp] theorem State.plan_now (s : State) (n : Nat) (i : Instr) (on : Subject) : (s.plan n i on).now = s.now := rfl
@[simp] theorem State.plan_wall (s : State) (n : Nat) (i : Instr) (on : Subject) : (s.plan n i on).wall = s.wall := rfl
@[simp] theorem State.plan_clock (s : State) (n : Nat) (i : Instr) (on : Subject) : (s.plan n i on).clock = s.clock := rfl
@[simp] theorem State.plan_tphase (s : State) (n : Nat) (i : Instr) (on : Subject) : (s.plan n i on).tphase = s.tphase := rfl
@[simp] theorem State.plan_todo (s : State) (n : Nat) (i : Instr) (on : Subject) : (s.plan n i on).todo = s.todo := rfl
@[simp] theorem State.plan_cur (s : State) (n : Nat) (i : Instr) (on : Subject) : (s.plan n i on).cur = s.cur := rfl
@[simp] theorem State.plan_on (s : State) (n : Nat) (i : Instr) (on : Subject) : (s.plan n i on).on = s.on := rfl
@[simp] theorem State.plan_freeCtr (s : State) (n : Nat) (i : Instr) (on : Subject) : (s.plan n i on).freeCtr = s.freeCtr := rfl
@[simp] theorem State.plan_agenda (s : State) (n : Nat) (i : Instr) (on : Subject) : (s.plan n i on).agenda = insertBy (·.at_) ⟨s.now + n, i, on⟩ s.agenda := rfl
@[simp] theorem State.plan_alarms (s : State) (n : Nat) (i : Instr) (on : Subject) : (s.plan n i on).alarms = s.alarms := rfl
@[simp] theorem State.plan_cores (s : State) (n : Nat) (i : Instr) (on : Subject) : (s.plan n i on).cores = s.cores := rfl
@[simp] theorem State.plan_launches (s : State) (n : Nat) (i : Instr) (on : Subject) : (s.plan n i on).launches = s.launches := rfl
@[simp] theorem State.plan_nextLid (s : State) (n : Nat) (i : Instr) (on : Subject) : (s.plan n i on).nextLid = s.nextLid := rfl
@[simp] theorem State.plan_bars (s : State) (n : Nat) (i : Instr) (on : Subject) : (s.plan n i on).bars = s.bars := rfl
@[simp] theorem State.plan_nextBar (s : State) (n : Nat) (i : Instr) (on : Subject) : (s.plan n i on).nextBar = s.nextBar := rfl
@[simp] theorem State.plan_qsends (s : State) (n : Nat) (i : Instr) (on : Subject) : (s.plan n i on).qsends = s.qsends := rfl
@[simp] theorem State.plan_nextQ (s : State) (n : Nat) (i : Instr) (on : Subject) : (s.plan n i on).nextQ = s.nextQ := rfl
@[simp] theorem State.plan_mem (s : State) (n : Nat) (i : Instr) (on : Subject) : (s.plan n i on).mem = s.mem := rfl
@[simp] theorem State.plan_poison (s : State) (n : Nat) (i : Instr) (on : Subject) : (s.plan n i on).poison = s.poison := rfl
@[simp] theorem State.plan_bad (s : State) (n : Nat) (i : Instr) (on : Subject) : (s.plan n i on).bad = s.bad := rfl
@[simp] theorem State.plan_handles (s : State) (n : Nat) (i : Instr) (on : Subject) : (s.plan n i on).handles = s.handles := rfl
@[simp] theorem State.plan_landings (s : State) (n : Nat) (i : Instr) (on : Subject) : (s.plan n i on).landings = s.landings := rfl
@[simp] theorem State.plan_groups (s : State) (n : Nat) (i : Instr) (on : Subject) : (s.plan n i on).groups = s.groups := rfl
@[simp] theorem State.plan_contexts (s : State) (n : Nat) (i : Instr) (on : Subject) : (s.plan n i on).contexts = s.contexts := rfl
@[simp] theorem State.plan_quays (s : State) (n : Nat) (i : Instr) (on : Subject) : (s.plan n i on).quays = s.quays := rfl
@[simp] theorem State.plan_tiles (s : State) (n : Nat) (i : Instr) (on : Subject) : (s.plan n i on).tiles = s.tiles := rfl
@[simp] theorem State.plan_hbm (s : State) (n : Nat) (i : Instr) (on : Subject) : (s.plan n i on).hbm = s.hbm := rfl
@[simp] theorem State.plan_apertures (s : State) (n : Nat) (i : Instr) (on : Subject) : (s.plan n i on).apertures = s.apertures := rfl
@[simp] theorem State.plan_shoots (s : State) (n : Nat) (i : Instr) (on : Subject) : (s.plan n i on).shoots = s.shoots := rfl
@[simp] theorem State.plan_nextShoot (s : State) (n : Nat) (i : Instr) (on : Subject) : (s.plan n i on).nextShoot = s.nextShoot := rfl
@[simp] theorem State.plan_colls (s : State) (n : Nat) (i : Instr) (on : Subject) : (s.plan n i on).colls = s.colls := rfl
@[simp] theorem State.plan_nextColl (s : State) (n : Nat) (i : Instr) (on : Subject) : (s.plan n i on).nextColl = s.nextColl := rfl
@[simp] theorem State.plan_messages (s : State) (n : Nat) (i : Instr) (on : Subject) : (s.plan n i on).messages = s.messages := rfl
@[simp] theorem State.plan_outbox (s : State) (n : Nat) (i : Instr) (on : Subject) : (s.plan n i on).outbox = s.outbox := rfl
@[simp] theorem State.plan_relays (s : State) (n : Nat) (i : Instr) (on : Subject) : (s.plan n i on).relays = s.relays := rfl
@[simp] theorem State.plan_nextRelay (s : State) (n : Nat) (i : Instr) (on : Subject) : (s.plan n i on).nextRelay = s.nextRelay := rfl
@[simp] theorem State.plan_events (s : State) (n : Nat) (i : Instr) (on : Subject) : (s.plan n i on).events = s.events := rfl
@[simp] theorem State.plan_pfRing (s : State) (n : Nat) (i : Instr) (on : Subject) : (s.plan n i on).pfRing = s.pfRing := rfl
@[simp] theorem State.plan_pkstat (s : State) (n : Nat) (i : Instr) (on : Subject) : (s.plan n i on).pkstat = s.pkstat := rfl
@[simp] theorem State.plan_daycAdj (s : State) (n : Nat) (i : Instr) (on : Subject) : (s.plan n i on).daycAdj = s.daycAdj := rfl
@[simp] theorem State.plan_dayError (s : State) (n : Nat) (i : Instr) (on : Subject) : (s.plan n i on).dayError = s.dayError := rfl
@[simp] theorem State.plan_daycHold (s : State) (n : Nat) (i : Instr) (on : Subject) : (s.plan n i on).daycHold = s.daycHold := rfl
@[simp] theorem State.plan_holdover (s : State) (n : Nat) (i : Instr) (on : Subject) : (s.plan n i on).holdover = s.holdover := rfl
@[simp] theorem State.plan_expired (s : State) (n : Nat) (i : Instr) (on : Subject) : (s.plan n i on).expired = s.expired := rfl
@[simp] theorem State.plan_lastDawn (s : State) (n : Nat) (i : Instr) (on : Subject) : (s.plan n i on).lastDawn = s.lastDawn := rfl
@[simp] theorem State.plan_guardDone (s : State) (n : Nat) (i : Instr) (on : Subject) : (s.plan n i on).guardDone = s.guardDone := rfl
@[simp] theorem State.plan_hot (s : State) (n : Nat) (i : Instr) (on : Subject) : (s.plan n i on).hot = s.hot := rfl
@[simp] theorem State.plan_limitAt (s : State) (n : Nat) (i : Instr) (on : Subject) : (s.plan n i on).limitAt = s.limitAt := rfl
@[simp] theorem State.plan_lowAt (s : State) (n : Nat) (i : Instr) (on : Subject) : (s.plan n i on).lowAt = s.lowAt := rfl
@[simp] theorem State.plan_clockDue (s : State) (n : Nat) (i : Instr) (on : Subject) : (s.plan n i on).clockDue = s.clockDue := rfl
@[simp] theorem State.plan_thermal (s : State) (n : Nat) (i : Instr) (on : Subject) : (s.plan n i on).thermal = s.thermal := rfl
@[simp] theorem State.plan_turn (s : State) (n : Nat) (i : Instr) (on : Subject) : (s.plan n i on).turn = s.turn := rfl
@[simp] theorem State.plan_booted (s : State) (n : Nat) (i : Instr) (on : Subject) : (s.plan n i on).booted = s.booted := rfl
@[simp] theorem State.plan_answer (s : State) (n : Nat) (i : Instr) (on : Subject) : (s.plan n i on).answer = s.answer := rfl
@[simp] theorem State.plan_nv (s : State) (n : Nat) (i : Instr) (on : Subject) : (s.plan n i on).nv = s.nv := rfl

@[simp] theorem State.alarm_now (s : State) (n : Nat) (i : Instr) (on : Subject) : (s.alarm n i on).now = s.now := rfl
@[simp] theorem State.alarm_wall (s : State) (n : Nat) (i : Instr) (on : Subject) : (s.alarm n i on).wall = s.wall := rfl
@[simp] theorem State.alarm_clock (s : State) (n : Nat) (i : Instr) (on : Subject) : (s.alarm n i on).clock = s.clock := rfl
@[simp] theorem State.alarm_tphase (s : State) (n : Nat) (i : Instr) (on : Subject) : (s.alarm n i on).tphase = s.tphase := rfl
@[simp] theorem State.alarm_todo (s : State) (n : Nat) (i : Instr) (on : Subject) : (s.alarm n i on).todo = s.todo := rfl
@[simp] theorem State.alarm_cur (s : State) (n : Nat) (i : Instr) (on : Subject) : (s.alarm n i on).cur = s.cur := rfl
@[simp] theorem State.alarm_on (s : State) (n : Nat) (i : Instr) (on : Subject) : (s.alarm n i on).on = s.on := rfl
@[simp] theorem State.alarm_freeCtr (s : State) (n : Nat) (i : Instr) (on : Subject) : (s.alarm n i on).freeCtr = s.freeCtr := rfl
@[simp] theorem State.alarm_agenda (s : State) (n : Nat) (i : Instr) (on : Subject) : (s.alarm n i on).agenda = s.agenda := rfl
@[simp] theorem State.alarm_alarms (s : State) (n : Nat) (i : Instr) (on : Subject) : (s.alarm n i on).alarms = insertBy (·.at_) ⟨s.wall + 210 * n, i, on⟩ s.alarms := rfl
@[simp] theorem State.alarm_cores (s : State) (n : Nat) (i : Instr) (on : Subject) : (s.alarm n i on).cores = s.cores := rfl
@[simp] theorem State.alarm_launches (s : State) (n : Nat) (i : Instr) (on : Subject) : (s.alarm n i on).launches = s.launches := rfl
@[simp] theorem State.alarm_nextLid (s : State) (n : Nat) (i : Instr) (on : Subject) : (s.alarm n i on).nextLid = s.nextLid := rfl
@[simp] theorem State.alarm_bars (s : State) (n : Nat) (i : Instr) (on : Subject) : (s.alarm n i on).bars = s.bars := rfl
@[simp] theorem State.alarm_nextBar (s : State) (n : Nat) (i : Instr) (on : Subject) : (s.alarm n i on).nextBar = s.nextBar := rfl
@[simp] theorem State.alarm_qsends (s : State) (n : Nat) (i : Instr) (on : Subject) : (s.alarm n i on).qsends = s.qsends := rfl
@[simp] theorem State.alarm_nextQ (s : State) (n : Nat) (i : Instr) (on : Subject) : (s.alarm n i on).nextQ = s.nextQ := rfl
@[simp] theorem State.alarm_mem (s : State) (n : Nat) (i : Instr) (on : Subject) : (s.alarm n i on).mem = s.mem := rfl
@[simp] theorem State.alarm_poison (s : State) (n : Nat) (i : Instr) (on : Subject) : (s.alarm n i on).poison = s.poison := rfl
@[simp] theorem State.alarm_bad (s : State) (n : Nat) (i : Instr) (on : Subject) : (s.alarm n i on).bad = s.bad := rfl
@[simp] theorem State.alarm_handles (s : State) (n : Nat) (i : Instr) (on : Subject) : (s.alarm n i on).handles = s.handles := rfl
@[simp] theorem State.alarm_landings (s : State) (n : Nat) (i : Instr) (on : Subject) : (s.alarm n i on).landings = s.landings := rfl
@[simp] theorem State.alarm_groups (s : State) (n : Nat) (i : Instr) (on : Subject) : (s.alarm n i on).groups = s.groups := rfl
@[simp] theorem State.alarm_contexts (s : State) (n : Nat) (i : Instr) (on : Subject) : (s.alarm n i on).contexts = s.contexts := rfl
@[simp] theorem State.alarm_quays (s : State) (n : Nat) (i : Instr) (on : Subject) : (s.alarm n i on).quays = s.quays := rfl
@[simp] theorem State.alarm_tiles (s : State) (n : Nat) (i : Instr) (on : Subject) : (s.alarm n i on).tiles = s.tiles := rfl
@[simp] theorem State.alarm_hbm (s : State) (n : Nat) (i : Instr) (on : Subject) : (s.alarm n i on).hbm = s.hbm := rfl
@[simp] theorem State.alarm_apertures (s : State) (n : Nat) (i : Instr) (on : Subject) : (s.alarm n i on).apertures = s.apertures := rfl
@[simp] theorem State.alarm_shoots (s : State) (n : Nat) (i : Instr) (on : Subject) : (s.alarm n i on).shoots = s.shoots := rfl
@[simp] theorem State.alarm_nextShoot (s : State) (n : Nat) (i : Instr) (on : Subject) : (s.alarm n i on).nextShoot = s.nextShoot := rfl
@[simp] theorem State.alarm_colls (s : State) (n : Nat) (i : Instr) (on : Subject) : (s.alarm n i on).colls = s.colls := rfl
@[simp] theorem State.alarm_nextColl (s : State) (n : Nat) (i : Instr) (on : Subject) : (s.alarm n i on).nextColl = s.nextColl := rfl
@[simp] theorem State.alarm_messages (s : State) (n : Nat) (i : Instr) (on : Subject) : (s.alarm n i on).messages = s.messages := rfl
@[simp] theorem State.alarm_outbox (s : State) (n : Nat) (i : Instr) (on : Subject) : (s.alarm n i on).outbox = s.outbox := rfl
@[simp] theorem State.alarm_relays (s : State) (n : Nat) (i : Instr) (on : Subject) : (s.alarm n i on).relays = s.relays := rfl
@[simp] theorem State.alarm_nextRelay (s : State) (n : Nat) (i : Instr) (on : Subject) : (s.alarm n i on).nextRelay = s.nextRelay := rfl
@[simp] theorem State.alarm_events (s : State) (n : Nat) (i : Instr) (on : Subject) : (s.alarm n i on).events = s.events := rfl
@[simp] theorem State.alarm_pfRing (s : State) (n : Nat) (i : Instr) (on : Subject) : (s.alarm n i on).pfRing = s.pfRing := rfl
@[simp] theorem State.alarm_pkstat (s : State) (n : Nat) (i : Instr) (on : Subject) : (s.alarm n i on).pkstat = s.pkstat := rfl
@[simp] theorem State.alarm_daycAdj (s : State) (n : Nat) (i : Instr) (on : Subject) : (s.alarm n i on).daycAdj = s.daycAdj := rfl
@[simp] theorem State.alarm_dayError (s : State) (n : Nat) (i : Instr) (on : Subject) : (s.alarm n i on).dayError = s.dayError := rfl
@[simp] theorem State.alarm_daycHold (s : State) (n : Nat) (i : Instr) (on : Subject) : (s.alarm n i on).daycHold = s.daycHold := rfl
@[simp] theorem State.alarm_holdover (s : State) (n : Nat) (i : Instr) (on : Subject) : (s.alarm n i on).holdover = s.holdover := rfl
@[simp] theorem State.alarm_expired (s : State) (n : Nat) (i : Instr) (on : Subject) : (s.alarm n i on).expired = s.expired := rfl
@[simp] theorem State.alarm_lastDawn (s : State) (n : Nat) (i : Instr) (on : Subject) : (s.alarm n i on).lastDawn = s.lastDawn := rfl
@[simp] theorem State.alarm_guardDone (s : State) (n : Nat) (i : Instr) (on : Subject) : (s.alarm n i on).guardDone = s.guardDone := rfl
@[simp] theorem State.alarm_hot (s : State) (n : Nat) (i : Instr) (on : Subject) : (s.alarm n i on).hot = s.hot := rfl
@[simp] theorem State.alarm_limitAt (s : State) (n : Nat) (i : Instr) (on : Subject) : (s.alarm n i on).limitAt = s.limitAt := rfl
@[simp] theorem State.alarm_lowAt (s : State) (n : Nat) (i : Instr) (on : Subject) : (s.alarm n i on).lowAt = s.lowAt := rfl
@[simp] theorem State.alarm_clockDue (s : State) (n : Nat) (i : Instr) (on : Subject) : (s.alarm n i on).clockDue = s.clockDue := rfl
@[simp] theorem State.alarm_thermal (s : State) (n : Nat) (i : Instr) (on : Subject) : (s.alarm n i on).thermal = s.thermal := rfl
@[simp] theorem State.alarm_turn (s : State) (n : Nat) (i : Instr) (on : Subject) : (s.alarm n i on).turn = s.turn := rfl
@[simp] theorem State.alarm_booted (s : State) (n : Nat) (i : Instr) (on : Subject) : (s.alarm n i on).booted = s.booted := rfl
@[simp] theorem State.alarm_answer (s : State) (n : Nat) (i : Instr) (on : Subject) : (s.alarm n i on).answer = s.answer := rfl
@[simp] theorem State.alarm_nv (s : State) (n : Nat) (i : Instr) (on : Subject) : (s.alarm n i on).nv = s.nv := rfl

@[simp] theorem State.chosen_now (s : State) : (s.chosen).now = s.now := rfl
@[simp] theorem State.chosen_wall (s : State) : (s.chosen).wall = s.wall := rfl
@[simp] theorem State.chosen_clock (s : State) : (s.chosen).clock = s.clock := rfl
@[simp] theorem State.chosen_tphase (s : State) : (s.chosen).tphase = s.tphase := rfl
@[simp] theorem State.chosen_todo (s : State) : (s.chosen).todo = s.todo := rfl
@[simp] theorem State.chosen_cur (s : State) : (s.chosen).cur = s.cur := rfl
@[simp] theorem State.chosen_on (s : State) : (s.chosen).on = s.on := rfl
@[simp] theorem State.chosen_freeCtr (s : State) : (s.chosen).freeCtr = s.freeCtr + 1 := rfl
@[simp] theorem State.chosen_agenda (s : State) : (s.chosen).agenda = s.agenda := rfl
@[simp] theorem State.chosen_alarms (s : State) : (s.chosen).alarms = s.alarms := rfl
@[simp] theorem State.chosen_cores (s : State) : (s.chosen).cores = s.cores := rfl
@[simp] theorem State.chosen_launches (s : State) : (s.chosen).launches = s.launches := rfl
@[simp] theorem State.chosen_nextLid (s : State) : (s.chosen).nextLid = s.nextLid := rfl
@[simp] theorem State.chosen_bars (s : State) : (s.chosen).bars = s.bars := rfl
@[simp] theorem State.chosen_nextBar (s : State) : (s.chosen).nextBar = s.nextBar := rfl
@[simp] theorem State.chosen_qsends (s : State) : (s.chosen).qsends = s.qsends := rfl
@[simp] theorem State.chosen_nextQ (s : State) : (s.chosen).nextQ = s.nextQ := rfl
@[simp] theorem State.chosen_mem (s : State) : (s.chosen).mem = s.mem := rfl
@[simp] theorem State.chosen_poison (s : State) : (s.chosen).poison = s.poison := rfl
@[simp] theorem State.chosen_bad (s : State) : (s.chosen).bad = s.bad := rfl
@[simp] theorem State.chosen_handles (s : State) : (s.chosen).handles = s.handles := rfl
@[simp] theorem State.chosen_landings (s : State) : (s.chosen).landings = s.landings := rfl
@[simp] theorem State.chosen_groups (s : State) : (s.chosen).groups = s.groups := rfl
@[simp] theorem State.chosen_contexts (s : State) : (s.chosen).contexts = s.contexts := rfl
@[simp] theorem State.chosen_quays (s : State) : (s.chosen).quays = s.quays := rfl
@[simp] theorem State.chosen_tiles (s : State) : (s.chosen).tiles = s.tiles := rfl
@[simp] theorem State.chosen_hbm (s : State) : (s.chosen).hbm = s.hbm := rfl
@[simp] theorem State.chosen_apertures (s : State) : (s.chosen).apertures = s.apertures := rfl
@[simp] theorem State.chosen_shoots (s : State) : (s.chosen).shoots = s.shoots := rfl
@[simp] theorem State.chosen_nextShoot (s : State) : (s.chosen).nextShoot = s.nextShoot := rfl
@[simp] theorem State.chosen_colls (s : State) : (s.chosen).colls = s.colls := rfl
@[simp] theorem State.chosen_nextColl (s : State) : (s.chosen).nextColl = s.nextColl := rfl
@[simp] theorem State.chosen_messages (s : State) : (s.chosen).messages = s.messages := rfl
@[simp] theorem State.chosen_outbox (s : State) : (s.chosen).outbox = s.outbox := rfl
@[simp] theorem State.chosen_relays (s : State) : (s.chosen).relays = s.relays := rfl
@[simp] theorem State.chosen_nextRelay (s : State) : (s.chosen).nextRelay = s.nextRelay := rfl
@[simp] theorem State.chosen_events (s : State) : (s.chosen).events = s.events := rfl
@[simp] theorem State.chosen_pfRing (s : State) : (s.chosen).pfRing = s.pfRing := rfl
@[simp] theorem State.chosen_pkstat (s : State) : (s.chosen).pkstat = s.pkstat := rfl
@[simp] theorem State.chosen_daycAdj (s : State) : (s.chosen).daycAdj = s.daycAdj := rfl
@[simp] theorem State.chosen_dayError (s : State) : (s.chosen).dayError = s.dayError := rfl
@[simp] theorem State.chosen_daycHold (s : State) : (s.chosen).daycHold = s.daycHold := rfl
@[simp] theorem State.chosen_holdover (s : State) : (s.chosen).holdover = s.holdover := rfl
@[simp] theorem State.chosen_expired (s : State) : (s.chosen).expired = s.expired := rfl
@[simp] theorem State.chosen_lastDawn (s : State) : (s.chosen).lastDawn = s.lastDawn := rfl
@[simp] theorem State.chosen_guardDone (s : State) : (s.chosen).guardDone = s.guardDone := rfl
@[simp] theorem State.chosen_hot (s : State) : (s.chosen).hot = s.hot := rfl
@[simp] theorem State.chosen_limitAt (s : State) : (s.chosen).limitAt = s.limitAt := rfl
@[simp] theorem State.chosen_lowAt (s : State) : (s.chosen).lowAt = s.lowAt := rfl
@[simp] theorem State.chosen_clockDue (s : State) : (s.chosen).clockDue = s.clockDue := rfl
@[simp] theorem State.chosen_thermal (s : State) : (s.chosen).thermal = s.thermal := rfl
@[simp] theorem State.chosen_turn (s : State) : (s.chosen).turn = s.turn := rfl
@[simp] theorem State.chosen_booted (s : State) : (s.chosen).booted = s.booted := rfl
@[simp] theorem State.chosen_answer (s : State) : (s.chosen).answer = s.answer := rfl
@[simp] theorem State.chosen_nv (s : State) : (s.chosen).nv = s.nv := rfl

@[simp] theorem State.emit_now (s : State) (lat : Nat) (effs : List Eff) : (s.emit lat effs).now = s.now := rfl
@[simp] theorem State.emit_wall (s : State) (lat : Nat) (effs : List Eff) : (s.emit lat effs).wall = s.wall := rfl
@[simp] theorem State.emit_clock (s : State) (lat : Nat) (effs : List Eff) : (s.emit lat effs).clock = s.clock := rfl
@[simp] theorem State.emit_tphase (s : State) (lat : Nat) (effs : List Eff) : (s.emit lat effs).tphase = s.tphase := rfl
@[simp] theorem State.emit_todo (s : State) (lat : Nat) (effs : List Eff) : (s.emit lat effs).todo = s.todo := rfl
@[simp] theorem State.emit_cur (s : State) (lat : Nat) (effs : List Eff) : (s.emit lat effs).cur = s.cur := rfl
@[simp] theorem State.emit_on (s : State) (lat : Nat) (effs : List Eff) : (s.emit lat effs).on = s.on := rfl
@[simp] theorem State.emit_freeCtr (s : State) (lat : Nat) (effs : List Eff) : (s.emit lat effs).freeCtr = s.freeCtr := rfl
@[simp] theorem State.emit_agenda (s : State) (lat : Nat) (effs : List Eff) : (s.emit lat effs).agenda = s.agenda := rfl
@[simp] theorem State.emit_alarms (s : State) (lat : Nat) (effs : List Eff) : (s.emit lat effs).alarms = s.alarms := rfl
@[simp] theorem State.emit_cores (s : State) (lat : Nat) (effs : List Eff) : (s.emit lat effs).cores = tabSet s.cores s.cur.core { s.me with flights := s.me.flights ++ effs.map (s.flight lat) } := rfl
@[simp] theorem State.emit_launches (s : State) (lat : Nat) (effs : List Eff) : (s.emit lat effs).launches = s.launches := rfl
@[simp] theorem State.emit_nextLid (s : State) (lat : Nat) (effs : List Eff) : (s.emit lat effs).nextLid = s.nextLid := rfl
@[simp] theorem State.emit_bars (s : State) (lat : Nat) (effs : List Eff) : (s.emit lat effs).bars = s.bars := rfl
@[simp] theorem State.emit_nextBar (s : State) (lat : Nat) (effs : List Eff) : (s.emit lat effs).nextBar = s.nextBar := rfl
@[simp] theorem State.emit_qsends (s : State) (lat : Nat) (effs : List Eff) : (s.emit lat effs).qsends = s.qsends := rfl
@[simp] theorem State.emit_nextQ (s : State) (lat : Nat) (effs : List Eff) : (s.emit lat effs).nextQ = s.nextQ := rfl
@[simp] theorem State.emit_mem (s : State) (lat : Nat) (effs : List Eff) : (s.emit lat effs).mem = s.mem := rfl
@[simp] theorem State.emit_poison (s : State) (lat : Nat) (effs : List Eff) : (s.emit lat effs).poison = s.poison := rfl
@[simp] theorem State.emit_bad (s : State) (lat : Nat) (effs : List Eff) : (s.emit lat effs).bad = s.bad := rfl
@[simp] theorem State.emit_handles (s : State) (lat : Nat) (effs : List Eff) : (s.emit lat effs).handles = s.handles := rfl
@[simp] theorem State.emit_landings (s : State) (lat : Nat) (effs : List Eff) : (s.emit lat effs).landings = s.landings := rfl
@[simp] theorem State.emit_groups (s : State) (lat : Nat) (effs : List Eff) : (s.emit lat effs).groups = s.groups := rfl
@[simp] theorem State.emit_contexts (s : State) (lat : Nat) (effs : List Eff) : (s.emit lat effs).contexts = s.contexts := rfl
@[simp] theorem State.emit_quays (s : State) (lat : Nat) (effs : List Eff) : (s.emit lat effs).quays = s.quays := rfl
@[simp] theorem State.emit_tiles (s : State) (lat : Nat) (effs : List Eff) : (s.emit lat effs).tiles = s.tiles := rfl
@[simp] theorem State.emit_hbm (s : State) (lat : Nat) (effs : List Eff) : (s.emit lat effs).hbm = s.hbm := rfl
@[simp] theorem State.emit_apertures (s : State) (lat : Nat) (effs : List Eff) : (s.emit lat effs).apertures = s.apertures := rfl
@[simp] theorem State.emit_shoots (s : State) (lat : Nat) (effs : List Eff) : (s.emit lat effs).shoots = s.shoots := rfl
@[simp] theorem State.emit_nextShoot (s : State) (lat : Nat) (effs : List Eff) : (s.emit lat effs).nextShoot = s.nextShoot := rfl
@[simp] theorem State.emit_colls (s : State) (lat : Nat) (effs : List Eff) : (s.emit lat effs).colls = s.colls := rfl
@[simp] theorem State.emit_nextColl (s : State) (lat : Nat) (effs : List Eff) : (s.emit lat effs).nextColl = s.nextColl := rfl
@[simp] theorem State.emit_messages (s : State) (lat : Nat) (effs : List Eff) : (s.emit lat effs).messages = s.messages := rfl
@[simp] theorem State.emit_outbox (s : State) (lat : Nat) (effs : List Eff) : (s.emit lat effs).outbox = s.outbox := rfl
@[simp] theorem State.emit_relays (s : State) (lat : Nat) (effs : List Eff) : (s.emit lat effs).relays = s.relays := rfl
@[simp] theorem State.emit_nextRelay (s : State) (lat : Nat) (effs : List Eff) : (s.emit lat effs).nextRelay = s.nextRelay := rfl
@[simp] theorem State.emit_events (s : State) (lat : Nat) (effs : List Eff) : (s.emit lat effs).events = s.events := rfl
@[simp] theorem State.emit_pfRing (s : State) (lat : Nat) (effs : List Eff) : (s.emit lat effs).pfRing = s.pfRing := rfl
@[simp] theorem State.emit_pkstat (s : State) (lat : Nat) (effs : List Eff) : (s.emit lat effs).pkstat = s.pkstat := rfl
@[simp] theorem State.emit_daycAdj (s : State) (lat : Nat) (effs : List Eff) : (s.emit lat effs).daycAdj = s.daycAdj := rfl
@[simp] theorem State.emit_dayError (s : State) (lat : Nat) (effs : List Eff) : (s.emit lat effs).dayError = s.dayError := rfl
@[simp] theorem State.emit_daycHold (s : State) (lat : Nat) (effs : List Eff) : (s.emit lat effs).daycHold = s.daycHold := rfl
@[simp] theorem State.emit_holdover (s : State) (lat : Nat) (effs : List Eff) : (s.emit lat effs).holdover = s.holdover := rfl
@[simp] theorem State.emit_expired (s : State) (lat : Nat) (effs : List Eff) : (s.emit lat effs).expired = s.expired := rfl
@[simp] theorem State.emit_lastDawn (s : State) (lat : Nat) (effs : List Eff) : (s.emit lat effs).lastDawn = s.lastDawn := rfl
@[simp] theorem State.emit_guardDone (s : State) (lat : Nat) (effs : List Eff) : (s.emit lat effs).guardDone = s.guardDone := rfl
@[simp] theorem State.emit_hot (s : State) (lat : Nat) (effs : List Eff) : (s.emit lat effs).hot = s.hot := rfl
@[simp] theorem State.emit_limitAt (s : State) (lat : Nat) (effs : List Eff) : (s.emit lat effs).limitAt = s.limitAt := rfl
@[simp] theorem State.emit_lowAt (s : State) (lat : Nat) (effs : List Eff) : (s.emit lat effs).lowAt = s.lowAt := rfl
@[simp] theorem State.emit_clockDue (s : State) (lat : Nat) (effs : List Eff) : (s.emit lat effs).clockDue = s.clockDue := rfl
@[simp] theorem State.emit_thermal (s : State) (lat : Nat) (effs : List Eff) : (s.emit lat effs).thermal = s.thermal := rfl
@[simp] theorem State.emit_turn (s : State) (lat : Nat) (effs : List Eff) : (s.emit lat effs).turn = s.turn := rfl
@[simp] theorem State.emit_booted (s : State) (lat : Nat) (effs : List Eff) : (s.emit lat effs).booted = s.booted := rfl
@[simp] theorem State.emit_answer (s : State) (lat : Nat) (effs : List Eff) : (s.emit lat effs).answer = s.answer := rfl
@[simp] theorem State.emit_nv (s : State) (lat : Nat) (effs : List Eff) : (s.emit lat effs).nv = s.nv := rfl

end Sys2Proof.Machine
end

