-- ==== Sys2Proof/Laws/Frame.lean ====
section
/-! SUPPORT. What the operations that issue a word leave as it was: each keeps the frame `State.Frame`. -/

namespace Sys2Proof.Machine

/-! ## Cores -/

@[simp] theorem State.core_setCore_same (s : State) (c : Nat) (x : Core) : (s.setCore c x).core c = x := by
  simp [State.core]

theorem State.core_setCore_other (s : State) (c d : Nat) (x : Core) (h : d ≠ c) : (s.setCore c x).core d = s.core d := by
  simp [State.core, tabGet_tabSet_other _ _ _ _ h]

@[simp] theorem State.core_modCore_same (s : State) (c : Nat) (f : Core → Core) : (s.modCore c f).core c = f (s.core c) := by
  simp [State.modCore]

theorem State.core_modCore_other (s : State) (c d : Nat) (f : Core → Core) (h : d ≠ c) : (s.modCore c f).core d = s.core d :=
  s.core_setCore_other c d _ h

@[simp] theorem State.me_modMe (s : State) (f : Core → Core) : (s.modMe f).me = f s.me := by
  simp [State.me, State.modMe]

theorem Core.SameFiles.rfl' (c : Core) : c.SameFiles c := by constructor <;> rfl

theorem Core.SameFiles.trans {a b c : Core} (h : a.SameFiles b) (k : b.SameFiles c) : a.SameFiles c := by
  obtain ⟨⟩ := h
  obtain ⟨⟩ := k
  constructor <;> simp_all

theorem Core.setStream_sameFiles (c : Core) (st : Stream) (x : StreamSt) : c.SameFiles (c.setStream st x) := by
  cases st <;> constructor <;> rfl

theorem Core.modStream_sameFiles (c : Core) (st : Stream) (f : StreamSt → StreamSt) : c.SameFiles (c.modStream st f) :=
  c.setStream_sameFiles st _

/-! ## States -/

theorem State.Frame.refl (s : State) : s.Frame s := by
  constructor <;> first | rfl | exact Core.SameFiles.rfl' _ | (intros; rfl)

theorem State.Frame.trans {a b c : State} (h : a.Frame b) (k : b.Frame c) : a.Frame c where
  core := k.core.trans h.core
  stream := k.stream.trans h.stream
  mem := k.mem.trans h.mem
  poison := k.poison.trans h.poison
  others := fun d hd => (k.others d (by rw [h.core]; exact hd)).trans (h.others d hd)
  files := h.files.trans (by have := k.files; rwa [h.core] at this)
  now := k.now.trans h.now
  wall := k.wall.trans h.wall
  clock := k.clock.trans h.clock
  landings := k.landings.trans h.landings
  groups := k.groups.trans h.groups

/-- A state that differs from `t` only in what the frame leaves open keeps the frame. -/
theorem State.Frame.of_eq {s t u : State} (h : s.Frame t) (hc : u.cores = t.cores) (h0 : u.cur.core = t.cur.core)
    (h1 : u.cur.st = t.cur.st) (h2 : u.mem = t.mem) (h3 : u.poison = t.poison) (h4 : u.now = t.now) (h5 : u.wall = t.wall)
    (h6 : u.clock = t.clock) (h7 : u.landings = t.landings) (h8 : u.groups = t.groups) : s.Frame u where
  core := h0.trans h.core
  stream := h1.trans h.stream
  mem := h2.trans h.mem
  poison := h3.trans h.poison
  others := fun d hd => by simp only [State.core, hc]; exact h.others d hd
  files := by simp only [State.core, hc]; exact h.files
  now := h4.trans h.now
  wall := h5.trans h.wall
  clock := h6.trans h.clock
  landings := h7.trans h.landings
  groups := h8.trans h.groups

theorem State.Frame.modMe {s t : State} (h : s.Frame t) (f : Core → Core) (hf : t.me.SameFiles (f t.me)) :
    s.Frame (t.modMe f) where
  core := h.core
  stream := h.stream
  mem := h.mem
  poison := h.poison
  others := fun d hd => by
    rw [State.modMe, State.core_modCore_other _ _ _ _ (by rw [h.core]; exact hd)]; exact h.others d hd
  files := by
    have e : (t.modMe f).core s.cur.core = f t.me := by rw [← h.core]; simp [State.modMe, State.me]
    rw [e]
    have := h.files
    rw [← h.core] at this
    rw [← h.core]
    exact this.trans hf
  now := h.now
  wall := h.wall
  clock := h.clock
  landings := h.landings
  groups := h.groups

theorem State.Frame.emit {s t : State} (h : s.Frame t) (lat : Nat) (effs : List Eff) : s.Frame (t.emit lat effs) :=
  h.modMe _ (by constructor <;> rfl)

theorem State.Frame.emitLoop {s t : State} (h : s.Frame t) : s.Frame t.emitLoop := by
  unfold State.emitLoop
  split
  · exact h
  · exact h
  · exact h.emit 1 _

theorem State.Frame.leave {s t : State} (h : s.Frame t) : s.Frame t.leave := by
  unfold State.leave
  split
  · exact h.modMe _ (by constructor <;> rfl)
  · exact h.of_eq rfl rfl rfl rfl rfl rfl rfl rfl rfl rfl
  · exact h.modMe _ (Core.setStream_sameFiles _ _ _)

theorem State.Frame.advance {s t : State} (h : s.Frame t) : s.Frame t.advance := h.emitLoop.leave

theorem State.Frame.write {s t : State} (h : s.Frame t) (lat : Nat) (effs : List Eff) : s.Frame (t.write lat effs) :=
  (h.emit lat effs).advance

theorem State.Frame.branchTo {s t : State} (h : s.Frame t) (a : Word) : s.Frame (t.branchTo a) :=
  h.modMe _ (by constructor <;> rfl)

theorem State.Frame.modMine {s t : State} (h : s.Frame t) (f : StreamSt → StreamSt) : s.Frame (t.modMine f) := by
  unfold State.modMine
  split
  · exact h.of_eq rfl rfl rfl rfl rfl rfl rfl rfl rfl rfl
  · exact h.modMe _ (Core.modStream_sameFiles _ _ _)

/-- A fault of a core stream's word. -/
theorem State.Frame.faultWith {s t : State} (h : s.Frame t) (hx : s.cur.st ≠ .crossing) (i : TrapInfo) :
    s.Frame (t.faultWith i) := by
  have hx : t.cur.st ≠ .crossing := by rw [h.stream]; exact hx
  unfold State.faultWith
  dsimp only
  split
  · exact absurd ‹_› hx
  · exact h.modMe _ (by constructor <;> rfl)

theorem State.Frame.fault {s t : State} (h : s.Frame t) (hx : s.cur.st ≠ .crossing) (code : Nat) : s.Frame (t.fault code) :=
  h.faultWith hx _

theorem State.Frame.chosen {s t : State} (h : s.Frame t) : s.Frame t.chosen :=
  h.of_eq rfl rfl rfl rfl rfl rfl rfl rfl rfl rfl

theorem State.Frame.modHandle {s t : State} (h : s.Frame t) (n : Nat) (f : Handle → Handle) : s.Frame (t.modHandle n f) :=
  h.of_eq rfl rfl rfl rfl rfl rfl rfl rfl rfl rfl

theorem State.Frame.modCtx {s t : State} (h : s.Frame t) (n : Nat) (f : Context → Context) : s.Frame (t.modCtx n f) :=
  h.of_eq rfl rfl rfl rfl rfl rfl rfl rfl rfl rfl

theorem State.Frame.modTile {s t : State} (h : s.Frame t) (n : Nat) (f : TileSt → TileSt) : s.Frame (t.modTile n f) :=
  h.of_eq rfl rfl rfl rfl rfl rfl rfl rfl rfl rfl

/-- The whole of a checked word: it stalls, faults, or has its effect. -/
theorem State.Frame.perform {s t u : State} {v : Verdict} {eff : State → State} (h : s.Frame t) (hx : s.cur.st ≠ .crossing)
    (he : s.Frame (eff t)) (hu : t.perform v eff = .next u) : s.Frame u := by
  unfold State.perform at hu
  split at hu
  · cases hu; exact he
  · split at hu <;> cases hu
    · exact h
    · exact h.fault hx _
  · cases hu; exact h.fault hx _

/-- The same for a crossing word of a core's copy stream. -/
theorem State.Frame.performH {s t u : State} {n : Nat} {v : Verdict} {eff : State → State} (h : s.Frame t)
    (hx : s.cur.st ≠ .crossing) (he : s.Frame (eff t)) (hu : t.performH n v eff = .next u) : s.Frame u := by
  have hb : ∀ (b : Bool) (i : TrapInfo) (c p q : Nat), s.Frame (if b then (t.faultWith i).postSup c p q else t.faultWith i) := by
    intro b i c p q
    split
    · exact (h.faultWith hx i).of_eq rfl rfl rfl rfl rfl rfl rfl rfl rfl rfl
    · exact h.faultWith hx i
  unfold State.performH at hu
  dsimp only at hu
  split at hu
  · cases hu; exact he
  · split at hu <;> cases hu
    · exact h
    · simpa using hb (decide (causeClass _ = 3)) _ _ _ _
  · cases hu; simpa using hb (decide (causeClass _ = 3)) _ _ _ _

/-! ## Vector, matrix and control words -/

theorem State.Frame.vdone {s t : State} (h : s.Frame t) (lat occ : Nat) (b : Bool) (effs : List Eff) :
    s.Frame (t.vdone lat occ b effs) :=
  ((h.modMe _ (by constructor <;> rfl)).modMe _ (by constructor <;> rfl)).advance

theorem State.Frame.emitAll {s t : State} (h : s.Frame t) (l : List (Nat × List Eff)) :
    s.Frame (l.foldl (fun (s : State) e => s.emit e.1 e.2) t) := by
  induction l generalizing t with
  | nil => exact h
  | cons e l ih => exact ih (h.emit e.1 e.2)

theorem State.Frame.mdone {s t : State} (h : s.Frame t) (u occ : Nat) (effs : List (Nat × List Eff)) :
    s.Frame (t.mdone u occ effs) :=
  ((h.emitAll effs).modMe _ (by constructor <;> rfl)).advance

theorem Core.bindTo_sameFiles (c : Core) (z : Nat) (u : Stream × Nat) : c.SameFiles (c.bindTo z u) := by constructor <;> rfl

theorem State.Frame.bindWord {s t : State} (h : s.Frame t) (z : Nat) : s.Frame (t.bindWord z) :=
  h.modMe _ (Core.bindTo_sameFiles _ _ _)

theorem State.Frame.setCarry {s t : State} (h : s.Frame t) (o : VRed) (c : Carry) : s.Frame (t.setCarry o c) := by
  unfold State.setCarry
  split
  · exact h.modMe _ (by constructor <;> rfl)
  · exact h

theorem State.Frame.redDone {s t : State} (h : s.Frame t) (o : VRed) (lat occ : Nat) (effs : List Eff) :
    s.Frame (t.redDone o lat occ effs) := by
  unfold State.redDone
  split
  · exact (h.bindWord _).vdone _ _ _ _
  · exact h.vdone _ _ _ _

theorem State.Frame.beginLoop {s t : State} (h : s.Frame t) (lv : BitVec 1) (len trips : Nat)
    (stages : Option (PReg × Nat × Nat)) (effs : List Eff) : s.Frame (t.beginLoop lv len trips stages effs) := by
  unfold State.beginLoop
  dsimp only
  split
  · exact ((h.emit 1 _).emit 1 _).modMine _
  · exact (h.emit 1 _).modMine _

/-! ## Waits and accesses -/

theorem State.Frame.setPos {s t : State} (h : s.Frame t) (p : Nat) : s.Frame { t with cur := { t.cur with pos := p } } :=
  h.of_eq rfl rfl rfl rfl rfl rfl rfl rfl rfl rfl

theorem State.Frame.endWait {s t : State} (h : s.Frame t) (w : Wait) : s.Frame (t.endWait w) :=
  (h.setPos w.pos).leave.modMine _

theorem State.Frame.slipFlights {s t : State} (h : s.Frame t) (k : WaitKind) : s.Frame (t.slipFlights k) := by
  unfold State.slipFlights
  split
  · exact h.modMe _ (by constructor <;> rfl)
  · exact h

theorem State.Frame.beginWait {s t : State} (h : s.Frame t) (hx : s.cur.st ≠ .crossing) (k : WaitKind) (d : Nat) (b : Bool) :
    s.Frame (t.beginWait k d b) := by
  have hm := (h.slipFlights k).emitLoop
  unfold State.beginWait
  dsimp only
  split
  · split
    · exact (hm.endWait _).modMine _
    · split
      · exact hm.modMine _
      · exact (h.slipFlights k).fault hx _
  · exact hm.modMine _

theorem State.Frame.startAccess {s t : State} (h : s.Frame t) (k : AccKind) (va : Word) (ac : BitVec 3) (rd : SReg) (v c : Word) :
    s.Frame (t.startAccess k va ac rd v c) :=
  h.chosen.modMe _ (by constructor <;> rfl)

end Sys2Proof.Machine
end

