-- ==== Sys2Proof/Laws/Banks.lean ====
section
/-! SUPPORT. Reading back what an operation on a bank, a table of launches, a list of events or the agenda has written. -/

namespace Sys2Proof.Machine

/-! ## Banks -/

@[simp] theorem vAt_vPut_same {α : Type} {k : Nat} (v : Vector α (k + 1)) (i : Nat) (x : α) : vAt (vPut v i x) i = x := by
  simp [vAt, vPut]

theorem vAt_vPut {α : Type} {k : Nat} (v : Vector α (k + 1)) (i j : Nat) (x : α) :
    vAt (vPut v i x) j = if i % (k + 1) = j % (k + 1) then x else vAt v j := by
  unfold vAt vPut
  rw [Vector.getElem_set]

theorem vAt_vPut_other {α : Type} {k : Nat} (v : Vector α (k + 1)) (i j : Nat) (x : α) (h : i % (k + 1) ≠ j % (k + 1)) :
    vAt (vPut v i x) j = vAt v j := by
  rw [vAt_vPut, if_neg h]

@[simp] theorem vGet_vSet_same {α : Type} {n : Nat} (r : BitVec n) (x : α) (v : Vector α (2 ^ n)) : vGet r (vSet r x v) = x := by
  simp [vGet, vSet]

theorem vGet_vSet_other {α : Type} {n : Nat} (r q : BitVec n) (x : α) (v : Vector α (2 ^ n)) (h : q ≠ r) :
    vGet q (vSet r x v) = vGet q v := by
  unfold vGet vSet
  rw [Vector.getElem_set_ne]
  intro e
  exact h (BitVec.eq_of_toNat_eq e.symm)

@[simp] theorem vAt_map {α β : Type} {k : Nat} (f : α → β) (v : Vector α (k + 1)) (i : Nat) : vAt (v.map f) i = f (vAt v i) := by
  simp [vAt]

@[simp] theorem State.landing_modLanding (s : State) (n : Nat) (f : Landing → Landing) : (s.modLanding n f).landing n = f (s.landing n) := by
  simp [State.landing, State.modLanding]

theorem State.landing_modLanding_other (s : State) (n m : Nat) (f : Landing → Landing) (h : n % 132 ≠ m % 132) :
    (s.modLanding n f).landing m = s.landing m := vAt_vPut_other _ _ _ _ h

theorem State.landing_modLanding' (s : State) (n m : Nat) (f : Landing → Landing) :
    (s.modLanding n f).landing m = if n % 132 = m % 132 then f (s.landing n) else s.landing m := vAt_vPut _ _ _ _

@[simp] theorem State.handle_modHandle (s : State) (n : Nat) (f : Handle → Handle) : (s.modHandle n f).handle n = f (s.handle n) := by
  simp [State.handle, State.modHandle]

theorem State.handle_modHandle_other (s : State) (n m : Nat) (f : Handle → Handle) (h : n % 64 ≠ m % 64) :
    (s.modHandle n f).handle m = s.handle m := vAt_vPut_other _ _ _ _ h

theorem State.handle_modHandle' (s : State) (n m : Nat) (f : Handle → Handle) :
    (s.modHandle n f).handle m = if n % 64 = m % 64 then f (s.handle n) else s.handle m := vAt_vPut _ _ _ _

@[simp] theorem State.group_modGroup (s : State) (n : Nat) (f : Group → Group) : (s.modGroup n f).group n = f (s.group n) := by
  simp [State.group, State.modGroup]

theorem State.group_modGroup_other (s : State) (n m : Nat) (f : Group → Group) (h : n % 64 ≠ m % 64) :
    (s.modGroup n f).group m = s.group m := vAt_vPut_other _ _ _ _ h

theorem State.group_modGroup' (s : State) (n m : Nat) (f : Group → Group) :
    (s.modGroup n f).group m = if n % 64 = m % 64 then f (s.group n) else s.group m := vAt_vPut _ _ _ _

@[simp] theorem State.ctx_modCtx (s : State) (n : Nat) (f : Context → Context) : (s.modCtx n f).ctx n = f (s.ctx n) := by
  simp [State.ctx, State.modCtx]

theorem State.ctx_modCtx_other (s : State) (n m : Nat) (f : Context → Context) (h : n % 16 ≠ m % 16) :
    (s.modCtx n f).ctx m = s.ctx m := vAt_vPut_other _ _ _ _ h

theorem State.ctx_modCtx' (s : State) (n m : Nat) (f : Context → Context) :
    (s.modCtx n f).ctx m = if n % 16 = m % 16 then f (s.ctx n) else s.ctx m := vAt_vPut _ _ _ _

@[simp] theorem State.tile_modTile (s : State) (n : Nat) (f : TileSt → TileSt) : (s.modTile n f).tile n = f (s.tile n) := by
  simp [State.tile, State.modTile]

theorem State.tile_modTile_other (s : State) (n m : Nat) (f : TileSt → TileSt) (h : n % 8 ≠ m % 8) :
    (s.modTile n f).tile m = s.tile m := vAt_vPut_other _ _ _ _ h

theorem State.tile_modTile' (s : State) (n m : Nat) (f : TileSt → TileSt) :
    (s.modTile n f).tile m = if n % 8 = m % 8 then f (s.tile n) else s.tile m := vAt_vPut _ _ _ _

@[simp] theorem State.stack_modStack (s : State) (n : Nat) (f : Stack → Stack) : (s.modStack n f).stack n = f (s.stack n) := by
  simp [State.stack, State.modStack]

theorem State.stack_modStack_other (s : State) (n m : Nat) (f : Stack → Stack) (h : n % 8 ≠ m % 8) :
    (s.modStack n f).stack m = s.stack m := vAt_vPut_other _ _ _ _ h

theorem State.stack_modStack' (s : State) (n m : Nat) (f : Stack → Stack) :
    (s.modStack n f).stack m = if n % 8 = m % 8 then f (s.stack n) else s.stack m := vAt_vPut _ _ _ _

/-! ## A bank as another operation leaves it -/

@[simp] theorem State.handle_modLanding (s : State) (n : Nat) (f : Landing → Landing) (m : Nat) : (s.modLanding n f).handle m = s.handle m := rfl
@[simp] theorem State.group_modLanding (s : State) (n : Nat) (f : Landing → Landing) (m : Nat) : (s.modLanding n f).group m = s.group m := rfl
@[simp] theorem State.ctx_modLanding (s : State) (n : Nat) (f : Landing → Landing) (m : Nat) : (s.modLanding n f).ctx m = s.ctx m := rfl
@[simp] theorem State.tile_modLanding (s : State) (n : Nat) (f : Landing → Landing) (m : Nat) : (s.modLanding n f).tile m = s.tile m := rfl
@[simp] theorem State.stack_modLanding (s : State) (n : Nat) (f : Landing → Landing) (m : Nat) : (s.modLanding n f).stack m = s.stack m := rfl
@[simp] theorem State.core_modLanding (s : State) (n : Nat) (f : Landing → Landing) (m : Nat) : (s.modLanding n f).core m = s.core m := rfl
@[simp] theorem State.launch?_modLanding (s : State) (n : Nat) (f : Landing → Landing) (m : Nat) : (s.modLanding n f).launch? m = s.launch? m := rfl
@[simp] theorem State.landing_modHandle (s : State) (n : Nat) (f : Handle → Handle) (m : Nat) : (s.modHandle n f).landing m = s.landing m := rfl
@[simp] theorem State.group_modHandle (s : State) (n : Nat) (f : Handle → Handle) (m : Nat) : (s.modHandle n f).group m = s.group m := rfl
@[simp] theorem State.ctx_modHandle (s : State) (n : Nat) (f : Handle → Handle) (m : Nat) : (s.modHandle n f).ctx m = s.ctx m := rfl
@[simp] theorem State.tile_modHandle (s : State) (n : Nat) (f : Handle → Handle) (m : Nat) : (s.modHandle n f).tile m = s.tile m := rfl
@[simp] theorem State.stack_modHandle (s : State) (n : Nat) (f : Handle → Handle) (m : Nat) : (s.modHandle n f).stack m = s.stack m := rfl
@[simp] theorem State.core_modHandle (s : State) (n : Nat) (f : Handle → Handle) (m : Nat) : (s.modHandle n f).core m = s.core m := rfl
@[simp] theorem State.launch?_modHandle (s : State) (n : Nat) (f : Handle → Handle) (m : Nat) : (s.modHandle n f).launch? m = s.launch? m := rfl
@[simp] theorem State.landing_modGroup (s : State) (n : Nat) (f : Group → Group) (m : Nat) : (s.modGroup n f).landing m = s.landing m := rfl
@[simp] theorem State.handle_modGroup (s : State) (n : Nat) (f : Group → Group) (m : Nat) : (s.modGroup n f).handle m = s.handle m := rfl
@[simp] theorem State.ctx_modGroup (s : State) (n : Nat) (f : Group → Group) (m : Nat) : (s.modGroup n f).ctx m = s.ctx m := rfl
@[simp] theorem State.tile_modGroup (s : State) (n : Nat) (f : Group → Group) (m : Nat) : (s.modGroup n f).tile m = s.tile m := rfl
@[simp] theorem State.stack_modGroup (s : State) (n : Nat) (f : Group → Group) (m : Nat) : (s.modGroup n f).stack m = s.stack m := rfl
@[simp] theorem State.core_modGroup (s : State) (n : Nat) (f : Group → Group) (m : Nat) : (s.modGroup n f).core m = s.core m := rfl
@[simp] theorem State.launch?_modGroup (s : State) (n : Nat) (f : Group → Group) (m : Nat) : (s.modGroup n f).launch? m = s.launch? m := rfl
@[simp] theorem State.landing_modCtx (s : State) (n : Nat) (f : Context → Context) (m : Nat) : (s.modCtx n f).landing m = s.landing m := rfl
@[simp] theorem State.handle_modCtx (s : State) (n : Nat) (f : Context → Context) (m : Nat) : (s.modCtx n f).handle m = s.handle m := rfl
@[simp] theorem State.group_modCtx (s : State) (n : Nat) (f : Context → Context) (m : Nat) : (s.modCtx n f).group m = s.group m := rfl
@[simp] theorem State.tile_modCtx (s : State) (n : Nat) (f : Context → Context) (m : Nat) : (s.modCtx n f).tile m = s.tile m := rfl
@[simp] theorem State.stack_modCtx (s : State) (n : Nat) (f : Context → Context) (m : Nat) : (s.modCtx n f).stack m = s.stack m := rfl
@[simp] theorem State.core_modCtx (s : State) (n : Nat) (f : Context → Context) (m : Nat) : (s.modCtx n f).core m = s.core m := rfl
@[simp] theorem State.launch?_modCtx (s : State) (n : Nat) (f : Context → Context) (m : Nat) : (s.modCtx n f).launch? m = s.launch? m := rfl
@[simp] theorem State.landing_modTile (s : State) (n : Nat) (f : TileSt → TileSt) (m : Nat) : (s.modTile n f).landing m = s.landing m := rfl
@[simp] theorem State.handle_modTile (s : State) (n : Nat) (f : TileSt → TileSt) (m : Nat) : (s.modTile n f).handle m = s.handle m := rfl
@[simp] theorem State.group_modTile (s : State) (n : Nat) (f : TileSt → TileSt) (m : Nat) : (s.modTile n f).group m = s.group m := rfl
@[simp] theorem State.ctx_modTile (s : State) (n : Nat) (f : TileSt → TileSt) (m : Nat) : (s.modTile n f).ctx m = s.ctx m := rfl
@[simp] theorem State.stack_modTile (s : State) (n : Nat) (f : TileSt → TileSt) (m : Nat) : (s.modTile n f).stack m = s.stack m := rfl
@[simp] theorem State.core_modTile (s : State) (n : Nat) (f : TileSt → TileSt) (m : Nat) : (s.modTile n f).core m = s.core m := rfl
@[simp] theorem State.launch?_modTile (s : State) (n : Nat) (f : TileSt → TileSt) (m : Nat) : (s.modTile n f).launch? m = s.launch? m := rfl
@[simp] theorem State.landing_modStack (s : State) (n : Nat) (f : Stack → Stack) (m : Nat) : (s.modStack n f).landing m = s.landing m := rfl
@[simp] theorem State.handle_modStack (s : State) (n : Nat) (f : Stack → Stack) (m : Nat) : (s.modStack n f).handle m = s.handle m := rfl
@[simp] theorem State.group_modStack (s : State) (n : Nat) (f : Stack → Stack) (m : Nat) : (s.modStack n f).group m = s.group m := rfl
@[simp] theorem State.ctx_modStack (s : State) (n : Nat) (f : Stack → Stack) (m : Nat) : (s.modStack n f).ctx m = s.ctx m := rfl
@[simp] theorem State.tile_modStack (s : State) (n : Nat) (f : Stack → Stack) (m : Nat) : (s.modStack n f).tile m = s.tile m := rfl
@[simp] theorem State.core_modStack (s : State) (n : Nat) (f : Stack → Stack) (m : Nat) : (s.modStack n f).core m = s.core m := rfl
@[simp] theorem State.launch?_modStack (s : State) (n : Nat) (f : Stack → Stack) (m : Nat) : (s.modStack n f).launch? m = s.launch? m := rfl
@[simp] theorem State.landing_modCore (s : State) (n : Nat) (f : Core → Core) (m : Nat) : (s.modCore n f).landing m = s.landing m := rfl
@[simp] theorem State.handle_modCore (s : State) (n : Nat) (f : Core → Core) (m : Nat) : (s.modCore n f).handle m = s.handle m := rfl
@[simp] theorem State.group_modCore (s : State) (n : Nat) (f : Core → Core) (m : Nat) : (s.modCore n f).group m = s.group m := rfl
@[simp] theorem State.ctx_modCore (s : State) (n : Nat) (f : Core → Core) (m : Nat) : (s.modCore n f).ctx m = s.ctx m := rfl
@[simp] theorem State.tile_modCore (s : State) (n : Nat) (f : Core → Core) (m : Nat) : (s.modCore n f).tile m = s.tile m := rfl
@[simp] theorem State.stack_modCore (s : State) (n : Nat) (f : Core → Core) (m : Nat) : (s.modCore n f).stack m = s.stack m := rfl
@[simp] theorem State.launch?_modCore (s : State) (n : Nat) (f : Core → Core) (m : Nat) : (s.modCore n f).launch? m = s.launch? m := rfl
@[simp] theorem State.landing_setCore (s : State) (n : Nat) (x : Core) (m : Nat) : (s.setCore n x).landing m = s.landing m := rfl
@[simp] theorem State.handle_setCore (s : State) (n : Nat) (x : Core) (m : Nat) : (s.setCore n x).handle m = s.handle m := rfl
@[simp] theorem State.group_setCore (s : State) (n : Nat) (x : Core) (m : Nat) : (s.setCore n x).group m = s.group m := rfl
@[simp] theorem State.ctx_setCore (s : State) (n : Nat) (x : Core) (m : Nat) : (s.setCore n x).ctx m = s.ctx m := rfl
@[simp] theorem State.tile_setCore (s : State) (n : Nat) (x : Core) (m : Nat) : (s.setCore n x).tile m = s.tile m := rfl
@[simp] theorem State.stack_setCore (s : State) (n : Nat) (x : Core) (m : Nat) : (s.setCore n x).stack m = s.stack m := rfl
@[simp] theorem State.launch?_setCore (s : State) (n : Nat) (x : Core) (m : Nat) : (s.setCore n x).launch? m = s.launch? m := rfl
@[simp] theorem State.landing_modLaunch (s : State) (n : Nat) (f : Launch → Launch) (m : Nat) : (s.modLaunch n f).landing m = s.landing m := rfl
@[simp] theorem State.handle_modLaunch (s : State) (n : Nat) (f : Launch → Launch) (m : Nat) : (s.modLaunch n f).handle m = s.handle m := rfl
@[simp] theorem State.group_modLaunch (s : State) (n : Nat) (f : Launch → Launch) (m : Nat) : (s.modLaunch n f).group m = s.group m := rfl
@[simp] theorem State.ctx_modLaunch (s : State) (n : Nat) (f : Launch → Launch) (m : Nat) : (s.modLaunch n f).ctx m = s.ctx m := rfl
@[simp] theorem State.tile_modLaunch (s : State) (n : Nat) (f : Launch → Launch) (m : Nat) : (s.modLaunch n f).tile m = s.tile m := rfl
@[simp] theorem State.stack_modLaunch (s : State) (n : Nat) (f : Launch → Launch) (m : Nat) : (s.modLaunch n f).stack m = s.stack m := rfl
@[simp] theorem State.core_modLaunch (s : State) (n : Nat) (f : Launch → Launch) (m : Nat) : (s.modLaunch n f).core m = s.core m := rfl
@[simp] theorem State.landing_post (s : State) (r c p a : Nat) (m : Nat) : (s.post r c p a).landing m = s.landing m := rfl
@[simp] theorem State.handle_post (s : State) (r c p a : Nat) (m : Nat) : (s.post r c p a).handle m = s.handle m := rfl
@[simp] theorem State.group_post (s : State) (r c p a : Nat) (m : Nat) : (s.post r c p a).group m = s.group m := rfl
@[simp] theorem State.ctx_post (s : State) (r c p a : Nat) (m : Nat) : (s.post r c p a).ctx m = s.ctx m := rfl
@[simp] theorem State.tile_post (s : State) (r c p a : Nat) (m : Nat) : (s.post r c p a).tile m = s.tile m := rfl
@[simp] theorem State.stack_post (s : State) (r c p a : Nat) (m : Nat) : (s.post r c p a).stack m = s.stack m := rfl
@[simp] theorem State.core_post (s : State) (r c p a : Nat) (m : Nat) : (s.post r c p a).core m = s.core m := rfl
@[simp] theorem State.launch?_post (s : State) (r c p a : Nat) (m : Nat) : (s.post r c p a).launch? m = s.launch? m := rfl
@[simp] theorem State.landing_postSup (s : State) (c p a : Nat) (m : Nat) : (s.postSup c p a).landing m = s.landing m := rfl
@[simp] theorem State.handle_postSup (s : State) (c p a : Nat) (m : Nat) : (s.postSup c p a).handle m = s.handle m := rfl
@[simp] theorem State.group_postSup (s : State) (c p a : Nat) (m : Nat) : (s.postSup c p a).group m = s.group m := rfl
@[simp] theorem State.ctx_postSup (s : State) (c p a : Nat) (m : Nat) : (s.postSup c p a).ctx m = s.ctx m := rfl
@[simp] theorem State.tile_postSup (s : State) (c p a : Nat) (m : Nat) : (s.postSup c p a).tile m = s.tile m := rfl
@[simp] theorem State.stack_postSup (s : State) (c p a : Nat) (m : Nat) : (s.postSup c p a).stack m = s.stack m := rfl
@[simp] theorem State.core_postSup (s : State) (c p a : Nat) (m : Nat) : (s.postSup c p a).core m = s.core m := rfl
@[simp] theorem State.launch?_postSup (s : State) (c p a : Nat) (m : Nat) : (s.postSup c p a).launch? m = s.launch? m := rfl
@[simp] theorem State.landing_replaceRequested (s : State) (c p : Nat) (m : Nat) : (s.replaceRequested c p).landing m = s.landing m := rfl
@[simp] theorem State.handle_replaceRequested (s : State) (c p : Nat) (m : Nat) : (s.replaceRequested c p).handle m = s.handle m := rfl
@[simp] theorem State.group_replaceRequested (s : State) (c p : Nat) (m : Nat) : (s.replaceRequested c p).group m = s.group m := rfl
@[simp] theorem State.ctx_replaceRequested (s : State) (c p : Nat) (m : Nat) : (s.replaceRequested c p).ctx m = s.ctx m := rfl
@[simp] theorem State.tile_replaceRequested (s : State) (c p : Nat) (m : Nat) : (s.replaceRequested c p).tile m = s.tile m := rfl
@[simp] theorem State.stack_replaceRequested (s : State) (c p : Nat) (m : Nat) : (s.replaceRequested c p).stack m = s.stack m := rfl
@[simp] theorem State.core_replaceRequested (s : State) (c p : Nat) (m : Nat) : (s.replaceRequested c p).core m = s.core m := rfl
@[simp] theorem State.launch?_replaceRequested (s : State) (c p : Nat) (m : Nat) : (s.replaceRequested c p).launch? m = s.launch? m := rfl
@[simp] theorem State.landing_plan (s : State) (n : Nat) (i : Instr) (o : Subject) (m : Nat) : (s.plan n i o).landing m = s.landing m := rfl
@[simp] theorem State.handle_plan (s : State) (n : Nat) (i : Instr) (o : Subject) (m : Nat) : (s.plan n i o).handle m = s.handle m := rfl
@[simp] theorem State.group_plan (s : State) (n : Nat) (i : Instr) (o : Subject) (m : Nat) : (s.plan n i o).group m = s.group m := rfl
@[simp] theorem State.ctx_plan (s : State) (n : Nat) (i : Instr) (o : Subject) (m : Nat) : (s.plan n i o).ctx m = s.ctx m := rfl
@[simp] theorem State.tile_plan (s : State) (n : Nat) (i : Instr) (o : Subject) (m : Nat) : (s.plan n i o).tile m = s.tile m := rfl
@[simp] theorem State.stack_plan (s : State) (n : Nat) (i : Instr) (o : Subject) (m : Nat) : (s.plan n i o).stack m = s.stack m := rfl
@[simp] theorem State.core_plan (s : State) (n : Nat) (i : Instr) (o : Subject) (m : Nat) : (s.plan n i o).core m = s.core m := rfl
@[simp] theorem State.launch?_plan (s : State) (n : Nat) (i : Instr) (o : Subject) (m : Nat) : (s.plan n i o).launch? m = s.launch? m := rfl
@[simp] theorem State.landing_alarm (s : State) (n : Nat) (i : Instr) (o : Subject) (m : Nat) : (s.alarm n i o).landing m = s.landing m := rfl
@[simp] theorem State.handle_alarm (s : State) (n : Nat) (i : Instr) (o : Subject) (m : Nat) : (s.alarm n i o).handle m = s.handle m := rfl
@[simp] theorem State.group_alarm (s : State) (n : Nat) (i : Instr) (o : Subject) (m : Nat) : (s.alarm n i o).group m = s.group m := rfl
@[simp] theorem State.ctx_alarm (s : State) (n : Nat) (i : Instr) (o : Subject) (m : Nat) : (s.alarm n i o).ctx m = s.ctx m := rfl
@[simp] theorem State.tile_alarm (s : State) (n : Nat) (i : Instr) (o : Subject) (m : Nat) : (s.alarm n i o).tile m = s.tile m := rfl
@[simp] theorem State.stack_alarm (s : State) (n : Nat) (i : Instr) (o : Subject) (m : Nat) : (s.alarm n i o).stack m = s.stack m := rfl
@[simp] theorem State.core_alarm (s : State) (n : Nat) (i : Instr) (o : Subject) (m : Nat) : (s.alarm n i o).core m = s.core m := rfl
@[simp] theorem State.launch?_alarm (s : State) (n : Nat) (i : Instr) (o : Subject) (m : Nat) : (s.alarm n i o).launch? m = s.launch? m := rfl
@[simp] theorem State.landing_chosen (s : State) (m : Nat) : (s.chosen).landing m = s.landing m := rfl
@[simp] theorem State.handle_chosen (s : State) (m : Nat) : (s.chosen).handle m = s.handle m := rfl
@[simp] theorem State.group_chosen (s : State) (m : Nat) : (s.chosen).group m = s.group m := rfl
@[simp] theorem State.ctx_chosen (s : State) (m : Nat) : (s.chosen).ctx m = s.ctx m := rfl
@[simp] theorem State.tile_chosen (s : State) (m : Nat) : (s.chosen).tile m = s.tile m := rfl
@[simp] theorem State.stack_chosen (s : State) (m : Nat) : (s.chosen).stack m = s.stack m := rfl
@[simp] theorem State.core_chosen (s : State) (m : Nat) : (s.chosen).core m = s.core m := rfl
@[simp] theorem State.launch?_chosen (s : State) (m : Nat) : (s.chosen).launch? m = s.launch? m := rfl

/-! ## Launches -/

theorem find?_updIf {α : Type} (key : α → Nat) (n : Nat) (f : α → α) (h : ∀ x, key (f x) = key x) (l : List α) :
    (updIf (fun x => key x == n) f l).find? (fun x => key x == n) = (l.find? fun x => key x == n).map f := by
  induction l with
  | nil => rfl
  | cons a t ih =>
    rw [updIf, List.map_cons, List.find?_cons, List.find?_cons, ← updIf, ih]
    by_cases e : key a = n
    · simp [e, h]
    · simp [beq_eq_false_iff_ne.2 e]

theorem find?_updIf_other {α : Type} (key : α → Nat) (n m : Nat) (f : α → α) (h : ∀ x, key (f x) = key x) (hn : m ≠ n) (l : List α) :
    (updIf (fun x => key x == n) f l).find? (fun x => key x == m) = l.find? fun x => key x == m := by
  induction l with
  | nil => rfl
  | cons a t ih =>
    rw [updIf, List.map_cons, List.find?_cons, List.find?_cons, ← updIf, ih]
    by_cases e : key a = n
    · have hm : (n == m) = false := beq_eq_false_iff_ne.2 hn.symm
      simp [e, h, hm]
    · simp [beq_eq_false_iff_ne.2 e]

theorem State.launch?_modLaunch (s : State) (n : Nat) (f : Launch → Launch) (h : ∀ x, (f x).lid = x.lid) :
    (s.modLaunch n f).launch? n = (s.launch? n).map f := find?_updIf Launch.lid n f h s.launches

theorem State.launch?_modLaunch_other (s : State) (n m : Nat) (f : Launch → Launch) (h : ∀ x, (f x).lid = x.lid) (hn : m ≠ n) :
    (s.modLaunch n f).launch? m = s.launch? m := find?_updIf_other Launch.lid n m f h hn s.launches

theorem State.lid_of_launch? {s : State} {n : Nat} {l : Launch} (h : s.launch? n = some l) : l.lid = n := by
  have := List.find?_some h
  simpa using this

/-! ## Lists of events -/

@[simp] theorem mem_insertBy {α : Type} (key : α → Nat) (x y : α) (l : List α) : y ∈ insertBy key x l ↔ y = x ∨ y ∈ l := by
  induction l with
  | nil => simp [insertBy]
  | cons a t ih =>
    unfold insertBy
    split
    · simp
    · simp only [List.mem_cons, ih]
      constructor
      · rintro (rfl | rfl | h) <;> simp_all
      · rintro (rfl | rfl | h) <;> simp_all

@[simp] theorem mem_addOnce (l : List Nat) (n m : Nat) : m ∈ addOnce l n ↔ m = n ∨ m ∈ l := by
  unfold addOnce
  split
  · constructor
    · exact .inr
    · rintro (rfl | h)
      · simpa using ‹l.contains m = true›
      · exact h
  · simp [or_comm]

@[simp] theorem State.post_events (s : State) (r c p a : Nat) : (s.post r c p a).events = s.events ++ [(r, c, p, a)] := rfl
@[simp] theorem State.postSup_events (s : State) (c p a : Nat) : (s.postSup c p a).events = s.events ++ [(16, c, p, a)] := rfl
@[simp] theorem State.replaceRequested_events (s : State) (c p : Nat) :
    (s.replaceRequested c p).events = s.events ++ [(16, c, p, 0)] := rfl
@[simp] theorem State.replaceRequested_pkstat (s : State) (c p : Nat) : (s.replaceRequested c p).pkstat = s.pkstat ||| 1#4 := rfl
@[simp] theorem State.post_pkstat (s : State) (r c p a : Nat) : (s.post r c p a).pkstat = s.pkstat := rfl
@[simp] theorem State.postSup_pkstat (s : State) (c p a : Nat) : (s.postSup c p a).pkstat = s.pkstat := rfl
@[simp] theorem State.postSup_agenda (s : State) (c p a : Nat) : (s.postSup c p a).agenda = s.agenda := rfl
@[simp] theorem State.replaceRequested_agenda (s : State) (c p : Nat) : (s.replaceRequested c p).agenda = s.agenda := rfl

theorem State.choice_bounds (s : State) {lo hi : Nat} (h : lo ≤ hi) : lo ≤ s.choice lo hi ∧ s.choice lo hi ≤ hi := by
  unfold State.choice
  have := Nat.mod_lt (Config.pick s.freeCtr) (show hi - lo + 1 > 0 by omega)
  omega

/-! ## Faults that a core is given -/

theorem State.Raised.raiseAt (s : State) (c : Nat) (t : TrapInfo) : (s.raiseAt c t).Raised c t.code :=
  ⟨t, by simp [State.raiseAt], rfl⟩

theorem State.Raised.modCore {s : State} {c code : Nat} (h : s.Raised c code) (d : Nat) (f : Core → Core)
    (hf : ∀ x, ∀ i ∈ x.raised, i ∈ (f x).raised) : (s.modCore d f).Raised c code := by
  obtain ⟨i, hi, he⟩ := h
  refine ⟨i, ?_, he⟩
  by_cases e : c = d
  · subst e
    rw [State.core_modCore_same]
    exact hf _ _ hi
  · rw [State.core_modCore_other _ _ _ _ e]
    exact hi

end Sys2Proof.Machine
end

