-- ==== Sys2Proof/Laws/Issue.lean ====
section
/-! SUPPORT. What the operations that issue a word do: results in flight, the stream passed, everything else unchanged. -/

namespace Sys2Proof.Machine

/-! ## Verdicts -/

@[simp] theorem Verdict.and_ok (v : Verdict) : Verdict.and .ok v = v := rfl
@[simp] theorem Verdict.and_ok_iff (v w : Verdict) : Verdict.and v w = .ok ↔ v = .ok ∧ w = .ok := by
  cases v <;> simp [Verdict.and]
@[simp] theorem verdicts_nil : verdicts [] = .ok := rfl
@[simp] theorem verdicts_cons (v : Verdict) (l : List Verdict) : verdicts (v :: l) = v.and (verdicts l) := rfl
@[simp] theorem bar_ok_iff (b : Bool) (c : Nat) : bar b c = .ok ↔ b = false := by cases b <;> simp [bar]
@[simp] theorem need_ok_iff (b : Bool) (c : Nat) : need b c = .ok ↔ b = true := by cases b <;> simp [need]
@[simp] theorem bad0_ok_iff (s : State) (b : Bool) (c : Nat) : s.bad0 b c = .ok ↔ b = false := bar_ok_iff b _
@[simp] theorem bad0_true (s : State) (c : Nat) : s.bad0 true c = .fault (cause0 s.cur.st c) := rfl
@[simp] theorem bad0_false (s : State) (c : Nat) : s.bad0 false c = .ok := rfl
@[simp] theorem bar_true (c : Nat) : bar true c = .fault c := rfl
@[simp] theorem bar_false (c : Nat) : bar false c = .ok := rfl
@[simp] theorem need_true (c : Nat) : need true c = .ok := rfl
@[simp] theorem need_false (c : Nat) : need false c = .wait c := rfl

theorem State.perform_ok {s : State} {v : Verdict} (h : v = .ok) (eff : State → State) : s.perform v eff = .next (eff s) := by
  subst h; rfl

@[simp] theorem State.occupied_of_not_vector (s : State) (h : s.cur.st ≠ .vector) : s.occupied = .ok := by
  unfold State.occupied
  split
  · exact absurd ‹_› h
  · rfl

theorem State.occupied_ok_of_le {s : State} (h : s.me.vbusy ≤ s.cyc) : s.occupied = .ok := by
  unfold State.occupied
  split
  · simp [h]
  · rfl

/-! ## The issuing core and what is read of it -/

theorem State.mine_eq (s : State) (h : s.cur.st ≠ .crossing) : s.mine = s.me.stream s.cur.st := by
  unfold State.mine
  split
  · exact absurd ‹_› h
  · rfl

theorem State.cyc_eq (s : State) (h : s.cur.st ≠ .crossing) : s.cyc = s.me.time := by
  unfold State.cyc
  split
  · exact absurd ‹_› h
  · rfl

/-- A state made by a change of the issuing core alone. -/
theorem State.Alone.modMe {s t : State} (h : s.Alone t) (hc : t.cur = s.cur) (f : Core → Core) : s.Alone (t.modMe f) where
  rest := by
    have := h.rest
    unfold State.modMe State.modCore State.setCore
    rw [this]
  others c hd := by
    rw [State.modMe, State.core_modCore_other _ _ _ _ (by rw [hc]; exact hd)]
    exact h.others c hd

theorem State.Alone.refl (s : State) : s.Alone s := ⟨rfl, fun _ _ => rfl⟩

theorem State.Alone.modMe' (s : State) (f : Core → Core) : s.Alone (s.modMe f) := (State.Alone.refl s).modMe rfl f

theorem State.modMe_modMe (s : State) (f g : Core → Core) : (s.modMe f).modMe g = s.modMe fun c => g (f c) := by
  unfold State.modMe State.modCore State.setCore
  simp [State.core, tabSet_tabSet]

/-! ## Passing a word -/

/-- What the issuing core, and whose turn it is, must still hold for the stream to pass its word as `s` has it. -/
structure State.SameStreams (s t : State) : Prop where
  cur : t.cur = s.cur
  streams : ∀ st, t.me.stream st = s.me.stream st
  pipe : t.me.helmSt = s.me.helmSt
  cyc : t.me.cyc = s.me.cyc
  htime : t.me.htime = s.me.htime
  handler : t.me.handler = s.me.handler

theorem State.SameStreams.mine {s t : State} (h : s.SameStreams t) (hx : s.cur.st ≠ .crossing) : t.mine = s.mine := by
  rw [s.mine_eq hx, t.mine_eq (by rw [h.cur]; exact hx), h.streams, h.cur]

theorem State.SameStreams.time {s t : State} (h : s.SameStreams t) : t.me.time = s.me.time := by
  simp only [Core.time, h.cyc, h.htime]

theorem State.SameStreams.flight {s t : State} (h : s.SameStreams t) (hx : s.cur.st ≠ .crossing) (l : Nat) (e : Eff) :
    t.flight l e = s.flight l e := by
  simp only [State.flight, h.mine hx, h.cur, s.cyc_eq hx, t.cyc_eq (by rw [h.cur]; exact hx), h.time, h.handler]

theorem State.SameStreams.emit {s t : State} (h : s.SameStreams t) (lat : Nat) (effs : List Eff) :
    s.SameStreams (t.emit lat effs) := by
  refine ⟨h.cur, fun st => ?_, ?_, ?_, ?_, ?_⟩ <;> simp only [State.emit, State.me_modMe]
  · rw [← h.streams]; cases st <;> rfl
  · exact h.pipe
  · exact h.cyc
  · exact h.htime
  · exact h.handler

theorem State.SameStreams.loopStep {s t : State} (h : s.SameStreams t) (hx : s.cur.st ≠ .crossing) : t.loopStep = s.loopStep := by
  simp only [State.loopStep, h.mine hx, h.cur, s.cyc_eq hx, t.cyc_eq (by rw [h.cur]; exact hx), h.time]

/-- The issuing core after its stream has passed its word. -/
def State.passCore (s : State) (c : Core) : Core := match s.cur.st with
  | .helm => { c with helm := s.nextStream, helmSt := s.nextPipe }
  | st => { c with flights := c.flights ++ s.loopEffs.map (s.flight 1) }.setStream st s.nextStream

theorem State.modMe_congr (t : State) (f g : Core → Core) (h : f t.me = g t.me) : t.modMe f = t.modMe g := by
  simp only [State.modMe, State.modCore]
  exact congrArg _ h

theorem State.SameStreams.advance {s t : State} (h : s.SameStreams t) (hx : s.cur.st ≠ .crossing) :
    t.advance = t.modMe fun _ => s.passCore t.me := by
  have hc := h.cur
  have hl := h.loopStep hx
  have h2 := (h.emit 1 t.loopStep.2).loopStep hx
  have hf : t.flight 1 = s.flight 1 := funext fun e => h.flight hx 1 e
  unfold State.advance State.emitLoop State.leave State.passCore
  cases hst : s.cur.st with
  | crossing => exact absurd hst hx
  | helm =>
    have hm' : t.me.helm = s.mine := by rw [← h.mine hx, t.mine_eq (by rw [hc]; exact hx), hc, hst]; rfl
    have hy : s.cyc = t.me.time := by rw [s.cyc_eq hx, h.time]
    simp only [hc, hst]
    refine t.modMe_congr _ _ ?_
    simp only [State.nextStream, State.nextPipe, hst, ← hm', hy, ← h.pipe]
    rfl
  | vector | matrix | copy =>
    have hs : ∀ l, (t.emit 1 l).cur.st = s.cur.st := fun _ => by rw [← hc]; rfl
    have hn : s.nextStream = s.loopStep.1 := by rw [State.nextStream, hst]; rfl
    have he : s.loopEffs = s.loopStep.2 := by rw [State.loopEffs, hst]; rfl
    rw [hl] at h2
    simp only [hc, hst, hs, hl, h2]
    rw [State.emit, State.modMe_modMe, hn, he, hf]
    exact t.modMe_congr _ _ rfl

theorem State.me_alone (s : State) (f : Core → Core) : (s.modMe f).me = f s.me := s.me_modMe f

theorem Core.stream_setStream (c : Core) (st : Stream) (x : StreamSt) (h : st ≠ .crossing) : (c.setStream st x).stream st = x := by
  cases st <;> first | rfl | exact absurd rfl h

theorem Core.stream_setStream_other (c : Core) (st st' : Stream) (x : StreamSt) (h : st' ≠ st) :
    (c.setStream st x).stream st' = c.stream st' := by
  cases st <;> cases st' <;> first | rfl | exact absurd rfl h

theorem State.SameStreams.passed {s t : State} (h : s.SameStreams t) (hx : s.cur.st ≠ .crossing) : s.Passed t.advance := by
  have e := h.advance hx
  have hc : t.advance.cur = s.cur := by rw [e]; exact h.cur
  have em : t.advance.me = s.passCore t.me := by rw [e, State.me_modMe]
  have hst : ∀ st, (s.passCore t.me).stream st = if st = s.cur.st then s.nextStream else t.me.stream st := by
    intro st
    unfold State.passCore
    cases h1 : s.cur.st <;> cases st <;> first | exact absurd h1 hx | rfl
  refine ⟨?_, ?_, ?_⟩
  · rw [State.mine_eq _ (by rw [hc]; exact hx), em, hc, hst, if_pos rfl]
  · rw [em]
    unfold State.passCore State.nextPipe
    cases h1 : s.cur.st <;> first | exact absurd h1 hx | rfl | exact h.pipe
  · intro st hne
    rw [em, hst, if_neg hne, h.streams]

/-! ## Words whose whole effect is to put results in flight -/

/-- The issuing core with results put in flight, and its units' occupancy set. -/
theorem State.issued (s : State) (f : Core → Core) (effs : List (Nat × Eff)) (b : Bool) (hx : s.cur.st ≠ .crossing)
    (hf : f s.me = { s.me with
      flights := s.me.flights ++ effs.map (fun e => { s.flight e.1 e.2 with checked := b })
      vbusy := (f s.me).vbusy, mbusy := (f s.me).mbusy }) : s.Issued (s.modMe f).advance effs := by
  have em : (s.modMe f).me = f s.me := s.me_modMe f
  have h : s.SameStreams (s.modMe f) := by
    refine ⟨rfl, fun st => by rw [em, hf]; cases st <;> rfl, ?_, ?_, ?_, ?_⟩ <;> rw [em, hf]
  have e := h.advance hx
  have ha : s.Alone (s.modMe f) := .modMe' s f
  have e2 : (s.modMe f).advance.me = s.passCore (f s.me) := by rw [e, State.me_modMe, em]
  refine ⟨?_, h.passed hx, ⟨b, ?_⟩, ?_⟩
  · rw [e]; exact ha.modMe rfl _
  · rw [e2]
    unfold State.passCore State.loopEffs
    cases h1 : s.cur.st <;> first | exact absurd h1 hx | (rw [hf]; simp [Core.setStream])
  · unfold State.KeepsUnits
    rw [e2]
    unfold State.passCore
    cases h1 : s.cur.st <;> first | exact absurd h1 hx | (rw [hf]; done) | (rw [hf]; rfl)

theorem State.issued_write (s : State) (lat : Nat) (effs : List Eff) (hx : s.cur.st ≠ .crossing) :
    s.Issued (s.write lat effs) (effs.map fun e => (lat, e)) := by
  refine s.issued _ _ false hx ?_
  simp only [List.map_map]
  rfl

theorem State.issued_pass (s : State) (hx : s.cur.st ≠ .crossing) : s.Issued s.advance [] := by
  have := s.issued_write 1 [] hx
  have e : s.emit 1 [] = s.modMe id := by
    refine s.modMe_congr _ _ ?_
    simp
  have h : s.SameStreams s := ⟨rfl, fun _ => rfl, rfl, rfl, rfl, rfl⟩
  rw [State.write, e] at this
  have h2 : s.SameStreams (s.modMe id) := ⟨rfl, fun _ => by simp, by simp, by simp, by simp, by simp⟩
  rw [h2.advance hx, State.modMe_modMe] at this
  rw [h.advance hx]
  simpa using this

theorem State.issued_vdone (s : State) (lat occ : Nat) (b : Bool) (effs : List Eff) (hx : s.cur.st ≠ .crossing) :
    s.Issued (s.vdone lat occ b effs) (effs.map fun e => (lat, e)) := by
  unfold State.vdone State.emitChecked
  rw [State.modMe_modMe]
  refine s.issued _ _ b hx ?_
  simp only [List.map_map]
  rfl

theorem State.emitAll_modMe (s t : State) (l : List (Nat × List Eff)) (g : Core → Core) (h : s.SameStreams t)
    (hx : s.cur.st ≠ .crossing) :
    (l.foldl (fun (s : State) e => s.emit e.1 e.2) t).modMe g =
      t.modMe fun c => g { c with flights := c.flights ++ l.flatMap fun e => e.2.map (s.flight e.1) } := by
  induction l generalizing t with
  | nil => exact t.modMe_congr _ _ (by simp)
  | cons e l ih =>
    rw [List.foldl_cons, ih _ (h.emit e.1 e.2), State.emit, State.modMe_modMe]
    refine t.modMe_congr _ _ ?_
    have : t.flight e.1 = s.flight e.1 := funext fun x => h.flight hx _ _
    simp [this]

theorem State.issued_mdone (s : State) (u occ : Nat) (effs : List (Nat × List Eff)) (hx : s.cur.st ≠ .crossing) :
    s.Issued (s.mdone u occ effs) (effs.flatMap fun e => e.2.map fun x => (e.1, x)) := by
  have h : s.SameStreams s := ⟨rfl, fun _ => rfl, rfl, rfl, rfl, rfl⟩
  unfold State.mdone
  rw [s.emitAll_modMe s effs _ h hx]
  refine s.issued _ _ false hx ?_
  have : (effs.flatMap fun e => e.2.map (s.flight e.1)) =
      (effs.flatMap fun e => e.2.map fun x => (e.1, x)).map fun e => { s.flight e.1 e.2 with checked := false } := by
    simp only [List.map_flatMap, List.map_map]
    rfl
  simp [this]

end Sys2Proof.Machine
end

