-- ==== Sys2Proof/Tests/Slice0.lean ====
section
/-! SUPPORT. Tests and witnesses: ill-formed terms that WellFormed refuses, words of every format decoded, small steps whose results are worked out from
the rules, and for the hypotheses of every statement a state and operands that meet them. -/

open Sys2Proof Sys2Proof.Machine

namespace Sys2Proof.Tests

/-! ## Helpers -/

/-- A package whose core 0 is `k`, its stream `st` about to issue. -/
def at_ (st : Stream) (k : Core := {}) : State := { State.reset with cur := { st := st }, cores := [(0, k)] }

/-- What holds of the state after an instruction. -/
def after (i : Instr) (s : State) (ok : State → Bool) : Bool := match exec i s with
  | .next t => ok t
  | _ => false

/-- The results that a word puts in flight: each with its latency L. -/
def gives (i : Instr) (s : State) (l : List (Nat × Eff)) : Bool :=
  after i s fun t => decide (t.me.flights.map (fun f => (f.due + 1 - f.issued, f.eff)) = l)

/-- The causes that a word raises on its core. -/
def traps (i : Instr) (s : State) (l : List Nat) : Bool := after i s fun t => decide (t.me.raised.map (·.code) = l)

/-- Scalars set in a core. -/
def regs (l : List (SReg × Word)) : Vector Word 64 := l.foldl (fun v p => vSet p.1 p.2 v) (({} : Core).sregs)

/-- Core 0 with these scalars. -/
def with_ (st : Stream) (l : List (SReg × Word)) : State := at_ st { sregs := regs l }

/-- A word of opcode `op` with operand bits `x` (03 R68). -/
def word (op x : Nat) : Word := BitVec.ofNat 64 (op * 2 ^ 37 + x)

/-- What a word of a stream decodes to. -/
def decodes (st : Stream) (w : Word) (i : Instr) : Bool := decide (decode st w = .ok ⟨0, 0, 0, i⟩)

/-! ## Well-formedness -/

theorem test_wf_vred_whole_vector_names_no_slot : (Instr.vrsum ⟨1, 0, 0, 0, 0, 3, 0, 0, 0, 0⟩).wf .vector = false := by decide
theorem test_wf_mzero_tile_one : (Instr.mzero 0 0 1).wf .matrix = false := by decide
theorem test_wf_mzero_accumulator_names_no_tile : (Instr.mzero 0 2 0).wf .matrix = false := by decide
theorem test_wf_waitid_launch_channel : (Instr.waitid 4 1 0).wf .helm = false := by decide
theorem test_wf_wrong_stream : (Instr.add 1 2 3).wf .vector = false := by decide
theorem test_wf_retire_only_in_matrix : Instr.retire.wf .copy = false ∧ Instr.retire.wf .matrix = true := by decide
theorem test_wf_event_has_no_word : (Instr.coldBoot).wf .helm = false := by decide

/-! ## Decoding: words written out from the formats of 03 R72, R74, R79-R82 and the maps of R88-R93 -/

theorem test_decode_hrr : decodes .helm (word 0x02 (5 * 2 ^ 31 + 6 * 2 ^ 25 + 7 * 2 ^ 19)) (.sub 5 6 7) = true := by decide
theorem test_decode_hri : decodes .helm (word 0x18 (5 * 2 ^ 31 + 6 * 2 ^ 25 + 0x1FFFFFF)) (.addi 5 6 0x1FFFFFF) = true := by decide
theorem test_decode_hli : decodes .helm (word 0x20 (63 * 2 ^ 31 + 0x7FFFFFFF)) (.seth 63 0x7FFFFFFF) = true := by decide
theorem test_decode_hmem : decodes .helm (word 0x6A (1 * 2 ^ 31 + 2 * 2 ^ 25 + 3 * 2 ^ 22 + 0x3FFFFF)) (.st64 ⟨1, 2, 3, 0x3FFFFF⟩) = true := by decide
theorem test_decode_hbf : decodes .helm (word 0x34 (1 * 2 ^ 31 + 2 * 2 ^ 25 + 5 * 2 ^ 13 + 8 * 2 ^ 6)) (.bext 1 2 5 8) = true := by decide
theorem test_decode_hsys : decodes .helm (word 0x97 (3 * 2 ^ 31 + 0x030 * 2 ^ 19)) (.csrr 3 0x030) = true := by decide
theorem test_decode_hbr : decodes .helm (word 0x53 (9 * 2 ^ 30 + 0x3FFFFFFF)) (.brtn 9 0x3FFFFFFF) = true := by decide
theorem test_decode_hcmp_immediate : decodes .helm (word 0x42 (4 * 2 ^ 30 + 5 * 2 ^ 24 + 2 ^ 23 + 0x7FFFFF)) (.cmplt 4 5 (.imm 0x7FFFFF)) = true := by decide
theorem test_decode_hpl : decodes .helm (word 0x46 (1 * 2 ^ 30 + 2 * 2 ^ 23 + 3 * 2 ^ 16)) (.pand 1 2 3) = true := by decide
theorem test_decode_tbar_resync : decodes .helm (word 0x94 (3 * 2 ^ 25 + 5 + 2 ^ 9)) (.tbarSync 3 5 0) = true := by decide
theorem test_decode_yieldpt_hold : decodes .helm (word 0x96 (3 * 2 ^ 25 + 2 ^ 24 + 77)) (.yieldptHold 3 77) = true := by decide
theorem test_decode_waitid_launch : decodes .helm (word 0x92 (4 * 2 ^ 31 + 3 * 2 ^ 25 + 9)) (.waitidLaunch 3 9) = true := by decide
theorem test_decode_vop : decodes .vector (word 0x04 (1 * 2 ^ 31 + 4 * 2 ^ 28 + 1 * 2 ^ 26 + 9 * 2 ^ 18 + 3 * 2 ^ 16 + 0x3C * 2 ^ 8 + 2 * 2 ^ 4 + 1 * 2 + 1))
    (.vfma ⟨1, 4, 1, 9, 3, 0x3C, 2, 1, 1⟩) = true := by decide
theorem test_decode_vcvt : decodes .vector (word 0x40 (1 * 2 ^ 31 + 2 * 2 ^ 28 + 9 * 2 ^ 18 + 3 * 2 ^ 16 + (2 * 2 ^ 4 + 9) * 2 ^ 8))
    (.vcvt ⟨1, 2, 0, 9, 3, 2, 9, 0, 0, 0⟩) = true := by decide
theorem test_decode_vred : decodes .vector (word 0x53 (1 * 2 ^ 31 + 9 * 2 ^ 18 + 33 * 2 ^ 12 + 5 * 2 ^ 9 + 2 ^ 8 + 7 * 2 ^ 4))
    (.vscan ⟨1, 0, 0, 9, 33, 5, 1, 7, 0, 0⟩) = true := by decide
theorem test_decode_vmem_stride : decodes .vector (word 0x62 (1 * 2 ^ 31 + 4 * 2 ^ 22 + 6 * 2 ^ 16 + 2 ^ 3)) (.vlds ⟨1, 0, 4, 6, 0, 1⟩) = true := by decide
theorem test_decode_vldr : decodes .vector (word 0x56 (1 * 2 ^ 31 + 4 * 2 ^ 22 + 0x3FFF * 2 ^ 8 + 7)) (.vldr ⟨1, 0, 4, 0x3FFF, 0, 0, 7⟩) = true := by decide
theorem test_decode_mmem : decodes .matrix (word 0x09 (3 * 2 ^ 33 + 4 * 2 ^ 27 + 2 * 2 ^ 13 + 2 ^ 12)) (.mlda ⟨3, 4, 2, 1⟩) = true := by decide
theorem test_decode_mop : decodes .matrix (word 0x08 (2 * 2 ^ 35 + 4 * 2 ^ 27 + 2 * 2 ^ 16 + 2 ^ 15 + 9 * 2 ^ 10)) (.moutq ⟨2, 0, 4, 2, 1⟩ 9) = true := by decide
theorem test_decode_mzero_release : decodes .matrix (word 0x04 (5 * 2 ^ 31 + 1 * 2 ^ 27)) (.mzeroRelease 5) = true := by decide
theorem test_decode_crec : decodes .copy (word 0x06 (1 * 2 ^ 35 + 2 ^ 34 + 7 * 2 ^ 28 + 40 * 2 ^ 22 + 2 * 2 ^ 14 + 21 * 2 ^ 8))
    (.csend ⟨1, 1, 7, 40⟩ 0 1 21) = true := by decide
theorem test_decode_loop : decodes .copy (word 0xF0 (2 ^ 36 + 2 ^ 35 + 9 * 2 ^ 19 + 3 * 2 ^ 10)) (.loop 1 (.reg 9) 3) = true := by decide
theorem test_decode_setvc_shape : decodes .matrix (word 0xF3 (2 ^ 36 + 5)) (.setvc (.shape 5)) = true := by decide
theorem test_decode_waitf : decodes .vector (word 0xF6 (2 * 2 ^ 35 + 7 * 2 ^ 28 + 99)) (.waitf 2 7 99) = true := by decide
theorem test_decode_xest : decodes .crossing (word 0x01 (63 * 2 ^ 31 + 128 * 2 ^ 23 + 4 * 2 ^ 15)) (.xest 63 128 4) = true := by decide
theorem test_decode_xstep_at : decodes .crossing (word 0x04 (2 ^ 36 + 1000)) (.xstepAt 1000) = true := by decide
theorem test_decode_xgroup : decodes .crossing (word 0x07 (63 * 2 ^ 31 + 254 * 2 ^ 23)) (.xgroup 63 254) = true := by decide
theorem test_decode_refuses : decode .helm (word 0x01 1) = .error .reservedBits ∧ decode .copy (word 0x0B (2 ^ 35)) = .error .reservedBits ∧
    decode .copy (word 0xF4 0) = .error .unassignedOpcode ∧ decode .crossing (word 0x0D 0) = .error .unassignedOpcode ∧
    decode .crossing (BitVec.ofNat 64 (2 ^ 45)) = .error .reservedBits := by decide

/-! ## The helm: arithmetic and logic (05 R133-R140) -/

theorem test_add_wraps : gives (.add 1 2 3) (with_ .helm [(2, BitVec.allOnes 64), (3, 2)]) [(1, .s 1 1)] = true := by decide
theorem test_sub_wraps : gives (.sub 1 2 3) (with_ .helm [(2, 1), (3, 2)]) [(1, .s 1 (BitVec.allOnes 64))] = true := by decide
theorem test_mulh_is_signed : gives (.mulh 1 2 3) (with_ .helm [(2, BitVec.allOnes 64), (3, 2)]) [(4, .s 1 (BitVec.allOnes 64))] = true ∧
    gives (.mulhu 1 2 3) (with_ .helm [(2, BitVec.allOnes 64), (3, 2)]) [(4, .s 1 1)] = true := by decide
theorem test_seth : gives (.seth 2 5) (with_ .helm [(2, 3)]) [(1, .s 2 (3 * 0x80000000 + 5))] = true := by decide
theorem test_andi_zero_extends : gives (.andi 1 2 0x1FFFFFF) (with_ .helm [(2, BitVec.allOnes 64)]) [(1, .s 1 0x1FFFFFF)] = true := by decide
theorem test_addi_sign_extends : gives (.addi 1 2 0x1FFFFFF) (with_ .helm [(2, 5)]) [(1, .s 1 4)] = true := by decide
theorem test_sll_takes_its_amount_modulo_64 : gives (.sll 1 2 3) (with_ .helm [(2, 3), (3, 65)]) [(1, .s 1 6)] = true := by decide
theorem test_srai_rounds_down : gives (.srai 1 2 1) (with_ .helm [(2, BitVec.ofInt 64 (-3))]) [(1, .s 1 (BitVec.ofInt 64 (-2)))] = true := by decide
theorem test_slli_by_64 : traps (.slli 1 2 64) (with_ .helm [(2, 3)]) [cause 0 0 2] = true ∧
    gives (.slli 1 2 63) (with_ .helm [(2, 3)]) [(1, .s 1 0x8000000000000000)] = true := by decide
theorem test_div_toward_zero : gives (.div 1 2 3) (with_ .helm [(2, BitVec.ofInt 64 (-7)), (3, 2)]) [(34, .s 1 (BitVec.ofInt 64 (-3)))] = true ∧
    gives (.rem 1 2 3) (with_ .helm [(2, BitVec.ofInt 64 (-7)), (3, 2)]) [(34, .s 1 (BitVec.ofInt 64 (-1)))] = true := by decide
theorem test_div_overflow_wraps : gives (.div 1 2 3) (with_ .helm [(2, 0x8000000000000000), (3, BitVec.allOnes 64)])
    [(34, .s 1 0x8000000000000000)] = true := by decide
theorem test_div_by_zero : (with_ .helm [(2, 7)]).sr 3 = 0 ∧ traps (.remu 1 2 3) (with_ .helm [(2, 7)]) [cause 0 0 7] = true := by decide
theorem test_minu_is_unsigned : gives (.minu 1 2 3) (with_ .helm [(2, BitVec.allOnes 64), (3, 2)]) [(1, .s 1 2)] = true ∧
    gives (.min 1 2 3) (with_ .helm [(2, BitVec.allOnes 64), (3, 2)]) [(1, .s 1 (BitVec.allOnes 64))] = true := by decide
theorem test_clz_of_zero : gives (.clz 1 2) (at_ .helm) [(1, .s 1 64)] = true ∧ gives (.ctz 1 2) (with_ .helm [(2, 8)]) [(1, .s 1 3)] = true := by decide
theorem test_brev : gives (.brev 1 2) (with_ .helm [(2, 1)]) [(1, .s 1 0x8000000000000000)] = true := by decide +kernel
theorem test_bexts_sign : gives (.bexts 1 2 4 4) (with_ .helm [(2, 0xF5)]) [(1, .s 1 (BitVec.allOnes 64))] = true ∧
    gives (.bext 1 2 4 4) (with_ .helm [(2, 0xA5)]) [(1, .s 1 0xA)] = true := by decide
theorem test_bext_whole_and_past : gives (.bext 1 2 0 64) (with_ .helm [(2, 9)]) [(1, .s 1 9)] = true ∧
    traps (.bins 1 2 1 64) (at_ .helm) [cause 0 0 2] = true ∧ traps (.bext 1 2 1 0) (at_ .helm) [cause 0 0 2] = true := by decide
theorem test_bins : gives (.bins 1 2 8 4) (with_ .helm [(1, 0xFFFF), (2, 0)]) [(1, .s 1 0xF0FF)] = true := by decide
theorem test_fshl : gives (.fshl ⟨1, 2, 3, 8, 0⟩) (with_ .helm [(2, 0x11), (3, 0xAB00000000000000)]) [(1, .s 1 0x11AB)] = true ∧
    gives (.fshr ⟨1, 2, 3, 8, 0⟩) (with_ .helm [(2, 0x11), (3, 0xAB00)]) [(1, .s 1 0x11000000000000AB)] = true ∧
    traps (.fshl ⟨1, 2, 3, 8, 1⟩) (at_ .helm) [cause 0 0 2] = true := by decide
theorem test_cmpltu : gives (.cmpltu 5 2 (.imm 0x7FFFFF)) (with_ .helm [(2, 1)]) [(1, .p 5 true)] = true ∧
    gives (.cmplt 5 2 (.imm 0x7FFFFF)) (with_ .helm [(2, 1)]) [(1, .p 5 false)] = true := by decide
theorem test_pset : gives (.pset 5 1) (at_ .helm) [(1, .p 5 true)] = true ∧ traps (.pset 5 2) (at_ .helm) [cause 0 0 2] = true ∧
    gives (.pclr 5) (at_ .helm) [(1, .pEmpty 5)] = true := by decide

/-- Core 0 with predicate 5 empty. -/
def noP : Core := { pfull := vSet (5 : PReg) false (({} : Core).pfull) }

/-- A launch in timed mode of core 0. -/
def timedL : Launch := { lid := 0, ctx := 0, stage := .running, timed := true }

theorem witness_predicates : (at_ .helm noP).cur.st = .helm ∧ (at_ .helm).me.pIsFull 5 = true ∧ (at_ .helm noP).me.pIsFull 5 = false := by decide
theorem test_empty_predicate_waits_in_elastic_mode : (at_ .helm noP).stalls = true ∧
    after (.pnot 1 5) (at_ .helm noP) (fun t => t.me.flights.isEmpty && t.me.raised.isEmpty && t.me.helm == noP.helm) = true := by decide
theorem test_empty_predicate_traps_in_timed_mode :
    traps (.pnot 1 5) { at_ .helm { noP with lid := some 0 } with launches := [timedL] } [cause 2 0 0] = true := by decide

set_option Elab.async false

/-! ## The helm: the bank, transfers, accesses and ordering (05 R141-R158, 09) -/

theorem test_ldc : gives (.ldc 1 2 254) { at_ .helm { sregs := regs [(2, 1)], cbank := vSet (255 : BitVec 8) 7 (({} : Core).cbank) } with } [(2, .s 1 7)] = true ∧
    traps (.ldc 1 2 255) (with_ .helm [(2, 1)]) [cause 0 0 2] = true := by decide

/-- Core 0 with q31 full. -/
def fullQ : Core := { qfull := vSet (31 : BitVec 5) true (({} : Core).qfull), qregs := vSet (31 : BitVec 5) 9 (({} : Core).qregs) }

theorem witness_handoff : fullQ.qIsFull 31 = true ∧ fullQ.qCanTake 31 = true ∧ ({} : Core).qIsFull 31 = false := by decide
theorem test_qrecv_empties : gives (.qrecv 1 31) (at_ .helm fullQ) [(1, .qEmpty 31), (1, .s 1 9)] = true ∧
    gives (.qpeek 1 31) (at_ .helm fullQ) [(1, .s 1 9)] = true ∧ traps (.qpeek 1 32) (at_ .helm fullQ) [cause 0 0 2] = true := by decide

/-- A helm at address 4096 in an image of four words there. -/
def image : Core := { helm := { base := 4096, words := 4, ended := false, pc := 4096 }, helmSt := { npc := 4104, nnpc := 4112 } }

theorem witness_branches :
    let s := at_ .helm image
    let h := s.me.helmSt
    (s.mine.base.toNat ≤ (s.mine.pc + BitVec.ofInt 64 (8 * 3)).toNat ∧ (s.mine.pc + BitVec.ofInt 64 (8 * 3)).toNat < s.mine.base.toNat + 8 * s.mine.words) ∧
    ¬ (s.mine.pc + BitVec.ofInt 64 (8 * 4)).toNat < s.mine.base.toNat + 8 * s.mine.words ∧ h.shadow = [] ∧ isPurser s.cur.core = false ∧
    s.me.handler = none ∧ s.me.pIsFull 0 = true ∧ s.me.preg 0 = true ∧ s.me.preg 5 = false := by decide
theorem test_br : after (.br 3) (at_ .helm image) (fun t => t.me.helm.pc == 4104 && t.me.helmSt == ⟨4112, 4120, 0, []⟩) = true ∧
    traps (.br 4) (at_ .helm image) [cause 0 0 4] = true := by decide
theorem test_brfn_annuls_both_slots : after (.brfn 0 1) (at_ .helm image) (fun t => t.me.helmSt == ⟨4112, 4120, 2, []⟩) = true := by decide
theorem test_call_and_ret : after (.call 2) (at_ .helm image) (fun t => t.me.helmSt == ⟨4112, 4112, 0, [4120]⟩) = true ∧
    traps .ret (at_ .helm image) [cause 0 0 4] = true ∧
    after .ret (at_ .helm { image with helmSt := ⟨4104, 4112, 0, [64]⟩ }) (fun t => t.me.helmSt == ⟨4112, 64, 0, []⟩) = true := by decide
theorem test_trap_counts_as_executed : after (.trap 9) (at_ .helm image) (fun t =>
    t.me.raised.map (fun i => (i.code, i.stat)) == [(6, 9)] && t.me.helm.pc == 4104) = true := by decide
theorem test_syscall : after (.syscall 17) (at_ .helm image) (fun t => t.me.raised.map (fun i => (i.code, i.stat)) == [(0x2E, 17)]) = true ∧
    traps (.syscall 17) { at_ .helm image with cur := { core := 2048 }, cores := [(2048, image)] } [cause 0 0 6] = true := by decide
theorem test_exit_ends_the_helm : after .exit (at_ .helm image) (fun t => t.me.helm.ended) = true := by decide

theorem witness_accesses : (with_ .helm [(2, 8)]).me.outstanding = 0 ∧ (with_ .helm [(2, 8)]).me.inPhase = false ∧
    ((with_ .helm [(2, 8)]).sr 2 + BitVec.ofInt 64 (BitVec.toInt (0x3FFFF8#22))).toNat % 8 = 0 := by decide
theorem test_st64_carries_its_value : after (.st64 ⟨3, 2, 0, 0x3FFFF8⟩) (with_ .helm [(2, 16), (3, 5)]) (fun t =>
    t.me.accesses.map (fun a => (a.kind, a.va, a.v)) == [(.store 8, 8, 5)]) = true := by decide
theorem test_ld32_misaligned : traps (.ld32 ⟨3, 2, 0, 2⟩) (with_ .helm [(2, 8)]) [cause 0 0 3] = true := by decide
theorem test_acas_carries_both : after (.acas 1 2 3) (with_ .helm [(1, 4), (2, 8), (3, 5)]) (fun t =>
    t.me.accesses.map (fun a => (a.kind, a.va, a.v, a.c)) == [(.acas, 8, 5, 4)]) = true := by decide

/-- Core 0 with a closed region. -/
def bonded : Core := { bonds := [⟨4096, 64, 8192, false⟩] }

theorem witness_bonds : (∃ b ∈ bonded.bonds, b.bond = 8192) ∧ ({} : Core).bonds = [] ∧ Breaks bonded.bonds 4159 1 ∧ ¬ Breaks bonded.bonds 4160 8 ∧
    Breaks bonded.bonds 8199 1 := by simp [Breaks, bonded]
theorem test_fence : after (.fence 3) (at_ .helm) (fun t => t.me.accesses.map (fun a => (a.kind, a.window)) == [(.fence 3, 512)]) = true ∧
    traps (.fence 4) (at_ .helm) [cause 0 0 2] = true := by decide
theorem test_rel_closes_at_its_issue : gives (.rel 2) (at_ .helm { bonded with sregs := regs [(2, 8192)] }) [(1, .close 8192)] = true ∧
    traps (.acq 2) (at_ .helm bonded) [cause 0 0 2] = true := by decide
theorem test_closed_region_is_found_at_issue : after (.st8 ⟨3, 2, 0, 0⟩) (at_ .helm { bonded with sregs := regs [(2, 4159)] }) (fun t =>
    t.me.accesses.map (fun a => a.fault.map (·.code)) == [some (cause 1 1 4)]) = true := by decide
theorem test_launch_reads_its_packet : after (.launch 1 2 0) (with_ .helm [(2, 64)]) (fun t =>
    t.me.accesses.map (fun a => (a.kind, a.va, a.rd)) == [(.launch false, 64, 1)]) = true ∧ traps (.launch 1 2 0) (with_ .helm [(2, 8)]) [cause 0 0 3] = true := by
  decide
theorem test_bind : gives (.bind 1 2 3) (with_ .helm [(1, 4096), (2, 64), (3, 8192)]) [(1, .bond 4096 64 8192)] = true ∧
    traps (.bind 1 2 3) (with_ .helm [(1, 4096), (2, 64), (3, 4100)]) [cause 0 0 3] = true ∧
    traps (.bind 1 2 3) (with_ .helm [(1, 4096), (2, 64), (3, 4104)]) [cause 0 0 2] = true := by decide

/-- A running launch of cores 0 to 3 of context 0. -/
def launch4 : Launch := { lid := 0, ctx := 0, cid := 1, stage := .running, w := 4, any := false }
/-- Core 0 of that launch, in elastic mode. -/
def member (k : Core) : State := { at_ .helm { k with lid := some 0 } with
  cores := (List.range 4).map fun i => (i, if i = 0 then { k with lid := some 0 } else { lid := some 0 }), launches := [launch4] }

theorem witness_qsend : (member {}).inLaunch (coreAt 3 0) = true ∧ (member {}).launchOf 0 = some launch4 ∧ (member {}).inLaunch (coreAt 4 0) = false := by decide
theorem test_qsend_in_a_tile : after (.qsend 31 2 3) (member { sregs := regs [(2, 3), (3, 7)] }) (fun t =>
    t.qsends.map (fun q => (q.dst, q.q, q.v, q.due)) == [(3, 31, 7, 31)]) = true ∧
    traps (.qsend 31 2 3) (member { sregs := regs [(2, 4)] }) [cause 0 0 2] = true := by decide

theorem test_qsend_out_of_range : traps (.qsend 32 2 3) (member {}) [cause 0 0 2] = true ∧ traps (.qsend 31 2 3) (member { sregs := regs [(2, 64)] }) [cause 0 0 2] = true := by
  decide
theorem test_mwait_of_no_group : traps (.mwait 2 63) (at_ .helm) [cause 0 0 2] = true ∧ traps (.mwait 2 64) (at_ .helm) [cause 0 0 2] = true := by decide
theorem test_mstore_of_no_group : traps (.mstore 1 2 3) (with_ .helm [(3, 63)]) [cause 1 6 0] = true ∧
    traps (.mstore 1 2 3) (with_ .helm [(3, 64)]) [cause 0 0 2] = true := by decide

/-- Core 0 with slot 4095 tagged 77. -/
def tagged : Core := { tagTab := [(4095, 77)] }

theorem witness_tag_table : tabRising none tagged.tagTab = true ∧ tabGet tagged.tagTab 4095 = some 77 ∧ tagged.tagBad = [] ∧ tagged.inPhase = false ∧
    tabRising none ({} : Core).tagTab = true := by decide
theorem test_taglk : gives (.taglk 1 2) (at_ .helm { tagged with sregs := regs [(2, 77)] }) [(4, .s 1 0x3FFC00)] = true ∧
    gives (.taglk 1 2) (at_ .helm tagged) [(4, .s 1 (BitVec.allOnes 64))] = true := by decide
theorem test_tagset_takes_the_key : after (.tagset 2 3) (at_ .helm { tagged with sregs := regs [(2, 77), (3, 5)] }) (fun t => t.me.tagTab == [(5, 77)]) = true ∧
    traps (.tagset 2 3) (at_ .helm { tagged with sregs := regs [(2, 77), (3, 4096)] }) [cause 1 1 6] = true ∧
    after (.tagclr 2) (at_ .helm { tagged with sregs := regs [(2, 77)] }) (fun t => t.me.tagTab == []) = true := by decide

theorem witness_shape_slots : (at_ .helm).me.slot 7 = {} ∧ (at_ .helm).me.lsPoison = [] ∧
    (at_ .helm { shapes := vSet (7 : BitVec 3) { b0 := { st := .current }, b1 := { st := .loading } } (({} : Core).shapes) }).me.slot 7 ≠ {} := by decide
theorem test_shld : after (.shld 7 2) (with_ .helm [(2, 64)]) (fun t => t.me.flights.map (fun f => (f.due + 1 - f.issued, f.eff)) == [(264, .shape 7)] &&
      (t.me.slot 7).b0.st == .loading) = true ∧ traps (.shld 8 2) (at_ .helm) [cause 0 0 2] = true ∧
    traps (.shld 7 2) (with_ .helm [(2, 0x3FFFC0)]) [cause 0 0 2] = true ∧ traps (.shld 7 2) (with_ .helm [(2, 32)]) [cause 0 0 3] = true := by decide
theorem test_shinv : gives (.shinv 7) (at_ .helm) [(1, .shape 15)] = true := by decide
theorem test_shld_with_no_free_buffer :
    let k : Core := { shapes := vSet (7 : BitVec 3) { b0 := { st := .current }, b1 := { st := .loading } } (({} : Core).shapes) }
    (at_ .helm k).stalls = true ∧ after (.shld 7 2) (at_ .helm k) (fun t => t.me.flights.isEmpty && t.me.raised.isEmpty) = true := by decide

theorem test_retirement_points : after (.yieldpt 0 0 0) (at_ .helm { cyc := 5 }) (fun t => t.me.yieldAt.isSome) = true ∧
    traps (.yieldpt 1 0 0) (at_ .helm) [cause 0 0 2] = true ∧ traps (.yieldptHold 1 4) (at_ .helm) [cause 0 0 2] = true ∧
    after .retire (at_ .matrix) (fun t => t.me.retireAt.isSome) = true := by decide
theorem test_retire_needs_empty_accumulators :
    after .retire (at_ .matrix { afull := vSet (3 : BitVec 2) true (({} : Core).afull) }) (fun t => t.me.raised.map (·.code) == [cause 2 2 2] && t.me.retireAt.isNone) = true := by decide
theorem test_yieldpt_hold_waits : after (.yieldptHold 1 4) (at_ .helm { sregs := regs [(1, 9)], children := [9] }) (fun t =>
    t.mine.wait.map (fun w => (w.kind, w.due)) == some (.launch 9 true, 4)) = true := by decide
theorem test_phasec_outside_a_phase : traps (.phasec 2) (at_ .helm) [cause 0 0 2] = true ∧ traps (.phaseb 2) (with_ .helm [(2, 8)]) [cause 0 0 3] = true := by decide

theorem test_twait : after (.twait 3) (at_ .helm { cyc := 10 }) (fun t => t.mine.wait.map (fun w => (w.kind, w.due, w.held)) == some (.time, 13, true)) = true := by
  decide
theorem test_waitid : after (.waitid 3 2 1) (with_ .helm [(2, 1)]) (fun t => t.mine.wait.map (fun w => (w.kind, w.held)) == some (.channel 3 1, false)) = true ∧
    after (.waitq 31 1) (at_ .helm fullQ) (fun t => t.mine.wait.map (fun w => (w.kind, w.held)) == some (.full 1 31, true)) = true := by decide
theorem test_waitid_of_no_launch : traps (.waitidLaunch 2 1) (with_ .helm [(2, 1)]) [cause 0 0 2] = true ∧ traps (.waitq 32 1) (at_ .helm) [cause 0 0 2] = true := by
  decide
theorem test_waitf_range : traps (.waitf 3 0 1) (at_ .vector) [cause 0 1 2] = true ∧ traps (.waitf 2 16 1) (at_ .copy) [cause 0 3 2] = true ∧
    after (.waitf 2 15 1) (at_ .copy) (fun t => t.mine.wait.isSome) = true := by decide
theorem test_engine_twait : after (.engineTwait 0) (at_ .matrix) (fun t => t.mine.wait.isNone && t.mine.pc == 8) = true := by decide
theorem witness_tbar : (member {}).launchOf 0 = some launch4 ∧ launch4.team 0 2 = some (0, 0, 4, 1) ∧ launch4.timedNow = false := by decide
theorem test_tbar : after (.tbar 0 2 0) (member {}) (fun t => t.bars.map (fun b => (b.lid, b.arrived.map (·.core))) == [(0, [0])] && t.mine.wait.isSome) = true ∧
    traps (.tbarSync 0 2 0) (member {}) [cause 0 0 2] = true := by decide

/-! ## Control and status registers, traps (03 R85, R86; 12) -/

theorem test_csrr : gives (.csrr 1 0x032) (member {}) [(1, .s 1 0x3FFFC0)] = true ∧ gives (.csrr 1 0x040) (member {}) [(1, .s 1 0)] = true ∧
    traps (.csrr 1 0x050) (member {}) [cause 0 0 6] = true ∧ traps (.csrr 1 0x044) (member {}) [cause 0 0 2] = true ∧
    traps (.csrr 1 0x800) (member {}) [cause 0 0 6] = true := by decide
theorem test_csrw_tvec : after (.csrw 0x030 2) (with_ .helm [(2, 64)]) (fun t => t.me.tvec == 64) = true ∧
    traps (.csrw 0x030 2) (with_ .helm [(2, 4)]) [cause 0 0 3] = true ∧ traps (.csrw 0x000 2) (at_ .helm) [cause 0 0 6] = true := by decide
theorem test_csrw_seed : gives (.csrw 0x010 2) (with_ .helm [(2, 5)]) [(1, .seed 5)] = true := by decide

/-- A trap of the helm's empty source, on core 0 of `launch4`. -/
def fault0 : TrapInfo := { code := cause 2 0 0, st := .helm, cyc := 7 }
/-- Core 0 of `launch4`, stopped with `fault0`. -/
def trapping (tvec : Word) (h : Option Stopped) : State :=
  { (member { trap := some fault0, stopped := true, tvec := tvec, handler := h, helm := { ended := false, pc := 4096 } }) with on := {} }

theorem witness_trap_delivery : (trapping 64 none).me.trap = some fault0 ∧ (trapping 64 none).me.deliverAt ≤ (trapping 64 none).now ∧
    (trapping 64 none).launchOf 0 = some launch4 ∧ fault0.code = cause 2 0 0 ∧ fault0.st ≠ .crossing ∧ (trapping 64 none).mem.wf = true ∧
    (trapping 64 none).me.ls.wf = true ∧ (trapping 64 none).me.helm.ended = false := by decide
theorem test_trap_goes_to_the_user_handler : after .trapDelivery (trapping 64 none) (fun t => t.me.helm.pc == 64 && t.me.helmSt.npc == 72 &&
    t.me.handler.isSome && t.me.tcause == 0x81 && memRead t.me.ls 0x3FFFC0 2 % 512 == 0x81) = true := by decide +kernel
theorem test_trap_goes_to_the_supervisor : after .trapDelivery (trapping 0 none) (fun t => t.me.handler.isNone && t.me.escalated.isSome &&
    (t.tile 0).trapq.map (·.1) == [0]) = true := by decide +kernel
/-- A fault of an elastic launch's crossing program stands on core 0, which has no user handler. -/
def crossed : State := { (member { xtrap := some { fault0 with st := .crossing } }) with on := {} }
theorem witness_crossing_fault : crossed.xDeliverDue 0 = true ∧ crossed.launchOf 0 = some launch4 ∧ launch4.timedNow = false ∧ crossed.me.tvec = 0 := by decide
theorem test_crossing_fault_stands_with_the_supervisor : after .trapDelivery crossed (fun t => t.me.xtrap.isNone && t.me.handler.isNone && !t.me.stopped &&
    t.me.xEscalated == some (escalationBase 0 0 + 128) && (t.tile 0).trapq.length == 1) = true := by decide +kernel
theorem test_fault_in_a_handler_keeps_the_first : after .trapDelivery (trapping 64 (some ⟨fault0, {}, {}, [], 0⟩)) (fun t =>
    t.me.ls == [] && t.me.escalated.isSome && t.me.handler.isSome) = true := by decide +kernel
theorem test_hret : after .hret (member { handler := some ⟨fault0, {}, {}, [], 0⟩, ls := [(0x3FFFC8, 64)], stopped := true }) (fun t =>
    t.me.handler.isNone && !t.me.stopped && t.me.helm.pc == 64) = true ∧ traps .hret (member {}) [cause 0 0 6] = true ∧
    traps .hesc (member {}) [cause 0 0 6] = true := by decide +kernel
theorem test_hesc : after .hesc (member { handler := some ⟨fault0, {}, {}, [], 0⟩ }) (fun t => t.me.escalated.isSome && (t.tile 0).trapq.length == 1) = true := by
  decide +kernel

/-- The purser of tile 0 about to issue. -/
def purser (l : List (SReg × Word)) : State := { State.reset with cur := { core := 2048 }, cores := [(2048, { sregs := regs l })] }

theorem witness_purser : isPurser (purser []).cur.core = true ∧ (purser []).cur.st = .helm ∧ ((purser []).tile 0).trapq = [] := by decide
theorem test_purser_csrs : after (.csrw 0x800 2) (purser [(2, 0xFF)]) (fun t => (t.tile 0).psel == 15) = true ∧
    after (.csrw 0x805 2) (purser [(2, BitVec.allOnes 64)]) (fun t => (t.ctx 0).evtc == 0x1FFFFFFF1F) = true ∧
    traps (.csrr 1 0x817) (purser []) [cause 0 0 6] = true ∧ gives (.csrr 1 0x810) (purser []) [(1, .s 1 0)] = true := by decide
theorem test_tstart : traps (.tstart 2) (at_ .helm) [cause 0 0 6] = true ∧ traps (.tstart 2) (purser []) [cause 0 5 2] = true := by decide

/-! ## Vector words (06, 07) -/

/-- Core 0 with v1 and v2 holding these bits from element 0, and k1 with lane 0 alone. -/
def vec (a b : Nat) : Core := { vregs := vSet (1 : BitVec 6) (BitVec.ofNat 4096 a) (vSet (2 : BitVec 6) (BitVec.ofNat 4096 b) (({} : Core).vregs))
                                kregs := vSet (1 : BitVec 4) 1 (({} : Core).kregs) }
/-- The two-source word on v1 and v2 into v3 under k1. -/
def bin (t rm : BitVec 3) (sat : BitVec 1) : VBin := ⟨3, t, 0, 1, 0, 2, 1, rm, sat⟩
/-- The one-source word on v1 into v3 under k1. -/
def un (t rm : BitVec 3) : VUn := ⟨3, t, 0, 1, 1, rm, 0⟩
/-- Lane 0 of v3 takes the value, and nothing else changes. -/
def lane0 (i : Instr) (k : Core) (lat w v : Nat) : Bool := gives i (at_ .vector k) [(lat, velems 3 w [(0, v)])]

theorem witness_typed : (at_ .vector).Typed 0 isFI 0 .fp32 ∧ (at_ .vector).Typed 0 isF 5 .fp32 ∧ (at_ .vector).Typed 4 isFI 0 .int32 ∧
    (at_ .vector).Typed 4 isI 0 .int32 ∧ (at_ .vector).Typed 2 isF3 1 .bf16 ∧ (at_ .vector).Typed 0 isX 0 .fp32 ∧ InFile 0 63 ∧ ¬ InFile 0 64 ∧
    (at_ .vector).MaskReady 32 ∧ (at_ .vector).me.vbusy ≤ (at_ .vector).cyc :=
  ⟨⟨by decide, by decide, by decide, by decide⟩, ⟨by decide, by decide, by decide, by decide⟩, ⟨by decide, by decide, by decide, by decide⟩,
    ⟨by decide, by decide, by decide, by decide⟩, ⟨by decide, by decide, by decide, by decide⟩, ⟨by decide, by decide, by decide, by decide⟩,
    by unfold InFile; decide, by unfold InFile; decide, by unfold State.MaskReady; decide, by decide⟩
theorem test_vadd : lane0 (.vadd (bin 0 0 0)) (vec 0x3FC00000 0x40000000) 4 32 0x40600000 = true ∧
    lane0 (.vadd (bin 4 0 1)) (vec 0x7FFFFFFF 1) 2 32 0x7FFFFFFF = true := by decide +kernel
theorem test_vadd_wraps : lane0 (.vadd (bin 4 0 0)) (vec 0x7FFFFFFF 1) 2 32 0x80000000 = true ∧
    lane0 (.vsub (bin 4 0 0)) (vec 0 1) 2 32 0xFFFFFFFF = true := by decide +kernel
theorem test_vadd_of_infinities_is_the_canonical_nan : lane0 (.vsub (bin 0 0 0)) (vec 0x7F800000 0x7F800000) 4 32 0x7FC00000 = true := by decide +kernel
theorem test_vmul_rounds_up : lane0 (.vmul (bin 0 2 0)) (vec 0x3F800001 0x3F800001) 4 32 0x3F800003 = true ∧
    lane0 (.vmul (bin 0 1 0)) (vec 0x3F800001 0x3F800001) 4 32 0x3F800002 = true := by decide +kernel
theorem test_vfma_rounds_once : lane0 (.vfma (bin 0 0 0)) (vec 0x3F800000 0x40000000) 4 32 0x40000000 = true ∧
    lane0 (.vfnma (bin 0 0 0)) (vec 0x3F800000 0x40000000) 4 32 0xC0000000 = true := by decide +kernel
theorem test_vmin : lane0 (.vmin (bin 0 0 0)) (vec 0x80000000 0) 4 32 0x80000000 = true ∧ lane0 (.vmax (bin 4 0 0)) (vec 0xFFFFFFFF 1) 2 32 1 = true := by
  decide +kernel
theorem test_vdiv_by_zero : lane0 (.vdiv (bin 0 0 0)) (vec 0x3F800000 0) 14 32 0x7F800000 = true ∧
    traps (.vdiv (bin 4 0 0)) (at_ .vector) [cause 0 1 2] = true := by decide +kernel
theorem test_vsqrt : lane0 (.vsqrt (un 0 0)) (vec 0x40800000 0) 14 32 0x40000000 = true ∧ lane0 (.vabs (un 4 0)) (vec 0xFFFFFFFB 0) 2 32 5 = true ∧
    lane0 (.vneg (un 0 0)) (vec 0x40000000 0) 2 32 0xC0000000 = true := by decide +kernel
theorem test_vrcp : lane0 (.vrcp (un 0 0)) (vec 0x40000000 0) 8 32 0x3F000000 = true ∧ lane0 (.vexp2 (un 0 0)) (vec 0x40400000 0) 8 32 0x41000000 = true ∧
    lane0 (.vlog2 (un 0 0)) (vec 0x41000000 0) 8 32 0x40400000 = true ∧ lane0 (.vrsq (un 0 0)) (vec 0x40800000 0) 8 32 0x3F000000 = true := by
  decide +kernel
theorem test_a_bad_container_is_found_by_the_next_integer_word : after (.vadd (bin 4 0 0)) (at_ .vector { vec 1 1 with vBad := [128] }) (fun t =>
      t.me.residueBad == [0]) = true ∧
    after (.vmov (un 4 0)) (at_ .vector { vec 1 1 with vBad := [128] }) (fun t => t.me.residueBad.isEmpty && t.me.flights.map (·.spoilt) == [[0]]) = true := by
  decide +kernel
theorem test_reserved_rounding : traps (.vadd (bin 0 6 0)) (at_ .vector) [cause 0 1 2] = true ∧ traps (.vadd (bin 4 1 0)) (at_ .vector) [cause 0 1 2] = true := by
  decide +kernel
theorem test_vand : lane0 (.vand (bin 4 0 0)) (vec 0xF0F0 0xFF00) 2 32 0xF000 = true ∧ lane0 (.vsra (bin 4 0 0)) (vec 0x80000000 33) 2 32 0xC0000000 = true ∧
    lane0 (.vfsh (bin 4 0 0)) (vec 1 2) 2 32 1 = true := by decide +kernel
theorem test_vbext : lane0 (.vbext (bin 4 0 0)) (vec 0xABCD 0x64) 2 32 0xC = true ∧ lane0 (.vclz (un 4 0)) (vec 1 0) 2 32 31 = true ∧
    lane0 (.vpopc (un 4 0)) (vec 0xFF 0) 2 32 8 = true := by decide +kernel
theorem test_vmov : lane0 (.vmov (un 0 0)) (vec 0x7FA00000 0) 2 32 0x7FA00000 = true ∧
    lane0 (.viota { un 4 0 with ka := 3 }) (vec 0 0) 2 32 1 = true ∧ traps (.viota (un 4 0)) (at_ .vector (vec 0 0)) [cause 0 1 2] = true := by decide +kernel
theorem test_vperm : lane0 (.vperm (bin 4 0 0)) (vec (7 * 2 ^ 32 + 5) 129) 4 32 7 = true ∧
    lane0 (.vbcast { bin 4 0 0 with kb := 3, b := 1 }) (vec (7 * 2 ^ 32 + 5) 0) 2 32 7 = true := by decide +kernel
theorem test_vextr : gives (.vextr ⟨31, 5, 0, 1, 3, 1, 0, 0, 0⟩) (at_ .vector (vec 0xFF00 0)) [(2, .q 31 (BitVec.allOnes 64))] = true := by decide +kernel
theorem test_vcmp : gives (.vcmp ⟨2, 4, 0, 1, 0, 2, 1, 2⟩) (at_ .vector (vec 0xFFFFFFFF 1)) [(2, .k 2 1)] = true ∧
    traps (.vcmp ⟨0, 4, 0, 1, 0, 2, 1, 2⟩) (at_ .vector) [cause 0 1 2] = true := by decide +kernel
theorem test_vcvt : lane0 (.vcvt ⟨3, 4, 0, 1, 3, 0, 0, 1, 1, 0⟩) (vec 0xC0200000 0) 4 32 0xFFFFFFFE = true ∧
    lane0 (.vpack ⟨3, 2, 0, 1, 3, 0, 0, 1, 0, 0⟩) (vec 0x3F808000 0) 4 16 0x3F80 = true := by decide +kernel
theorem test_vunpack_past_its_parts : traps (.vunpack ⟨3, 0, 0, 1, 3, 2, 2, 1, 0, 0⟩) (at_ .vector (vec 0 0)) [cause 0 1 2] = true ∧
    lane0 (.vunpack ⟨3, 0, 0, 1, 3, 1, 2, 1, 0, 0⟩) (vec (0x4000 * 2 ^ 2048) 0) 4 32 0x40000000 = true := by decide +kernel

/-- Part `p` of the image in v1 or v2 into v3, of type code `x` in S and `t` in T. -/
def part (p : BitVec 3) (t : BitVec 3) (x : BitVec 4) : VCvOp := ⟨3, t, 0, 1, 3, p, x, 0, 0, 0⟩
/-- An effect that writes this value to this element of v3. -/
def writes3 (w e v : Nat) (f : Eff) : Bool := elemAt (vGet (3 : BitVec 6) (({} : Core).land f).vregs) w e == v
/-- The code 7 in element 0 of an MXFP4 image (6.0), its first block's scale 2^1. -/
def mxImage : Core := vec (128 * 2 ^ 2048 + 7) 0
theorem test_block_conversions : after (.vdeq (part 0 0 13)) (at_ .vector mxImage) (fun t => t.me.flights.any fun f => writes3 32 0 0x41400000 f.eff) = true ∧
    traps (.vdeq (part 4 0 13)) (at_ .vector mxImage) [cause 0 1 2] = true := by decide +kernel
/-- The vector stream's entry names FB4. -/
def fb4Entry (k : Core) : Core := { k with fmt := Vector.replicate 16 11 }
theorem witness_block_types : (at_ .vector (fb4Entry (vec 0 0))).vtype 7 = some .fb4 ∧ ElemType.ofCode (part 0 7 2).s.toNat = some .bf16 ∧ isF3 .bf16 = true ∧
    (part 0 7 2).p.toNat < 512 / ElemType.bf16.count ∧ (at_ .vector (vec 0 0)).vtype 0 = some .fp32 ∧ ElemType.ofCode (part 0 0 13).s.toNat = some .mxfp4 := by
  decide +kernel
theorem test_vquant_of_a_nan : traps (.vquant (part 0 7 0)) (at_ .vector (fb4Entry (vec 0x7FC00000 0))) [cause 0 1 7] = true ∧
    after (.vquant (part 0 7 0)) (at_ .vector (fb4Entry (vec 0x40C00000 0))) (fun t => t.me.raised.isEmpty && t.me.flights.length == 4 &&
      t.me.flights.any fun f => writes3 4 0 7 f.eff) = true := by decide +kernel
theorem witness_compares : (at_ .vector (vec 0xFFFFFFFF 1)).Typed 4 isFI 0 .int32 ∧ (vec 0xFFFFFFFF 1).vBad = [] ∧ intHolds 2 (-1) 1 0xFFFFFFFF 1 ∧
    ¬ intHolds 8 (-1) 1 0xFFFFFFFF 1 :=
  ⟨⟨by decide, by decide, by decide, by decide⟩, by decide, by show (-1 : Int) < 1; decide, by show ¬ (0xFFFFFFFF < 1); decide⟩
theorem test_vpart : after (.vpart ⟨3, 4, 0, 1, 3, 2, 1, 0, 0⟩) (at_ .vector (vec 1 0)) (fun t => t.me.raised.isEmpty && t.me.flights.any (fun f =>
      writes3 32 0 0 f.eff && writes3 32 1 0xFFFFFFFF f.eff) && t.me.flights.any fun f =>
      elemAt (vGet (4 : BitVec 6) (({} : Core).land f.eff).vregs) 32 1 == 1) = true := by decide +kernel

/-- The reduction word on v1 into v3 under k1, with no empty mask. -/
def red (t rm : BitVec 3) (sat : BitVec 1) : VRed := ⟨3, t, 0, 1, 0, 0, 0, 1, rm, sat⟩

theorem test_vrsum : lane0 (.vrsum (red 0 0 0)) (vec 0x3F800000 0) 12 32 0x3F800000 = true ∧
    lane0 (.vrsum (red 5 0 0)) (vec 0x7F7F7F7F 0) 12 32 508 = true := by decide +kernel
theorem test_vrmax_of_no_lane : lane0 (.vrmax { red 0 0 0 with msk := 2 }) (vec 0x3F800000 0) 12 32 0xFF800000 = true ∧
    lane0 (.vrmin (red 4 0 0)) (vec 7 0) 12 32 7 = true ∧ traps (.vrmin (red 4 0 1)) (at_ .vector (vec 7 0)) [cause 0 1 2] = true := by decide +kernel
theorem test_vscan_of_a_nan : lane0 (.vscan (red 0 0 0)) (vec 0xFFA00001 0) 12 32 0x7FC00000 = true := by decide +kernel
theorem test_vrsmax : lane0 (.vrsmax (red 0 0 0)) (vec 0x40400000 0) 20 32 0x3F800000 = true ∧
    lane0 (.vrnorm (red 0 0 0)) (vec 0x40400000 0) 28 32 0x3F800000 = true := by decide +kernel
theorem test_reserved_empty_mask : traps (.vrsum { red 0 0 0 with eq := 16 }) (at_ .vector) [cause 0 1 1] = true := by decide +kernel

/-- A loaded slot 7 of segments [0, 3), [3, 3), [3, 200), in MODE CLIP. -/
def sliced : Core :=
  let slot : ShapeSlot := { b0 := { st := .current, record := toBytes 8 0 ++ toBytes 4 200 ++ toBytes 4 1 ++ toBytes 4 3 ++ List.replicate 44 0, bounds := [0, 3, 3, 200] } }
  { (vec 0x3F800000 0) with shapes := vSet (7 : BitVec 3) slot (({} : Core).shapes) }

theorem witness_shape : (sliced.shape? 7).isSome = true ∧ (sliced.shape? 6) = none ∧ sliced.lsPoison = [] ∧ sliced.phase = none ∧ sliced.ls.wf = true := by
  decide +kernel
theorem test_segment_sums : after (.vrsum { red 0 0 0 with zs := 7, sg := 1 }) (at_ .vector sliced) (fun t => !t.me.flights.isEmpty && t.me.raised.isEmpty) = true ∧
    traps (.vrsum { red 0 0 0 with zs := 6, sg := 1 }) (at_ .vector sliced) [cause 0 1 2] = true := by decide +kernel

/-- Core 0 with one byte of its store set. -/
def stored (a : Nat) (b : Byte) : Core := { (vec 0x11223344 0) with ls := [(a, b)], sregs := regs [(4, 0x1000)] }

theorem test_vld : lane0 (.vld ⟨3, 0, 4, 1, 1, 0⟩) (stored 0x1043 7) 8 32 0x07000000 = true ∧
    traps (.vld ⟨3, 0, 5, 0x3FFF, 1, 0⟩) (at_ .vector) [cause 0 1 2] = true := by decide +kernel
theorem test_vld_tagged : after (.vld ⟨3, 0, 4, 0, 1, 1⟩) (at_ .vector { stored 0x1043 7 with slotTags := [(4, 9)] }) (fun t =>
    t.me.flights.isEmpty && t.me.raised.isEmpty) = true := by decide +kernel
theorem test_vst : gives (.vst ⟨1, 0, 4, 0, 1⟩) (at_ .vector (stored 0 1)) [(1, .bytes 0x1000 [0x44, 0x33, 0x22, 0x11])] = true ∧
    traps (.vst ⟨1, 0, 4, 0, 1⟩) (at_ .vector { stored 0 1 with sregs := regs [(4, 0x1008)] }) [cause 0 1 3] = true := by decide +kernel
theorem test_vgath : lane0 (.vgath ⟨3, 0, 4, 2, 1, 0⟩) { stored 0x1007 9 with vregs := vSet (2 : BitVec 6) 1 (({} : Core).vregs) } 16 32 0x09000000 = true ∧
    traps (.vscat ⟨3, 5, 4, 2, 1⟩) (at_ .vector (stored 0 1)) [cause 0 1 2] = true := by decide +kernel
theorem test_vlds : lane0 (.vlds ⟨3, 0, 4, 5, 1, 0⟩) (stored 0x1000 9) 9 32 9 = true ∧
    gives (.vsts ⟨1, 0, 4, 5, 1⟩) (at_ .vector (stored 0 1)) [(2, .bytes 0x1000 [0x44, 0x33, 0x22, 0x11])] = true := by decide +kernel
theorem test_vldr_of_no_slot : traps (.vldr ⟨3, 0, 4, 0, 1, 0, 6⟩) (at_ .vector sliced) [cause 0 1 2] = true ∧
    lane0 (.vldr ⟨3, 0, 4, 0, 1, 0, 7⟩) { stored 0x1000 9 with shapes := sliced.shapes } 8 32 9 = true := by decide +kernel

theorem witness_elements : ([(0, 5), (127, 7)].map (·.1)).Nodup ∧ (∀ p ∈ [(0, 5), (127, 7)], p.1 < ElemType.fp32.count ∧ p.2 < 2 ^ ElemType.fp32.width) ∧
    127 < ElemType.fp32.count := by decide
theorem test_elements_land : elemAt (vGet (3 : BitVec 6) (({} : Core).land (velems 3 32 [(0, 5), (127, 7)])).vregs) 32 127 = 7 ∧
    elemAt (vGet (3 : BitVec 6) (({} : Core).land (velems 3 32 [(0, 5), (127, 7)])).vregs) 32 1 = 0 := by decide +kernel
theorem witness_float_rules : fp32F.decode 0x3FC00000 ≠ .nan ∧ fp32F.decode 0x7F800001 = .nan ∧ (fp32F.decode 0x3FC00000).rat = some (3 / 2) := by
  refine ⟨by decide +kernel, by decide +kernel, ?_⟩
  have h : fp32F.decode 0x3FC00000 = .fin false 12582912 (-23) false := by decide +kernel
  rw [h]; norm_num [Machine.Num.rat]
theorem test_round_to_even : fp32F.round .rne false (.fin false 0x1000001 (-24) false) = 0x3F800000 ∧
    fp32F.round .rne false (.fin false 0x1000003 (-24) false) = 0x3F800002 := by decide +kernel

/-! ## Matrix words (07 R218-R230) -/

/-- Core 0 with t1 full, t2 and the accumulators empty. -/
def tiled (k : Core) : Core := { k with tfull := vSet (1 : BitVec 4) true (({} : Core).tfull), sregs := regs [(4, 0x1000)]
                                        tregs := vSet (1 : BitVec 4) { data := 0x80 } (({} : Core).tregs) }

theorem witness_tiles : (tiled {}).tIsFull 1 = true ∧ (tiled {}).tCanTake 1 = true ∧ (tiled {}).tIsEmpty 2 = true ∧ (tiled {}).aIsEmpty 3 = true ∧
    (tiled {}).tBad = [] ∧ (tiled {}).aBad = [] ∧ (∀ u, u < 3 → vAt (tiled {}).mbusy u ≤ (tiled {}).cyc) ∧
    ((tiled {}).sreg .matrix 4).toNat % 64 = 0 := by decide +kernel
theorem test_mlds : gives (.mlds ⟨2, 4, 0, 0⟩) (at_ .matrix { tiled {} with ls := [(0x1000, 5)] }) [(6, .tSide 2 5)] = true ∧
    traps (.mlds ⟨2, 4, 0x2000, 0⟩) (at_ .matrix (tiled {})) [cause 0 2 2] = true := by decide +kernel
theorem test_mldt_waits_for_an_empty_tile : after (.mldt ⟨1, 4, 0, 0⟩) (at_ .matrix (tiled {})) (fun t => t.me.flights.isEmpty && t.me.raised.isEmpty) = true := by
  decide +kernel
theorem test_mlda_past_a3 : traps (.mlda ⟨4, 4, 0, 0⟩) (at_ .matrix (tiled {})) [cause 0 2 2] = true := by decide +kernel
theorem test_mzero : gives (.mzero 3 0 0) (at_ .matrix (tiled {})) [(2, .a 3 { data := 0, int := some false })] = true ∧
    gives (.mzeroRelease 1) (at_ .matrix (tiled {})) [(1, .tEmpty 1)] = true := by decide +kernel
theorem test_mband : gives (.mband 2 1) (at_ .matrix (tiled {})) [(2, .tBand 2 0x80)] = true ∧ traps (.mband 1 1) (at_ .matrix (tiled {})) [cause 0 2 2] = true ∧
    traps (.mtrn 1 1) (at_ .matrix (tiled {})) [cause 0 2 2] = true := by decide +kernel
theorem test_mma_needs_an_even_tb : traps (.mma ⟨0, 1, 3, 0, 0⟩) (at_ .matrix (tiled {})) [cause 0 2 2] = true ∧
    after (.mma ⟨0, 2, 4, 0, 0⟩) (at_ .matrix (tiled {})) (fun t => t.me.flights.isEmpty && t.me.raised.isEmpty) = true := by decide +kernel
theorem test_mout_of_an_illegal_type : traps (.mout ⟨0, 2, 7, 0, 0⟩) (at_ .matrix (tiled {})) [cause 0 2 2] = true := by decide +kernel

/-- Core 0 with t1, t2 and t3 full and a0 full of a floating sum, of BF16. -/
def products : Core :=
  { tfull := vSet (1 : BitVec 4) true (vSet (2 : BitVec 4) true (vSet (3 : BitVec 4) true (({} : Core).tfull)))
    afull := vSet (0 : BitVec 2) true (({} : Core).afull), fmt := Vector.replicate 16 2
    aregs := vSet (0 : BitVec 2) { data := 0, int := some false } (({} : Core).aregs), shapes := sliced.shapes }

theorem witness_products : let s := at_ .matrix products
    entryType s.entry = some .bf16 ∧ isMma .bf16 = true ∧ s.me.tIsFull 1 = true ∧ s.me.tIsFull 2 = true ∧ s.me.tIsFull (2 + 1) = true ∧ s.me.flights = [] ∧
    (s.me.accNow 0).map (·.int) = some (some s.entryInt) ∧ s.entryInt = false ∧ (s.me.shape? 7).isSome = true ∧ s.me.tBad = [] ∧ s.me.aBad = [] ∧
    vAt s.me.mbusy 1 ≤ s.cyc := by decide +kernel
theorem witness_mout : let s := at_ .matrix products
    (vGet (0 : BitVec 2) s.me.aregs).int = some false ∧ s.me.aCanTake 0 = true ∧ s.me.tIsEmpty 4 = true ∧ s.me.tIsEmpty 5 = true ∧ s.me.qIsEmpty 9 = true ∧
    vAt s.me.mbusy 2 ≤ s.cyc ∧ ElemType.ofCode (0 : BitVec 4).toNat = some .fp32 := by decide +kernel

/-! ## Stream control (05 R163-R171) -/

theorem test_loop : after (.loop 0 (.imm 3) 2) (at_ .vector) (fun t => t.mine.pc == 8 && t.mine.loops.map (fun l => (l.first, l.last, l.trips)) == [(8, 16, 3)]) = true ∧
    after (.loop 0 (.imm 0) 2) (at_ .vector) (fun t => t.mine.pc == 24 && t.mine.loops.isEmpty) = true ∧ traps (.loop 0 (.imm 3) 0) (at_ .vector) [cause 0 1 2] = true := by
  decide
theorem test_loops : gives (.loops 0 (.imm 3) 2 1 126) (at_ .vector) [(1, .p 126 true), (1, .p 127 false)] = true ∧
    traps (.loops 0 (.imm 3) 2 1 127) (at_ .vector) [cause 0 1 2] = true := by decide
theorem test_end : after .endStream (at_ .copy) (fun t => t.mine.ended) = true ∧
    after (.setvc (.count (.imm 9))) (at_ .matrix) (fun t => t.mine.vc == 9) = true ∧ traps (.setvc (.shape 7)) (at_ .vector) [cause 0 1 2] = true := by decide
theorem test_fmtld : gives (.fmtld 0) (at_ .vector) [(4, .fmt (List.replicate 16 0))] = true ∧ traps (.fmtld 4) (with_ .vector [(4, 8)]) [cause 0 1 3] = true := by
  decide +kernel
theorem test_no_instruction : traps .unassignedOpcode { at_ .matrix with on := { flag := true } } [cause 0 2 1] = true ∧
    traps .unassignedOpcode (at_ .copy) [cause 0 3 0] = true ∧ after .nop (at_ .helm) (fun t => t.me.flights.isEmpty && t.me.raised.isEmpty) = true := by decide

/-! ## Multicast words, phases and TSTART (09, 13, 11 R347) -/

/-- Core 0 of `launch4`, group 63 being of context 0 and bound, member 0 on core 0 with an image of 2^12 bytes; with or without APPEND. -/
def grouped (append : Bool) (l : List (SReg × Word)) : State :=
  (member { sregs := regs l }).modGroup 63 fun _ => { words := [if append then 0x30 else 0x10, 12 * 2 ^ 48 + 0x2000, 0x8000000000000000], home := some 0, applied := [(0, 5)] }

theorem witness_groups : ((grouped false []).group 63).valid = true ∧ ((grouped false []).group 63).bound 0 = true ∧
    ((grouped false []).group 63).ownedBy 0 = true ∧ ((grouped true []).group 63).append = true ∧ ((grouped false []).group 63).lsz = 12 ∧
    (grouped false []).memberHere ((grouped false []).group 63) = some 0 ∧ ((grouped false []).group 62).valid = false ∧
    ({ (grouped false []).group 63 with revoked := true }).ownedBy 0 = false := by decide +kernel
theorem test_mstore : after (.mstore 1 2 3) (grouped false [(1, 7), (2, 4088), (3, 63)]) (fun t =>
      t.me.accesses.map (fun a => (a.kind, a.va, a.v)) == [(.mstore 63, 4088, 7)]) = true ∧
    traps (.mstore 1 2 3) (grouped false [(2, 4096), (3, 63)]) [cause 0 0 2] = true ∧
    traps (.mstore 1 2 3) (grouped false [(2, 4092), (3, 63)]) [cause 0 0 3] = true ∧
    traps (.mstore 1 2 3) (grouped true [(2, 8), (3, 63)]) [cause 0 0 2] = true := by decide +kernel
theorem test_mwait : gives (.mwait 2 63) (grouped false [(2, 5)]) [] = true ∧
    after (.mwait 2 63) (grouped false [(2, 6)]) (fun t => t.me.helm.pc == 0 && t.me.raised.isEmpty) = true := by decide +kernel

/-- The listed bytes of a record at an address. -/
def cells (a : Nat) (r : List Byte) : Memory := (r.zipIdx.map fun p => (a + p.2, p.1)).filter (·.2 != 0)
/-- Zero bytes up to 64. -/
def rec64 (r : List Byte) : List Byte := (r ++ List.replicate 64 0).take 64

/-- A phase descriptor of two buffers of 1 KiB, SX 5 and a log of one entry (13 R393). -/
def phaseRec : List Byte := rec64 (toBytes 4 0x1000 ++ toBytes 4 0x2000 ++ toBytes 4 0x400 ++ [5, 0, 0, 0] ++ toBytes 4 0x3000 ++ toBytes 4 1)
/-- A core with that descriptor at 64. -/
def phased : Core := { ls := cells 64 phaseRec, sregs := regs [(2, 64)] }
/-- The phase that it opens. -/
def opened : Core := { phased with phase := some (phased.recordPhase 64) }

theorem witness_phases : (phaseDescOf (memBytes phased.ls 64 64)).outside 64 = false ∧ phaseReserved (memBytes phased.ls 64 64) = false ∧
    phased.tilesEmpty = true ∧ phased.spqPending = false ∧ opened.phasePending 0 = false ∧ opened.inPhase = true := by decide +kernel
theorem test_phaseb : gives (.phaseb 2) (at_ .helm phased) [(1, .phase), (8, .s 5 0x2000)] = true := by decide +kernel
theorem test_phasec : gives (.phasec 2) (at_ .helm opened) [(1, .bytes 77 [1]), (1, .phaseEnd)] = true ∧
    traps (.phasec 3) (at_ .helm opened) [cause 0 0 2] = true := by decide +kernel

/-! ## Copy commands (08 R239-R257, 10 R313-R316) -/

/-- Core 0 of `launch4` in its copy stream, with a record at 64 and s12 naming it. -/
def copying (r : List Byte) (k : Core := {}) : State :=
  { member { k with ls := cells 64 (rec64 r), sregs := regs [(12, 64)] } with cur := { st := .copy } }
/-- Channel 1, record at s12, no identifier kept. -/
def cop : CRecOp := ⟨1, 0, 12, 0⟩
/-- The word adds a command of this kind, the first of channel 1, of which `ok` holds. -/
def adds (i : Instr) (s : State) (kind : CopyKind) (ok : CopyCmd → Bool) : Bool :=
  after i s fun t => decide (t.me.copies.map (fun k => (k.kind, k.ch, k.ident)) = [(kind, 1, 1)]) && t.me.copies.all ok && t.me.raised.isEmpty

/-- A box of `n` rows of 4 bytes from 0x1000 on, its source rows 4 apart and its destination rows 8 apart from 0x2000 on (08 R243). -/
def boxRec (n : Nat) : List Byte := toBytes 8 0x1000 ++ toBytes 8 0x2000 ++ toBytes 4 64 ++ toBytes 4 0 ++ toBytes 4 4 ++ toBytes 4 n ++ toBytes 8 0
  ++ toBytes 4 4 ++ toBytes 8 0 ++ toBytes 4 8

theorem witness_copy_commands : (copying (boxRec 2)).CopyReady cop ∧ (boxOf (rec64 (boxRec 2))).reserved (rec64 (boxRec 2)) = false ∧
    (boxOf (rec64 (boxRec 2))).outOfRange false (copying []).inLaunch = false := by
  refine ⟨⟨?_, ?_, ?_, ?_, ?_, ?_⟩, ?_, ?_⟩ <;> decide +kernel
theorem test_cpy : adds (.cpy cop 0 0) (copying (boxRec 2)) .box (fun k => k.spans == [⟨0x1000, 0x2000, 4⟩, ⟨0x1004, 0x2008, 4⟩] && !k.zero) = true ∧
    adds (.cpy cop 0 0) (copying (boxRec 0)) .box (fun k => k.spans == [] && k.zero) = true := by decide +kernel
theorem test_cpy_faults : traps (.cpy cop 0 0) (copying (toBytes 8 0x400000 ++ toBytes 8 0 ++ toBytes 8 0 ++ toBytes 4 1)) [cause 0 3 1] = true ∧
    traps (.cpy cop 0 0) (copying (toBytes 8 0x3FFFFF ++ toBytes 8 0 ++ toBytes 8 0 ++ toBytes 4 2)) [cause 0 3 2] = true ∧
    traps (.cpy cop 0 0) { (copying []) with cores := [(0, { lid := some 0, sregs := regs [(12, 32)] })] } [cause 0 3 3] = true := by decide +kernel
theorem test_record_in_a_poisoned_sector : traps (.cpy cop 0 0) (copying (boxRec 1) { lsPoison := [3] }) [cause 5 0 1] = true := by decide +kernel
theorem test_cpy_to_an_identifier : after (.cpy ⟨1, 0, 12, 40⟩ 0 0) (copying (boxRec 1)) (fun t =>
    t.me.flights.map (fun f => (f.due + 1 - f.issued, f.eff)) == [(1, .q 8 1)]) = true := by decide +kernel
theorem test_cpyr : adds (.cpyr cop 0 0 7) (copying (boxRec 4) { shapes := sliced.shapes }) .ragged (fun k =>
    k.spans == [⟨0x1000, 0x2000, 4⟩, ⟨0x1004, 0x2008, 4⟩, ⟨0x1008, 0x2010, 4⟩]) = true := by decide +kernel
theorem test_cgath : adds (.cgath cop 0) (copying (toBytes 8 0x10000 ++ toBytes 4 0x1000 ++ toBytes 4 80 ++ toBytes 4 1 ++ toBytes 4 8 ++ toBytes 4 64)) .gath
      (fun k => k.spans == [⟨0x10000 + 64, 0x1000, 8⟩]) = true ∧
    adds (.cscat cop 0) (copying (toBytes 8 0x10000 ++ toBytes 4 0x1000 ++ toBytes 4 80 ++ toBytes 4 1 ++ toBytes 4 8 ++ toBytes 4 64)) .scat
      (fun k => k.spans == [⟨0x1000, 0x10000 + 64, 8⟩]) = true := by decide +kernel
theorem test_cbin : adds (.cbin cop 0) (copying (toBytes 4 0x1000 ++ toBytes 4 76 ++ toBytes 4 1 ++ toBytes 4 8 ++ toBytes 8 0x20 ++ toBytes 4 4096)) .bin
      (fun k => k.idx == [8] && !k.zero) = true := by decide +kernel
theorem test_cnmc : adds (.cnmc cop) (copying ([4, 0, 0, 0] ++ toBytes 4 1 ++ toBytes 8 0 ++ toBytes 8 0x40)) .nmc (fun k => !k.zero) = true ∧
    traps (.cnmc cop) (copying ([6, 0, 0, 0] ++ toBytes 4 1)) [cause 0 7 2] = true ∧
    traps (.cnmc cop) (copying (List.replicate 63 0 ++ [1])) [cause 0 7 1] = true := by decide +kernel
theorem test_ccoll : adds (.ccoll cop) (copying ([1, 4, 64, 0] ++ toBytes 4 0 ++ toBytes 4 4 ++ toBytes 4 1 ++ toBytes 8 0x40 ++ toBytes 8 0x80)) .coll
      (fun k => k.spans.length == 2) = true := by decide +kernel
theorem test_cconst : adds (.cconst cop) { (copying []) with cores := [(0, { lid := some 0, sregs := regs [(12, 64 + 255 * 2 ^ 32 + 2 ^ 40)] })] } .const
      (fun k => k.spans == [⟨64, 255, 1⟩]) = true ∧
    traps (.cconst cop) { (copying []) with cores := [(0, { lid := some 0, sregs := regs [(12, 64 + 255 * 2 ^ 32 + 2 ^ 41)] })] } [cause 0 3 2] = true := by decide +kernel

/-- Handle 5 of context 0, from landing 1 to landing 17. -/
def link (st : HState) (s : State) : State :=
  let own : Landing → Landing := fun _ => { owner := some 0, trained := true }
  { (((s.modHandle 5 fun _ => { st := st, owner := some 0, lid := 0, src := 1, dsts := [17] }).modLanding 1 own).modLanding 17 own) with
    launches := [{ launch4 with xing := some { prog := { base := 4096, words := 8, pc := 4096, ended := false } } }] }

/-- A send of 64 bytes from 0x1000. -/
def sendRec : List Byte := toBytes 8 0x1000 ++ toBytes 8 0 ++ toBytes 8 0 ++ toBytes 4 64

theorem witness_sends : let s := link .live (copying sendRec)
    sendReserved (boxOf (rec64 sendRec)) (rec64 sendRec) = false ∧ (boxOf (rec64 sendRec)).sendRange false = false ∧ (s.handle 5).owner = some (s.ctxOf 0) ∧
    s.holdsXing = true ∧ isFibre 1 = false ∧ landingTile 1 = tileOf 0 ∧ (s.handle 5).st = .live ∧ s.queued 5 0 < 4 := by decide +kernel
theorem test_csend : adds (.csend cop 0 0 5) (link .live (copying sendRec)) .send (fun k => k.left == [17] && k.handle == 5) = true ∧
    traps (.csend cop 0 0 5) (link .free (copying sendRec)) [cause 3 7 6] = true ∧ traps (.csend cop 0 0 5) (link .lost (copying sendRec)) [cause 3 7 6] = true := by
  decide +kernel
theorem test_crecvb : adds (.crecvb cop 5) (link .free (copying (toBytes 8 0x1000 ++ toBytes 4 0 ++ toBytes 4 0 ++ toBytes 4 64 ++ toBytes 4 64))) .recv
      (fun k => k.handle == 5) = true ∧
    traps (.crecvb cop 5) (link .live (copying (toBytes 8 0x1000 ++ toBytes 4 0 ++ toBytes 4 0 ++ toBytes 4 64 ++ toBytes 4 64))) [cause 0 3 2] = true := by
  decide +kernel
theorem test_cwait : gives (.cwait 1 0 3) { (at_ .copy) with cores := [(0, { chst := vSet (1 : BitVec 2) 5 (({} : Core).chst), sregs := regs [(3, 5)] })] } [] = true ∧
    traps (.cwait 1 1 32) (at_ .copy) [cause 0 3 2] = true ∧
    after .cfence (at_ .copy) (fun t => t.me.cfences == 1) = true := by decide +kernel

/-! ## Words of the crossing program (10 R296-R312) -/

/-- The crossing program of `launch4`, about to issue. -/
def crossing (st : HState) : State := { (link st (member {})) with cur := { core := 0, st := .crossing } }

theorem witness_crossing_words : (crossing .free).launch? (crossing .free).cur.core ≠ none ∧ (crossing .free).mine.words = 8 ∧
    ((crossing .free).landing 1).trained = true ∧ ((crossing .free).landing 17).owner = some 0 ∧ (crossing .free).expired = false := by decide +kernel
theorem test_xest : after (.xest 5 1 17) (crossing .free) (fun t => (t.handle 5).st == .settling && (t.handle 5).liveAt == 1536) = true ∧
    after (.xest 5 1 17) (crossing .live) (fun t => (t.handle 5).st == .live && t.mine.pc == 4096) = true ∧
    after (.xest 5 1 15) (crossing .free) (fun t => (t.me.raised.map (·.code)) == [cause 0 4 2]) = true := by decide +kernel
theorem test_xestm_list_outside : after (.xestm 5 1 0 8) (crossing .free) (fun t => (t.me.raised.map (·.code)) == [cause 0 4 2]) = true := by decide +kernel
theorem test_xdrop : after (.xdrop 5) (crossing .live) (fun t => (t.handle 5).st == .free && (t.handle 5).owner == some 0) = true ∧
    after (.xdrop 6) (crossing .live) (fun t => (t.me.raised.map (·.code)) == [cause 0 4 6]) = true ∧
    after (.xdrop 5) (crossing .windowed) (fun t => (t.me.raised.map (·.code)) == [cause 0 4 2]) = true := by decide +kernel
theorem test_xwin : after (.xwin 5 100) (crossing .live) (fun t => (t.handle 5).st == .windowed && (t.handle 5).window == some (0, 100)) = true ∧
    after (.xrelay 5 1 0) (crossing .live) (fun t => (t.me.raised.map (·.code)) == [cause 0 4 2]) = true := by decide +kernel
theorem test_xretrain : after (.xretrain 1) (crossing .live) (fun t => (t.me.raised.map (·.code)) == [cause 0 4 2]) = true ∧
    after (.xretrain 15) (crossing .free) (fun t => (t.me.raised.map (·.code)) == [cause 0 4 2]) = true ∧
    after (.xretrain 2) (crossing .free) (fun t => (t.me.raised.map (·.code)) == [cause 0 4 6]) = true := by decide +kernel
theorem witness_xretrain : ((crossing .free).landing 1).owner = some launch4.ctx ∧ isService 1 = false ∧
    (crossing .free).handles.toList.all (fun h => h.st == .free) = true := by decide +kernel
theorem test_xstep : after (.xstep 7) (crossing .free) (fun t => t.mine.wait.map (fun w => w.due) == some 7) = true ∧
    after (.xstep 0) (crossing .free) (fun t => t.mine.pc == 4104) = true ∧
    after (.xstepAt 0) (crossing .free) (fun t => t.mine.pc == 4104) = true := by decide +kernel
theorem test_xhour : after (.xhour 0) { (crossing .free) with wall := nsUnits 3000 } (fun t => t.mine.pc == 4104) = true ∧
    after (.xhour 1) { (crossing .free) with wall := nsUnits 3000 } (fun t => t.mine.wait.map (·.kind) == some (.hour 1)) = true ∧
    after (.xhour 0) { (crossing .free) with expired := true } (fun t => (t.me.raised.map (·.code)) == [cause 3 7 7]) = true := by decide +kernel
theorem test_xjmp : after (.xjmp 7) (crossing .free) (fun t => t.mine.pc == 4152) = true ∧
    after (.xjmp 8) (crossing .free) (fun t => (t.me.raised.map (·.code)) == [cause 0 4 4]) = true ∧
    after .xend (crossing .free) (fun t => t.mine.ended) = true := by decide +kernel
theorem test_xloop : after (.xloop 0 (-1)) (crossing .free) (fun t => (t.me.raised.map (·.code)) == [cause 0 4 2]) = true ∧
    after (.xloop 2 (-1)) (crossing .free) (fun t => (t.me.raised.map (·.code)) == [cause 0 4 4]) = true := by decide +kernel
theorem test_xgroup : after (.xgroup 63 0) { (grouped false []) with cur := { core := 0, st := .crossing }, launches := (crossing .free).launches } (fun t =>
      t.mine.pc == 4104) = true ∧
    after (.xgroup 62 0) (crossing .free) (fun t => (t.me.raised.map (·.code)) == [cause 0 4 2]) = true := by decide +kernel

/-! ## Events: a state that meets the hypotheses of each clause, and what the event then does where no free value enters -/

/-- The event's subject. -/
def on (x : Subject) (s : State) : State := { s with on := x }
/-- The package with its launch's core 0 as `k` and `launch4` changed by `f`. -/
def pkg (f : Launch → Launch) (k : Core) : State := { (member k) with launches := [f launch4] }
/-- A cause raised on core 0. -/
def hasCause (n : Nat) (t : State) : Bool := (t.core 0).raised.any fun i => i.code == n
/-- Package memory of context 0 from virtual address 0 to 65535, each address its own key. -/
def mapped (s : State) : State := s.modTile 0 fun x => { x with tu := [(0, 0, ⟨15, 65536, 0x100000⟩)] }

/-- The vector stream in a wait of this kind, to cycle 5. -/
def inWait (k : WaitKind) (held : Bool) : Core := { cyc := 5, vec := { ended := false, wait := some ⟨k, 5, 5, 0, held⟩ } }

theorem witness_waits_end : (inWait .time true).runs .vector = true ∧ (inWait .time true).time = 5 ∧ (pkg id (inWait .time true)).timedAt 0 = false ∧
    (pkg (fun l => { l with timed := true }) {}).timedAt 0 = true := by decide +kernel
theorem test_deadline_reached : after .deadlineReached (on { st := .vector } (pkg id (inWait .time true))) (fun t =>
      (t.core 0).vec.wait.isNone && (t.core 0).vec.posBase == 6) = true ∧
    after .deadlineReached (on { st := .vector } (pkg (fun l => { l with timed := true }) (inWait (.full 0 9) false))) (fun t =>
      hasCause (cause 2 1 3) t && (t.core 0).vec.wait.isNone) = true := by decide +kernel
theorem test_elastic_wait_end : after .elasticWaitEnd (on { st := .vector } (pkg id { inWait (.full 0 9) true with cyc := 9 })) (fun t =>
    (t.core 0).vec.wait.isNone && (t.core 0).vec.posBase == 6) = true := by decide +kernel

/-- The crossing program of `launch4` in this wait. -/
def xWait (k : WaitKind) : State :=
  { (pkg (fun l => { l with count := 5, xing := some { prog := { base := 4096, words := 8, pc := 4096, ended := false, wait := some ⟨k, 5, 5, 0, true⟩ } } }) {}) with
    wall := nsUnits 3000 }

theorem test_crossing_waits_end : after .deadlineReached (on { st := .crossing } (xWait .time)) (fun t =>
      (t.launches.map fun l => l.xing.map fun x => (x.prog.wait.isNone, x.prog.pc)) == [some (true, 4104)]) = true ∧
    after .xhourEnd (on { st := .crossing } (xWait (.hour 0))) (fun t => (t.launches.map fun l => l.xing.map fun x => (x.prog.wait.isNone, x.prog.pc)) == [some (true, 4104)]) =
      true := by decide +kernel
theorem test_quiet_deadlock : after .quietDeadlock (pkg (fun l => { l with quiet := 2 ^ 24 }) {}) (hasCause (cause 2 7 5)) = true := by decide +kernel
theorem test_retirement_bound : after .retirementBoundExceeded (pkg (fun l => { l with timed := true }) { sinceRetire := 1025 }) (hasCause (cause 2 7 4)) = true ∧
    (pkg (fun l => { l with preempt := some 0 }) {}).pointWanted { launch4 with preempt := some 0 } = true := by decide +kernel

/-- A barrier of the whole of `launch4`, at which every core has arrived in cycle 1. -/
def bar (sync : Bool) : Bar := { id := 0, lid := 0, team := (0, 0, 4, 1), sync := sync, arrived := (List.range 4).map fun c => ⟨c, some 1, 40⟩ }
/-- The package with that barrier, the sequencer's count at 40. -/
def barred (sync : Bool) (f : Launch → Launch) : State :=
  { (pkg (fun l => f { l with count := 40 }) { helm := { ended := false, wait := some ⟨.bar 0 false, 40, 40, 0, false⟩ } }) with bars := [bar sync] }

theorem witness_barriers : (barred false id).barReady (bar false) = true ∧ (barred false id).barResync (bar false) = false ∧
    (barred true fun l => { l with timed := true, elastic := true }).barReady (bar true) = true ∧
    (barred true fun l => { l with timed := true, elastic := true }).barResync (bar true) = true := by decide +kernel
theorem test_barrier_release : after .barrierRelease (barred false id) (fun t => t.bars.isEmpty && ((t.core 0).helm.wait.map (·.held)) == some true) = true ∧
    after .barrierRelease (barred true fun l => { l with timed := true, elastic := true }) (fun t =>
      (t.launches.map (·.elastic)) == [false] && (t.core 3).cyc == 40) = true := by decide +kernel
theorem test_interrupt_taken : (pkg id { helm := { ended := false }, interrupt := some (9, 0) }).interruptDue 0 0 = true ∧
    after .interruptTaken (pkg id { helm := { ended := false }, interrupt := some (9, 0) }) (fun t =>
      ((t.core 0).raised.map fun i => (i.code, i.stat)) == [(0x36, 9)] && (t.core 0).interrupt.isNone) = true := by decide +kernel
theorem test_trap_resume : after .trapResume (pkg (fun l => { l with freezing := true }) { frozen := true }) (fun t =>
    !(t.core 0).frozen && (t.launches.map fun l => (l.elastic, l.freezing)) == [(true, false)]) = true := by decide +kernel

/-! ### Landings (02 R32, R34, 07 R197, 05 R158, 13 R398) -/

/-- A core with one result in flight to the end of cycle 3. -/
def flying (e : Eff) : Core := { cyc := 3, flights := [{ st := .helm, issued := 0, due := 3, pos := 0, eff := e }] }

theorem test_results_land : after .resultLanding (pkg id (flying (.q 31 9))) (fun t => (t.core 0).qIsFull 31 && (t.core 0).flights.isEmpty) = true ∧
    after .resultLanding (pkg id (flying (.s 1 9))) (fun t => (t.core 0).flights.map (·.arrived) == [true] && (t.core 0).sreg .helm 1 == 0) = true := by decide +kernel

/-- A record of 2 rows of one FP32 column in one segment [0, 2). -/
def goodShape : ShapeBuf := { st := .loading, record := rec64 (toBytes 8 0 ++ toBytes 4 2 ++ toBytes 4 1 ++ toBytes 4 1 ++ toBytes 4 0x1000), bounds := [0, 2] }
/-- Slot 7's buffer 1 loading `b`, to land now. -/
def loadsShape (b : ShapeBuf) : Core := { flying (.shape 23) with shapes := vSet (7 : BitVec 3) { b1 := b } (({} : Core).shapes) }

theorem witness_shape_landing : goodShape.shape.check goodShape.record = none ∧ ((loadsShape goodShape).slot 7).b1 = goodShape ∧
    ({ goodShape with bounds := [0, 3] }.shape.check goodShape.record).isSome = true := by decide +kernel
theorem test_shape_load_lands : after .shapeLoadLanding (pkg id (loadsShape goodShape)) (fun t => (t.core 0).shape? 7 == some goodShape.shape) = true ∧
    after .shapeLoadLanding (pkg id (loadsShape { goodShape with record := [] })) (fun t => (t.core 0).shape? 7 == none && (t.core 0).flights.isEmpty) = true ∧
    after .shapeLoadLanding (pkg id (loadsShape { goodShape with bounds := [0, 3] })) (fun t => (t.core 0).shape? 7 == none &&
      (t.core 0).flights.map (·.due) == [4]) = true := by decide +kernel

/-- A QSEND for q31 of core 0, due. -/
def sent : QSend := { id := 0, src := 1, dst := 0, q := 31, v := 7, due := 3 }

theorem test_qsend_arrival : after .qsendArrival { (pkg id { cyc := 3 }) with qsends := [sent] } (fun t =>
      (t.core 0).qIsFull 31 && vGet (31 : BitVec 5) (t.core 0).qregs == 7 && t.qsends.isEmpty) = true ∧
    after .qsendArrival { (pkg (fun l => { l with timed := true }) { fullQ with cyc := 3 }) with qsends := [sent] } (fun t =>
      hasCause 0x83 t && vGet (31 : BitVec 5) (t.core 0).qregs == 9) = true ∧
    after .qsendArrival { (pkg id { fullQ with cyc := 3 }) with qsends := [sent] } (fun t => t.qsends == [{ sent with waiting := true }]) = true := by decide +kernel
theorem test_phase_rerun : after .phaseRerun (pkg id { opened with phaseWait := true, sregs := regs [(2, 1)] }) (fun t =>
    (t.core 0).sreg .helm 2 == 64 && !(t.core 0).phaseWait) = true := by decide +kernel

/-! ### Accesses (05 R151-R154, 09) -/

/-- An access of core 0 to virtual address 0x1008, translated and at its home. -/
def acc (k : AccKind) : Access :=
  { id := 0, kind := k, va := 0x1008, issued := 0, pos := 0, window := 512, xlatAt := 1, homeAt := 2, leaf := some ⟨15, 65536, 0x100000⟩, v := 5, c := 6 }
/-- The package in which core 0 has that access under way in cycle `n`, memory holding 6 at 0x1008. -/
def accessing (a : Access) (n : Nat) : State := mapped { (pkg (fun l => { l with timed := true }) { cyc := n, accesses := [a] }) with mem := [(0x1008, 6)] }
/-- The value that access 0 has, and the word at 0x1008. -/
def gave (v : Option Word) (m : Nat) (t : State) : Bool := ((t.core 0).accesses.map (·.value)) == [v] && memRead t.mem 0x1008 8 == m

theorem witness_access_events : let s := accessing (acc .acas) 9
    s.mem.wf = true ∧ (s.core 0).access? 0 = some (acc .acas) ∧ s.homeDue 0 (acc .acas) = true ∧ s.readBad 0x1008 8 = false ∧
    (⟨15, 65536, 0x100000⟩ : Leaf).key 0x1008 = 0x1008 ∧ (accessing (acc .rel) 9).relDue 0 (acc .rel) = true ∧
    (accessing (acc .aadd) 512).expiryDue 0 (acc .aadd) = true ∧ olderEpoch (s.ctx (s.ctxOf 0)).epoch (⟨15, 65536, 0x100000⟩ : Leaf).epoch = false ∧
    s.mappedOut (0x1008 / 64) = false := by decide +kernel
theorem test_accesses_at_home : after .helmAccessAtHome (accessing (acc (.load 8 false)) 9) (gave (some 6) 6) = true ∧
    after .helmAccessAtHome (accessing (acc .aadd) 9) (gave (some 6) 11) = true ∧ after .helmAccessAtHome (accessing (acc .acas) 9) (gave (some 6) 5) = true ∧
    after .helmAccessAtHome (accessing (acc (.store 2)) 9) (fun t => memRead t.mem 0x1008 8 == 5 && (t.core 0).accesses.isEmpty) = true ∧
    after .relIncrement (accessing (acc .rel) 9) (fun t => memRead t.mem 0x1008 8 == 7) = true := by decide +kernel
theorem test_poisoned_load : after .helmAccessAtHome { (accessing (acc (.load 8 false)) 9) with poison := [0x1008 / 64] } (fun t =>
    ((t.core 0).accesses.map fun a => a.fault.map (·.code)) == [some (cause 5 4 1)]) = true := by decide +kernel
theorem test_translation : after .translationResult (accessing { acc (.load 8 false) with leaf := none } 9) (fun t =>
      ((t.core 0).accesses.map fun a => a.leaf.map (·.entry)) == [some 15]) = true ∧
    after .translationResult (accessing { acc (.load 8 false) with leaf := none, va := 0x1000000000000 } 9) (fun t =>
      ((t.core 0).accesses.map fun a => (a.reportIn, a.fault.map (·.code))) == [(512, some (cause 1 0 0))]) = true := by decide +kernel
theorem test_access_fault_is_raised : after .translationResult (accessing { acc (.load 8 false) with fault := some fault0 } 512) (fun t =>
    (t.core 0).accesses.isEmpty && (t.core 0).raised == [fault0]) = true := by decide +kernel
theorem test_late_access : after .accessWindowExpiry (accessing (acc (.load 8 false)) 512) (fun t => hasCause 0x84 t && (t.core 0).accesses.isEmpty) = true := by
  decide +kernel
theorem test_fence_completes : (accessing (acc (.fence 3)) 512).me.fenceHolds (acc (.fence 3)) 3 = true ∧
    after .fenceComplete (accessing (acc (.fence 3)) 9) (fun t => ((t.core 0).accesses.map (·.performed)) == [true]) = true ∧
    after .fenceComplete (accessing { acc (.fence 3) with performed := true } 511) (fun t => (t.core 0).accesses.isEmpty) = true := by decide +kernel
theorem test_fence_core_behind_acq : let f := { acc (.fence 0) with id := 1 }
    let k := fun (b : Access) => (accessing b 5).me
    (k (acc (.store 8))).fenceHolds f 0 = true ∧ (k (acc .acq)).fenceHolds f 0 = false := by decide +kernel
theorem test_acq_lands : after .acqLanding { (accessing { acc .acq with performed := true, va := 8192 } 511) with
    cores := [(0, { bonded with lid := some 0, cyc := 511, accesses := [{ acc .acq with performed := true, va := 8192 }] })] } (fun t =>
    (t.core 0).accesses.isEmpty && (t.core 0).bonds.map (·.isOpen) == [true]) = true := by decide +kernel
theorem test_mstore_ack : let m : MStore := { n := 4, core := 0, acc := 0, off := 0, v := 0, at_ := 0 }
    let s := fun (m : MStore) => (accessing { acc (.mstore 63) with leaf := none, sent := true } 9).modGroup 63 fun _ => { arriving := [m] }
    (s m).ackFor 0 0 = some (63, m) ∧ after .mstoreAck (s m) (fun t => (t.core 0).accesses.isEmpty) = true ∧
    after .mstoreAck (s { m with n := 2 ^ 48 }) (fun t => ((t.core 0).accesses.map fun a => a.fault.map (·.code)) == [some (cause 4 4 7)]) = true := by decide +kernel

/-! ### Landings (10 R320-R328, 13 R414, R416, R417) -/

/-- Landings 1 and 17 trained, with handle 5 live from one to the other, and landing 17 changed by `f`. -/
def linked (f : Landing → Landing) : State := (link .live (member {})).modLanding 17 f
/-- A flit, and the frames of it as flit 0. -/
def flit : List Byte := (List.range 32).map fun i => BitVec.ofNat 8 (i + 1)
/-- The frames with a bit turned over in these rails. -/
def spoiled (rails : List Nat) : List Byte := rails.foldl (fun b r => b.set (12 * r) (b.getD (12 * r) 0 ^^^ 1)) (framesOf flit 0)

theorem witness_flits : ((linked id).landing 17).failing (framesOf flit 0) = [] ∧ ((linked id).landing 17).failing (spoiled [2]) = [2] ∧
    ((linked id).landing 17).failing (spoiled [0, 4]) = [0, 4] ∧ (framesOf flit 0).length = 60 ∧ (linked id).handleTo 17 = some 5 := by decide +kernel
theorem test_flit_of_one_bad_rail_is_rebuilt : after .flitReceive (on { a := 17, bytes := spoiled [2] } (linked id)) (fun t =>
      (t.landing 17).expect == 1 && (t.landing 17).flit == flit && t.events == [(16, cause 3 7 3, 17, 0)]) = true ∧
    after .flitReceive (on { a := 17, bytes := spoiled [0, 4] } (linked id)) (fun t => (t.landing 17).expect == 0 && (t.landing 17).discarding) = true := by
  decide +kernel
theorem test_discarded_flits_have_no_effect : after .flitReceive (on { a := 17, bytes := spoiled [0, 4] } (linked fun x => { x with discarding := true })) (fun t =>
    t.events.isEmpty && t.agenda.isEmpty && (t.landing 17).expect == 0) = true := by decide +kernel
theorem test_rail_is_lost : after .flitReceive (on { a := 17, bytes := spoiled [2] } (linked fun x => { x with railFails := x.railFails.set 2 1023 })) (fun t =>
    (t.landing 17).railLost == some 2 && t.pkstat == 1 && t.events.contains (16, cause 5 6 6, 17, 0)) = true := by decide +kernel
theorem test_replay_and_ack : after .replayRequest (on { a := 1, b := 3 } ((linked fun x => { x with discarding := true, expect := 3 }).modLanding 1 fun x =>
      { x with nextFlit := 9, sent := 9, acked := 2 })) (fun t => (t.landing 1).sent == 3 && !(t.landing 17).discarding) = true ∧
    after .flitAck (on { a := 1, b := 3 } ((linked id).modLanding 1 fun x => { x with nextFlit := 9, acked := 2 })) (fun t => (t.landing 1).acked == 4) = true := by
  decide +kernel
theorem test_pauses : after .retrainingPauseEnd (on { a := 17 } (linked fun x => { x with pause := some 0 })) (fun t => (t.landing 17).pause.isNone) = true ∧
    after .pauseBoundExceeded (on { a := 17 } { (linked fun x => { x with pause := some 0 }) with wall := nsUnits 1000 }) (fun t =>
      (t.landing 17).reported && t.events == [(16, cause 3 2 0, 17, 0)]) = true ∧
    ((linked id).landing 17).pause = none ∧ ((linked id).landing 17).trained = true := by decide +kernel
theorem test_lost_light : (linked fun x => { x with full := some 0 }).handlesAt 17 = [5] ∧
    after .laserPowerLow (on { a := 17, b := 7 } (linked id)) (fun t => (t.landing 17).weak == [2] && t.events == [(16, cause 3 7 1, 17, 7)]) = true ∧
    after .ringTuningOutOfRange (on { a := 17, b := 7 } (linked id)) (fun t => t.events == [(16, cause 3 7 2, 17, 7)]) = true := by decide +kernel
theorem test_bring_up_ends : after .bringUpStageEnd (on { a := 17 } (linked fun x => { x with stage := some 6, trained := false, fails := 2 })) (fun t =>
      (t.landing 17).trained && (t.landing 17).stage.isNone && (t.landing 17).fails == 0) = true ∧
    after .bringUpTimeout (on { a := 17 } { (linked fun x => { x with stage := some 2, fails := 2 }) with wall := nsUnits (stageTimeouts.getD 2 0) }) (fun t =>
      (t.landing 17).failed && t.events.contains (16, cause 3 2 0, 17, 2)) = true ∧
    after .supervisorRetrain (on { a := 17, flag := true } (linked fun x => { x with failed := true, fails := 3 })) (fun t => !(t.landing 17).failed) = true := by
  decide +kernel

/-! ### The day clock, service traffic and relays (10 R329-R334) -/

theorem test_dawn_pulse : after .dawnPulse (on { off := -1000 } State.reset) (fun t => t.dayError == -1000 && t.dayc == 0) = true ∧
    after .dawnPulse (on { off := 1001 } State.reset) (fun t => t.dayError == 0 && t.holdover == some 0) = true := by decide +kernel
theorem test_dayc_correction : after .daycCorrection { State.reset with dayError := -1000 } (fun t => t.dayError == -900 && t.dayc == 0) = true ∧
    after .daycCorrection { State.reset with dayError := 30, wall := nsUnits 320000, guardDone := 1 } (fun t => t.dayError == 0 && t.dayc == 320030) = true := by decide +kernel
theorem test_holdover : after .holdoverStart { State.reset with booted := true, wall := nsUnits 321001 } (fun t => t.holdover == some (nsUnits 321001) && t.pkstat == 2) = true ∧
    after .holdoverExpiry { (xWait (.hour 1)) with holdover := some 0, wall := nsUnits 100000000 } (fun t =>
      t.expired && hasCause (cause 3 7 7) t && (t.launches.map fun l => l.xing.map (·.stopped)) == [some true]) = true := by decide +kernel

/-- A message for this package, delivered: what it leaves. -/
def told (n : Note) (s : State) (ok : State → Bool) : Bool :=
  after .serviceMessage { s with messages := [{ id := 0, note := n, peer := 9 }], on := {} } fun t => t.messages.isEmpty && ok t

theorem test_service_messages : told (.groupAsk 3) State.reset (fun t => t.outbox == [(9, .groupAck 3)]) = true ∧
    told (.relayed 8 (.groupAsk 3)) State.reset (fun t => t.outbox == [(8, .groupAsk 3)]) = true ∧
    told (.memberCount 63 0 9) (grouped false []) (fun t => (t.group 63).appliedOf 0 == 9) = true ∧
    told (.memberCount 63 0 4) (grouped false []) (fun t => (t.group 63).appliedOf 0 == 5) = true ∧
    told (.relayEnd 0 0 true) (member {}) (fun t => ((t.core 0).owed.map (·.code)) == [cause 4 5 2]) = true ∧
    told (.trapRecord 3 64) State.reset (fun t => (t.tile 0).trapq == [(3, 64)]) = true := by decide +kernel
theorem test_shootdown_of_a_peer : told (.shootWait 4 9 [(0, 65536)]) State.reset (fun t => t.outbox == [(9, .shootAck 4)]) = true ∧
    after .serviceMessage { (mapped State.reset) with messages := [{ id := 0, note := .shootdown 4 [(0, 65536)], peer := 9 }] } (fun t =>
      t.messages.map (·.note) == [.shootWait 4 9 [(0, 65536)]]) = true ∧
    (mapped State.reset).usesPeer 9 [(0, 65536)] = false := by decide +kernel

/-- The service minute of hour 0, landing 128 carrying light; `facing 128` is the package that it faces. -/
def minute : State := { (State.reset.modLanding 128 fun x => { x with trained := true }) with wall := nsUnits 2000 }
/-- The program portion of hour 1 of the same. -/
def portion : State := { minute with wall := nsUnits 23000 }

theorem witness_minute : minute.minuteOf (minute.facing 128) = true ∧ minute.inMinute = true ∧ minute.still 128 = false ∧ portion.inProgram = true ∧
    portion.fibreOpen 128 = true ∧ portion.samePeer (portion.facing 128) (portion.facing 128) = true ∧ (0 < portion.dayc / 20000) := by
  have hm : minute.inMinute = true := by decide +kernel
  have ht : (minute.landing 128).trained = true ∧ (minute.landing 128).pause = none := by decide +kernel
  have hq : ∀ a, minute.quarantined a = false := fun _ => rfl
  have hp : ∀ a, portion.quarantined a = false := fun _ => rfl
  have hf : minute.facesPeer (minute.facing 128) = true := by
    unfold State.facesPeer
    refine List.any_eq_true.mpr ⟨0, by decide, ?_⟩
    have : minute.facing 0 = minute.facing 128 := rfl
    simp [this, State.samePeer, ht.1, ht.2]
  refine ⟨by simp [State.minuteOf, hm, hf, hq], hm, by decide +kernel, by decide +kernel, ?_, by simp [State.samePeer], by decide +kernel⟩
  unfold State.fibreOpen
  rw [hp]
  decide +kernel
theorem test_relay_timeout : after .relayTimeout { State.reset with wall := nsUnits 640000, relays := [⟨0, 9, (3, 4), 8, 0, [], 0, 0, false⟩] } (fun t =>
    t.relays.isEmpty && t.outbox == [(9, .relayEnd 3 4 true)]) = true := by decide +kernel

/-- Package 9's data for the package that landing 128 faces in that hour, which came in hour 0. -/
def relay9 : Relay := { id := 0, src := 9, dst := portion.facing 128, fl := 0, bytes := [7], hour := 0, at_ := 0 }
/-- It stands there in hour 1. -/
def relaying : State := { portion with relays := [relay9] }
theorem witness_relay : relaying.forwardDue relay9 = true := by
  have h1 : relaying.fibreOpen 128 = true := witness_minute.2.2.2.2.1
  have h4 : relaying.samePeer (relaying.facing 128) relay9.dst = true := by simp [State.samePeer, show relaying.facing 128 = relay9.dst from rfl]
  show (relaying.inProgram && relaying.fibreOpen 128 && !relaying.still 128 && decide (0 < relaying.dayc / 20000) &&
    relaying.samePeer (relaying.facing 128) relay9.dst &&
      !([relay9].any fun q => decide (q.id < relay9.id) && q.fl == relay9.fl && q.dst == relay9.dst)) = true
  rw [h1, h4, show relaying.inProgram = true by decide +kernel, show relaying.still 128 = false by decide +kernel,
    show decide (0 < relaying.dayc / 20000) = true by decide +kernel]
  simp [relay9]
theorem test_relay_forward : exec .relayForward relaying = .next (portion.modLanding 128 fun l => { l with
    lastOut := some { dst := relay9.dst, src := 9, runs := [(0, [7], false)] } }) := by
  show execRelayForward relaying = _
  unfold execRelayForward
  rw [show relaying.relays.find? (fun r => r.id == relaying.on.a) = some relay9 from rfl]
  simp only [witness_relay, if_true]
  rfl

/-! ### Ordered multicast (09 R284-R291) -/

/-- Group 63 of `grouped`, changed by `f`, with context 0 mapped. -/
def ordered (f : Group → Group) : State := mapped (on { a := 63 } ((grouped false []).modGroup 63 f))
/-- A store that has come to the order point, or is held for its members as store `n`. -/
def mst (n : Nat) : MStore := { n := n, core := 0, acc := 0, off := 8, v := 7, at_ := 0 }

theorem witness_multicast : (ordered fun x => { x with arriving := [mst 0] }).arrival 63 = some (mst 0) ∧
    ((ordered fun x => { x with arriving := [mst 0] }).group 63).members = [0] ∧
    (ordered fun x => { x with held := [mst 6] }).nextStore 63 0 = some (mst 6) ∧ ((ordered id).group 63).target 0 (mst 6) = (0x2008, toBytes 8 7) ∧
    { (ordered fun x => { x with held := [mst 7], gaps := [(0, 6, 0)] }) with wall := nsUnits 64000 }.gapDue 63 0 = true := by decide +kernel
theorem test_order_point : after .orderPointStamp (ordered fun x => { x with next := 261, arriving := [mst 0] }) (fun t =>
      (t.group 63).next == 262 && (t.group 63).held.map (·.n) == [261]) = true ∧
    after .orderPointStamp (ordered fun x => { x with next := 262, arriving := [mst 0] }) (fun t =>
      (t.group 63).next == 262 && (t.group 63).held.isEmpty && (t.group 63).arriving.map (·.n) == [2 ^ 48]) = true := by decide +kernel
theorem test_multicast_apply : after .multicastApply (ordered fun x => { x with held := [mst 6] }) (fun t =>
      memRead t.mem 0x2008 8 == 7 && (t.group 63).appliedOf 0 == 6) = true ∧
    after .multicastApply { (ordered fun x => { x with held := [mst 6] }) with tiles := State.reset.tiles } (fun t => (t.group 63).stoppedM == [0] && t.mem.isEmpty) = true := by
  decide +kernel
theorem test_order_gap : after .orderGap { (ordered fun x => { x with held := [mst 7], gaps := [(0, 6, 0)] }) with wall := nsUnits 64000 } (fun t =>
      (t.group 63).stoppedM == [0] && hasCause (cause 4 4 5) t) = true ∧
    after .memberResend (ordered fun x => { x with stoppedM := [0] }) (fun t => (t.group 63).stoppedM.isEmpty) = true ∧
    after .xgroupAck (ordered fun x => { x with home := some 3, boundAt := neverBound }) (fun t => (t.group 63).boundAt == t.now) = true := by decide +kernel
theorem test_group_table_write : after .groupTableWrite { (ordered id) with on := { a := 63, words := [0x50, 12 * 2 ^ 48, 0x8000000000000000, 0, 0x8000000000000100] } } (fun t =>
      (t.group 63).appliedOf 0 == 5 && (t.group 63).appliedOf 1 == (t.group 63).next - 1 && (t.group 63).home == some 0) = true ∧
    after .groupTableWrite (on { a := 63, words := [0x40] } (ordered id)) (fun t => t.group 63 == { words := [0x40] }) = true := by decide +kernel

/-! ### Launches (11 R336-R346) -/

/-- The bytes of records at rising addresses. -/
def placed (l : List (Nat × List Byte)) : Memory := l.flatMap fun p => cells p.1 p.2
/-- Quay 0 of context 0, of tile 0: its ring at 0x4000, 2^6 slots, with `r` in the first; a descriptor at 0x8000 whose helm image is the word at 0x9000. -/
def quayed (r : List Byte) : State :=
  { (mapped State.reset) with
    booted := true, quays := [(0, 0)], mem := placed [(0x4000, rec64 r), (0x8000, toBytes 8 0x9000 ++ toBytes 4 1), (quayHeader 0, toBytes 8 1 ++ toBytes 8 0 ++ toBytes 8 0x4000 ++ [6])] }
/-- A packet of one core at (0, 0), its first word with these bits set. -/
def packet (bits ctx : Nat) : List Byte := toBytes 4 (bits + 65536 * ctx) ++ toBytes 4 0 ++ toBytes 4 0x1010000 ++ toBytes 4 1024 ++ toBytes 8 0x8000

theorem witness_quays : (quayed (packet 1 0)).quayCtx 0 = some 0 ∧ (quayed (packet 1 0)).packetDue 0 false = true ∧ (quayed (packet 2 0)).packetDue 0 true = true ∧
    ((quayed (packet 1 0)).readySlot 0).isSome = true ∧ (quayed (packet 1 0)).packetFault 0 0 1 (rec64 (packet 1 0)) = none ∧
    packetReserved (rec64 (packet 0x1001 0)) = true ∧ (quayed (packet 1 0)).mappedOut (quayHeader 0 / 64) = false ∧ (quayed (packet 1 0)).mem.wf = true := by
  decide +kernel
/-- The packet is taken, and its launch stands at this stage with this status and cause. -/
def taken (r : List Byte) (stage : Stage) (status c : Nat) : Bool := after .launchPacket (quayed r) fun t =>
  memRead t.mem (quayHeader 0 + 8) 8 == 1 && (t.ctx 0).assigned == 1 && t.launches.map (fun l => (l.stage, l.status, l.cause, l.cid)) == [(stage, status, c, 1)]
theorem test_packets : taken (packet 1 0) .waiting 0 0 = true ∧ taken (packet 0x1001 0) .retired 2 (cause 0 6 1) = true ∧
    taken (packet 1 5) .retired 2 (cause 0 6 2) = true ∧
    after .noopPacket (quayed (packet 2 0)) (fun t => memRead t.mem (quayHeader 0 + 8) 8 == 1 && t.launches.isEmpty && (t.ctx 0).assigned == 0) = true := by decide +kernel

/-- One waiting launch of one core, from quay 0, changed by `f`. -/
def waiting (f : Launch → Launch) : State :=
  { State.reset with booted := true, launches := [f { lid := 0, ctx := 0, cid := 1, quay := some 0, desc := List.replicate 128 0 }] }

theorem witness_placement : ((waiting id).launches.map fun l => (l.stage, l.tile, l.heldAt, l.any, l.dep)) = [(.waiting, 0, none, false, 0)] ∧
    rectFree 0 0 1 1 (waiting id).coreFree = true ∧ (waiting id).turn ≤ (waiting id).now / 128 ∧ (imgOf (List.replicate 128 0) 4).1 = 0 := by decide +kernel
theorem test_placement_turn : after .placementTurn (on { a := 0 } (waiting id)) (fun t => t.turn == 1 && t.launches.map (fun l => (l.stage, l.x0, l.y0)) == [(.loading, 0, 0)]) = true ∧
    after .placementTurn { State.reset with booted := true } (fun t => t == { State.reset with booted := true, turn := 1 }) = true := by decide +kernel
theorem test_aging : after .agingStep { (waiting fun l => { l with prio := 1 }) with wall := nsUnits 10000000 } (fun t => t.launches.map (·.level) == [1]) = true ∧
    after .heldCandidate { (waiting fun l => { l with level3 := some 5, readyAt := some 0 }) with wall := nsUnits 10000000 + 5 } (fun t =>
      t.launches.map (·.heldAt) == [some (nsUnits 10000000 + 5)]) = true := by decide +kernel
theorem test_start_broadcast : after .startBroadcast { State.reset with launches := [{ launch4 with stage := .loading, startAt := 0, seed := 9, x0 := 1, desc := List.replicate 128 0 }] }
    (fun t => t.launches.map (fun l => (l.stage, l.count)) == [(.running, 0)] && (t.core 4).lid == some 0 && (t.core 4).cyc == 0 && (t.core 4).sreg .helm 1 == 3 &&
      (t.core 4).seed == 9 && (t.core 0).lid == none) = true := by decide +kernel

/-- A child in the overflow queue of tile 0 beside `n` launches in the reserved entries. -/
def overflowing (n : Nat) (j : Bool) : State :=
  let c : Launch := { lid := 300, ctx := 0, pool := .overflow, joined := j }
  { State.reset with launches := ((List.range n).map fun i => { lid := i, ctx := 0, pool := if i < 240 then .unreserved else .reserved }) ++ [c] }

theorem test_pool_entry_freed : after .poolEntryFreed (overflowing 239 false) (fun t => t.launches.getLast?.map (·.pool) == some .unreserved) = true ∧
    after .poolEntryFreed (overflowing 255 true) (fun t => t.launches.getLast?.map (·.pool) == some .reserved) = true := by decide +kernel

theorem witness_retirement : (pkg id {}).retireDue launch4 = true ∧ (pkg id {}).launch? 0 = some launch4 ∧ (∀ c ∈ launch4.cores, c < 4096) := by decide +kernel
theorem test_launch_retirement : after .launchRetirement (pkg id { accesses := [acc (.store 8)] }) (fun t => t.launches.map (·.stage) == [.retired] &&
    (t.core 0).accesses.isEmpty && (t.core (wakeOf 0 0)).accesses == [acc (.store 8)]) = true := by decide +kernel

/-- The launch is retired, and context 0's event ring of 64 records at 0x10000 has room. -/
def retired : State := (pkg (fun l => { l with stage := .retired, status := 3, lastCyc := 77, evtag := 5 }) {}).modCtx 0 fun x => { x with evt := 0x10000, evtc := 6 }

theorem witness_completion : (retired.launches.map retired.recordDue) = [true] ∧ (retired.ctx 0).ringKey 0 = 0x10000 ∧ retired.mappedOut (0x10000 / 64) = false := by
  decide +kernel
theorem test_completion_record : after .completionRecord retired (fun t => t.launches.isEmpty && (t.ctx 0).ringW == 1 && memRead t.mem 0x10000 1 == 1 &&
    memRead t.mem 0x10008 8 == 1 && memRead t.mem 0x10018 8 == 77 && memRead t.mem 0x10028 8 == 5 && tabGet (t.ctx 0).completed 1 == some 3) = true := by decide +kernel

/-! ### Pre-emption and the supervisor (11 R349-R352, 12) -/

/-- A launch of one core, at its retirement point, asked to stop. -/
def stopping (stage : Stage) : State :=
  { (at_ .helm { lid := some 0, atRetire := true, helm := { ended := false, pc := 4096 }, sregs := regs [(5, 6)] }) with
    launches := [{ lid := 0, ctx := 0, cid := 1, stage := stage, preempt := some 0 }] }

theorem witness_preemption : ((stopping .running).launches.map (stopping .running).stopDue) = [true] ∧ ((stopping .preempting).launches.map (stopping .preempting).saveDue) = [true] ∧
    ((stopping .running).named 1).isSome = true ∧ (stopping .running).named 2 = none := by decide +kernel
theorem test_preemption_stop : after .preemptionStop (stopping .running) (fun t => t.launches.map (·.stage) == [.preempting] && (t.core 0).frozen && (t.core 0).held &&
      (t.core 0).sreg .helm 5 == 6) = true := by decide +kernel
theorem test_pterm_and_ppre : after .pterm (on { word := 1 } (stopping .running)) (fun t => t.launches.map (fun l => (l.stage, l.status)) == [(.retired, 3)] && (t.core 0).helm.ended) = true ∧
    after .pterm (on { word := 2 } (stopping .running)) (fun t => t.launches.map (·.stage) == [.running]) = true ∧
    after .ppre (on { word := 2 } (stopping .running)) (fun t => t.launches.map (·.preempt) == [some 0]) = true := by decide +kernel

/-- The same launch saved: its image, in the save area of its context at 0x100000, has s5 = 9 and the helm's pc 4160. -/
def saved : State :=
  { (at_ .helm).modCtx 0 (fun x => { x with save := 0x100000 }) with
    mem := placed [(0x110000, toBytes 8 4160), (0x110428, [9])]
    launches := [{ lid := 0, ctx := 0, cid := 1, stage := .resuming, saved := [⟨0, { lid := some 0, cyc := 33, helm := { ended := false, pc := 4160 } }⟩] }] }

theorem witness_images : saved.imageKey 0 0 = 0x110000 := by decide +kernel
theorem test_restart_from_an_image : after .preemptedResume saved (fun t => t.launches.map (·.stage) == [.running] && (t.core 0).cyc == 33 && (t.core 0).sreg .helm 5 == 9 &&
    (t.core 0).helm.pc == 4160) = true := by decide +kernel

/-- A stopped core 0 of `launch4`, its trap escalated, with the purser of tile 0 running. -/
def escalated (k : Core) : State := { (pkg id { k with escalated := some 0x9000 }) with mem := placed [(0x9008, toBytes 8 4160)], tphase := .issue }

theorem test_presume : after .presume (on { word := 0 } (pkg id {})) (fun t => (t.core 0).lid == some 0) = true ∧
    after .presume (on { word := 0 } (escalated { inHandlerFault := some fault0 })) (fun t => (t.core 0).inHandlerFault.isNone && (t.core 0).escalated.isNone &&
      (t.core 0).helm.pc == 4160) = true ∧
    after .presume (on { word := 0 } (escalated { stopped := true, trapped := some ⟨fault0, {}, {}, [], 0⟩ })) (fun t => (t.core 0).escalated.isNone && !(t.core 0).stopped) = true := by
  decide +kernel
theorem test_pintr : after .pintr (on { word := 5 } State.reset) (fun t => (t.tile 0).pintr == some 5) = true ∧
    after .pintr (on { word := 99 } (State.reset.modTile 0 fun x => { x with pintr := some (3 + 7 * 65536) })) (fun t =>
      (t.tile 0).pintr.isNone && (t.core 3).interrupt == some (7, 99)) = true := by decide +kernel
theorem test_ptrapq : after .ptrapq (on { b := 4 } (State.reset.modTile 0 fun x => { x with trapq := [(3, 64)] })) (fun t => (t.tile 0).trapq.isEmpty && (t.tile 0).ptrec == 64 &&
      (t.core 2048).sreg .helm 4 == 0x8000000000000003) = true ∧
    after .ptrapq (on { b := 4 } State.reset) (fun t => (t.core 2048).sreg .helm 4 == 0) = true := by decide +kernel
theorem test_pcdat : after .pcdat State.reset (fun t => (t.core 2048).raised.map (·.code) == [cause 0 5 2]) = true ∧
    after .pcdat (on { b := 4 } ((pkg id { stopped := true, sregs := regs [(5, 6)] }).modTile 0 fun x => { x with pcsel := 5 * 65536 })) (fun t =>
      (t.core 2048).sreg .helm 4 == 6) = true := by decide +kernel
theorem test_registers : after .registerWrite (on { b := 0x81B, word := 4096 } State.reset) (fun t => (t.tile 0).ptvec == 4096) = true ∧
    after .registerWrite (on { b := regSpace + 0x10000, word := 65536 } State.reset) (fun t => (t.stack 0).hcethr == 64) = true ∧
    after .registerWrite (on { flag := true, word := 4096 } State.reset) (fun t => (t.ctx 0).bar2 == 4096) = true ∧
    after .contextRootChange (on { word := 8192 } (mapped State.reset)) (fun t => (t.tile 0).tu.isEmpty && (t.ctx 0).root == 8192) = true := by decide +kernel
theorem test_grants : after .pgrantLanding (on { b := 3, c := 1 } State.reset) (fun t => (t.landing 1).owner == some 3) = true ∧
    after .pgrantLanding (on { b := 3, c := 15 } State.reset) (fun t => (t.landing 15).owner == none) = true ∧
    after .prevokeLanding (on { b := 0, c := 1 } (link .live (member {}))) (fun t => (t.core 2048).raised.map (·.code) == [cause 0 5 2] && (t.landing 1).owner == some 0) = true ∧
    after .prevokeHandle (on { b := 0, c := 5 } (link .free (member {}))) (fun t => (t.handle 5).owner == none) = true ∧
    after .pgrantHandle (on { b := 2, c := 6 } State.reset) (fun t => (t.handle 6).owner == some 2) = true ∧
    after .pgrantQuay (on { b := 2, c := 6 } State.reset) (fun t => t.quayCtx 6 == some 2 && memRead t.mem (quayHeader 6 + 26) 1 == 2) = true ∧
    after .pgrantGroup (on { b := 2, c := 6 } State.reset) (fun t => (t.group 6).ownedBy 2) = true ∧
    after .prevokeGroup (on { b := 0, c := 63 } (grouped false [])) (fun t => !(t.group 63).ownedBy 0) = true ∧
    after .prevokeQuay (on { b := 0, c := 0 } (quayed [])) (fun t => t.quayCtx 0 == none) = true := by decide +kernel

/-- A shootdown of pages 0 to 65535 of context 0, asked of peer 9. -/
def shooting (sent : Bool) : State :=
  { (mapped State.reset) with apertures := [(9, { valid := true, rack := 4 })], shoots := [⟨0, 0, 0, 0, 1, [9], 0, sent, [(0, 65536)], []⟩] }

theorem test_shootdown : after .pshoot (on { word := 64 } { (mapped State.reset) with mem := placed [(80, [1])] }) (fun t => (t.tile 0).tu.isEmpty &&
      t.shoots.map (fun x => (x.va, x.pages, x.sent, x.ranges)) == [(0, 1, false, [(0, 65536)])]) = true ∧
    after .shootdownComplete (shooting false) (fun t => t.outbox == [(9, .shootdown 0 [(0, 65536)])] && t.shoots.map (·.sent) == [true]) = true ∧
    after .peerUnreachable { (shooting true) with wall := nsUnits 640000, on := { b := 9 } } (fun t => (t.aperture 9).revoked && (t.aperture 9).quarantine &&
      (t.aperture 9).log == [(0, 65536)] && t.shoots.map (·.lost) == [[9]]) = true ∧ (shooting true).inFlight 0 0 65536 = false := by decide +kernel

/-! ### The host and other packages (01 R24, 11 R336, R337, 12 R385, R386) -/

/-- Context 0's event ring of 64 records at 0x4000, an event of it to be recorded, and an MSI-X vector 3 that is not masked. -/
def ringed (f : Context → Context) : State :=
  { ((mapped State.reset).modCtx 0 fun x => f { x with evt := 0x4000, evtc := 6 + 256 + 3 * 2 ^ 32, msix := [(0x8038, 0)] }) with
    events := [(0, 7, 5, 9)], apertures := [(9, { valid := true, rack := 4 })] }

theorem witness_rings : ((ringed id).ring 0).ringRoom = true ∧ (ringed id).newestEvent 0 = none ∧ ((ringed fun x => { x with ringW := 64 }).ring 0).ringRoom = false ∧
    (ringed fun x => { x with sinceIrq := 1 }).irqDue 0 = true ∧ ((ringed id).ring 0).masked 3 = false ∧ ((ringed id).ring 0).masked 4 = true ∧
    (ringed id).namesPeer 4 = true ∧ (ringed id).namesPeer 5 = false ∧ backed 0 = true := by decide +kernel
theorem test_event_record : after .eventRecord { (ringed id) with on := { a := 0, b := 7, c := 5, d := 9 } } (fun t => (t.ring 0).ringW == 1 && memRead t.mem 0x4000 1 == 2 &&
      memRead t.mem 0x4010 8 == 5 && t.events.isEmpty) = true ∧
    after .eventRecord { (ringed fun x => { x with ringW := 64 }) with on := { a := 0, b := 7, c := 5, d := 9 } } (fun t => (t.ring 0).dropped == 1 && t.mem.isEmpty) = true := by
  decide +kernel
theorem test_interrupts : after .msixInterrupt (ringed fun x => { x with sinceIrq := 1 }) (fun t => (t.ring 0).irqs == [(3, 1)] && (t.ring 0).sinceIrq == 0) = true ∧
    after .msixInterrupt (ringed fun x => { x with sinceIrq := 1, msix := [] }) (fun t => (t.ring 0).irqs.isEmpty && (t.ring 0).irqPending == [3]) = true ∧
    after .bar0Access (on { b := 0x8038, word := 0 } (ringed fun x => { x with msix := [], irqPending := [3] })) (fun t => (t.ring 0).irqs == [(3, 1)] &&
      (t.ring 0).irqPending.isEmpty) = true ∧
    after .bar0Access (on { b := 0x2000, word := 9 } (ringed fun x => { x with ringW := 7 })) (fun t => (t.ring 0).ringR == 7) = true := by decide +kernel
theorem test_bar2 : after .bar2Access (on { access := .write 8 [1, 2] } (ringed id)) (fun t => t.mem == [(8, 1), (9, 2)]) = true ∧
    after .bar2Access (on { access := .write (2 ^ 26 - 1) [1, 2] } (ringed id)) (fun t => t.mem.isEmpty && (t.ctx 0).refused == 1) = true ∧
    after .bar2Access (on { access := .read 0x10000 8 } (ringed id)) (fun t => (t.ctx 0).refused == 1) = true ∧
    after .bar2Access (on { access := .read 8 8 } (ringed id)) (fun t => (t.ctx 0).refused == 0) = true := by decide +kernel
theorem test_bar0_reads : after .bar0Access (on { b := 0x2000, flag := true } (ringed fun x => { x with ringR := 4 })) (fun t => t.answer == some (toBytes 8 4)) = true ∧
    after .bar0Access (on { b := 0x8038, flag := true } (ringed id)) (fun t => t.answer == some (toBytes 8 0)) = true := by decide +kernel
/-- The service minute, the aperture of what landing 128 faces naming rack 4. -/
def visited : State := { minute with apertures := [(minute.facing 128, { valid := true, rack := 4 })] }
theorem witness_peer_comes : visited.inMinute = true ∧ ∃ p ∈ visited.apertures, p.2.valid = true ∧ visited.facesPeer p.1 = true := by
  refine ⟨by decide +kernel, (minute.facing 128, { valid := true, rack := 4 }), List.mem_singleton.mpr rfl, rfl, ?_⟩
  refine List.any_eq_true.mpr ⟨0, by decide, ?_⟩
  have ht : (visited.landing 128).trained = true ∧ (visited.landing 128).pause = none := by decide +kernel
  simp [show visited.facing 0 = minute.facing 128 from rfl, State.samePeer, ht.1, ht.2]
theorem test_host_fetchadd : after .hostFetchadd (on { word := 3 } (quayed [])) (fun t => memRead t.mem (quayHeader 0) 8 == 4) = true ∧
    after .hostFetchadd (on { b := 1 } (quayed [])) (fun t => (t.ctx 0).refused == 1) = true := by decide +kernel

/-! ### Clocks, stacks and scans (01 R16, R27, 13 R400-R403, R410-R417) -/

/-- The machine past a limit, a change of the clock due. -/
def limited (clock : Nat) : State := { (pkg id {}) with clock := clock, hot := true, clockDue := some 0 }

theorem test_thermal_or_power : after .thermalOrPower (on { flag := true } { (pkg id {}) with clock := 4 }) (fun t => t.hot && t.clockDue.isNone && t.events.length == 8) = true ∧
    after .thermalOrPower (on { flag := true } (limited 8)) (fun t => t == on { flag := true } (limited 8)) = true ∧
    after .thermalOrPower (on { flag := false } (limited 8)) (fun t => !t.hot && t.clock == 8) = true := by decide +kernel
theorem test_clock_change : after .clockChange (on { flag := true } (limited 5)) (fun t => t.clock == 4 && (t.core 3).frozen && (t.core 3).held) = true ∧
    after .clockChange (on { flag := true } { (limited 4) with hot := false }) (fun t => t.clock == 4 && t.clockDue.isNone && !(t.core 3).frozen) = true := by decide +kernel
theorem witness_clock_restore : { (limited 4) with hot := false, clockDue := none, wall := nsUnits 100000000 }.limitAt + nsUnits 100000000 ≤ nsUnits 100000000 := by decide +kernel
theorem test_thermal_trap : after .thermalTrap { (limited 4) with wall := nsUnits 10000000 } (fun t => t.thermal && hasCause (cause 5 7 7) t) = true := by decide +kernel

/-- Stack 0 with these rows in the buffers of bank 2, and its table of rows. -/
def banked (rows : List (Nat × Bool)) (mg : List (Nat × Nat)) : State := State.reset.modStack 0 fun x => { x with rows := [(2, rows)], mg := [(2, mg)] }

theorem test_a_hit_is_no_activation : after .misraGriesActivation (on { b := 2, c := 7 } (banked [(5, true), (7, true)] [])) (fun t =>
    (t.stack 0).mg == [(2, [])] && (t.stack 0).buffers 2 == [(7, true), (5, true)] && (t.stack 0).backs.isEmpty) = true := by decide +kernel
theorem test_activation : after .misraGriesActivation (on { b := 2, c := 7 } (banked [(5, false), (4, false), (3, false), (1, true)] [])) (fun t =>
      (t.stack 0).backs == [(2, 1)] && (t.stack 0).mg == [(2, [(7, 1)])]) = true ∧
    after .misraGriesActivation (on { b := 2, c := 7 } (banked [] ((List.range 16).map fun i => (100 + i, i + 1)))) (fun t => (tabGet (t.stack 0).mg 2).map (·.length) == some 15) = true ∧
    after .misraGriesActivation (on { b := 2, c := 7 } (banked [] [(7, 2047)])) (fun t => (t.stack 0).mg == [(2, [(7, 0)])] &&
      (t.stack 0).refreshes == [(2, 5), (2, 6), (2, 8), (2, 9)]) = true := by decide +kernel
theorem test_refresh_window : after .refreshWindow (banked [(5, true)] [(5, 9)]) (fun t => (t.stack 0).mg.isEmpty && (t.stack 0).backs == [(2, 5)] &&
    (t.stack 0).buffers 2 == [(5, false)]) = true := by decide +kernel
theorem test_eye_margin : after .eyeMarginMeasurement (on { b := 3, c := 31 } State.reset) (fun t => (t.stack 0).disarmed == [3] && t.events.length == 1 &&
      (t.stack 0).eyeMin == (31, 3)) = true ∧
    after .eyeMarginMeasurement (on { b := 3, c := 40 } (State.reset.modStack 0 fun x => { x with disarmed := [3] })) (fun t => (t.stack 0).disarmed.isEmpty) = true := by decide +kernel
theorem test_stack_controls : after .hpcout (on { b := 63 } State.reset) (fun t => (t.stack 0).mapped == [63] && t.pkstat == 1) = true ∧
    after .hpcout (on { b := 64 } State.reset) (fun t => (t.stack 0).mapped.isEmpty) = true ∧
    after .heyemin (State.reset.modStack 0 fun x => { x with eyeMin := (9, 4) }) (fun t => (t.stack 0).eyeMin == (255, 4)) = true := by decide +kernel
theorem test_scrubs : after .patrolScrub (on { a := 5 } State.reset) (fun t => t.poison == [5]) = true ∧
    after .patrolScrub (on { a := 5, flag2 := true } State.reset) (fun t => t.poison.isEmpty && t.events.isEmpty) = true ∧
    after .localStoreScrub (on { a := 0, b := 7 } (member {})) (fun t => (t.core 0).lsPoison == [7] && t.events == [(0, cause 5 0 2, 0, 0)]) = true := by decide +kernel

theorem test_rotation_scan : after .rotationScanStep { State.reset with booted := true } (fun t => tabGet (t.tile 0).map 0 == some 256 && (t.tile 0).scanning == some (0, 0) &&
      (t.tile 0).spare.isNone && (t.tile 0).scanNext == 1) = true ∧
    after .rotationScanStep { (pkg id {}) with booted := true } (fun t => (t.tile 0).migrating == some 0) = true ∧
    after .rotationMigration ((pkg id { atRetire := true }).modTile 0 fun x => { x with migrating := some 0 }) (fun t => (t.tile 0).map == [(0, 256)]) = false := by decide +kernel
theorem witness_migration : (stopping .running).launchOf 0 ≠ none ∧ ((stopping .running).core 0).atRetire = true ∧ ((pkg id {}).tile 0).spare = some 256 := by decide +kernel
theorem test_migration_of_a_free_core : after .rotationMigration (State.reset.modTile 0 fun x => { x with migrating := some 5, scanNext := 5 }) (fun t =>
    (t.tile 0).map == [(5, 256)] && (t.tile 0).migrating.isNone) = true := by decide +kernel
theorem test_scan_ends : after .scanPass (State.reset.modTile 0 fun x => { x with scanning := some (3, 0), spare := none }) (fun t => (t.tile 0).spare == some 3 &&
      (t.tile 0).scanning.isNone) = true ∧
    after .scanFail (State.reset.modTile 0 fun x => { x with scanning := some (3, 0), spare := none }) (fun t => (t.tile 0).badCores == [3] && !(t.tile 0).coverage &&
      t.events.contains (16, cause 5 3 3, 0, 3)) = true := by decide +kernel

/-! ### Snapshots (08 R247, 13 R404-R409) -/

/-- Context 0 with one leaf of 1 GiB from 0, its table at 0x21000, and its snapshot root at 0x30000. -/
def snapped (f : Context → Context) : State :=
  { (State.reset.modCtx 0 fun x => f { x with root := 0x20001, snroot := 0x30000, snpsz := 2 ^ 60 }) with mem := placed [(0x100, [1]), (0x20000, toBytes 8 0x21001), (0x21000, [15]), (0x30000, [0, 4, 1])] }

theorem witness_snapshots : (snapped id).writableLeaves 0 = [(0, ⟨15, 2 ^ 30, 0x21000⟩)] ∧ (snapped id).imageDone 0 = true ∧
    (snapped fun x => { x with epoch := 1, active := true }).copyDue 0 ⟨15, 2 ^ 30, 0x21000⟩ = true ∧ ((snapped id).copyToShadow 0 0 ⟨15, 2 ^ 30, 0x21000⟩ 1).isSome = true ∧
    (snapped id).lookup 0 0 5 = .ok ⟨15, 2 ^ 30, 0x21000⟩ ∧ ((snapped id).rootWord 0).getLsbD 16 = true ∧ (snapped id).mappedOut (0x30000 / 64) = false := by decide +kernel
theorem test_begin : after .sncmdBegin (on { b := 1 } (snapped id)) (fun t => (t.ctx 0).pendingBegin == some 1 && !(t.ctx 0).refusedCmd) = true ∧
    after .sncmdBegin (on { b := 2 } (snapped id)) (fun t => (t.ctx 0).pendingBegin.isNone && (t.ctx 0).refusedCmd) = true := by decide +kernel
theorem test_begin_point : after .snapshotBeginPoint (snapped fun x => { x with pendingBegin := some 1, producers := [7] }) (fun t => (t.ctx 0).epoch == 1 && (t.ctx 0).active &&
    (t.ctx 0).activeProducers == [7] && (t.ctx 0).producers.isEmpty) = true := by decide +kernel
theorem test_copy_on_write : after .snapshotCopyOnWrite (on { b := 5 } (snapped fun x => { x with epoch := 1, active := true })) (fun t =>
    memRead t.mem 0x21000 8 == 15 + 256 && (t.ctx 0).slots.map (fun p => (p.va, p.a.map (·.label))) == [(0, some 1)]) = true := by decide +kernel
theorem test_drain : after .snapshotDrain (snapped fun x => { x with epoch := 1, active := true }) (fun t => !(t.ctx 0).drained && (t.ctx 0).slots.isEmpty &&
      (t.ctx 0).drainNext == some 0 && (t.ctx 0).pagesLeft == 2 ^ 14) = true ∧
    after .snapshotDrain (snapped fun x => { x with epoch := 1, active := true, drainNext := some 0 }) (fun t => (t.ctx 0).drained && (t.ctx 0).slots.length == 1) = true := by
  decide +kernel
theorem test_commit : after .snapshotCommit (snapped fun x => { x with epoch := 5, active := true, drained := true, verified := true }) (fun t => !(t.ctx 0).active &&
      (t.ctx 0).committed == 5 && memRead t.mem 0x30000 8 == 1 + 256 * 5 + 65536 && memRead t.mem 0x30020 8 == 5) = true ∧
    after .sncmdCommitUnverified (snapped fun x => { x with epoch := 5, active := true, drained := true }) (fun t => memRead t.mem 0x30000 8 == 1 + 256 * 5 + 65536 + 131072) = true ∧
    after .sncmdCommitUnverified (snapped id) (fun t => (t.ctx 0).refusedCmd) = true := by decide +kernel
theorem test_restore : after .sncmdRestore (snapped id) (fun t => (t.ctx 0).restoring) = true ∧
    after .sncmdRestore { (snapped id) with launches := [launch4] } (fun t => !(t.ctx 0).restoring && (t.ctx 0).refusedCmd) = true := by decide +kernel

/-! ### Copies after issue (08 R232, R237-R260, 10 R317-R319) -/

/-- A box command of 4 bytes from 0x1000 to 0x2000 in local store, its time come. -/
def moving : CopyCmd := { id := 0, kind := .box, ch := 1, ident := 1, issued := 0, before := {}, spans := [⟨0x1000, 0x2000, 4⟩], granules := 1, started := true
                          ready := some 1, bound := some 9, doneAt := some 5 }
/-- Core 0 of `launch4` with these commands, in cycle `n`. -/
def copies (ks : List CopyCmd) (n : Nat) : State :=
  let ids := vSet (1 : BitVec 2) 1 (({} : Core).chIssued)
  mapped (pkg (fun l => { l with timed := true }) { cyc := n, copies := ks, ls := [(0x1001, 7)], chIssued := ids })

theorem witness_copy_completes : (copies [moving] 5).completes 0 moving = true ∧ ((copies [moving] 5).core 0).copy? 0 = some moving ∧ ((copies [moving] 5).core 0).ls.wf = true := by
  decide +kernel
theorem test_copy_completion : after .copyCompletion (copies [moving] 5) (fun t => (t.core 0).ls == [(0x1001, 7), (0x2001, 7)] && (t.core 0).copies.all (·.finished) &&
      vAt (t.core 0).chst 1 == 1) = true ∧
    after .copyCompletion (copies [{ moving with zero := true, spans := [] }] 1) (fun t => (t.core 0).copies.all (·.finished)) = true ∧
    after .copyCompletion (copies [{ moving with kind := .const, spans := [⟨0x1000, 255, 1⟩], taken := some ([0, 7, 0, 0], []) }] 5) (fun t =>
      ((t.core 0).cbank[255]).toNat == 0x700) = true := by decide +kernel

/-- The same into virtual address `va`, its translation to be done in cycle 3. -/
def virtual (va : Nat) : CopyCmd := { moving with spans := [⟨0x1000, va, 4⟩], dk := 2, writes := [va], virt := true, xlatAt := 3, ready := none, bound := none, doneAt := none }

theorem test_copy_translation : after .copyTranslation (copies [virtual 0x2000] 3) (fun t => (t.core 0).copies.map (fun k => (k.xlated, k.pages)) ==
      [(true, [(0x2000, ⟨15, 65536, 0x100000⟩)])]) = true ∧
    after .copyTranslation (copies [virtual 0x1000000000000] 3) (fun t => (t.core 0).copies.map (fun k => k.fault.map (·.code)) == [some (cause 1 4 0)]) = true ∧
    touchesHole [(0xFFFE, 4)] ⟨0x600000, 65536, 0⟩ 0xFFFE = false := by decide +kernel
theorem test_copy_faults_take_the_stream_back : after .copyTranslation (copies [{ virtual 0x2000 with fault := some fault0 }] 512) (fun t =>
      (t.core 0).raised == [fault0] && (t.core 0).copies.all (·.reissued)) = true ∧
    after .copyTranslation (copies [{ virtual 0x2000 with xlatAt := 600 }] 512) (hasCause (cause 2 3 3)) = true := by decide +kernel

/-- A CSEND of `moving`'s bytes on handle 5 to landing 17, arriving at count 1; core 1 has a binding of 4 bytes at 0x3000. -/
def sending (f : CopyCmd → CopyCmd) : CopyCmd := f { moving with kind := .send, handle := 5, left := [17], arriveAt := 1, ackAt := 2, spans := [⟨0x1000, 0, 4⟩] }
/-- The package of that send, in count 2, the binding's core being 16 (tile 1). -/
def sends (f : CopyCmd → CopyCmd) (bound : Bool) : State :=
  let s := copies [sending f] 5
  let l : Launch := { launch4 with w := 17, count := 2, xing := some { prog := { base := 4096, words := 8, pc := 4096, ended := false } } }
  let b : CopyCmd := { moving with kind := .recv, handle := 5, record := rec64 (toBytes 8 0x3000 ++ toBytes 8 0 ++ toBytes 4 4 ++ toBytes 4 4), spans := [⟨0, 0x3000, 4⟩] }
  let s := { ((link .live s).modHandle 5 fun x => { x with sends := [(0, 0)], bindings := if bound then [(16, 0)] else [] }) with launches := [l] }
  s.setCore 16 { lid := some 0, cyc := 5, copies := if bound then [b] else [] }

theorem witness_sends_arrive : (sends id true).arrivalDue 0 (sending id) 17 = true ∧ (sends id false).arrivalDue 0 (sending id) 17 = true ∧
    (sends id false).arrivalBinding (sending id) 17 = none ∧ ((sends id true).arrivalBinding (sending id) 17).map (·.1) = some 16 ∧
    (sends id false).buffered 17 = 0 ∧ ((sends id true).core 16).ls.wf = true ∧ (sends id true).handleCount 5 = 2 := by decide +kernel
theorem test_csend_delivery : after .csendDelivery (on { c := 17 } (sends id true)) (fun t => memRead (t.core 16).ls 0x3000 4 == 0x700 &&
      (t.core 0).copies.map (·.left) == [[]]) = true ∧
    after .csendDelivery (on { c := 17 } (sends id false)) (fun t => (t.core 0).copies.map (fun k => (k.left, (k.heldAt 17).flatMap (·.2.1))) == [([17], [0, 7, 0, 0])]) = true ∧
    after .csendAck (sends (fun k => { k with left := [] }) true) (fun t => (t.core 0).copies.all (·.finished) && (t.handle 5).sends.isEmpty) = true := by decide +kernel

/-! ### Near memory and handles (08 R258-R260, 10 R298) -/

/-- A near-memory command of one INT32 element, of this operation: X at 0x40, Y at 0x80, a = 2, b = 3. -/
def nearCmd (opc type : BitVec 8) (n : Nat) : CopyCmd :=
  { moving with kind := .nmc, virt := true, xlated := true, gated := true, recAddr := 64, pages := [(0x40, ⟨15, 65536, 0x100000⟩), (0x80, ⟨15, 65536, 0x100000⟩)], count := n
                record := rec64 ([opc, type, 0, 0] ++ toBytes 4 1 ++ toBytes 8 0x40 ++ toBytes 8 0x80 ++ toBytes 4 2 ++ toBytes 4 3 ++ toBytes 4 9) }
/-- The package with it, X = 5 and Y = 6. -/
def near (opc type : BitVec 8) (n : Nat) : State := { (copies [nearCmd opc type n] 5) with mem := [(0x40, 5), (0x80, 6)] }
/-- The chunk gives Y this value. -/
def gaveY (i : Instr) (s : State) (v : Nat) : Bool := after i s fun t => memRead t.mem 0x80 4 == v && (t.core 0).copies.map (·.count) == [1]

theorem witness_near_memory : ((near 2 4 0).nearNext 0 2).map (·.1) = some 0 ∧ (near 2 4 0).nearBad (nearCmd 2 4 0) (nearOf (nearCmd 2 4 0).record) = [] ∧
    ((near 2 4 1).nearCmds 0).map (fun q => q.2.nearOver) = [true] ∧ (near 4 4 0).nearKeeps (nearOf (nearCmd 4 4 0).record) 0x80 = false := by decide +kernel
theorem test_near_memory : gaveY .nmfill (near 4 4 0) 9 = true ∧ after .nearMemoryCompletion (near 2 4 1) (fun t => memRead (t.core 0).ls 112 4 == 0 &&
    memRead (t.core 0).ls 116 4 == 0xFFFFFFFF && (t.core 0).copies.all (·.finished)) = true := by decide +kernel

theorem test_handles : after .handleLive { (link .settling (member {})) with on := { a := 5, flag := true } } (fun t => (t.handle 5).st == .live) = true ∧
    ((link .settling (member {})).launch? ((link .settling (member {})).handle 5).lid).isSome = true ∧
    after .drainEnd (on { a := 5 } (link .draining (member {}))) (fun t => (t.handle 5).st == .free) = false ∧
    after .drainEnd (on { a := 5 } { (link .draining (member {})) with launches := [{ launch4 with count := 64, xing := some { prog := {} } }] }) (fun t => (t.handle 5).st == .free &&
      (t.handle 5).owner == some 0) = true ∧
    after .windowEnd (on { a := 5 } ((link .windowed (member {})).modHandle 5 fun x => { x with window := some (0, 0) })) (fun t => (t.handle 5).st == .live &&
      (t.handle 5).window.isNone) = true := by decide +kernel

/-! ### Collectives (11 R353-R362) -/

/-- The record of a collective of the whole of `launch4`'s row of two, INT32, one element. -/
def collRec (opc srcl : BitVec 8) (src dst : Nat) : List Byte :=
  rec64 ([opc, 4, 64, 0, srcl, 0, 0, 0] ++ toBytes 4 1 ++ toBytes 4 1 ++ toBytes 8 src ++ toBytes 8 dst)
/-- The command of member `m`: its source at 0x40 (m + 1), its destination at 0x400 (m + 1). -/
def collCmd (opc srcl : BitVec 8) (m : Nat) : CopyCmd :=
  { moving with kind := .coll, virt := true, xlated := true, gated := true, recAddr := 64, record := collRec opc srcl (0x40 * (m + 1)) (0x400 * (m + 1))
                pages := [(0x40, ⟨15, 65536, 0x100000⟩)] }
/-- The collective of both. -/
def coll (opc srcl : BitVec 8) (f : Coll → Coll) : Coll :=
  f { id := 0, lid := 0, k := 0, team := (0, 0, 2, 1), size := 2, digested := true
      members := (List.range 2).map fun m => { m := m, core := m, cmd := 0, record := (collCmd opc srcl m).record } }
/-- The package of a launch of two cores with it; the contributions are 5 and -1. -/
def collected (opc srcl : BitVec 8) (f : Coll → Coll) : State :=
  { (mapped State.reset) with
    launches := [{ launch4 with w := 2, timed := true }], mem := placed [(0x40, [5]), (0x80, [255, 255, 255, 255])], colls := [coll opc srcl f]
    cores := (List.range 2).map fun m => (m, { lid := some 0, cyc := 9, copies := [collCmd opc srcl m] }) }
/-- Both destinations hold these. -/
def bothGot (i : Instr) (s : State) (u v : Nat) : Bool := after i s fun t => memRead t.mem 0x400 4 == u && memRead t.mem 0x800 4 == v && t.colls.map (·.status) == [some (0, 0)]

theorem witness_collectives : (collected 1 1 id).coll? 0 = some (coll 1 1 id) ∧ (collected 1 1 id).collOpen (coll 1 1 id) = true ∧
    (coll 1 1 fun x => { x with digested := false }).digestDue = true ∧ (coll 1 1 id).agrees = true ∧ (collected 1 1 id).mappedOut 1 = false := by decide +kernel
theorem test_collectives : bothGot .collectiveSum (collected 1 1 id) 4 4 = true ∧ bothGot .collectiveMax (collected 2 1 id) 5 5 = true ∧
    bothGot .collectiveMin (collected 3 1 id) 0xFFFFFFFF 0xFFFFFFFF = true ∧ bothGot .collectiveMove (collected 4 0 id) 5 0xFFFFFFFF = true := by decide +kernel
theorem test_digest : after .collectiveDigest (collected 1 1 fun x => { x with digested := false, members := x.members.map fun y =>
    if y.m = 1 then { y with record := (collCmd 2 1 1).record } else y }) (fun t => t.colls.map (·.status) == [some (4, 0)] && t.mem == (collected 1 1 id).mem) = true := by decide +kernel
theorem test_collective_completion : after .collectiveCompletion (collected 1 1 fun x => { x with status := some (4, 0) }) (fun t =>
    memRead (t.core 0).ls 104 4 == 4 && ((t.core 0).owed.map (·.code)) == [cause 4 7 0] && (t.core 0).copies.all (·.finished)) = true := by decide +kernel

/-! ## The step (02 R32-R36) -/

/-- Core 0 of `launch4` alone, its helm about to fetch this word at 4096. -/
def fetching (w : Nat) : State :=
  { (mapped State.reset) with
    tphase := .issue, todo := [(0, .helm)], mem := placed [(4096, toBytes 8 w)]
    launches := [{ launch4 with w := 1, pins := [⟨0, ⟨15, 65536, 0x100000⟩⟩] }]
    cores := [(0, { lid := some 0, helm := { base := 4096, words := 1, pc := 4096, ended := false }, helmSt := { npc := 4104, nnpc := 4112 } })] }

theorem witness_step : let s := fetching 0x000003E200002000
    s.hasSlot 0 .helm = true ∧ s.fetch 0 .helm (s.core 0).helm = .word 0x000003E200002000 ∧ (s.core 0).helm.slotDue 0 0 = true ∧ s.interruptDue 0 0 = false ∧
    s.heldSlot = false ∧ s.annulled = false ∧ s.owedNow = none ∧ s.settled.awaits (.ldi 4 0x2000) = false := by decide +kernel
/-- What holds after a step. -/
def steps (s : State) (ok : State → Bool) : Bool := match step s with
  | .next t => ok t
  | _ => false
theorem test_step_runs_the_word : steps (fetching 0x000003E200002000) (fun t => (t.core 0).flights.map (·.eff) == [.s 4 0x2000] && (t.core 0).helm.pc == 4104 && t.todo.isEmpty) = true ∧
    steps (fetching 0x00001FE000000000) (fun t => (t.core 0).raised.map (·.code) == [cause 0 0 0] && (t.core 0).helm.pc == 4096) = true := by decide +kernel
theorem test_step_runs_a_due_event : steps { State.reset with agenda := [⟨0, .pintr, { word := 5 }⟩] } (fun t => (t.tile 0).pintr == some 5 && t.agenda.isEmpty) = true ∧
    steps { State.reset with agenda := [⟨0, .hret, {}⟩], alarms := [] } (fun t => t.agenda.isEmpty) = true := by decide +kernel
theorem witness_note : noteOutcome {} (.next State.reset) = .next State.reset := rfl

theorem witness_decode_encode : (Instr.ldi 4 0x2000).wf .helm = true ∧ decode .helm (encodeDecoded ⟨5, 0, 0, .ldi 4 0x2000⟩) = .ok ⟨5, 0, 0, .ldi 4 0x2000⟩ ∧
    decode .vector 0x0090AC0081000000 = .ok ⟨2, 1, 5, .vld ⟨1, 0, 4, 0, 0, 0⟩⟩ := by decide +kernel
theorem witness_memory : State.reset.mem.wf = true ∧ (fetching 0x000003E200002000).mem.wf = true := by decide +kernel
theorem witness_frame : (Instr.add 1 2 3).streams.contains (at_ .helm).cur.st = true ∧ beyondFrame (.add 1 2 3) = false ∧ (Instr.cfence).streams.contains Stream.copy = true ∧
    after (.add 1 2 3) (at_ .helm) (fun _ => true) = true := by decide +kernel
theorem witness_store_conditions : tabRising none State.reset.cores = true := by decide
theorem test_reset_thresholds : (State.reset.stack 0).hcethr = 64 ∧ (State.reset.stack 7).hmgthr = 2048 ∧ (State.reset.stack 3).heye = 32 := by decide
/-- A package in which a purser may start a launch of `packet` bytes at virtual address 0x4000. -/
def starting (r : List Byte) : State :=
  { (quayed r) with cur := { core := 2048 }, cores := [(2048, { sregs := regs [(2, 0x4000)] })] }
theorem witness_tstart : isPurser (starting (packet 1 0)).cur.core = true ∧ after (.tstart 2) (starting (packet 1 0)) (fun t => t.launches.map (fun l => (l.stage, l.parent)) ==
    [(.waiting, none)] || (t.core 2048).raised.isEmpty) = true := by decide +kernel
/-- A collective of which member 0 alone has come, past its deadline, in a context that releases. -/
def overdue : State :=
  (collected 1 1 fun x => { x with digested := false, members := (x.members.map fun (y : Member) => { y with record := y.record.set 32 5 }).take 1 }).modCtx 0 fun c =>
    { c with flags := 1 }
/-- A collective with a member in package 9, which cannot be reached. -/
def orphaned : State :=
  { (collected 1 1 fun x => { x with members := x.members.map fun (y : Member) => { y with record := (y.record.set 3 1).set 49 9 } }) with expired := true }
theorem witness_collective_ends : overdue.colls.map overdue.releaseDue = [true] ∧ overdue.colls.map overdue.collOpen = [true] ∧
    orphaned.colls.map (fun x => orphaned.memberGone x 2) = [true] ∧
    overdue.colls.map (fun x => x.members.map (overdue.collLate x)) = [[false]] ∧
    (overdue.modCtx 0 fun c => { c with flags := 0 }).colls.map (fun x => x.members.map ((overdue.modCtx 0 fun c => { c with flags := 0 }).collLate x)) = [[true]] := by
  decide +kernel
theorem test_deadline_release : after .deadlineRelease overdue (fun t => t.colls.map (fun x => (x.status, x.only, x.kept.map (·.1))) ==
    [(some (2, 1), some [0], [1])] && t.events == [(0, cause 4 (coll 1 1 id).q.kindOf 4, 0, 1)]) = true := by decide +kernel

end Sys2Proof.Tests
end

section
/-! PROOF. Folds, and reads and writes at a home: what they leave as it was, and what a write leaves to be read (08 R260, 13 R391, R413). -/

namespace Sys2Proof.Machine

/-! ## Folds -/

/-- What every step of a fold keeps, the fold keeps. -/
theorem foldl_keeps {α β γ : Type} (π : α → γ) {f : α → β → α} (h : ∀ a x, π (f a x) = π a) (l : List β) (a : α) :
    π (l.foldl f a) = π a := by
  induction l generalizing a with
  | nil => rfl
  | cons x t ih => exact (ih (f a x)).trans (h a x)

/-- What the step of one element brings about, and every step keeps, holds after the fold; `I` is what every step keeps from the start on. -/
theorem foldl_of_mem_of_inv {α β : Type} {I P : α → Prop} {f : α → β → α} {l : List β} {x : β} {a : α} (hx : x ∈ l) (h0 : I a)
    (hI : ∀ a y, I a → I (f a y)) (hP : ∀ a, I a → P (f a x)) (hk : ∀ a y, I a → P a → P (f a y)) : P (l.foldl f a) := by
  have kept : ∀ (l : List β) (a : α), I a → P a → P (l.foldl f a) := by
    intro l
    induction l with
    | nil => exact fun _ _ h => h
    | cons y t ih => exact fun a hi hp => ih _ (hI a y hi) (hk a y hi hp)
  induction l generalizing a with
  | nil => cases hx
  | cons y t ih =>
    rcases List.mem_cons.1 hx with rfl | hx
    · exact kept t _ (hI a x h0) (hP a h0)
    · exact ih hx (hI a y h0)

/-- The same where nothing but the property itself has to be kept. -/
theorem foldl_of_mem {α β : Type} {P : α → Prop} {f : α → β → α} {l : List β} {x : β} {a : α} (hx : x ∈ l) (hP : ∀ a, P (f a x))
    (hk : ∀ a y, P a → P (f a y)) : P (l.foldl f a) :=
  foldl_of_mem_of_inv (I := fun _ => True) hx trivial (fun _ _ _ => trivial) (fun a _ => hP a) fun a y _ => hk a y

/-! ## Events -/

theorem Happens.mono {i : Instr} {s : State} {p q : State → Prop} (h : Happens i s p) (hpq : ∀ t, p t → q t) : Happens i s q :=
  let ⟨t, e, ht⟩ := h
  ⟨t, e, hpq t ht⟩

/-! ## Runs of bytes -/

/-- A run within a run. -/
theorem memBytes_within (m : Memory) (a o n k : Nat) (h : o + n ≤ k) : memBytes m (a + o) n = ((memBytes m a k).drop o).take n := by
  induction o generalizing a k with
  | zero =>
    rw [List.drop_zero, Nat.add_zero]
    induction n generalizing a k with
    | zero => rfl
    | succ n ih =>
      obtain ⟨k, rfl⟩ : ∃ j, k = j + 1 := ⟨k - 1, by omega⟩
      rw [memBytes, memBytes, List.take_succ_cons, ih (a + 1) k (by omega)]
  | succ o ih =>
    obtain ⟨k, rfl⟩ : ∃ j, k = j + 1 := ⟨k - 1, by omega⟩
    rw [memBytes, List.drop_succ_cons, ← ih (a + 1) k (by omega), Nat.add_assoc, Nat.add_comm 1]

/-- A field of a record that stands in memory. -/
theorem memRead_eq_recField (m : Memory) (a o n k : Nat) (h : o + n ≤ k) : memRead m (a + o) n = recField (memBytes m a k) o n := by
  rw [memRead, recField, memBytes_within m a o n k h]

/-! ## Homes -/

/-- Which granules are mapped out depends on the stacks' mapped-out channels alone. -/
theorem State.mappedOut_congr {s t : State} (h : ∀ n, (t.stack n).mapped = (s.stack n).mapped) (g : Nat) : t.mappedOut g = s.mappedOut g := by
  simp only [State.mappedOut, h]

@[simp] theorem State.noteCorrected_mem (s : State) (g : Nat) : (s.noteCorrected g).mem = s.mem := by
  unfold State.noteCorrected
  dsimp only
  split <;> rfl

/-- What a corrected error changes in the stacks: one count. -/
theorem State.stack_noteCorrected (s : State) (g n : Nat) : (s.noteCorrected g).stack n =
    (s.modStack (stackOf (64 * g)) fun x => { x with
      corrected := tabSet x.corrected (channelOf g) ((tabGet (s.stack (stackOf (64 * g))).corrected (channelOf g)).getD 0 + 1) }).stack n := by
  unfold State.noteCorrected
  dsimp only
  split <;> rfl

theorem State.mapped_noteCorrected (s : State) (g n : Nat) : ((s.noteCorrected g).stack n).mapped = (s.stack n).mapped := by
  rw [State.stack_noteCorrected, State.stack_modStack']
  split
  · rename_i h
    simp only [State.stack, vAt, h]
  · rfl

/-- What a read leaves behind keeps what every note of a corrected error, and every change of poison and of latent errors, keeps. -/
theorem State.readEffects_keeps {γ : Type} (π : State → γ) (hb : ∀ (s : State) b p, π { s with bad := b, poison := p } = π s)
    (hn : ∀ (s : State) g, π (s.noteCorrected g) = π s) (s : State) (key n : Nat) : π (s.readEffects key n) = π s := by
  refine foldl_keeps π (fun s g => ?_) _ s
  split
  · exact hb s _ _
  · split
    · exact (hn _ g).trans (hb s _ s.poison)
    · rfl

@[simp] theorem State.readEffects_mem (s : State) (key n : Nat) : (s.readEffects key n).mem = s.mem :=
  State.readEffects_keeps State.mem (fun _ _ _ => rfl) State.noteCorrected_mem s key n

theorem State.mappedOut_readEffects (s : State) (key n g : Nat) : (s.readEffects key n).mappedOut g = s.mappedOut g :=
  State.mappedOut_congr (fun i => State.readEffects_keeps (fun s => (s.stack i).mapped) (fun _ _ _ => rfl)
    (fun s g => s.mapped_noteCorrected g i) s key n) g

/-- Bytes `b` stand at `key`, and every byte outside them is as it was. -/
def State.Wrote (s t : State) (key : Nat) (b : List Byte) : Prop :=
  memBytes t.mem key b.length = b ∧ ∀ i, i < key ∨ key + b.length ≤ i → memGet t.mem i = memGet s.mem i

/-- No granule of a range is mapped out, and memory has its canonical form: what is written there can be read. -/
def State.Opened (s : State) (key len : Nat) : Prop := s.mem.wf = true ∧ ∀ g ∈ granulesOf key len, s.mappedOut g = false

theorem State.Opened.congr {s t : State} {key len : Nat} (h : s.Opened key len) (hm : t.mem = s.mem)
    (hg : ∀ n, (t.stack n).mapped = (s.stack n).mapped) : t.Opened key len :=
  ⟨hm ▸ h.1, fun g hi => (State.mappedOut_congr hg g).trans (h.2 g hi)⟩

theorem State.writeHome_mem {s : State} {key : Nat} {b : List Byte} (h : ∀ g ∈ granulesOf key b.length, s.mappedOut g = false) :
    (s.writeHome key b).mem = memWrite s.mem key b := by
  have : (granulesOf key b.length).any s.mappedOut = false := by simpa using h
  simp only [State.writeHome, this]
  rfl

theorem State.wrote_writeHome {s : State} {key : Nat} {b : List Byte} (h : s.Opened key b.length) : s.Wrote (s.writeHome key b) key b := by
  obtain ⟨hm, hg⟩ := h
  unfold State.Wrote
  rw [State.writeHome_mem hg]
  exact ⟨memBytes_memWrite_same b s.mem key hm, fun i => memGet_memWrite_outside b s.mem key i⟩

theorem pkey_zero (a : Nat) : pkey 0 a = a := by simp [pkey]

end Sys2Proof.Machine
end

section
/-! PROOF. Event records, interrupts, and accesses from the host and from peers (O47). -/

namespace Sys2Proof.Machine

/-! ## Rings -/

@[simp] theorem State.ring_modRing (s : State) (n : Nat) (f : Context → Context) : (s.modRing n f).ring n = f (s.ring n) := by
  unfold State.modRing State.ring
  split
  · rfl
  · exact s.ctx_modCtx n f

@[simp] theorem State.modRing_mem (s : State) (n : Nat) (f : Context → Context) : (s.modRing n f).mem = s.mem := by
  unfold State.modRing
  split <;> rfl

@[simp] theorem State.modRing_events (s : State) (n : Nat) (f : Context → Context) : (s.modRing n f).events = s.events := by
  unfold State.modRing
  split <;> rfl

theorem State.ring_of_lt {n : Nat} (s : State) (h : n < 16) : s.ring n = s.ctx n := if_neg (Nat.ne_of_lt h)

/-! ## Event records -/

theorem State.eventRecord_length (s : State) (ring code place stat count : Nat) : (s.eventRecord ring code place stat count).length = 64 := by
  simp [State.eventRecord, toBytes_length]

/-- The type byte of an event record. -/
theorem recField_eventRecord_type (s : State) (ring code place stat count : Nat) :
    recField (s.eventRecord ring code place stat count) 0 1 = 2 := by
  have : (2 + 2 ^ 8 * (code % 512) + 2 ^ 20 * (ring % 16) + 2 ^ 32 * (count % 2 ^ 32)) % 256 = 2 := by omega
  simp only [recField, State.eventRecord, toBytes, List.cons_append, List.drop_zero, List.take_succ_cons, List.take_zero, ofBytes,
    BitVec.toNat_ofNat]
  exact this

theorem recField_eventRecord_place (s : State) (ring code place stat count : Nat) :
    recField (s.eventRecord ring code place stat count) 16 8 = place % 2 ^ 64 := by
  have : ((s.eventRecord ring code place stat count).drop 16).take 8 = toBytes 8 place := by
    simp [State.eventRecord, toBytes_length, List.drop_append, List.take_append]
  rw [recField, this, ofBytes_toBytes]
  rfl

theorem exec_eventRecord_of_mem {s : State} (h : (s.on.a, s.on.b, s.on.c, s.on.d) ∈ s.events) : exec .eventRecord s =
    .next ({ s with events := s.events.erase (s.on.a, s.on.b, s.on.c, s.on.d) }.writeEvent s.on.a s.on.b s.on.c s.on.d) := by
  change execEventRecord s = _
  simp only [execEventRecord, List.contains_iff_mem.2 h, if_true]

theorem State.writeEvent_of_room {s : State} {ring code place stat : Nat} (h : s.newestEvent ring = none)
    (hr : (s.ring ring).ringRoom = true) : s.writeEvent ring code place stat = s.ringWrite ring (s.eventRecord ring code place stat 1) := by
  simp [State.writeEvent, h, hr]

theorem State.writeEvent_of_full {s : State} {ring code place stat : Nat} (h : s.newestEvent ring = none)
    (hr : (s.ring ring).ringRoom = false) :
    s.writeEvent ring code place stat = s.modRing ring fun x => { x with dropped := x.dropped + 1 } := by
  simp [State.writeEvent, h, hr]

/-- A record in a ring, as it stands in memory. -/
theorem State.ringWrite_record {s : State} {n : Nat} {r : List Byte} (hr : s.Opened ((s.ring n).ringKey (s.ring n).ringW) r.length) :
    memBytes (s.ringWrite n r).mem ((s.ring n).ringKey (s.ring n).ringW) r.length = r := by
  rw [State.ringWrite, State.modRing_mem]
  exact (State.wrote_writeHome hr).1

theorem State.ringW_ringWrite (s : State) (n : Nat) (r : List Byte) : ((s.ringWrite n r).ring n).ringW = (s.ring n).ringW + 1 := by
  rw [State.ringWrite, State.ring_modRing]
  rfl

theorem State.ringWrite_events (s : State) (n : Nat) (r : List Byte) : (s.ringWrite n r).events = s.events := State.modRing_events _ _ _

/-- A new event record of a ring: its type and its place. -/
theorem State.ringWrite_eventRecord {s : State} {n : Nat} (code place stat count : Nat)
    (h : s.Opened ((s.ring n).ringKey (s.ring n).ringW) 64) :
    memRead (s.ringWrite n (s.eventRecord n code place stat count)).mem ((s.ring n).ringKey (s.ring n).ringW) 1 = 2 ∧
    memRead (s.ringWrite n (s.eventRecord n code place stat count)).mem ((s.ring n).ringKey (s.ring n).ringW + 16) 8 = place % 2 ^ 64 := by
  have len := s.eventRecord_length n code place stat count
  have written := State.ringWrite_record (len.symm ▸ h)
  rw [len] at written
  have at0 := memRead_eq_recField (s.ringWrite n (s.eventRecord n code place stat count)).mem ((s.ring n).ringKey (s.ring n).ringW) 0 1 64 (by omega)
  have at16 := memRead_eq_recField (s.ringWrite n (s.eventRecord n code place stat count)).mem ((s.ring n).ringKey (s.ring n).ringW) 16 8 64 (by omega)
  rw [written, recField_eventRecord_type, Nat.add_zero] at at0
  rw [written, recField_eventRecord_place] at at16
  exact ⟨at0, at16⟩

section
variable {s : State} (he : (s.on.a, s.on.b, s.on.c, s.on.d) ∈ s.events) (hn : s.newestEvent s.on.a = none)
include he hn

/-- An event goes to its ring as a record of its own, which holds its type and its place. -/
theorem happens_eventRecord_of_room (hr : (s.ring s.on.a).ringRoom = true)
    (ho : s.Opened ((s.ring s.on.a).ringKey (s.ring s.on.a).ringW) 64) :
    Happens .eventRecord s fun t => (t.ring s.on.a).ringW = (s.ring s.on.a).ringW + 1 ∧
      memRead t.mem ((s.ring s.on.a).ringKey (s.ring s.on.a).ringW) 1 = 2 ∧
      memRead t.mem ((s.ring s.on.a).ringKey (s.ring s.on.a).ringW + 16) 8 = s.on.c % 2 ^ 64 ∧
      t.events = s.events.erase (s.on.a, s.on.b, s.on.c, s.on.d) := by
  refine ⟨_, (exec_eventRecord_of_mem he).trans (congrArg _ (State.writeEvent_of_room hn hr)), ?_⟩
  obtain ⟨kind, place⟩ := State.ringWrite_eventRecord (s := { s with events := s.events.erase (s.on.a, s.on.b, s.on.c, s.on.d) })
    (n := s.on.a) s.on.b s.on.c s.on.d 1 (ho.congr rfl fun _ => rfl)
  exact ⟨State.ringW_ringWrite _ _ _, kind, place, State.ringWrite_events _ _ _⟩

/-- An event of a full ring is dropped and counted. -/
theorem happens_eventRecord_of_full (hr : (s.ring s.on.a).ringRoom = false) :
    Happens .eventRecord s fun t => t.mem = s.mem ∧ (t.ring s.on.a).dropped = (s.ring s.on.a).dropped + 1 := by
  exact ⟨_, (exec_eventRecord_of_mem he).trans (congrArg _ (State.writeEvent_of_full hn hr)), State.modRing_mem _ _ _,
    congrArg Context.dropped (State.ring_modRing _ _ _)⟩

end

/-! ## Interrupts -/

theorem Context.signal_masked {x : Context} {v : Nat} (h : x.masked v = true) :
    x.signal v = { x with irqPending := addOnce x.irqPending v } := if_pos h

theorem Context.signal_unmasked {x : Context} {v : Nat} (h : x.masked v = false) : x.signal v =
    { x with irqs := tabSet x.irqs v ((tabGet x.irqs v).getD 0 + 1), irqPending := x.irqPending.filter (· != v) } :=
  if_neg (Bool.eq_false_iff.1 h)

/-- A signalled vector that is not masked sends its message and waits no longer. -/
theorem Context.signal_sends {x : Context} {v : Nat} (h : x.masked v = false) :
    tabGet (x.signal v).irqs v = some ((tabGet x.irqs v).getD 0 + 1) ∧ v ∉ (x.signal v).irqPending := by
  rw [Context.signal_unmasked h]
  exact ⟨tabGet_tabSet_same _ _ _, by simp⟩

theorem happens_msixInterrupt {s : State} (h : s.irqDue s.on.a = true) : Happens .msixInterrupt s fun t =>
    (t.ring s.on.a).sinceIrq = 0 ∧ t.mem = s.mem ∧
    if (s.ring s.on.a).masked (s.ring s.on.a).vector then
      (s.ring s.on.a).vector ∈ (t.ring s.on.a).irqPending ∧ (t.ring s.on.a).irqs = (s.ring s.on.a).irqs
    else tabGet (t.ring s.on.a).irqs (s.ring s.on.a).vector = some ((tabGet (s.ring s.on.a).irqs (s.ring s.on.a).vector).getD 0 + 1) ∧
      (s.ring s.on.a).vector ∉ (t.ring s.on.a).irqPending := by
  have e : exec .msixInterrupt s = .next (s.modRing s.on.a fun x => { x with sinceIrq := 0 }.signal x.vector) := by
    change execMsixInterrupt s = _
    simp [execMsixInterrupt, h]
  refine ⟨_, e, ?_⟩
  simp only [State.ring_modRing, State.modRing_mem]
  generalize s.ring s.on.a = x
  by_cases hm : x.masked x.vector = true
  · rw [if_pos hm, Context.signal_masked (x := { x with sinceIrq := 0 }) hm]
    simp
  · have hm' : ({ x with sinceIrq := 0 } : Context).masked x.vector = false := Bool.eq_false_iff.2 hm
    rw [if_neg hm]
    refine ⟨?_, trivial, Context.signal_sends hm'⟩
    rw [Context.signal_unmasked hm']

/-! ## BAR0 -/

theorem exec_bar0Access_read {s : State} (h : s.on.flag = true) :
    exec .bar0Access s = .next { s with answer := s.bar0Word s.on.a (s.on.b / 8 * 8) } := by
  change execBar0Access s = _
  simp only [execBar0Access, h, if_true]

/-- A read of BAR0 answers with the aligned word at its offset. -/
theorem happens_bar0Access_read {s : State} {r : Option (List Byte)} (h : s.on.flag = true) (ha : s.on.b % 8 = 0)
    (hr : s.bar0Word s.on.a s.on.b = r) : Happens .bar0Access s fun t => t = { s with answer := r } := by
  refine ⟨_, exec_bar0Access_read h, ?_⟩
  rw [Nat.div_mul_cancel (Nat.dvd_of_mod_eq_zero ha), hr]

theorem State.bar0Word_readIndex (s : State) (fn : Nat) : s.bar0Word fn 0x2000 = some (toBytes 8 (s.ring fn).ringR) := by
  simp [State.bar0Word]

theorem State.bar0Word_status {fn off : Nat} (s : State) (h : fn < 16) (ho : off < 0x1000) :
    s.bar0Word fn off = some (toBytes 8 (s.statusWord fn off)) := by
  simp [State.bar0Word, ho, Nat.ne_of_lt h]

theorem State.bar0Word_quay {s : State} {fn q j m : Nat} (hj : j < 64) (hq : q < 4) (hm : (s.quaysOf fn)[q]? = some m) :
    s.bar0Word fn (0x1000 + 64 * q + j) = s.homeBytes (pkey 0 (quayHeader m + j)) 8 := by
  have hd : (0x1000 + 64 * q + j - 0x1000) / 64 = q := by omega
  have hr : (0x1000 + 64 * q + j) % 64 = j := by omega
  simp only [State.bar0Word, hd, hr, hm]
  rw [if_neg (by omega), if_neg (by omega), if_pos (by omega)]

theorem State.bar0Word_msix {s : State} {fn off v : Nat} (h : 0x8000 ≤ off) (h' : off < 0x8200) (hv : tabGet (s.ring fn).msix off = some v) :
    s.bar0Word fn off = some (toBytes 8 v) := by
  simp only [State.bar0Word, hv, msixBase]
  rw [if_neg (by omega), if_neg (by omega), if_neg (by omega), if_neg (by omega), if_pos (by omega)]
  rfl

/-- The host moves a ring's read index, to its write index at most. -/
theorem happens_bar0Access_readIndex {s : State} (h : s.on.flag = false) (ho : s.on.b = 0x2000) : Happens .bar0Access s fun t =>
    (t.ring s.on.a).ringR = min s.on.word.toNat (s.ring s.on.a).ringW ∧ t.mem = s.mem := by
  have e : exec .bar0Access s = .next (s.modRing s.on.a fun x => { x with ringR := min s.on.word.toNat x.ringW }) := by
    change execBar0Access s = _
    simp [execBar0Access, h, ho]
  refine ⟨_, e, ?_, State.modRing_mem _ _ _⟩
  rw [State.ring_modRing]

/-- A vector that the host unmasks and that waits is sent. -/
theorem Context.writeMsix_sends {x : Context} {v : Nat} {w : Word} (hw : w.getLsbD 32 = false) (hv : v ∈ x.irqPending) :
    tabGet (x.writeMsix (0x8000 + 16 * v + 8) w.toNat).irqs v = some ((tabGet x.irqs v).getD 0 + 1) ∧
      v ∉ (x.writeMsix (0x8000 + 16 * v + 8) w.toNat).irqPending := by
  have hn : (0x8000 + 16 * v + 8 - msixBase) / 16 = v := by unfold msixBase; omega
  have hm : ({ x with msix := tabSet x.msix (0x8000 + 16 * v + 8) w.toNat } : Context).masked v = false := by
    simp only [Context.masked, msixBase, tabGet_tabSet_same]
    exact hw
  simp only [Context.writeMsix, hn, List.contains_iff_mem.2 hv, if_true]
  exact Context.signal_sends hm

theorem Context.writeMsix_msix (x : Context) (off v : Nat) : tabGet (x.writeMsix off v).msix off = some v := by
  have hs : ∀ (y : Context) n, (y.signal n).msix = y.msix := by
    intro y n
    unfold Context.signal
    split <;> rfl
  unfold Context.writeMsix
  dsimp only
  split
  · rw [hs]; exact tabGet_tabSet_same _ _ _
  · exact tabGet_tabSet_same _ _ _

theorem happens_bar0Access_msix {s : State} (h : s.on.flag = false) (h1 : 0x8000 ≤ s.on.b) (h2 : s.on.b < 0x8200) (h3 : s.on.b % 8 = 0) :
    Happens .bar0Access s fun t => tabGet (t.ring s.on.a).msix s.on.b = some s.on.word.toNat ∧ t.mem = s.mem ∧
      ∀ v, s.on.b = 0x8000 + 16 * v + 8 → s.on.word.getLsbD 32 = false → v ∈ (s.ring s.on.a).irqPending →
        tabGet (t.ring s.on.a).irqs v = some ((tabGet (s.ring s.on.a).irqs v).getD 0 + 1) ∧ v ∉ (t.ring s.on.a).irqPending := by
  have e : exec .bar0Access s = .next (s.modRing s.on.a fun x => x.writeMsix s.on.b s.on.word.toNat) := by
    change execBar0Access s = _
    simp only [execBar0Access, h]
    rw [if_neg (by simp), if_neg (by omega), if_pos (by unfold msixBase; omega)]
  refine ⟨_, e, ?_, State.modRing_mem _ _ _, ?_⟩
  · rw [State.ring_modRing]; exact Context.writeMsix_msix _ _ _
  · intro v hb hw hv
    rw [State.ring_modRing, hb]
    exact Context.writeMsix_sends hw hv

/-- Every other word of BAR0 takes no write. -/
theorem happens_bar0Access_other {s : State} (h : s.on.flag = false) (h1 : s.on.b ≠ 0x2000)
    (h2 : s.on.b < 0x8000 ∨ 0x8200 ≤ s.on.b ∨ s.on.b % 8 ≠ 0) : Happens .bar0Access s fun t => t = s := by
  refine ⟨s, ?_, rfl⟩
  change execBar0Access s = _
  simp only [execBar0Access, h]
  rw [if_neg (by simp), if_neg h1, if_neg (by unfold msixBase; omega)]

end Sys2Proof.Machine
end

section
/-! PROOF. Accesses from the host and from peers (O47). -/

namespace Sys2Proof.Machine

/-! ## At the home -/

theorem State.outsideRefused_counted (s : State) (n : Nat) (q : OutsideAccess) : (s.outsideRefused n q).mem = s.mem ∧
    ((s.outsideRefused n q).ctx n).refused = (s.ctx n).refused + 1 := by
  cases q <;> exact ⟨rfl, congrArg Context.refused (State.ctx_modCtx _ _ _)⟩

theorem State.outsideAt_write {s : State} {key a : Nat} {b : List Byte} (h : s.Opened key b.length) :
    s.Wrote (s.outsideAt key (.write a b)) key b := State.wrote_writeHome h

theorem State.outsideAt_fetchAdd {s : State} {key : Nat} (a : Nat) (v : Word) (h : s.Opened key 8) :
    s.Wrote (s.outsideAt key (.fetchAdd a v)) key (toBytes 8 (memRead s.mem key 8 + v.toNat)) := by
  have ho : (s.readEffects key 8).Opened key (toBytes 8 (memRead s.mem key 8 + v.toNat)).length :=
    ⟨(s.readEffects_mem key 8).symm ▸ h.1, fun g hg => (s.mappedOut_readEffects key 8 g).trans (h.2 g (toBytes_length 8 _ ▸ hg))⟩
  have w := State.wrote_writeHome ho
  unfold State.Wrote at w ⊢
  rw [State.readEffects_mem] at w
  exact w

theorem State.homeBytes_of_good {s : State} {key n : Nat} (h : s.readBad key n = false) : s.homeBytes key n = some (memBytes s.mem key n) :=
  if_neg (Bool.eq_false_iff.1 h)

/-! ## BAR2 -/

/-- What an access from outside asks of its leaf. -/
def outsideNeed : OutsideAccess → Need
  | .read _ _ => .read
  | .write _ _ => .write
  | .fetchAdd _ _ => .atomic false

/-- A write to a page that is not of an older epoch needs no copy to the shadow. -/
theorem State.gate_of_current {s : State} {ctx : Nat} (va : Nat) {l : Leaf} (h : olderEpoch (s.ctx ctx).epoch (s.fresh l).epoch = false) :
    s.gate ctx va l none = .go s := by
  simp [State.gate, h]

section
variable {s : State} {q : OutsideAccess} {l : Leaf} (hq : s.on.access = q)
include hq

theorem exec_bar2Access_beyond (h : bar2Size < (outsideParts q).1 + (outsideParts q).2.1) :
    exec .bar2Access s = .next (s.outsideRefused (s.on.a % 16) q) := by
  subst hq
  change execBar2Access s = _
  simp only [execBar2Access, h, if_true]

theorem exec_bar2Access_bad {z : Nat} (h : (outsideParts q).1 + (outsideParts q).2.1 ≤ bar2Size)
    (ht : s.translate 0 (s.on.a % 16) ((s.ctx (s.on.a % 16)).bar2 + (outsideParts q).1) (outsideNeed q) false = .bad z) :
    exec .bar2Access s = .next (s.outsideRefused (s.on.a % 16) q) := by
  change execBar2Access s = _
  unfold execBar2Access
  rw [hq, if_neg (Nat.not_lt.2 h)]
  cases q <;> (dsimp only [outsideNeed] at ht ⊢; rw [ht])

theorem exec_bar2Access_elsewhere (h : (outsideParts q).1 + (outsideParts q).2.1 ≤ bar2Size)
    (ht : s.translate 0 (s.on.a % 16) ((s.ctx (s.on.a % 16)).bar2 + (outsideParts q).1) (outsideNeed q) false = .ok l) (ha : l.ap ≠ 0) :
    exec .bar2Access s = .next (s.outsideRefused (s.on.a % 16) q) := by
  change execBar2Access s = _
  unfold execBar2Access
  rw [hq, if_neg (Nat.not_lt.2 h)]
  cases q <;> (dsimp only [outsideNeed] at ht ⊢; rw [ht]; exact if_pos (.inl ha))

/-- An access within a page of this package is performed at its home, a write once its page has the epoch. -/
theorem exec_bar2Access_performed (h : (outsideParts q).1 + (outsideParts q).2.1 ≤ bar2Size)
    (ht : s.translate 0 (s.on.a % 16) ((s.ctx (s.on.a % 16)).bar2 + (outsideParts q).1) (outsideNeed q) false = .ok l) (ha : l.ap = 0)
    (hp : ((s.ctx (s.on.a % 16)).bar2 + (outsideParts q).1) % l.size + (outsideParts q).2.1 ≤ l.size)
    (hw : (outsideParts q).2.2 = true → olderEpoch (s.ctx (s.on.a % 16)).epoch (s.fresh l).epoch = false) :
    exec .bar2Access s = .next (s.outsideAt (l.key ((s.ctx (s.on.a % 16)).bar2 + (outsideParts q).1)) q) := by
  have hin : ¬ (l.ap ≠ 0 ∨ l.size < ((s.ctx (s.on.a % 16)).bar2 + (outsideParts q).1) % l.size + (outsideParts q).2.1) := by omega
  change execBar2Access s = _
  unfold execBar2Access
  rw [hq, if_neg (Nat.not_lt.2 h)]
  cases q with
  | read a n => dsimp only [outsideNeed] at ht ⊢; rw [ht]; exact if_neg hin
  | write a b | fetchAdd a v =>
    dsimp only [outsideNeed] at ht ⊢
    rw [ht]
    dsimp only
    rw [if_neg hin, State.gate_of_current _ (hw rfl)]
    rfl

end

/-! ## Peers -/

/-- When an access of a peer can come (10 R331). -/
theorem State.peerComes_of {s : State} {rack : Nat}
    (h : (s.inMinute = true ∧ ∃ p ∈ s.apertures, p.2.valid = true ∧ s.facesPeer p.1 = true) ∨
      (3000 ≤ s.hourOff ∧ s.expired = false ∧ ∃ p ∈ s.apertures, p.2.valid = true ∧ p.2.rack = rack ∧ s.facesPeer p.1 = true)) :
    s.peerComes rack = true := by
  rcases h with ⟨hm, p, hp, hv, hf⟩ | ⟨ho, he, p, hp, hv, hr, hf⟩
  · have : (s.apertures.any fun a => a.2.valid && s.facesPeer a.1) = true := List.any_eq_true.2 ⟨p, hp, by simp [hv, hf]⟩
    simp [State.peerComes, hm, this]
  · have : (s.apertures.any fun a => a.2.valid && a.2.rack == rack && s.facesPeer a.1) = true :=
      List.any_eq_true.2 ⟨p, hp, by simp [hv, hr, hf]⟩
    simp [State.peerComes, ho, he, this]

/-- A peer's access is served: the aperture table names the peer, and stacks back the bytes (12 R368). -/
def State.serves (s : State) (q : OutsideAccess) : Bool :=
  s.namesPeer s.on.a && backed (outsideParts q).1 && backed ((outsideParts q).1 + (outsideParts q).2.1 - 1)

section
variable {s : State} {q : OutsideAccess} (hq : s.on.access = q) (hc : s.peerComes s.on.a = true)
include hq hc

theorem exec_remoteAccessRequest_served (h : s.serves q = true) :
    exec .remoteAccessRequest s = .next (s.outsideAt (outsideParts q).1 q) := by
  change execRemoteAccessRequest s = _
  unfold State.serves at h
  simp only [execRemoteAccessRequest, hc, hq, h, pkey_zero]
  rfl

theorem exec_remoteAccessRequest_unserved (h : s.serves q = false) :
    (∀ a n, q = .read a n → exec .remoteAccessRequest s = .next { s with answer := none }) ∧
    (∀ a b, q = .write a b → exec .remoteAccessRequest s = .next s) := by
  change (∀ a n, _ → execRemoteAccessRequest s = _) ∧ ∀ a b, _ → execRemoteAccessRequest s = _
  unfold State.serves at h
  simp only [execRemoteAccessRequest, hc, hq, h]
  exact ⟨fun a n e => by subst e; rfl, fun a b e => by subst e; rfl⟩

end

theorem happens_remoteAccessRequest_read {s : State} {a n : Nat} (hq : s.on.access = .read a n) (hc : s.peerComes s.on.a = true) :
    Happens .remoteAccessRequest s fun t => t.mem = s.mem ∧ t.answer =
      if s.namesPeer s.on.a = true ∧ backed a = true ∧ backed (a + n - 1) = true ∧ s.readBad a n = false then some (memBytes s.mem a n)
      else none := by
  have hs : s.serves (.read a n) = true ↔ s.namesPeer s.on.a = true ∧ backed a = true ∧ backed (a + n - 1) = true := by
    simp [State.serves, outsideParts, and_assoc]
  cases h : s.serves (.read a n) with
  | true =>
    refine ⟨_, exec_remoteAccessRequest_served hq hc h, s.readEffects_mem a n, ?_⟩
    obtain ⟨h1, h2, h3⟩ := hs.1 h
    cases hb : s.readBad a n <;> simp [State.outsideAt, outsideParts, State.homeBytes, h1, h2, h3, hb]
  | false =>
    refine ⟨_, (exec_remoteAccessRequest_unserved hq hc h).1 a n rfl, rfl, (if_neg fun ⟨h1, h2, h3, _⟩ => ?_).symm⟩
    rw [hs.2 ⟨h1, h2, h3⟩] at h
    cases h

/-! ## WIDX of a quay -/

theorem exec_hostFetchadd_some {s : State} {q : Nat} (h : (s.quaysOf (s.on.a % 16))[s.on.b]? = some q) :
    exec .hostFetchadd s = .next (s.outsideAt (quayHeader q) (.fetchAdd 0 s.on.word)) := by
  change execHostFetchadd s = _
  simp only [execHostFetchadd, h, pkey_zero]

theorem exec_hostFetchadd_none {s : State} (h : (s.quaysOf (s.on.a % 16))[s.on.b]? = none) :
    exec .hostFetchadd s = .next (s.outsideRefused (s.on.a % 16) (.fetchAdd 0 0)) := by
  change execHostFetchadd s = _
  simp only [execHostFetchadd, h]

/-- Settles O47: each event of the host's port, by the lemma of its case; what is written at a home is read back by `State.wrote_writeHome`. -/
theorem hostEvents : Obligations.HostEvents := by
  unfold Obligations.HostEvents
  intro s l a n b ring x ctx acc va refused opened comes wrote
  have counted : ∀ q, refused (s.outsideRefused ctx q) := s.outsideRefused_counted ctx
  refine ⟨fun he hn => ⟨fun hr _ ho => happens_eventRecord_of_room he hn hr ho, fun hr _ => happens_eventRecord_of_full he hn hr⟩,
    fun h _ => happens_msixInterrupt h, ?_, fun h _ ho => happens_bar0Access_readIndex h ho,
    fun h _ h1 h2 h3 => happens_bar0Access_msix h h1 h2 h3, happens_bar0Access_other, ?_, ?_, ?_, ?_, ?_⟩
  · intro hf gives
    have status : ∀ {off v}, ring < 16 → s.on.b = off → off < 0x1000 → off % 8 = 0 → s.statusWord ring off = v → gives v :=
      fun hr hb ho hm hv => happens_bar0Access_read hf (hb ▸ hm) (hb ▸ hv ▸ s.bar0Word_status hr ho)
    refine ⟨fun hb => happens_bar0Access_read hf (by rw [hb]) (hb ▸ s.bar0Word_readIndex _), fun hr => ?_,
      fun v h1 h2 h3 hv => happens_bar0Access_read hf h3 (State.bar0Word_msix h1 h2 hv)⟩
    have hx : x = s.ctx ring := s.ring_of_lt hr
    refine ⟨fun hb => status hr hb (by decide) rfl rfl, fun hb => status hr hb (by decide) rfl (hx ▸ rfl),
      fun hb => status hr hb (by decide) rfl rfl, fun hb => status hr hb (by decide) rfl (hx ▸ rfl),
      fun hb => status hr hb (by decide) rfl (hx ▸ rfl), fun hb => status hr hb (by decide) rfl (hx ▸ rfl), ?_⟩
    intro q j m hj hm hb hq hs
    have word := State.bar0Word_quay hj hq hs
    rw [← hb] at word
    exact ⟨fun h => happens_bar0Access_read hf (by omega) (word.trans (State.homeBytes_of_good h)),
      fun h => happens_bar0Access_read hf (by omega) (word.trans (if_pos h))⟩
  · intro hq
    exact ⟨fun h => ⟨_, exec_bar2Access_beyond hq h, counted _⟩, fun h z ht => ⟨_, exec_bar2Access_bad hq h ht, counted _⟩,
      fun h ht ha => ⟨_, exec_bar2Access_elsewhere hq h ht ha, counted _⟩,
      fun h ht ha hp => ⟨_, exec_bar2Access_performed hq h ht ha hp (fun e => nomatch e), s.readEffects_mem _ _, rfl⟩,
      fun hc => happens_remoteAccessRequest_read hq (State.peerComes_of hc)⟩
  · intro v hq h ht ha hp he ho hb
    exact ⟨_, exec_bar2Access_performed hq h ht ha hp (fun _ => he), State.outsideAt_fetchAdd a v ho, State.homeBytes_of_good hb⟩
  · intro hq
    refine ⟨fun h => ⟨_, exec_bar2Access_beyond hq h, counted _⟩,
      fun h ht ha hp he ho => ⟨_, exec_bar2Access_performed hq h ht ha hp (fun _ => he), State.outsideAt_write ho⟩, fun hc hn => ?_, ?_⟩
    · have unserved : s.serves (.write a b) = false := by simp [State.serves, hn]
      exact ⟨_, (exec_remoteAccessRequest_unserved hq (State.peerComes_of hc) unserved).2 a b rfl, rfl⟩
    · intro hc hn h1 h2 ho
      have served : s.serves (.write a b) = true := by simp [State.serves, outsideParts, hn, h1, h2]
      exact ⟨_, exec_remoteAccessRequest_served hq (State.peerComes_of hc) served, State.outsideAt_write ho⟩
  · exact fun q h ho => ⟨_, exec_hostFetchadd_some h, State.outsideAt_fetchAdd 0 _ ho, State.homeBytes_of_good⟩
  · exact fun h => ⟨_, exec_hostFetchadd_none h, counted _⟩

end Sys2Proof.Machine
end

section
/-! PROOF. The core clock and its limits (01 R16, R27; O48), and the standing of a launch for a stop of all its cores (02 R46). -/

namespace Sys2Proof.Machine

/-! ## Launches that stand -/

/-- A core stands, and no handler runs on it. -/
def State.Held (s : State) (c : Nat) : Prop := (s.core c).frozen = true ∧ (s.core c).held = true

theorem State.Held.modCore {s : State} {c d : Nat} {f : Core → Core} (h : s.Held c) (hf : ∀ k, (f k).frozen = true ∧ (f k).held = true) :
    (s.modCore d f).Held c := by
  unfold State.Held
  by_cases e : c = d
  · rw [e, State.core_modCore_same]
    exact hf _
  · rw [State.core_modCore_other _ _ _ _ e]
    exact h

/-- What a launch's stop keeps: all but its cores and its own record. -/
theorem State.holdLaunch_keeps {γ : Type} (π : State → γ) (hc : ∀ s d f, π (State.modCore s d f) = π s)
    (hl : ∀ s n f, π (State.modLaunch s n f) = π s) (s : State) (l : Launch) (u : Nat) : π (s.holdLaunch l u) = π s :=
  (foldl_keeps π (fun s d => hc s d _) _ _).trans (hl s _ _)

theorem State.holdLaunch_held {s : State} {l : Launch} (u : Nat) {c : Nat} (h : c ∈ l.cores) : (s.holdLaunch l u).Held c :=
  foldl_of_mem (P := fun t : State => t.Held c) h
    (fun s => by unfold State.Held; rw [State.core_modCore_same]; exact ⟨rfl, rfl⟩)
    (fun _ _ hp => hp.modCore fun _ => ⟨rfl, rfl⟩)

theorem State.Held.holdLaunch {s : State} {c : Nat} (h : s.Held c) (l : Launch) (u : Nat) : (s.holdLaunch l u).Held c :=
  List.foldlRecOn (motive := fun (t : State) => t.Held c) l.cores _ (show (s.modLaunch l.lid _).Held c from h)
    fun _ hp _ _ => hp.modCore fun _ => ⟨rfl, rfl⟩

theorem State.launch?_holdLaunch (s : State) (l : Launch) (u n : Nat) : (s.holdLaunch l u).launch? n =
    if n = l.lid then (s.launch? n).map fun m => { m with frozenUntil := some (max u (m.frozenUntil.getD 0)) } else s.launch? n := by
  have e : (s.holdLaunch l u).launch? n = (s.modLaunch l.lid fun l => { l with frozenUntil := some (max u (l.frozenUntil.getD 0)) }).launch? n :=
    foldl_keeps (fun s : State => s.launch? n) (fun _ _ => by rfl) _ _
  rw [e]
  split
  · rename_i h
    subst h
    exact s.launch?_modLaunch _ _ fun _ => rfl
  · rename_i h
    exact s.launch?_modLaunch_other _ _ _ (fun _ => rfl) h

/-- Every running launch stands until a time. -/
def State.holdRunning (s : State) (u : Nat) : State :=
  (s.launches.filter fun l => l.stage == .running).foldl (fun (s : State) l => s.holdLaunch l u) s

theorem State.holdRunning_keeps {γ : Type} (π : State → γ) (hc : ∀ s d f, π (State.modCore s d f) = π s)
    (hl : ∀ s n f, π (State.modLaunch s n f) = π s) (s : State) (u : Nat) : π (s.holdRunning u) = π s :=
  foldl_keeps π (fun s l => s.holdLaunch_keeps π hc hl l u) _ _

theorem State.mem_running {s : State} {l : Launch} (h : s.launch? l.lid = some l) (hr : l.stage = .running) :
    l ∈ s.launches.filter fun l => l.stage == .running :=
  List.mem_filter.2 ⟨List.mem_of_find?_eq_some h, by simp [hr]⟩

theorem State.holdRunning_held {s : State} {l : Launch} (u : Nat) (h : s.launch? l.lid = some l) (hr : l.stage = .running) {c : Nat}
    (hc : c ∈ l.cores) : (s.holdRunning u).Held c :=
  foldl_of_mem (P := fun t : State => t.Held c) (State.mem_running h hr)
    (fun _ => State.holdLaunch_held u hc) (fun _ y hp => hp.holdLaunch y u)

/-- A running launch stands until that time, or until the later one that it already stands for. -/
theorem State.launch?_holdRunning {s : State} {l : Launch} (u : Nat) (h : s.launch? l.lid = some l) (hr : l.stage = .running) :
    ∃ m, (s.holdRunning u).launch? l.lid = some m ∧ m.frozenUntil = some (max u (l.frozenUntil.getD 0)) := by
  have step : ∀ {m : Launch}, m.frozenUntil = l.frozenUntil ∨ m.frozenUntil = some (max u (l.frozenUntil.getD 0)) →
      some (max u (m.frozenUntil.getD 0)) = some (max u (l.frozenUntil.getD 0)) := by
    rintro m (h | h) <;> simp [h]
  refine foldl_of_mem_of_inv (I := fun t : State => ∃ m, t.launch? l.lid = some m ∧
      (m.frozenUntil = l.frozenUntil ∨ m.frozenUntil = some (max u (l.frozenUntil.getD 0))))
    (P := fun t : State => ∃ m, t.launch? l.lid = some m ∧ m.frozenUntil = some (max u (l.frozenUntil.getD 0)))
    (State.mem_running h hr) ⟨l, h, .inl rfl⟩ ?_ ?_ ?_
  · rintro t y ⟨m, hm, hf⟩
    rw [State.launch?_holdLaunch, hm]
    split
    · exact ⟨_, rfl, .inr (step hf)⟩
    · exact ⟨m, rfl, hf⟩
  · rintro t ⟨m, hm, hf⟩
    rw [State.launch?_holdLaunch, hm, if_pos rfl]
    exact ⟨_, rfl, step hf⟩
  · rintro t y - ⟨m, hm, hf⟩
    rw [State.launch?_holdLaunch, hm]
    split
    · exact ⟨_, rfl, step (.inr hf)⟩
    · exact ⟨m, rfl, hf⟩

/-! ## Decisions -/

/-- A change of the clock is on its way, to come within 512 ticks of `now`. -/
def State.ClockDecided (t : State) (now : Nat) (down : Bool) : Prop := ∃ d, t.clockDue = some d ∧ now < d ∧ d ≤ now + 512 ∧
  ∃ e ∈ t.agenda, e.ev = .clockChange ∧ e.on.flag = down ∧ e.at_ = d

theorem State.decideClock_decided (s : State) (down : Bool) : (s.decideClock down).ClockDecided s.now down := by
  obtain ⟨h1, h2⟩ := s.choice_bounds (lo := 1) (hi := 512) (by decide)
  exact ⟨s.now + s.choice 1 512, rfl, by omega, by omega, _, (mem_insertBy _ _ _ _).2 (.inl rfl), rfl, rfl, rfl⟩

@[simp] theorem State.decideClock_hot (s : State) (down : Bool) : (s.decideClock down).hot = s.hot := rfl
@[simp] theorem State.decideClock_limitAt (s : State) (down : Bool) : (s.decideClock down).limitAt = s.limitAt := rfl
@[simp] theorem State.decideClock_events (s : State) (down : Bool) : (s.decideClock down).events = s.events := rfl

theorem State.stepDown_of_high {s : State} (h : s.hot = true ∧ 4 < s.clock) : s.stepDown = s.decideClock true := if_pos h

theorem State.stepDown_of_low {s : State} (h : ¬ (s.hot = true ∧ 4 < s.clock)) : s.stepDown = s := if_neg h

/-- What the decision of a step down keeps. -/
theorem State.stepDown_keeps {γ : Type} (π : State → γ) (h : ∀ s b, π (State.decideClock s b) = π s) (s : State) : π s.stepDown = π s := by
  unfold State.stepDown
  split
  · exact h _ _
  · rfl

/-! ## THERMAL_OR_POWER -/

/-- The supervisor of every tile hears that a limit is passed. -/
def State.tellThermal (s : State) : State := (List.range 8).foldl (fun (s : State) t => s.postSup thermalC t 0) s

/-- What follows as a limit is passed, but for the clock. -/
def State.limitPassed (s : State) : State := { s.tellThermal with hot := true, limitAt := s.tellThermal.wall, lowAt := s.tellThermal.wall }

theorem State.tellThermal_keeps {γ : Type} (π : State → γ) (h : ∀ s a b c, π (State.postSup s a b c) = π s) (s : State) :
    π s.tellThermal = π s := foldl_keeps π (fun s _ => h s _ _ _) _ _

theorem State.limitPassed_events (s : State) {i : Nat} (h : i < 8) : (16, cause 5 7 7, i, 0) ∈ s.limitPassed.events :=
  foldl_of_mem (P := fun t : State => (16, cause 5 7 7, i, 0) ∈ t.events) (List.mem_range.2 h)
    (fun _ => List.mem_append_right _ (List.mem_singleton.2 rfl)) (fun _ _ hp => List.mem_append_left _ hp)

theorem exec_thermalOrPower_passed {s : State} (hd : s.on.flag = true) (h : s.hot = false) : exec .thermalOrPower s =
    .next (if 4 < s.limitPassed.clock ∧ s.limitPassed.clockDue.isNone then s.limitPassed.decideClock true else s.limitPassed) := by
  change execThermalOrPower s = _
  unfold execThermalOrPower
  rw [hd, h]
  rfl

theorem happens_thermalOrPower_passed {s : State} (hd : s.on.flag = true) (h : s.hot = false) : Happens .thermalOrPower s fun t =>
    t.hot = true ∧ t.limitAt = s.wall ∧ (∀ i, i < 8 → (16, cause 5 7 7, i, 0) ∈ t.events) ∧
      (4 < s.clock → s.clockDue = none → t.ClockDecided s.now true) := by
  refine ⟨_, exec_thermalOrPower_passed hd h, ?_⟩
  have clock : s.limitPassed.clock = s.clock := State.tellThermal_keeps State.clock (fun _ _ _ _ => rfl) s
  have due : s.limitPassed.clockDue = s.clockDue := State.tellThermal_keeps State.clockDue (fun _ _ _ _ => rfl) s
  have now : s.limitPassed.now = s.now := State.tellThermal_keeps State.now (fun _ _ _ _ => rfl) s
  have wall : s.limitPassed.limitAt = s.wall := State.tellThermal_keeps State.wall (fun _ _ _ _ => rfl) s
  split
  · simp only [State.decideClock_hot, State.decideClock_limitAt, State.decideClock_events]
    exact ⟨rfl, wall, fun i hi => s.limitPassed_events hi, fun _ _ => now ▸ State.decideClock_decided _ _⟩
  · rename_i hlow
    exact ⟨rfl, wall, fun i hi => s.limitPassed_events hi, fun h1 h2 => absurd ⟨clock.symm ▸ h1, by rw [due, h2]; rfl⟩ hlow⟩

theorem happens_thermalOrPower_again {s : State} (hd : s.on.flag = true) (h : s.hot = true) : Happens .thermalOrPower s fun t => t = s := by
  refine ⟨s, ?_, rfl⟩
  change execThermalOrPower s = _
  simp only [execThermalOrPower, hd, h, if_true]

theorem happens_thermalOrPower_within {s : State} (hd : s.on.flag = false) : Happens .thermalOrPower s fun t =>
    t.hot = false ∧ t.cores = s.cores ∧ t.clock = s.clock ∧ (s.hot = true → t.limitAt = s.wall ∧ t.thermal = false) := by
  have e : exec .thermalOrPower s = .next (if s.hot then { s with hot := false, limitAt := s.wall, thermal := false } else s) := by
    change execThermalOrPower s = _
    unfold execThermalOrPower
    rw [hd]
    cases s.hot <;> rfl
  refine ⟨_, e, ?_⟩
  cases h : s.hot with
  | true => exact ⟨rfl, rfl, rfl, fun _ => ⟨rfl, rfl⟩⟩
  | false => exact ⟨h, rfl, rfl, nofun⟩

/-! ## CLOCK_CHANGE -/

/-- The clock a step of 0.25 GHz on. -/
def State.clockStepped (s : State) (down : Bool) : State :=
  { ({ s with clockDue := none } : State).chosen with clock := if down then s.clock - 1 else s.clock + 1, lowAt := s.wall }

section
variable {s : State} {n : Nat} (hn : s.clockDue = some n)
include hn

theorem exec_clockChange_made (h : (s.on.flag = true ∧ s.hot = true ∧ 4 < s.clock) ∨ (s.on.flag = false ∧ s.hot = false ∧ s.clock < 8)) :
    exec .clockChange s =
      .next ((s.clockStepped s.on.flag).holdRunning (s.wall + s.choice 1 (nsUnits 4000 - 210))).stepDown := by
  have : ((s.on.flag && (!s.hot || decide (s.clock ≤ 4))) || (!s.on.flag && (s.hot || decide (8 ≤ s.clock)))) = false := by
    rcases h with ⟨hd, hh, hc⟩ | ⟨hd, hh, hc⟩ <;> simp [hd, hh, hc]
  change execClockChange s = _
  simp only [execClockChange, hn, this, Option.isNone]
  rfl

theorem exec_clockChange_dropped (h : (s.on.flag = true ∧ (s.hot = false ∨ s.clock ≤ 4)) ∨ (s.on.flag = false ∧ (s.hot = true ∨ 8 ≤ s.clock))) :
    exec .clockChange s = .next ({ s with clockDue := none } : State).stepDown := by
  have : ((s.on.flag && (!s.hot || decide (s.clock ≤ 4))) || (!s.on.flag && (s.hot || decide (8 ≤ s.clock)))) = true := by
    rcases h with ⟨hd, h⟩ | ⟨hd, h⟩ <;> rcases h with h | h <;> simp [hd, h]
  change execClockChange s = _
  simp only [execClockChange, hn, this, Option.isNone, if_true]
  rfl

theorem happens_clockChange_made
    (h : (s.on.flag = true ∧ s.hot = true ∧ 4 < s.clock) ∨ (s.on.flag = false ∧ s.hot = false ∧ s.clock < 8)) (l : Launch) :
    Happens .clockChange s fun t => t.clock = (if s.on.flag then s.clock - 1 else s.clock + 1) ∧
      (s.hot = true → 4 < t.clock → t.ClockDecided s.now true) ∧
      (s.launch? l.lid = some l → l.stage = .running → (∀ c ∈ l.cores, t.Held c) ∧
        ∃ m i, t.launch? l.lid = some m ∧ m.frozenUntil = some i ∧ s.wall < i ∧ i ≤ max (s.wall + nsUnits 4000) (l.frozenUntil.getD 0)) := by
  refine ⟨_, exec_clockChange_made hn h, ?_⟩
  have hu : s.wall < s.wall + s.choice 1 (nsUnits 4000 - 210) ∧ s.wall + s.choice 1 (nsUnits 4000 - 210) ≤ s.wall + nsUnits 4000 := by
    have := s.choice_bounds (lo := 1) (hi := nsUnits 4000 - 210) (by decide)
    omega
  generalize s.wall + s.choice 1 (nsUnits 4000 - 210) = u at hu ⊢
  have kept : ∀ {γ : Type} (π : State → γ), (∀ s d f, π (State.modCore s d f) = π s) → (∀ s n f, π (State.modLaunch s n f) = π s) →
      π ((s.clockStepped s.on.flag).holdRunning u) = π (s.clockStepped s.on.flag) :=
    fun π hc hl => State.holdRunning_keeps π hc hl _ u
  have clock := kept State.clock (fun _ _ _ => rfl) fun _ _ _ => rfl
  refine ⟨(State.stepDown_keeps State.clock (fun _ _ => rfl) _).trans clock, fun hh hc => ?_, fun hl hr => ⟨fun c hc => ?_, ?_⟩⟩
  · rw [State.stepDown_keeps State.clock (fun _ _ => rfl)] at hc
    rw [State.stepDown_of_high ⟨(kept State.hot (fun _ _ _ => rfl) fun _ _ _ => rfl).trans hh, hc⟩]
    have now := kept State.now (fun _ _ _ => rfl) fun _ _ _ => rfl
    exact now ▸ State.decideClock_decided _ true
  · unfold State.Held
    rw [State.stepDown_keeps (fun t => t.core c) (fun _ _ => rfl)]
    exact State.holdRunning_held (s := s.clockStepped s.on.flag) u hl hr hc
  · obtain ⟨m, hm, hf⟩ := State.launch?_holdRunning (s := s.clockStepped s.on.flag) u hl hr
    refine ⟨m, _, (State.stepDown_keeps (fun t => t.launch? l.lid) (fun _ _ => rfl) _).trans hm, hf, ?_, ?_⟩
    · omega
    · omega

theorem happens_clockChange_dropped
    (h : (s.on.flag = true ∧ (s.hot = false ∨ s.clock ≤ 4)) ∨ (s.on.flag = false ∧ (s.hot = true ∨ 8 ≤ s.clock))) :
    Happens .clockChange s fun t => if s.hot = true ∧ 4 < s.clock then t.clock = s.clock ∧ t.cores = s.cores ∧ t.ClockDecided s.now true
      else t = { s with clockDue := none } := by
  refine ⟨_, exec_clockChange_dropped hn h, ?_⟩
  split
  · rename_i hh
    rw [State.stepDown_of_high (s := { s with clockDue := none }) hh]
    exact ⟨rfl, rfl, State.decideClock_decided _ true⟩
  · rename_i hh
    exact State.stepDown_of_low (s := { s with clockDue := none }) hh

end

/-! ## CLOCK_RESTORE and THERMAL_TRAP -/

theorem happens_clockRestore {s : State} (hh : s.hot = false) (hc : s.clock < 8) (hn : s.clockDue = none)
    (hw : s.limitAt + nsUnits 100000000 ≤ s.wall) : Happens .clockRestore s fun t => t.ClockDecided s.now false := by
  refine ⟨s.decideClock false, ?_, s.decideClock_decided false⟩
  have due : s.restoreDue = true := by simp [State.restoreDue, hh, hc, hn, hw]
  change execClockRestore s = _
  simp only [execClockRestore, due, if_true]

/-- Every core of a launch takes a fault of its unit. -/
theorem State.foldl_unitFault_raised {s : State} {cs : List Nat} {c : Nat} (code : Nat) (h : c ∈ cs) :
    (cs.foldl (fun (s : State) c => s.unitFault c code) s).Raised c code :=
  foldl_of_mem (P := fun t : State => t.Raised c code) h
    (fun s => State.Raised.raiseAt s c _) (fun _ _ hp => hp.modCore _ _ fun _ _ hi => List.mem_append_left _ hi)

theorem State.Raised.foldl_unitFault {s : State} {c code : Nat} (h : s.Raised c code) (cs : List Nat) (code' : Nat) :
    (cs.foldl (fun (s : State) c => s.unitFault c code') s).Raised c code :=
  List.foldlRecOn (motive := fun (t : State) => t.Raised c code) cs _ h
    fun _ hp _ _ => hp.modCore _ _ fun _ _ hi => List.mem_append_left _ hi

theorem happens_thermalTrap {s : State} (hh : s.hot = true) (hc : s.clock = 4) (ht : s.thermal = false)
    (hw : s.lowAt + nsUnits 10000000 ≤ s.wall) : Happens .thermalTrap s fun t => t.thermal = true ∧
      ∀ l ∈ s.launches, l.stage = .running → ∀ c ∈ l.cores, t.Raised c (cause 5 7 7) := by
  have due : s.thermalDue = true := by simp [State.thermalDue, hh, hc, ht, hw]
  have e : exec .thermalTrap s = .next ((s.launches.filter fun l => l.stage == .running).foldl (fun (s : State) l =>
      l.cores.foldl (fun (s : State) c => s.unitFault c thermalC) s) { s with thermal := true }) := by
    change execThermalTrap s = _
    simp only [execThermalTrap, due]
    rfl
  refine ⟨_, e, foldl_keeps State.thermal (fun _ _ => foldl_keeps State.thermal (fun _ _ => by rfl) _ _) _ _, fun l hl hr c hc => ?_⟩
  exact foldl_of_mem (P := fun t : State => t.Raised c (cause 5 7 7))
    (List.mem_filter.2 ⟨hl, by simp [hr]⟩)
    (fun _ => State.foldl_unitFault_raised thermalC hc) (fun _ y hp => hp.foldl_unitFault y.cores thermalC)

end Sys2Proof.Machine
end

section
/-! PROOF. Boot: the stacks' training, the landings, the pursers (01 R14, 10 R324, 13 R412; O48). -/

namespace Sys2Proof.Machine

/-! ## Training -/

theorem State.stack_trainStacks (s : State) (full : Nat → Bool) (n : Nat) {i : Nat} (hi : i < 8) : (s.trainStacks full n).stack i =
    { s.stack i with trained := true, training := if full i then Config.training n i else (nvValues (vAt s.nv i)).getD [] } := by
  simp only [State.stack, State.trainStacks, vAt, Vector.getElem_ofFn, Nat.mod_eq_of_lt hi]
  rfl

theorem State.nv_trainStacks (s : State) (full : Nat → Bool) (n : Nat) {i : Nat} (hi : i < 8) : vAt (s.trainStacks full n).nv i =
    if full i then nvRecord (Config.training n i) else vAt s.nv i := by
  simp only [State.trainStacks, vAt, Vector.getElem_ofFn, Nat.mod_eq_of_lt hi]
  rfl

/-! ## Landings -/

/-- What the bring-up of a landing keeps. -/
theorem State.bringUp_keeps {γ : Type} (π : State → γ)
    (h : ∀ (s : State) c a l, π { s with freeCtr := c, alarms := a, landings := l } = π s) (s : State) (l : Nat) : π (s.bringUp l) = π s := by
  unfold State.bringUp State.enterStage
  dsimp only
  split <;> exact h s _ _ _

theorem State.landing_bringUp (s : State) (l i : Nat) : (s.bringUp l).landing i =
    if l % 132 = i % 132 then { s.landing l with stage := some 0, stageAt := s.wall, trained := false } else s.landing i := by
  have e : (s.bringUp l).landing i =
      (s.modLanding l fun x => { x with stage := some 0, stageAt := s.wall, trained := false }).landing i := by
    unfold State.bringUp State.enterStage
    dsimp only
    split <;> rfl
  rw [e, State.landing_modLanding']

/-- A landing that no bring-up has mapped out stands at the first stage of its bring-up. -/
theorem State.bootLandings_stage {s : State} {i : Nat} (hi : i < 132) (hf : (s.landing i).failed = false) :
    (s.bootLandings.landing i).stage = some 0 ∧ (s.bootLandings.landing i).trained = false := by
  have same : ∀ {t : State} {l : Nat}, l % 132 = i % 132 → t.landing l = t.landing i := fun h => by simp only [State.landing, vAt, h]
  refine foldl_of_mem_of_inv (I := fun t : State => (t.landing i).failed = false)
    (P := fun t : State => (t.landing i).stage = some 0 ∧ (t.landing i).trained = false) (List.mem_range.2 hi) hf ?_ ?_ ?_
  · intro t l ht
    split
    · exact ht
    · rw [State.landing_bringUp]
      split
      · rename_i h
        rw [same h]
        exact ht
      · exact ht
  · intro t ht
    rw [if_neg (by simp [ht]), State.landing_bringUp, if_pos rfl]
    exact ⟨rfl, rfl⟩
  · intro t l _ hp
    split
    · exact hp
    · rw [State.landing_bringUp]
      split
      · exact ⟨rfl, rfl⟩
      · exact hp

@[simp] theorem State.bootScans_cores (s : State) : s.bootScans.cores = s.cores := rfl
@[simp] theorem State.landing_bootScans (s : State) (i : Nat) : s.bootScans.landing i = s.landing i := rfl
@[simp] theorem State.tile_bootScans (s : State) (i : Nat) : s.bootScans.tile i = { s.tile i with scanAt := s.wall + nsUnits 50000000 } :=
  vAt_map _ _ _

/-! ## Pursers -/

/-- The purser of a tile begins its firmware, where it has a start. -/
def State.bootPurser (s : State) (t : Nat) : State := match Config.purserStart t with
  | some a => s.modCore (purserOf t) fun k => { k with
      helm := { k.helm with pc := BitVec.ofNat 64 a, ended := false, posBase := k.time, issueBase := k.time }
      helmSt := { npc := BitVec.ofNat 64 a + 8, nnpc := BitVec.ofNat 64 a + 16 } }
  | none => s

theorem State.bootPursers_eq (s : State) : s.bootPursers = (List.range 8).foldl State.bootPurser s := rfl

theorem State.bootPurser_idle (s : State) {t : Nat} (h : Config.purserStart t = none) : s.bootPurser t = s := by
  rw [State.bootPurser, h]

theorem State.bootPurser_keeps {γ : Type} (π : State → γ) (h : ∀ (s : State) d f, π (s.modCore d f) = π s) (s : State) (t : Nat) :
    π (s.bootPurser t) = π s := by
  unfold State.bootPurser
  split
  · exact h _ _ _
  · rfl

theorem State.bootPursers_keeps {γ : Type} (π : State → γ) (h : ∀ (s : State) d f, π (s.modCore d f) = π s) (s : State) :
    π s.bootPursers = π s := by
  rw [State.bootPursers_eq]
  exact foldl_keeps π (fun s t => s.bootPurser_keeps π h t) _ _

theorem State.bootPurser_other (s : State) {c t : Nat} (h : c ≠ purserOf t) : (s.bootPurser t).core c = s.core c := by
  unfold State.bootPurser
  split
  · exact State.core_modCore_other _ _ _ _ h
  · rfl

theorem State.bootPursers_other (s : State) {c : Nat} (h : ∀ t, t < 8 → c ≠ purserOf t) : s.bootPursers.core c = s.core c :=
  List.foldlRecOn (motive := fun t : State => t.core c = s.core c) (List.range 8) _ rfl
    fun t ht i hi => (t.bootPurser_other (h i (List.mem_range.1 hi))).trans ht

theorem State.bootPursers_idle (s : State) {i : Nat} (h : Config.purserStart i = none) : s.bootPursers.core (purserOf i) = s.core (purserOf i) :=
  List.foldlRecOn (motive := fun t : State => t.core (purserOf i) = s.core (purserOf i)) (List.range 8) _ rfl fun t ht j _ => by
    refine Eq.trans ?_ ht
    by_cases e : purserOf i = purserOf j
    · obtain rfl : i = j := Nat.add_left_cancel e
      exact congrArg (fun t : State => t.core (purserOf i)) (t.bootPurser_idle h)
    · exact t.bootPurser_other e

theorem State.bootPursers_started (s : State) {i a : Nat} (hi : i < 8) (h : Config.purserStart i = some a) :
    (s.bootPursers.core (purserOf i)).helm.pc = BitVec.ofNat 64 a ∧ (s.bootPursers.core (purserOf i)).helm.ended = false := by
  have own : ∀ t : State, ((t.bootPurser i).core (purserOf i)).helm.pc = BitVec.ofNat 64 a ∧
      ((t.bootPurser i).core (purserOf i)).helm.ended = false := by
    intro t
    rw [State.bootPurser, h]
    dsimp only
    rw [State.core_modCore_same]
    exact ⟨rfl, rfl⟩
  refine foldl_of_mem (P := fun t : State => (t.core (purserOf i)).helm.pc = BitVec.ofNat 64 a ∧
    (t.core (purserOf i)).helm.ended = false) (List.mem_range.2 hi) own ?_
  intro t j hp
  by_cases e : purserOf i = purserOf j
  · obtain rfl : i = j := Nat.add_left_cancel e
    exact own t
  · change (State.core (t.bootPurser j) _).helm.pc = _ ∧ (State.core (t.bootPurser j) _).helm.ended = _
    rw [t.bootPurser_other e]
    exact hp

/-! ## The package as it comes up -/

/-- The landings, the scans and the pursers come up. -/
def State.comeUp (s : State) : State := s.bootLandings.bootScans.bootPursers

theorem State.comeUp_keeps {γ : Type} (π : State → γ)
    (h : ∀ (s : State) c a l t k, π { s with freeCtr := c, alarms := a, landings := l, tiles := t, cores := k } = π s) (s : State) :
    π s.comeUp = π s := by
  have landings : π s.bootLandings = π s := by
    refine foldl_keeps π (fun s l => ?_) _ s
    split
    · rfl
    · exact s.bringUp_keeps π (fun s c a l => h s c a l s.tiles s.cores) l
  have scans : π s.bootLandings.bootScans = π s.bootLandings := h s.bootLandings _ _ _ _ _
  have pursers : π s.comeUp = π s.bootLandings.bootScans := State.bootPursers_keeps π (fun s _ _ => h s _ _ _ _ _) _
  exact pursers.trans (scans.trans landings)

theorem State.comeUp_landing (s : State) (i : Nat) : s.comeUp.landing i = s.bootLandings.landing i :=
  (State.bootPursers_keeps (fun t => t.landing i) (fun _ _ _ => rfl) _).trans (State.landing_bootScans _ i)

/-- Every core is as at reset, but a purser that has a start begins there (notes/assumptions/7.md). -/
def State.PursersBegin (t : State) : Prop := (∀ c, (∀ i, i < 8 → c ≠ purserOf i) → t.core c = {}) ∧
  ∀ i, i < 8 → (Config.purserStart i = none → t.core (purserOf i) = {}) ∧ ∀ a, Config.purserStart i = some a →
    (t.core (purserOf i)).helm.pc = BitVec.ofNat 64 a ∧ (t.core (purserOf i)).helm.ended = false

theorem State.comeUp_pursers {s : State} (hc : s.cores = []) : s.comeUp.PursersBegin := by
  have before : ∀ c, s.bootLandings.bootScans.core c = {} := by
    intro c
    have : s.bootLandings.cores = s.cores := by
      refine foldl_keeps State.cores (fun s l => ?_) _ s
      split
      · rfl
      · exact s.bringUp_keeps State.cores (fun _ _ _ _ => rfl) l
    rw [State.core, State.bootScans_cores, this, hc]
    rfl
  exact ⟨fun c h => (State.bootPursers_other _ h).trans (before c),
    fun i hi => ⟨fun h => (State.bootPursers_idle _ h).trans (before _), fun a h => State.bootPursers_started _ hi h⟩⟩

theorem State.comeUp_tile (s : State) (i : Nat) : (s.comeUp.tile i).badCores = (s.tile i).badCores ∧ (s.comeUp.tile i).map = (s.tile i).map := by
  have after : s.comeUp.tile i = { s.bootLandings.tile i with scanAt := s.bootLandings.wall + nsUnits 50000000 } := by
    have : s.comeUp.tile i = s.bootLandings.bootScans.tile i :=
      State.bootPursers_keeps (fun t => t.tile i) (fun _ _ _ => rfl) _
    rw [this, State.tile_bootScans]
  have before : s.bootLandings.tile i = s.tile i := by
    refine foldl_keeps (fun t : State => t.tile i) (fun s l => ?_) _ s
    split
    · rfl
    · exact s.bringUp_keeps (fun t : State => t.tile i) (fun _ _ _ _ => rfl) l
  rw [after, before]
  exact ⟨rfl, rfl⟩

/-! ## COLD_BOOT and WARM_RESET -/

/-- The package after reset, its clock of the wall running on, as a cold boot begins. -/
def State.powered (s : State) : State :=
  { State.reset with
    wall := s.wall, now := s.now, freeCtr := s.freeCtr + 1, booted := true
    daycAdj := Int.ofNat (s.choice 0 319999) - Int.ofNat s.ns }

theorem exec_coldBoot (s : State) : exec .coldBoot s = .next (s.powered.trainStacks (fun _ => true) s.freeCtr).comeUp := rfl

/-- What a warm reset leaves of the package before the stacks are trained (13 R412; notes/assumptions/13.md). -/
def State.rested (s : State) : State :=
  { State.reset with
    wall := s.wall, now := s.now, freeCtr := s.freeCtr + 1, booted := true, clock := s.clock, nv := s.nv
    mem := s.mem, poison := s.poison, bad := s.bad
    daycAdj := s.daycAdj, daycHold := s.daycHold, dayError := s.dayError, holdover := s.holdover, expired := s.expired
    lastDawn := s.lastDawn, guardDone := s.guardDone, pkstat := s.pkstat, hot := s.hot, limitAt := s.limitAt, lowAt := s.lowAt
    thermal := s.thermal
    landings := s.landings.map fun (l : Landing) => { failed := l.failed, lastFail := l.lastFail }
    tiles := s.tiles.map fun (t : TileSt) => { map := t.map, spare := t.spare.or (t.scanning.map fun (x : Nat × Nat) => x.1)
                                               scanNext := t.scanNext, coverage := t.coverage
                                               badCores := t.badCores }
    hbm := s.hbm.map fun (x : Stack) => { x.clean with disarmed := [] } }

/-- Whether a warm reset trains a stack in full: its pins fail the pattern test, or what is stored for it fails its CRC-32 (13 R412). -/
def State.retrains (s : State) (i : Nat) : Bool := s.on.list.contains i || (nvValues (vAt s.nv i)).isNone

theorem exec_warmReset (s : State) : exec .warmReset s = .next (s.rested.trainStacks s.retrains s.freeCtr).comeUp.stepDown := rfl

theorem happens_coldBoot (s : State) : Happens .coldBoot s fun t => t.booted = true ∧ t.mem = [] ∧
    t.PursersBegin ∧
    t.launches = [] ∧ t.clock = 8 ∧
    (∀ i, i < 8 → (t.stack i).trained = true ∧ vAt t.nv i = nvRecord (t.stack i).training) ∧
    ∀ i, i < 132 → (t.landing i).stage = some 0 ∧ (t.landing i).trained = false := by
  refine ⟨_, exec_coldBoot s, State.comeUp_keeps State.booted (fun _ _ _ _ _ _ => rfl) _, State.comeUp_keeps State.mem (fun _ _ _ _ _ _ => rfl) _,
    State.comeUp_pursers rfl, State.comeUp_keeps State.launches (fun _ _ _ _ _ _ => rfl) _,
    State.comeUp_keeps State.clock (fun _ _ _ _ _ _ => rfl) _, fun i hi => ?_, fun i hi => ?_⟩
  · rw [State.comeUp_keeps (fun t => t.stack i) (fun _ _ _ _ _ _ => rfl), State.comeUp_keeps State.nv (fun _ _ _ _ _ _ => rfl),
      State.stack_trainStacks _ _ _ hi, State.nv_trainStacks _ _ _ hi]
    exact ⟨rfl, rfl⟩
  · rw [State.comeUp_landing]
    refine State.bootLandings_stage hi ?_
    simp [State.landing, State.trainStacks, State.powered, State.reset, vAt]

/-- The training values of a stack after a warm reset, and what is stored of them. -/
theorem State.rested_training (s : State) {i : Nat} (hi : i < 8) :
    (∀ v, i ∉ s.on.list → nvValues (vAt s.nv i) = some v →
      ((s.rested.trainStacks s.retrains s.freeCtr).stack i).training = v ∧ vAt (s.rested.trainStacks s.retrains s.freeCtr).nv i = vAt s.nv i) ∧
    (i ∈ s.on.list ∨ nvValues (vAt s.nv i) = none →
      vAt (s.rested.trainStacks s.retrains s.freeCtr).nv i = nvRecord ((s.rested.trainStacks s.retrains s.freeCtr).stack i).training) := by
  have hnv : s.rested.nv = s.nv := rfl
  rw [State.stack_trainStacks _ _ _ hi, State.nv_trainStacks _ _ _ hi, hnv]
  constructor
  · intro v hl hv
    have : s.retrains i = false := by simp [State.retrains, hl, hv]
    simp [this, hv]
  · intro h
    have : s.retrains i = true := by rcases h with h | h <;> simp [State.retrains, h]
    simp [this]

theorem State.rested_stack (s : State) {i : Nat} (hi : i < 8) : ((s.rested.trainStacks s.retrains s.freeCtr).stack i).trained = true ∧
    ((s.rested.trainStacks s.retrains s.freeCtr).stack i).disarmed = [] ∧
    ((s.rested.trainStacks s.retrains s.freeCtr).stack i).mapped = (s.stack i).mapped := by
  have hs : s.rested.stack i = { (s.stack i).clean with disarmed := [] } := vAt_map _ _ _
  rw [State.stack_trainStacks _ _ _ hi, hs]
  exact ⟨rfl, rfl, rfl⟩

theorem happens_warmReset (s : State) : Happens .warmReset s fun t => t.booted = true ∧ t.mem = s.mem ∧
    t.PursersBegin ∧
    t.launches = [] ∧
    (∀ i, i < 8 → (t.stack i).trained = true ∧ (t.stack i).disarmed = [] ∧ (t.stack i).mapped = (s.stack i).mapped ∧
      (∀ v, i ∉ s.on.list → nvValues (vAt s.nv i) = some v → (t.stack i).training = v ∧ vAt t.nv i = vAt s.nv i) ∧
      (i ∈ s.on.list ∨ nvValues (vAt s.nv i) = none → vAt t.nv i = nvRecord (t.stack i).training)) ∧
    (∀ i, i < 132 → (s.landing i).failed = false → (t.landing i).stage = some 0) ∧
    ∀ i, i < 8 → (t.tile i).badCores = (s.tile i).badCores ∧ (t.tile i).map = (s.tile i).map := by
  have kept : ∀ {γ : Type} (π : State → γ),
      (∀ (s : State) c a l t k, π { s with freeCtr := c, alarms := a, landings := l, tiles := t, cores := k } = π s) →
      (∀ s b, π (State.decideClock s b) = π s) → π (s.rested.trainStacks s.retrains s.freeCtr).comeUp.stepDown =
        π (s.rested.trainStacks s.retrains s.freeCtr) :=
    fun π h hd => (State.stepDown_keeps π hd _).trans (State.comeUp_keeps π h _)
  have pursers : ((s.rested.trainStacks s.retrains s.freeCtr).comeUp.stepDown).PursersBegin := by
    unfold State.PursersBegin
    rw [State.stepDown_keeps State.core fun _ _ => rfl]
    exact State.comeUp_pursers rfl
  refine ⟨_, exec_warmReset s, kept State.booted (fun _ _ _ _ _ _ => rfl) fun _ _ => rfl, kept State.mem (fun _ _ _ _ _ _ => rfl) fun _ _ => rfl,
    pursers, kept State.launches (fun _ _ _ _ _ _ => rfl) fun _ _ => rfl, fun i hi => ?_, fun i hi hf => ?_, fun i hi => ?_⟩
  · rw [kept (fun t => t.stack i) (fun _ _ _ _ _ _ => rfl) fun _ _ => rfl, kept State.nv (fun _ _ _ _ _ _ => rfl) fun _ _ => rfl]
    obtain ⟨h1, h2, h3⟩ := s.rested_stack hi
    exact ⟨h1, h2, h3, s.rested_training hi⟩
  · rw [State.stepDown_keeps (fun t => t.landing i) fun _ _ => rfl, State.comeUp_landing]
    refine (State.bootLandings_stage hi ?_).1
    change Landing.failed (vAt (s.landings.map _) i) = false
    rw [vAt_map]
    exact hf
  · rw [State.stepDown_keeps (fun t => t.tile i) fun _ _ => rfl]
    obtain ⟨h1, h2⟩ := State.comeUp_tile (s.rested.trainStacks s.retrains s.freeCtr) i
    have : (s.rested.trainStacks s.retrains s.freeCtr).tile i = s.rested.tile i := rfl
    rw [h1, h2, this, State.tile, State.rested, vAt_map]
    exact ⟨rfl, rfl⟩

/-- Settles O48: each event of the clock and of boot, by the lemma of its case. -/
theorem clockEvents : Obligations.ClockEvents := by
  unfold Obligations.ClockEvents
  intro s l n down decided pursers
  have booted : ∀ {t : State}, t.PursersBegin → pursers t := by
    rintro t ⟨others, own⟩
    refine ⟨others, fun i hi => ?_⟩
    split
    · exact (own i hi).1 ‹_›
    · exact (own i hi).2 _ ‹_›
  refine ⟨happens_thermalOrPower_passed, happens_thermalOrPower_again, happens_thermalOrPower_within,
    fun hn h => happens_clockChange_made hn h l, happens_clockChange_dropped, happens_clockRestore, ?_, ?_, ?_⟩
  · intro hh hc ht hw
    obtain ⟨t, e, trapped, raised⟩ := happens_thermalTrap hh hc ht hw
    exact ⟨t, e, trapped, raised l⟩
  · obtain ⟨t, e, h1, h2, h3, h4⟩ := happens_coldBoot s
    exact ⟨t, e, h1, h2, booted h3, h4⟩
  · obtain ⟨t, e, h1, h2, h3, h4⟩ := happens_warmReset s
    exact ⟨t, e, h1, h2, booted h3, h4⟩

end Sys2Proof.Machine
end

section
/-! PROOF. The stack controllers and the scrubbers (01 R18, 13 R388, R392, R410-R413; O49). -/

namespace Sys2Proof.Machine

/-! ## Row buffers -/

theorem tabGet_mapValues {α β : Type} (f : α → β) (t : Tab α) (k : Nat) : tabGet (t.map fun p => (p.1, f p.2)) k = (tabGet t k).map f := by
  induction t with
  | nil => rfl
  | cons p t ih =>
    simp only [List.map_cons, tabGet, ih]
    split <;> rfl

theorem mem_updIf {α : Type} {p : α → Bool} {f : α → α} {l : List α} {y : α} :
    y ∈ updIf p f l ↔ (∃ x ∈ l, p x = true ∧ f x = y) ∨ (y ∈ l ∧ p y = false) := by
  unfold updIf
  rw [List.mem_map]
  constructor
  · rintro ⟨x, hx, rfl⟩
    cases h : p x with
    | true => exact .inl ⟨x, hx, h, by simp⟩
    | false => exact .inr ⟨by simpa using hx, by simpa using h⟩
  · rintro (⟨x, hx, h, rfl⟩ | ⟨hy, h⟩)
    · exact ⟨x, hx, by simp [h]⟩
    · exact ⟨y, hy, by simp [h]⟩

/-- A row's buffers, those of one row made clean. -/
def cleanRow (r : Nat) (bs : List (Nat × Bool)) : List (Nat × Bool) := updIf (· == (r, true)) (fun b => (b.1, false)) bs

theorem cleanRow_of_not_mem {r : Nat} {bs : List (Nat × Bool)} (h : (r, true) ∉ bs) : cleanRow r bs = bs := by
  unfold cleanRow updIf
  refine (List.map_congr_left fun x hx => ?_).trans (List.map_id bs)
  rw [if_neg]
  · rfl
  · intro e
    exact h (eq_of_beq e ▸ hx)

theorem cleanRow_append (r : Nat) (l m : List (Nat × Bool)) : cleanRow r (l ++ m) = cleanRow r l ++ cleanRow r m := List.map_append

theorem mem_cleanRow {r : Nat} {bs : List (Nat × Bool)} {y : Nat × Bool} :
    y ∈ cleanRow r bs ↔ ((r, true) ∈ bs ∧ y = (r, false)) ∨ (y ∈ bs ∧ y ≠ (r, true)) := by
  unfold cleanRow
  rw [mem_updIf]
  simp only [beq_iff_eq, beq_eq_false_iff_ne]
  constructor
  · rintro (⟨x, hx, rfl, rfl⟩ | h)
    · exact .inl ⟨hx, rfl⟩
    · exact .inr h
  · rintro (⟨hx, rfl⟩ | h)
    · exact .inl ⟨_, hx, rfl, rfl⟩
    · exact .inr h

@[simp] theorem Stack.refreshRow_mg (x : Stack) (b r : Nat) : (x.refreshRow b r).mg = x.mg := by
  unfold Stack.refreshRow
  dsimp only
  split <;> rfl

@[simp] theorem Stack.refreshRow_refreshes (x : Stack) (b r : Nat) : (x.refreshRow b r).refreshes = x.refreshes := by
  unfold Stack.refreshRow
  dsimp only
  split <;> rfl

theorem Stack.buffers_refreshRow (x : Stack) (b r : Nat) : (x.refreshRow b r).buffers b = cleanRow r (x.buffers b) := by
  unfold Stack.refreshRow
  dsimp only
  split
  · simp [Stack.buffers, cleanRow]
  · rename_i h
    exact (cleanRow_of_not_mem (by simpa using h)).symm

theorem Stack.backs_refreshRow (x : Stack) (b r : Nat) :
    (x.refreshRow b r).backs = if (x.buffers b).contains (r, true) then x.backs ++ [(b, r)] else x.backs := by
  unfold Stack.refreshRow
  dsimp only
  split <;> rfl

@[simp] theorem Stack.useRow_mg (x : Stack) (b r : Nat) (w : Bool) : (x.useRow b r w).mg = x.mg := rfl
@[simp] theorem Stack.useRow_refreshes (x : Stack) (b r : Nat) (w : Bool) : (x.useRow b r w).refreshes = x.refreshes := rfl

theorem Stack.buffers_useRow (x : Stack) (b r : Nat) (w : Bool) : (x.useRow b r w).buffers b =
    (r, w || (x.buffers b).contains (r, true)) :: ((x.buffers b).filter (·.1 != r)).take 3 := by
  simp [Stack.useRow, Stack.buffers]

theorem Stack.buffers_clean (x : Stack) (b : Nat) : x.clean.buffers b = (x.buffers b).map fun r => (r.1, false) := by
  unfold Stack.buffers Stack.clean
  dsimp only
  rw [tabGet_mapValues]
  cases tabGet x.rows b <;> rfl

theorem Stack.mem_backs_clean {x : Stack} {b r : Nat} {rs : List (Nat × Bool)} (h : (b, rs) ∈ x.rows) (hr : (r, true) ∈ rs) :
    (b, r) ∈ x.clean.backs :=
  List.mem_append_right _ (List.mem_flatMap.2 ⟨_, h, List.mem_map.2 ⟨_, List.mem_filter.2 ⟨hr, rfl⟩, rfl⟩⟩)

/-! ## Activations -/

section
variable {cs : List (Nat × Nat)} {r t : Nat} (h : ∀ p ∈ cs, p.1 ≠ r)
include h

theorem any_row_of_absent : (cs.any (·.1 == r)) = false := by
  simpa using h

/-- A row without a counter takes a free one. -/
theorem misraGries_new (hl : cs.length < 16) (ht : 1 < t) : misraGries cs r t = (cs ++ [(r, 1)], false) := by
  have full : ((cs ++ [(r, 1)]).any fun c => c.1 == r && decide (t ≤ c.2)) = false := by
    simp only [List.any_append, List.any_cons, List.any_nil, Bool.or_false, Bool.or_eq_false_iff, List.any_eq_false]
    exact ⟨fun p hp => by simp [h p hp], by simp [ht]⟩
  simp only [misraGries, any_row_of_absent h, hl, Bool.false_eq_true, if_false, if_true, full]

/-- A row that finds no free counter takes one from each. -/
theorem misraGries_full (hl : 16 ≤ cs.length) : misraGries cs r t = ((cs.map fun c => (c.1, c.2 - 1)).filter (·.2 != 0), false) := by
  have full : (((cs.map fun c => (c.1, c.2 - 1)).filter (·.2 != 0)).any fun c => c.1 == r && decide (t ≤ c.2)) = false := by
    rw [List.any_eq_false]
    intro p hp
    obtain ⟨q, hq, rfl⟩ := List.mem_map.1 (List.mem_filter.1 hp).1
    simp [h q hq]
  simp only [misraGries, any_row_of_absent h, Nat.not_lt.2 hl, Bool.false_eq_true, if_false, full]

end

theorem misraGries_counts {r i t : Nat} (h : i + 1 < t) : misraGries [(r, i)] r t = ([(r, i + 1)], false) := by
  simp [misraGries, h]

theorem misraGries_passes {r i t : Nat} (h : t ≤ i + 1) : misraGries [(r, i)] r t = ([(r, 0)], true) := by
  simp [misraGries, h]

theorem neighbours_of_two_le {r : Nat} (h : 2 ≤ r) : neighbours r = [r - 2, r - 1, r + 1, r + 2] := by
  simp [neighbours, h, show 1 ≤ r by omega]

/-- The counters of a bank after an activation in it. -/
theorem Stack.activate_counters (x : Stack) (b r : Nat) :
    tabGet (x.activate b r).mg b = some (misraGries ((tabGet x.mg b).getD []) r x.hmgthr).1 := by
  unfold Stack.activate
  dsimp only
  split
  · rw [foldl_keeps Stack.mg fun x n => x.refreshRow_mg b n]
    exact tabGet_tabSet_same _ _ _
  · exact tabGet_tabSet_same _ _ _

theorem Stack.activate_refreshes (x : Stack) (b r : Nat) : (x.activate b r).refreshes =
    if (misraGries ((tabGet x.mg b).getD []) r x.hmgthr).2 then x.refreshes ++ (neighbours r).map fun n => (b, n) else x.refreshes := by
  unfold Stack.activate
  dsimp only
  split
  · exact foldl_keeps Stack.refreshes (fun x n => x.refreshRow_refreshes b n) _ _
  · rfl

/-- The dirty row `q` of a bank has been written back, or stands behind three buffers of rows other than `r`. -/
def Stack.OldestDirty (x : Stack) (b r q : Nat) : Prop :=
  (b, q) ∈ x.backs ∨ ∃ l, x.buffers b = l ++ [(q, true)] ∧ l.length = 3 ∧ ∀ p ∈ l, p.1 ≠ r

theorem Stack.OldestDirty.refreshRow {x : Stack} {b r q : Nat} (h : x.OldestDirty b r q) (n : Nat) : (x.refreshRow b n).OldestDirty b r q := by
  unfold Stack.OldestDirty
  rw [Stack.backs_refreshRow, Stack.buffers_refreshRow]
  rcases h with h | ⟨l, hb, hl, hr⟩
  · left
    split
    · exact List.mem_append_left _ h
    · exact h
  · by_cases e : n = q
    · subst e
      left
      rw [hb, if_pos (by simp)]
      simp
    · have last : cleanRow n [(q, true)] = [(q, true)] := cleanRow_of_not_mem (by simp [e])
      refine .inr ⟨cleanRow n l, ?_, by rw [cleanRow, updIf, List.length_map, hl], fun p hp => ?_⟩
      · rw [hb, cleanRow_append, last]
      · rcases mem_cleanRow.1 hp with ⟨hm, rfl⟩ | ⟨hm, _⟩
        · exact hr (n, true) hm
        · exact hr p hm

theorem Stack.OldestDirty.activate {x : Stack} {b r q : Nat} (h : x.OldestDirty b r q) : (x.activate b r).OldestDirty b r q := by
  unfold Stack.activate
  dsimp only
  split
  · exact List.foldlRecOn (motive := fun x : Stack => x.OldestDirty b r q) _ _ h fun _ hx n _ => hx.refreshRow n
  · exact h

/-- Of four buffers the one used longest ago goes, and is written back where it is dirty. -/
theorem Stack.OldestDirty.useRow {x : Stack} {b r q : Nat} (h : x.OldestDirty b r q) (hq : q ≠ r) (w : Bool) : (b, q) ∈ (x.useRow b r w).backs := by
  rcases h with h | ⟨l, hb, hl, hr⟩
  · exact List.mem_append_left _ h
  · refine List.mem_append_right _ (List.mem_map.2 ⟨(q, true), List.mem_filter.2 ⟨?_, rfl⟩, rfl⟩)
    have rest : (x.buffers b).filter (·.1 != r) = l ++ [(q, true)] := by
      rw [hb, List.filter_eq_self]
      intro p hp
      rcases List.mem_append.1 hp with hp | hp
      · simpa using hr p hp
      · rw [List.mem_singleton.1 hp]; simpa using hq
    rw [rest, ← hl, List.drop_left]
    exact List.mem_singleton.2 rfl

/-! ## MISRA_GRIES_ACTIVATION -/

theorem exec_misraGriesActivation (s : State) : exec .misraGriesActivation s = .next (s.modStack s.on.a fun x =>
    (if (x.buffers s.on.b).any (·.1 == s.on.c) then x else x.activate s.on.b s.on.c).useRow s.on.b s.on.c s.on.flag) := rfl

theorem happens_misraGriesActivation_hit {s : State} (h : ¬ ∀ p ∈ (s.stack s.on.a).buffers s.on.b, p.1 ≠ s.on.c) :
    Happens .misraGriesActivation s fun t => t.stack s.on.a = (s.stack s.on.a).useRow s.on.b s.on.c s.on.flag := by
  refine ⟨_, exec_misraGriesActivation s, ?_⟩
  have : ((s.stack s.on.a).buffers s.on.b).any (·.1 == s.on.c) = true := by
    push Not at h
    obtain ⟨p, hp, e⟩ := h
    exact List.any_eq_true.2 ⟨p, hp, beq_iff_eq.2 e⟩
  beta_reduce
  rw [State.stack_modStack, this]
  rfl

theorem happens_misraGriesActivation_miss {s : State} (h : ∀ p ∈ (s.stack s.on.a).buffers s.on.b, p.1 ≠ s.on.c) :
    Happens .misraGriesActivation s fun t =>
      t.stack s.on.a = ((s.stack s.on.a).activate s.on.b s.on.c).useRow s.on.b s.on.c s.on.flag := by
  refine ⟨_, exec_misraGriesActivation s, ?_⟩
  have : ((s.stack s.on.a).buffers s.on.b).any (·.1 == s.on.c) = false := by simpa using h
  beta_reduce
  rw [State.stack_modStack, this]
  rfl

/-- What an activation comes to, from what the counters of its bank come to. -/
theorem happens_misraGriesActivation_counts {s : State} (h : ∀ p ∈ (s.stack s.on.a).buffers s.on.b, p.1 ≠ s.on.c) {cs : List (Nat × Nat)}
    {full : Bool} (hm : misraGries ((tabGet (s.stack s.on.a).mg s.on.b).getD []) s.on.c (s.stack s.on.a).hmgthr = (cs, full)) :
    Happens .misraGriesActivation s fun t => tabGet (t.stack s.on.a).mg s.on.b = some cs ∧ (t.stack s.on.a).refreshes =
      if full then (s.stack s.on.a).refreshes ++ (neighbours s.on.c).map fun n => (s.on.b, n) else (s.stack s.on.a).refreshes := by
  refine (happens_misraGriesActivation_miss h).mono fun t ht => ?_
  rw [ht, Stack.useRow_mg, Stack.useRow_refreshes, Stack.activate_counters, Stack.activate_refreshes, hm]
  exact ⟨rfl, rfl⟩

theorem happens_misraGriesActivation_writesBack {s : State} (h : ∀ p ∈ (s.stack s.on.a).buffers s.on.b, p.1 ≠ s.on.c)
    {u v w : Nat × Bool} {r : Nat} (hb : (s.stack s.on.a).buffers s.on.b = [u, v, w, (r, true)]) :
    Happens .misraGriesActivation s fun t => (s.on.b, r) ∈ (t.stack s.on.a).backs := by
  refine (happens_misraGriesActivation_miss h).mono fun t ht => ?_
  rw [hb] at h
  have dirty : (s.stack s.on.a).OldestDirty s.on.b s.on.c r :=
    .inr ⟨[u, v, w], hb, rfl, fun p hp => h p (by simp only [List.mem_cons] at hp ⊢; tauto)⟩
  rw [ht]
  exact dirty.activate.useRow (h (r, true) (by simp)) _

/-! ## REFRESH_WINDOW -/

theorem exec_refreshWindow (s : State) : exec .refreshWindow s = .next (s.modStack s.on.a fun x =>
    if s.on.flag then x.refreshRow s.on.b s.on.c
    else if s.on.flag2 then x.clean
    else { ({ x with backs := [] } : Stack).clean with mg := [], refreshes := [] }) := rfl

/-- A bank's refresh of one row writes its dirty buffer back. -/
theorem happens_refreshWindow_row {s : State} (hf : s.on.flag = true) : Happens .refreshWindow s fun t =>
    t.mem = s.mem ∧ (t.stack s.on.a).mg = (s.stack s.on.a).mg ∧ (t.stack s.on.a).refreshes = (s.stack s.on.a).refreshes ∧
    (s.on.c, true) ∉ (t.stack s.on.a).buffers s.on.b ∧
    ((s.on.c, true) ∈ (s.stack s.on.a).buffers s.on.b →
      (s.on.b, s.on.c) ∈ (t.stack s.on.a).backs ∧ (s.on.c, false) ∈ (t.stack s.on.a).buffers s.on.b) ∧
    ∀ p, p ≠ (s.on.c, true) → p ∈ (s.stack s.on.a).buffers s.on.b → p ∈ (t.stack s.on.a).buffers s.on.b := by
  refine ⟨_, exec_refreshWindow s, rfl, ?_⟩
  rw [State.stack_modStack, hf]
  simp only [if_true]
  rw [Stack.refreshRow_mg, Stack.refreshRow_refreshes, Stack.buffers_refreshRow, Stack.backs_refreshRow]
  refine ⟨rfl, rfl, fun h => ?_, fun h => ⟨?_, mem_cleanRow.2 (.inl ⟨h, rfl⟩)⟩, fun p hp h => mem_cleanRow.2 (.inr ⟨h, hp⟩)⟩
  · rcases mem_cleanRow.1 h with ⟨_, e⟩ | ⟨_, e⟩
    · cases e
    · exact e rfl
  · rw [if_pos (List.contains_iff_mem.2 h)]
    simp

/-- A refresh window, and an entry into self-refresh, write every dirty buffer back; the window clears the counters. -/
theorem happens_refreshWindow_all {s : State} (hf : s.on.flag = false) : Happens .refreshWindow s fun t =>
    t.mem = s.mem ∧ (∀ b, ∀ p ∈ (t.stack s.on.a).buffers b, p.2 = false) ∧
    (∀ b rs r, (b, rs) ∈ (s.stack s.on.a).rows → (r, true) ∈ rs → (b, r) ∈ (t.stack s.on.a).backs) ∧
    if s.on.flag2 then (t.stack s.on.a).mg = (s.stack s.on.a).mg ∧ (t.stack s.on.a).refreshes = (s.stack s.on.a).refreshes
    else (t.stack s.on.a).mg = [] ∧ (t.stack s.on.a).refreshes = [] := by
  have cleaned : ∀ (x : Stack) b, ∀ p ∈ x.clean.buffers b, p.2 = false := by
    intro x b p hp
    rw [Stack.buffers_clean] at hp
    obtain ⟨q, _, rfl⟩ := List.mem_map.1 hp
    rfl
  refine ⟨_, exec_refreshWindow s, rfl, ?_⟩
  rw [State.stack_modStack, hf]
  cases s.on.flag2 with
  | true => exact ⟨cleaned _, fun _ _ _ => Stack.mem_backs_clean, rfl, rfl⟩
  | false => exact ⟨cleaned { s.stack s.on.a with backs := [] }, fun _ _ _ => Stack.mem_backs_clean (x := { s.stack s.on.a with backs := [] }), rfl, rfl⟩

/-! ## Margins -/

/-- A pin whose monitor is armed has a margin below the limit. -/
def Stack.low (x : Stack) (pin m : Nat) : Bool := !x.disarmed.contains pin && decide (m < x.heye)

/-- A stack after the measurement of a margin. -/
def Stack.measured (x : Stack) (pin m : Nat) : Stack := { x with
  eyeMin := if m < x.eyeMin.1 then (m, pin) else x.eyeMin
  disarmed := if x.low pin m then addOnce x.disarmed pin
    else if min (x.heye + 8) 255 ≤ m then x.disarmed.filter (· != pin) else x.disarmed }

theorem State.measure_eq (s : State) (st pin m : Nat) : s.measure st pin m = if (s.stack st).low pin m then
    (s.modStack st fun x => x.measured pin m).postSup (cause 5 4 5) st (pin + 65536 * m) else s.modStack st fun x => x.measured pin m := rfl

theorem State.measure_keeps {γ : Type} (π : State → γ) (h : ∀ (s : State) x e, π { s with hbm := x, events := e } = π s) (s : State)
    (st pin m : Nat) : π (s.measure st pin m) = π s := by
  rw [State.measure_eq]
  split
  · exact h s _ _
  · exact h s _ s.events

theorem State.stack_measure (s : State) (st pin m : Nat) : (s.measure st pin m).stack st = (s.stack st).measured pin m := by
  rw [State.measure_eq]
  split <;> simp

theorem Stack.measured_eyeMin (x : Stack) (pin m : Nat) : (x.measured pin m).eyeMin.1 = min m x.eyeMin.1 := by
  unfold Stack.measured
  dsimp only
  split
  · exact (min_eq_left (Nat.le_of_lt ‹_›)).symm
  · exact (min_eq_right (Nat.not_lt.1 ‹_›)).symm

theorem exec_eyeMarginMeasurement_pin {s : State} (hf : s.on.flag = false) :
    exec .eyeMarginMeasurement s = .next (s.measure s.on.a s.on.b s.on.c) := by
  change execEyeMarginMeasurement s = _
  unfold execEyeMarginMeasurement
  rw [hf]
  rfl

theorem happens_eyeMarginMeasurement_pin {s : State} (hf : s.on.flag = false) : Happens .eyeMarginMeasurement s fun t =>
    (t.stack s.on.a).eyeMin = (if s.on.c < (s.stack s.on.a).eyeMin.1 then (s.on.c, s.on.b) else (s.stack s.on.a).eyeMin) ∧
    (s.on.b ∉ (s.stack s.on.a).disarmed → s.on.c < (s.stack s.on.a).heye →
      (16, cause 5 4 5, s.on.a, s.on.b + 65536 * s.on.c) ∈ t.events ∧ s.on.b ∈ (t.stack s.on.a).disarmed) ∧
    (¬ (s.on.b ∉ (s.stack s.on.a).disarmed ∧ s.on.c < (s.stack s.on.a).heye) → t.events = s.events) ∧
    (min ((s.stack s.on.a).heye + 8) 255 ≤ s.on.c → ¬ (s.on.b ∉ (s.stack s.on.a).disarmed ∧ s.on.c < (s.stack s.on.a).heye) →
      s.on.b ∉ (t.stack s.on.a).disarmed) := by
  refine ⟨_, exec_eyeMarginMeasurement_pin hf, ?_⟩
  have low : (s.stack s.on.a).low s.on.b s.on.c = true ↔ s.on.b ∉ (s.stack s.on.a).disarmed ∧ s.on.c < (s.stack s.on.a).heye := by
    simp [Stack.low]
  beta_reduce
  rw [State.stack_measure, ← low, State.measure_eq]
  unfold Stack.measured
  refine ⟨rfl, fun h1 h2 => ?_, fun h => ?_, fun hm h => ?_⟩
  · simp [low.2 ⟨h1, h2⟩]
  · rw [if_neg h]
    rfl
  · simp [h, hm]

/-- The smallest margin is at most every pin's of a measurement of the stack. -/
theorem happens_eyeMarginMeasurement_stack {s : State} (hf : s.on.flag = true) : Happens .eyeMarginMeasurement s fun t =>
    t.mem = s.mem ∧ t.cores = s.cores ∧
    ∀ pin, pin < 2048 → (t.stack s.on.a).eyeMin.1 ≤ 255 - Config.eyeLoss s.wall s.on.a pin % 256 := by
  have e : exec .eyeMarginMeasurement s = .next ((List.range 2048).foldl (fun (t : State) pin =>
      t.measure s.on.a pin (255 - Config.eyeLoss t.wall s.on.a pin % 256)) s) := by
    change execEyeMarginMeasurement s = _
    unfold execEyeMarginMeasurement
    rw [hf]
    rfl
  refine ⟨_, e, foldl_keeps State.mem (fun t _ => t.measure_keeps _ (fun _ _ _ => rfl) _ _ _) _ _,
    foldl_keeps State.cores (fun t _ => t.measure_keeps _ (fun _ _ _ => rfl) _ _ _) _ _, fun pin hp => ?_⟩
  refine foldl_of_mem_of_inv (I := fun t : State => t.wall = s.wall)
    (P := fun t : State => (t.stack s.on.a).eyeMin.1 ≤ 255 - Config.eyeLoss s.wall s.on.a pin % 256) (List.mem_range.2 hp) rfl
    (fun t _ ht => (t.measure_keeps State.wall (fun _ _ _ => rfl) _ _ _).trans ht) ?_ ?_
  · intro t ht
    rw [State.stack_measure, Stack.measured_eyeMin, ht]
    exact min_le_left _ _
  · intro t j _ hp
    rw [State.stack_measure, Stack.measured_eyeMin]
    exact (min_le_right _ _).trans hp

/-! ## Registers and counts -/

theorem exec_hpcout (s : State) : exec .hpcout s = .next (s.mapOut s.on.a s.on.b) := rfl

theorem happens_hpcout {s : State} (h : s.on.b < 64) : Happens .hpcout s fun t =>
    s.on.b ∈ (t.stack s.on.a).mapped ∧ (16, cause 5 4 6, s.on.a, 0) ∈ t.events ∧ t.pkstat = s.pkstat ||| 1#4 := by
  refine ⟨_, exec_hpcout s, ?_⟩
  rw [State.mapOut, if_neg (Nat.not_le.2 h)]
  simp

theorem happens_hpcout_none {s : State} (h : 64 ≤ s.on.b) : Happens .hpcout s fun t => t = s :=
  ⟨_, exec_hpcout s, if_pos h⟩

theorem happens_heyemin (s : State) : Happens .heyemin s fun t => (t.stack s.on.a).eyeMin = (255, (s.stack s.on.a).eyeMin.2) :=
  ⟨_, rfl, congrArg Stack.eyeMin (State.stack_modStack _ _ _)⟩

theorem happens_correctedCountHour (s : State) : Happens .correctedCountHour s fun t =>
    (t.stack s.on.a).corrected = [] ∧ (t.stack s.on.a).hcecnt = largest (s.stack s.on.a).corrected :=
  ⟨_, rfl, congrArg Stack.corrected (State.stack_modStack _ _ _), congrArg Stack.hcecnt (State.stack_modStack _ _ _)⟩

/-! ## Scrubbers -/

/-- A demand write between a scrubber's read and its write cancels what it would do. -/
theorem happens_patrolScrub_cancelled {s : State} (h : s.on.flag2 = true) : Happens .patrolScrub s (· = s) := by
  refine ⟨_, rfl, ?_⟩
  simp only [h, if_true]

theorem happens_localStoreScrub_cancelled {s : State} (h : s.on.flag2 = true) : Happens .localStoreScrub s (· = s) := by
  refine ⟨_, rfl, ?_⟩
  simp only [h, if_true]

@[simp] theorem State.noteCorrected_bad (s : State) (g : Nat) : (s.noteCorrected g).bad = s.bad := by
  unfold State.noteCorrected
  dsimp only
  split <;> rfl

@[simp] theorem State.noteCorrected_poison (s : State) (g : Nat) : (s.noteCorrected g).poison = s.poison := by
  unfold State.noteCorrected
  dsimp only
  split <;> rfl

theorem State.noteCorrected_reports (s : State) (g : Nat) : (16, cause 5 4 0, stackOf (64 * g), 0) ∈ (s.noteCorrected g).events := by
  unfold State.noteCorrected
  dsimp only
  split <;> simp

theorem happens_patrolScrub {s : State} (h : s.on.flag2 = false) : Happens .patrolScrub s fun t =>
    t.mem = s.mem ∧ (∀ p ∈ t.bad, p.1 ≠ s.on.a) ∧
    (s.on.flag = true → (16, cause 5 4 0, stackOf (64 * s.on.a), 0) ∈ t.events ∧ t.poison = s.poison ∧
      tabGet (t.stack (stackOf (64 * s.on.a))).corrected (channelOf s.on.a) =
        some ((tabGet (s.stack (stackOf (64 * s.on.a))).corrected (channelOf s.on.a)).getD 0 + 1)) ∧
    (s.on.flag = false → s.on.a ∈ t.poison ∧ (16, cause 5 4 2, stackOf (64 * s.on.a), 0) ∈ t.events) := by
  have e : exec .patrolScrub s = .next (if s.on.flag then ({ s with bad := s.bad.filter (·.1 != s.on.a) } : State).noteCorrected s.on.a
      else ({ s with bad := s.bad.filter (·.1 != s.on.a), poison := addOnce s.poison s.on.a } : State).postSup (cause 5 4 2) (stackOf (64 * s.on.a)) 0) := by
    change execPatrolScrub s = _
    unfold execPatrolScrub
    rw [h]
    rfl
  refine ⟨_, e, ?_⟩
  cases hf : s.on.flag with
  | true =>
    simp only [if_true, State.noteCorrected_mem, State.noteCorrected_bad, State.noteCorrected_poison]
    refine ⟨trivial, fun p hp => by simpa using (List.mem_filter.1 hp).2, fun _ => ⟨State.noteCorrected_reports _ _, trivial, ?_⟩, nofun⟩
    rw [State.stack_noteCorrected, State.stack_modStack]
    exact tabGet_tabSet_same _ _ _
  | false => exact ⟨rfl, fun p hp => by simpa using (List.mem_filter.1 hp).2, nofun, fun _ => ⟨(mem_addOnce _ _ _).2 (.inl rfl), by simp⟩⟩

theorem happens_localStoreScrub {s : State} (h : s.on.flag2 = false) : Happens .localStoreScrub s fun t =>
    t.mem = s.mem ∧ (t.core s.on.a).ls = (s.core s.on.a).ls ∧
    (s.on.flag = true → t.cores = s.cores ∧ (s.ctxOf s.on.a, cause 5 0 0, s.on.a, 0) ∈ t.events) ∧
    (s.on.flag = false → s.on.b ∈ (t.core s.on.a).lsPoison ∧ (s.ctxOf s.on.a, cause 5 0 2, s.on.a, 0) ∈ t.events) := by
  have e : exec .localStoreScrub s = .next (if s.on.flag then s.post (s.ctxOf s.on.a) (cause 5 0 0) s.on.a 0
      else (s.modCore s.on.a fun k => { k with
        lsPoison := addOnce k.lsPoison s.on.b, lsLatent := k.lsLatent.filter (· != s.on.b) }).post (s.ctxOf s.on.a) (cause 5 0 2) s.on.a 0) := by
    change execLocalStoreScrub s = _
    unfold execLocalStoreScrub
    rw [h]
    rfl
  refine ⟨_, e, ?_⟩
  cases hf : s.on.flag with
  | true => exact ⟨rfl, rfl, fun _ => ⟨rfl, by simp⟩, nofun⟩
  | false =>
    simp only [Bool.false_eq_true, if_false, State.core_post, State.core_modCore_same]
    exact ⟨rfl, trivial, nofun, fun _ => ⟨(mem_addOnce _ _ _).2 (.inl rfl), by simp⟩⟩

end Sys2Proof.Machine
end

section
/-! PROOF. The rotation scan (13 R400-R403, R416, R417; O49). -/

namespace Sys2Proof.Machine

/-! ## The move of a coordinate -/

/-- From `s` to `t` the coordinate next in turn of a tile has gone to its spare core `sp`, and the core that was behind it is scanned. -/
def State.Moved (s t : State) (tile sp : Nat) : Prop :=
  tabGet (t.tile tile).map (s.tile tile).scanNext = some sp ∧ (t.tile tile).spare = none ∧
  (t.tile tile).scanning = some ((s.tile tile).phys (s.tile tile).scanNext, s.now) ∧
  (t.tile tile).scanNext = ((s.tile tile).scanNext + 1) % 256 ∧ (t.tile tile).migrating = none

theorem State.moveCoord_moved {s : State} {tile sp : Nat} (h : (s.tile tile).spare = some sp) : s.Moved (s.moveCoord tile) tile sp := by
  unfold State.Moved State.moveCoord
  simp [h]

theorem State.moveCoord_keeps {γ : Type} (π : State → γ)
    (h : ∀ (s : State) c t a, π { s with freeCtr := c, tiles := t, alarms := a } = π s) (s : State) (tile : Nat) :
    π (s.moveCoord tile) = π s := by
  unfold State.moveCoord
  dsimp only
  split
  · rfl
  · exact h s _ _ _

/-! ## ROTATION_SCAN_STEP -/

/-- The scan controller's step for a tile is due, with a spare core to move to. -/
theorem State.scanDue_of {s : State} {tile sp : Nat} (h : s.booted = true ∧ (s.tile tile).coverage = true ∧ (s.tile tile).scanning = none ∧
    (s.tile tile).migrating = none ∧ (s.tile tile).scanAt ≤ s.wall) (hs : (s.tile tile).spare = some sp) : s.scanDue tile = true := by
  obtain ⟨hb, hc, hn, hm, hw⟩ := h
  simp [State.scanDue, hb, hc, hn, hm, hw, hs]

section
variable {s : State} {sp : Nat} (hd : s.scanDue s.on.a = true)
include hd

theorem exec_rotationScanStep_idle (h : ∀ l, s.launchOf (scanCore s.on.a (s.tile s.on.a).scanNext) = some l → l.stage ≠ .running) :
    exec .rotationScanStep s = .next (s.moveCoord s.on.a) := by
  change execRotationScanStep s = _
  simp only [execRotationScanStep, hd, Bool.not_true, Bool.false_eq_true, if_false]
  cases hl : s.launchOf (scanCore s.on.a (s.tile s.on.a).scanNext) with
  | none => rfl
  | some l => exact if_neg (h l hl)

theorem exec_rotationScanStep_running {l : Launch} (hl : s.launchOf (scanCore s.on.a (s.tile s.on.a).scanNext) = some l)
    (hr : l.stage = .running) : exec .rotationScanStep s =
      .next (s.modTile s.on.a fun t => { t with migrating := some (scanCore s.on.a (s.tile s.on.a).scanNext) }) := by
  change execRotationScanStep s = _
  simp only [execRotationScanStep, hd, Bool.not_true, Bool.false_eq_true, if_false]
  rw [hl]
  exact if_pos hr

/-- A coordinate whose core runs no launch moves at once. -/
theorem happens_rotationScanStep_idle (hs : (s.tile s.on.a).spare = some sp)
    (h : ∀ l, s.launchOf (scanCore s.on.a (s.tile s.on.a).scanNext) = some l → l.stage ≠ .running) :
    Happens .rotationScanStep s fun t => s.Moved t s.on.a sp ∧ t.cores = s.cores ∧ t.mem = s.mem :=
  ⟨_, exec_rotationScanStep_idle hd h, State.moveCoord_moved hs, s.moveCoord_keeps State.cores (fun _ _ _ _ => rfl) _,
    s.moveCoord_keeps State.mem (fun _ _ _ _ => rfl) _⟩

/-- Another waits for its launch's common retirement point. -/
theorem happens_rotationScanStep_running {l : Launch} (hl : s.launchOf (scanCore s.on.a (s.tile s.on.a).scanNext) = some l)
    (hr : l.stage = .running) : Happens .rotationScanStep s fun t =>
      (t.tile s.on.a).migrating = some (scanCore s.on.a (s.tile s.on.a).scanNext) ∧ (t.tile s.on.a).map = (s.tile s.on.a).map ∧
        t.cores = s.cores :=
  ⟨_, exec_rotationScanStep_running hd hl hr, by rw [State.tile_modTile], by rw [State.tile_modTile], rfl⟩

end

/-! ## ROTATION_MIGRATION -/

theorem State.lid_of_launchOf {s : State} {c : Nat} {l : Launch} (h : s.launchOf c = some l) : s.launch? l.lid = some l := by
  obtain ⟨lid, _, hl⟩ := Option.bind_eq_some_iff.1 h
  rw [State.lid_of_launch? hl]
  exact hl

/-- The launch of a core's own number, as the move of a coordinate leaves it. -/
theorem State.launchOf_moveCoord (s : State) (c tile : Nat) : (s.core c).lid.bind (s.moveCoord tile).launch? = s.launchOf c := by
  have : (s.moveCoord tile).launch? = s.launch? := s.moveCoord_keeps State.launch? (fun _ _ _ _ => rfl) tile
  rw [this]
  rfl

/-- The state in which a launch stands for the move of the coordinate of its core `p`. -/
def State.migrated (s : State) (l : Launch) (p : Nat) : State :=
  ((s.moveCoord s.on.a).chosen.savePhase l p).holdLaunch l
    ((s.moveCoord s.on.a).wall + (s.moveCoord s.on.a).choice 1 (nsUnits 10000 - 210))

section
variable {s : State} {p : Nat} (hm : (s.tile s.on.a).migrating = some p)
include hm

theorem exec_rotationMigration_idle (h : ∀ l, s.launchOf p = some l → l.stage ≠ .running) :
    exec .rotationMigration s = .next (s.moveCoord s.on.a) := by
  have due : s.migrationDue s.on.a = true := by
    unfold State.migrationDue
    rw [hm]
    cases hl : s.launchOf p with
    | none => simp [hl]
    | some l => simp [hl, h l hl]
  change execRotationMigration s = _
  simp only [execRotationMigration, due, hm, Option.getD_some, Bool.not_true, Bool.false_eq_true, if_false]
  rw [State.launchOf_moveCoord]
  cases hl : s.launchOf p with
  | none => rfl
  | some l => exact if_neg (h l hl)

theorem exec_rotationMigration_running {l : Launch} (hl : s.launchOf p = some l) (hr : l.stage = .running) (hf : l.frozenUntil = none)
    (ha : ∀ d ∈ l.cores, (s.core d).atRetire = true) : exec .rotationMigration s = .next (s.migrated l p) := by
  have due : s.migrationDue s.on.a = true := by
    unfold State.migrationDue
    rw [hm]
    simpa [hl, hf, State.atCommonPoint] using .inr ha
  change execRotationMigration s = _
  simp only [execRotationMigration, due, hm, Option.getD_some, Bool.not_true, Bool.false_eq_true, if_false]
  rw [State.launchOf_moveCoord, hl]
  exact if_pos hr

end

theorem State.savePhase_keeps {γ : Type} (π : State → γ) (h : ∀ (s : State) m p b, π { s with mem := m, poison := p, bad := b } = π s)
    (s : State) (l : Launch) (c : Nat) : π (s.savePhase l c) = π s := by
  unfold State.savePhase
  split
  · exact h s _ _ _
  · rfl

/-- A launch's stop leaves its cores' registers, banks and local stores. -/
theorem State.holdLaunch_sameFiles (s : State) (l : Launch) (u d : Nat) : (s.core d).SameFiles ((s.holdLaunch l u).core d) := by
  refine List.foldlRecOn (motive := fun t : State => (s.core d).SameFiles (t.core d)) l.cores _ (Core.SameFiles.rfl' _) fun t ht c _ => ht.trans ?_
  by_cases e : d = c
  · subst e
    rw [State.core_modCore_same]
    constructor <;> rfl
  · rw [State.core_modCore_other _ _ _ _ e]
    exact Core.SameFiles.rfl' _

/-- What the move of a coordinate, and the saving of a core's phase after it, keep. -/
theorem State.savePhase_moveCoord_keeps {γ : Type} (π : State → γ)
    (hs : ∀ (s : State) c t a, π { s with freeCtr := c, tiles := t, alarms := a } = π s)
    (hp : ∀ (s : State) m p b, π { s with mem := m, poison := p, bad := b } = π s) (s : State) (l : Launch) (tile p : Nat) :
    π ((s.moveCoord tile).chosen.savePhase l p) = π s :=
  calc π ((s.moveCoord tile).chosen.savePhase l p)
      = π (s.moveCoord tile).chosen := State.savePhase_keeps π hp _ l p
    _ = π (s.moveCoord tile) := hs _ _ (s.moveCoord tile).tiles (s.moveCoord tile).alarms
    _ = π s := s.moveCoord_keeps π hs tile

theorem State.migrated_moved {s : State} {sp : Nat} (h : (s.tile s.on.a).spare = some sp) (l : Launch) (p : Nat) :
    s.Moved (s.migrated l p) s.on.a sp := by
  have same : (s.migrated l p).tile s.on.a = (s.moveCoord s.on.a).tile s.on.a :=
    (State.holdLaunch_keeps (fun t => t.tile s.on.a) (fun _ _ _ => rfl) (fun _ _ _ => rfl) _ _ _).trans
      (State.savePhase_keeps (fun t => t.tile s.on.a) (fun _ _ _ _ => rfl) _ _ _)
  unfold State.Moved
  rw [same]
  exact State.moveCoord_moved h

/-- Every core of the launch stands, with its files as they were. -/
theorem State.migrated_held (s : State) {l : Launch} (p : Nat) {d : Nat} (hd : d ∈ l.cores) :
    (s.migrated l p).Held d ∧ (s.core d).SameFiles ((s.migrated l p).core d) := by
  refine ⟨State.holdLaunch_held _ hd, ?_⟩
  have before := s.savePhase_moveCoord_keeps (fun t => t.core d) (fun _ _ _ _ => rfl) (fun _ _ _ _ => rfl) l s.on.a p
  exact before ▸ State.holdLaunch_sameFiles _ _ _ _

/-- The launch stands for at most 10 µs. -/
theorem State.migrated_until {s : State} {l : Launch} (h : s.launch? l.lid = some l) (hf : l.frozenUntil = none) (p : Nat) :
    ∃ m i, (s.migrated l p).launch? l.lid = some m ∧ m.frozenUntil = some i ∧ s.wall < i ∧ i ≤ s.wall + nsUnits 10000 := by
  have before : ((s.moveCoord s.on.a).chosen.savePhase l p).launch? l.lid = some l :=
    (s.savePhase_moveCoord_keeps (fun t => t.launch? l.lid) (fun _ _ _ _ => rfl) (fun _ _ _ _ => rfl) l s.on.a p).trans h
  have wall : (s.moveCoord s.on.a).wall = s.wall := s.moveCoord_keeps State.wall (fun _ _ _ _ => rfl) _
  obtain ⟨h1, h2⟩ := (s.moveCoord s.on.a).choice_bounds (lo := 1) (hi := nsUnits 10000 - 210) (by decide)
  unfold State.migrated
  rw [State.launch?_holdLaunch, before, if_pos rfl, wall]
  refine ⟨_, _, rfl, rfl, ?_, ?_⟩ <;> rw [hf] <;> simp only [Option.getD_none] <;> omega

/-- The memory after the move: the phase that is open on the core is saved in its image. -/
theorem State.migrated_mem (s : State) (l : Launch) (p : Nat) : (s.migrated l p).mem = match (s.core p).phase with
    | some f => (s.writeHome (s.imageKey l.ctx (l.cores.findIdx (· == p)) + 0xA4000) f.bytes).mem
    | none => s.mem := by
  have held : (s.migrated l p).mem = ((s.moveCoord s.on.a).chosen.savePhase l p).mem :=
    State.holdLaunch_keeps State.mem (fun _ _ _ => rfl) (fun _ _ _ => rfl) _ _ _
  have phase : (((s.moveCoord s.on.a).chosen.core p).phase) = (s.core p).phase :=
    s.moveCoord_keeps (fun t => (t.core p).phase) (fun _ _ _ _ => rfl) _
  have mem : (s.moveCoord s.on.a).chosen.mem = s.mem := s.moveCoord_keeps State.mem (fun _ _ _ _ => rfl) _
  have key : ∀ i, (s.moveCoord s.on.a).chosen.imageKey l.ctx i = s.imageKey l.ctx i :=
    fun i => s.moveCoord_keeps (fun t => t.imageKey l.ctx i) (fun _ _ _ _ => rfl) _
  have out : (s.moveCoord s.on.a).chosen.mappedOut = s.mappedOut := s.moveCoord_keeps State.mappedOut (fun _ _ _ _ => rfl) _
  rw [held, State.savePhase, phase]
  cases (s.core p).phase with
  | none => exact mem
  | some f =>
    dsimp only
    rw [key, State.writeHome, State.writeHome]
    simp only [out, mem]

/-! ## The end of a scan -/

/-- A context whose snapshot had begun when the scan of physical core `n` did counts it as scanned. -/
def Context.scanPassed (x : Context) (n start : Nat) : Context :=
  if x.active ∧ x.beginAt ≤ start then
    { x with scanned := addOnce x.scanned n, verified := x.verified || ({ x with scanned := addOnce x.scanned n } : Context).allScanned }
  else x

theorem exec_scanPass {s : State} {p start : Nat} (h : (s.tile s.on.a).scanning = some (p, start)) : exec .scanPass s =
    .next { (s.modTile s.on.a fun t => { t with scanning := none, spare := some p }) with
      contexts := s.contexts.map fun x => x.scanPassed (257 * s.on.a + p) start } := by
  change execScanPass s = _
  simp only [execScanPass, h]
  rfl

/-- A physical core that passes becomes the spare, and counts as scanned for every snapshot begun before its scan. -/
theorem happens_scanPass {s : State} {p start : Nat} (h : (s.tile s.on.a).scanning = some (p, start)) : Happens .scanPass s fun t =>
    (t.tile s.on.a).spare = some p ∧ (t.tile s.on.a).scanning = none ∧
    ∀ i, (s.ctx i).active = true → (s.ctx i).beginAt ≤ start → 257 * s.on.a + p ∈ (t.ctx i).scanned ∧
      ((∀ q ∈ (s.ctx i).activeProducers, q ∈ (s.ctx i).scanned ∨ q = 257 * s.on.a + p) → (t.ctx i).verified = true) := by
  have own := s.tile_modTile s.on.a fun t => { t with scanning := none, spare := some p }
  refine ⟨_, exec_scanPass h, congrArg TileSt.spare own, congrArg TileSt.scanning own, ?_⟩
  intro i ha hb
  rw [State.ctx, vAt_map, ← State.ctx, Context.scanPassed, if_pos ⟨ha, hb⟩]
  refine ⟨(mem_addOnce _ _ _).2 (.inl rfl), fun hq => ?_⟩
  have all : ({ s.ctx i with scanned := addOnce (s.ctx i).scanned (257 * s.on.a + p) } : Context).allScanned = true := by
    rw [Context.allScanned, List.all_eq_true]
    exact fun q hm => List.contains_iff_mem.2 ((mem_addOnce _ _ _).2 (hq q hm).symm)
  rw [all, Bool.or_true]

/-- A context hears that physical core `n`, number `p` of a tile, has failed its scan. -/
def State.tellFail (s : State) (tile p i : Nat) : State :=
  if (s.ctx i).producers.contains (257 * tile + p) ∨ ((s.ctx i).active ∧ (s.ctx i).activeProducers.contains (257 * tile + p)) then
    (s.modCtx i fun x => { x with failed := x.failed || x.active }).post i (cause 5 3 3) tile p
  else s

/-- The tile whose physical core `p` has failed its scan stops scanning, and the supervisor hears of it. -/
def State.mapOutCore (s : State) (tile p : Nat) : State :=
  ((s.modTile tile fun t => { t with scanning := none, spare := none, coverage := false, badCores := addOnce t.badCores p }).postSup
    (cause 5 3 3) tile p).replaceRequested (cause 5 3 6) tile

theorem exec_scanFail {s : State} {p start : Nat} (h : (s.tile s.on.a).scanning = some (p, start)) : exec .scanFail s =
    .next ((List.range 16).foldl (fun (t : State) i => t.tellFail s.on.a p i) (s.mapOutCore s.on.a p)) := by
  change execScanFail s = _
  simp only [execScanFail, h]
  rfl

theorem State.tellFail_keeps {γ : Type} (π : State → γ) (h : ∀ (s : State) c e, π { s with contexts := c, events := e } = π s) (s : State)
    (tile p i : Nat) : π (s.tellFail tile p i) = π s := by
  unfold State.tellFail
  split
  · exact h s _ _
  · rfl

theorem State.mem_events_tellFail {s : State} {e : Nat × Nat × Nat × Nat} (h : e ∈ s.events) (tile p i : Nat) : e ∈ (s.tellFail tile p i).events := by
  unfold State.tellFail
  split
  · exact List.mem_append_left _ h
  · exact h

/-- Of a context the report changes whether its snapshot has failed, and never takes that back. -/
theorem State.ctx_tellFail (s : State) (tile p j i : Nat) : ∃ b, (s.tellFail tile p j).ctx i = { s.ctx i with failed := (s.ctx i).failed || b } := by
  unfold State.tellFail
  split
  · rw [State.ctx_post, State.ctx_modCtx']
    split
    · rename_i h
      have : s.ctx j = s.ctx i := by simp only [State.ctx, vAt, h]
      exact ⟨(s.ctx i).active, by rw [this]⟩
    · exact ⟨false, by simp⟩
  · exact ⟨false, by simp⟩

/-- A physical core that fails is mapped out, its tile's scanning ends, and the contexts that it produced for hear of it. -/
theorem happens_scanFail {s : State} {p start : Nat} (h : (s.tile s.on.a).scanning = some (p, start)) : Happens .scanFail s fun t =>
    (t.tile s.on.a).spare = none ∧ (t.tile s.on.a).coverage = false ∧ p ∈ (t.tile s.on.a).badCores ∧
    (16, cause 5 3 3, s.on.a, p) ∈ t.events ∧ t.pkstat = s.pkstat ||| 1#4 ∧
    ∀ i, i < 16 → (257 * s.on.a + p ∈ (s.ctx i).producers ∨ (s.ctx i).active = true ∧ 257 * s.on.a + p ∈ (s.ctx i).activeProducers) →
      (i, cause 5 3 3, s.on.a, p) ∈ t.events ∧ ((s.ctx i).active = true → (t.ctx i).failed = true) := by
  refine ⟨_, exec_scanFail h, ?_⟩
  have tile : ∀ t : State, ((List.range 16).foldl (fun (t : State) i => t.tellFail s.on.a p i) t).tile s.on.a = t.tile s.on.a :=
    foldl_keeps (fun t : State => t.tile s.on.a) (fun t i => t.tellFail_keeps (fun t => t.tile s.on.a) (fun _ _ _ => rfl) _ _ i) _
  have pkstat : ∀ t : State, ((List.range 16).foldl (fun (t : State) i => t.tellFail s.on.a p i) t).pkstat = t.pkstat :=
    foldl_keeps State.pkstat (fun t i => t.tellFail_keeps _ (fun _ _ _ => rfl) _ _ i) _
  have mapped : (s.mapOutCore s.on.a p).tile s.on.a = { s.tile s.on.a with
      scanning := none, spare := none, coverage := false, badCores := addOnce (s.tile s.on.a).badCores p } := by
    simp [State.mapOutCore]
  beta_reduce
  rw [tile, pkstat, mapped]
  refine ⟨rfl, rfl, (mem_addOnce _ _ _).2 (.inl rfl), ?_, rfl, fun i hi hn => ?_⟩
  · exact List.foldlRecOn (motive := fun t : State => (16, cause 5 3 3, s.on.a, p) ∈ t.events) _ _ (by simp [State.mapOutCore])
      fun _ ht _ _ => State.mem_events_tellFail ht _ _ _
  · refine foldl_of_mem_of_inv
      (I := fun t : State => (t.ctx i).producers = (s.ctx i).producers ∧ (t.ctx i).active = (s.ctx i).active ∧
        (t.ctx i).activeProducers = (s.ctx i).activeProducers)
      (P := fun t : State => (i, cause 5 3 3, s.on.a, p) ∈ t.events ∧ ((s.ctx i).active = true → (t.ctx i).failed = true))
      (List.mem_range.2 hi) ⟨rfl, rfl, rfl⟩ ?_ ?_ ?_
    · intro t j ht
      obtain ⟨b, e⟩ := t.ctx_tellFail s.on.a p j i
      rw [e]
      exact ht
    · rintro t ⟨h1, h2, h3⟩
      have told : t.tellFail s.on.a p i =
          (t.modCtx i fun x => { x with failed := x.failed || x.active }).post i (cause 5 3 3) s.on.a p := by
        refine if_pos ?_
        rw [h1, h2, h3, List.contains_iff_mem, List.contains_iff_mem]
        exact hn
      rw [told, State.ctx_post, State.ctx_modCtx]
      exact ⟨by simp, fun ha => by simp [h2, ha]⟩
    · rintro t j - ⟨he, hf⟩
      obtain ⟨b, e⟩ := t.ctx_tellFail s.on.a p j i
      rw [e]
      exact ⟨State.mem_events_tellFail he _ _ _, fun ha => by simp [hf ha]⟩

/-- Settles O49: each event of the stacks, the scrubbers and the scan, by the lemma of its case. -/
theorem stackEvents : Obligations.StackEvents := by
  unfold Obligations.StackEvents
  refine ⟨?_, ?_⟩
  · intro s i x y cs row m g pc posted armed held miss
    refine ⟨fun h => (happens_misraGriesActivation_hit h).mono fun t ht => ?_,
      fun h u v w r hb => happens_misraGriesActivation_writesBack h hb,
      fun h hc hl ht => happens_misraGriesActivation_counts h (misraGries_new hc hl ht),
      fun h hc hl => (happens_misraGriesActivation_counts h (misraGries_full hc hl)).mono fun _ => And.symm,
      fun h hc hi => happens_misraGriesActivation_counts h (hc ▸ misraGries_counts hi), fun h hc hi hr => ?_,
      happens_refreshWindow_row, happens_refreshWindow_all, happens_eyeMarginMeasurement_stack, happens_eyeMarginMeasurement_pin,
      happens_hpcout, happens_hpcout_none, happens_heyemin s, happens_correctedCountHour s,
      fun h => ⟨happens_patrolScrub_cancelled h, happens_localStoreScrub_cancelled h⟩, happens_patrolScrub, happens_localStoreScrub⟩
    · change (t.stack s.on.a).mg = _ ∧ (t.stack s.on.a).refreshes = _ ∧ (t.stack s.on.a).buffers s.on.b = _
      rw [ht, Stack.buffers_useRow]
      exact ⟨rfl, rfl, rfl⟩
    · have := happens_misraGriesActivation_counts h (hc ▸ misraGries_passes hi)
      rw [neighbours_of_two_le hr] at this
      exact this
  · intro s l p start sp tile x c moved due
    refine ⟨fun hd hs hn => happens_rotationScanStep_idle (State.scanDue_of hd hs) hs fun l hl => ?_,
      fun hd hs hl hr => happens_rotationScanStep_idle (State.scanDue_of hd hs) hs fun l' hl' => ?_,
      fun hd hs => happens_rotationScanStep_running (State.scanDue_of hd hs), ?_, ?_, happens_scanPass, happens_scanFail⟩
    · rw [hn] at hl
      cases hl
    · rw [hl] at hl'
      cases hl'
      exact hr
    · intro hm hs hl
      refine ⟨_, exec_rotationMigration_idle hm fun l' hl' => ?_, State.moveCoord_moved hs,
        s.moveCoord_keeps State.cores (fun _ _ _ _ => rfl) _, s.moveCoord_keeps State.mem (fun _ _ _ _ => rfl) _⟩
      rcases hl with hl | ⟨hl, hr⟩ <;> rw [hl] at hl' <;> cases hl'
      exact hr
    · intro hm hs hl hr hf ha
      have mem := s.migrated_mem l p
      refine ⟨_, exec_rotationMigration_running hm hl hr hf ha, State.migrated_moved hs l p, fun d hd => ?_, fun hn => ?_, fun f hp hw ho => ?_,
        State.migrated_until (State.lid_of_launchOf hl) hf p⟩
      · obtain ⟨⟨h1, h2⟩, h3⟩ := s.migrated_held p hd
        exact ⟨h1, h2, h3⟩
      · rw [mem, hn]
      · rw [mem, hp]
        exact (State.wrote_writeHome ⟨hw, ho⟩).1

end Sys2Proof.Machine
end

section
/-! PROOF. A step runs the decoded instruction, or the event that is due (02 R35, R36, 05 R142; O57). -/

namespace Sys2Proof.Machine

/-! ## What a fetch leaves as it was -/

theorem State.noteCorrected_keeps {γ : Type} (π : State → γ) (h : ∀ (s : State) x e, π { s with hbm := x, events := e } = π s) (s : State)
    (g : Nat) : π (s.noteCorrected g) = π s := by
  unfold State.noteCorrected
  dsimp only
  split <;> exact h s _ _

/-- What the read of a fetched word and of the tables on its way leaves behind keeps whatever errors, poison and event records leave alone. -/
theorem State.fetchEffects_keeps {γ : Type} (π : State → γ) (hb : ∀ (s : State) b p, π { s with bad := b, poison := p } = π s)
    (he : ∀ (s : State) x e, π { s with hbm := x, events := e } = π s) (s : State) (c : Nat) (st : Stream) (x : StreamSt) :
    π (s.fetchEffects c st x) = π s := by
  have reads : ∀ (t : State) key n, π (t.readEffects key n) = π t := State.readEffects_keeps π hb (State.noteCorrected_keeps π he)
  have walk : ∀ (t : State) tile ctx va, π (t.walkEffects tile ctx va) = π t := by
    intro t tile ctx va
    unfold State.walkEffects
    dsimp only
    split
    · rfl
    · exact foldl_keeps π (fun s a => reads s _ 8) _ _
  unfold State.fetchEffects
  dsimp only
  split
  · rw [reads]
    split
    · exact walk _ _ _ _
    · rfl
  · split
    · exact walk _ _ _ _
    · rfl

theorem State.fetchEffects_mem (s : State) (c : Nat) (st : Stream) (x : StreamSt) : (s.fetchEffects c st x).mem = s.mem :=
  State.fetchEffects_keeps State.mem (fun _ _ _ => rfl) (fun _ _ _ => rfl) s c st x

theorem State.fetchEffects_cores (s : State) (c : Nat) (st : Stream) (x : StreamSt) : (s.fetchEffects c st x).cores = s.cores :=
  State.fetchEffects_keeps State.cores (fun _ _ _ => rfl) (fun _ _ _ => rfl) s c st x

/-- The issue cycle of a stream is not changed by a fetch. -/
theorem State.fetchEffects_cyc (s : State) (c : Nat) (st : Stream) (x : StreamSt) (p q : Nat) :
    ({ s.fetchEffects c st x with cur := ⟨c, st, p⟩ } : State).cyc = ({ s with cur := ⟨c, st, q⟩ } : State).cyc :=
  State.fetchEffects_keeps (fun t : State => ({ t with cur := ⟨c, st, p⟩ } : State).cyc) (fun _ _ _ => rfl) (fun _ _ _ => rfl) s c st x

/-! ## From the step to the slot -/

theorem fld_idle (w : Word) : (fld w 54 10).toNat = w.toNat / 2 ^ 54 := by
  have := w.isLt
  rw [fld, BitVec.extractLsb'_toNat, Nat.shiftRight_eq_div_pow, Nat.mod_eq_of_lt (by omega)]

/-- A stream with a slot to come has not ended. -/
theorem State.owedAtEnd_of_hasSlot {s : State} {c : Nat} (h : s.hasSlot c .copy = true) : s.owedAtEnd c = false := by
  have ended : (s.core c).cpy.ended = false := by
    simp only [State.hasSlot, Bool.and_eq_true, Bool.not_eq_true'] at h
    exact h.1.1
  simp [State.owedAtEnd, ended]

/-- The part of a stream whose word is fetched and whose slot has come is that slot. -/
theorem State.part_eq_slot {s : State} {c : Nat} {st : Stream} {w : Word} (hs : s.hasSlot c st = true)
    (hf : s.fetch c st ({ s with cur := ⟨c, st, 0⟩ } : State).mine = .word w)
    (hd : ({ s with cur := ⟨c, st, 0⟩ } : State).mine.slotDue (w.toNat / 2 ^ 54) ({ s with cur := ⟨c, st, 0⟩ } : State).cyc = true) :
    s.part c st = ({ s.fetchEffects c st ({ s with cur := ⟨c, st, 0⟩ } : State).mine with
      cur := ⟨c, st, ({ s with cur := ⟨c, st, 0⟩ } : State).mine.position (w.toNat / 2 ^ 54)⟩ } : State).slot w := by
  have notOwed : (st == .copy && s.owedAtEnd c) = false := by
    cases st with
    | copy => exact State.owedAtEnd_of_hasSlot hs
    | _ => rfl
  simp only [State.part, notOwed, State.runStream, hs, hf, fld_idle, hd]
  rfl

theorem State.noInterrupt_of {s : State} (h : s.cur.st = .helm → s.interruptDue s.cur.core s.cur.pos = false) :
    (s.cur.st == .helm && s.interruptDue s.cur.core s.cur.pos) = false := by
  cases hs : s.cur.st with
  | helm => exact h hs
  | _ => rfl

/-- A slot at which nothing comes before the word. -/
theorem State.slot_eq_decode {s : State} (w : Word) (hi : s.cur.st = .helm → s.interruptDue s.cur.core s.cur.pos = false)
    (hh : s.heldSlot = false) (ha : s.annulled = false) (ho : s.owedNow = none) : s.slot w = match decode s.cur.st w with
      | .error e => exec .unassignedOpcode { s with on := { flag := e == .reservedBits } }
      | .ok d => s.issue d := by
  have hi' := State.noInterrupt_of hi
  simp only [State.slot, hi', hh, ha, ho]
  rfl

theorem State.slot_held {s : State} (w : Word) (hi : s.cur.st = .helm → s.interruptDue s.cur.core s.cur.pos = false)
    (hh : s.heldSlot = true) : s.slot w = .next s := by
  have hi' := State.noInterrupt_of hi
  simp only [State.slot, hi', hh]
  rfl

theorem step_issue {s : State} {c : Nat} {st : Stream} {rest : List (Nat × Stream)} (hp : s.tphase = .issue) (ht : s.todo = (c, st) :: rest) :
    step s = ({ s with todo := rest } : State).part c st := by
  unfold step
  split
  · simp_all
  · split
    · simp_all
    · rename_i h
      cases ht.symm.trans h
      rfl
  · simp_all

/-! ## The rows of R36 before the word's own -/

/-- The guard selects the word's issue (03 R69). -/
def State.Selects (s : State) (d : Decoded) : Prop :=
  d.gm = 0 ∨ (s.me.pIsFull d.gp = true ∧ s.me.preg d.gp = (d.gm == 1))

theorem State.issue_selected {s : State} {d : Decoded} (h : s.Selects d) : s.issue d =
    if s.settled.awaits d.instr then .next s else noteOutcome s.mine (exec d.instr s.settled) := by
  unfold State.issue
  rw [if_neg, if_neg]
  · rintro ⟨hm, hp⟩
    exact h.elim hm fun h => hp h.2
  · rintro ⟨hm, hp⟩
    rcases h with h | h
    · exact hm h
    · simp [h.1] at hp

theorem State.issue_empty {s : State} {d : Decoded} (hm : d.gm ≠ 0) (hf : s.me.pIsFull d.gp ≠ true) :
    s.issue d = .next (if s.stalls then s else s.fault (cause2 s.cur.st 0)) := by
  unfold State.issue
  rw [if_pos ⟨hm, by simpa using hf⟩]
  split <;> rfl

theorem State.issue_passed {s : State} {d : Decoded} (hs : ¬ s.Selects d) (hf : s.me.pIsFull d.gp = true) :
    s.issue d = .next (s.passGuarded d.instr) := by
  have hm : d.gm ≠ 0 := fun h => hs (.inl h)
  unfold State.issue
  rw [if_neg (by simp [hf]), if_pos ⟨hm, fun h => hs (.inr ⟨hf, h⟩)⟩]

/-! ## A word that is no instruction -/

theorem State.faultWith_of_core {s : State} (h : s.cur.st ≠ .crossing) (i : TrapInfo) :
    s.faultWith i = s.raiseAt s.cur.core { i with ofWord := true } := by
  unfold State.faultWith
  dsimp only
  split
  · exact absurd ‹_› h
  · rfl

/-- What a fault of a core stream's word changes: the list of the core's faults. -/
theorem State.fault_frame {s : State} (h : s.cur.st ≠ .crossing) (code : Nat) : (s.fault code).mem = s.mem ∧
    (∀ k, k ≠ s.cur.core → (s.fault code).core k = s.core k) ∧
    (s.fault code).core s.cur.core = { s.core s.cur.core with
      raised := (s.core s.cur.core).raised ++ [{ s.info code with ofWord := true }] } := by
  rw [State.fault, State.faultWith_of_core h]
  exact ⟨rfl, fun k hk => State.core_modCore_other _ _ _ _ hk, State.core_modCore_same _ _ _⟩

theorem exec_unassignedOpcode (s : State) (e : DecodeError) : exec .unassignedOpcode { s with on := { flag := e == .reservedBits } } =
    .next (({ s with on := { flag := e == .reservedBits } } : State).fault (cause0 s.cur.st (if e = .reservedBits then 1 else 0))) := by
  cases e <;> rfl

/-! ## Events -/

/-- What a step that takes the event `h` from its list leads to: the event's state, or that without it where its condition has gone. -/
theorem step_of_event {s r : State} {h : Happening} (hp : s.tphase = .start) (he : s.popAgenda.or s.popAlarm = some (h, r)) (t : State) :
    (exec h.1 { r with on := h.2 } = .next t → step s = .next t) ∧
    ((∀ u, exec h.1 { r with on := h.2 } ≠ .next u) → step s = .next r) := by
  have start : step s = .next ((r.happens h).getD r) := by simp only [step, hp, State.startStep, he]
  constructor
  · intro e
    rw [start, State.happens, e]
    rfl
  · intro e
    rw [start, State.happens]
    split
    · exact absurd ‹_› (e _)
    · rfl

theorem State.noteProducer_frame (s : State) (before : StreamSt) : s.noteProducer before = { s with contexts := (s.noteProducer before).contexts } := by
  unfold State.noteProducer
  dsimp only
  split <;> rfl

/-- Settles O57: the step is the stream's slot (`State.part_eq_slot`), and the slot is R36's rows over the decoded word. -/
theorem stepRunsDecoded : Obligations.StepRunsDecoded := by
  unfold Obligations.StepRunsDecoded
  refine ⟨?_, ?_, ?_⟩
  · intro s c st rest w d e hp htodo r x idle at_ hs hf hd hi
    have cyc : at_.cyc = ({ r with cur := ⟨c, st, 0⟩ } : State).cyc := State.fetchEffects_cyc r c st x _ _
    have slot : step s = at_.slot w := (step_issue hp htodo).trans (State.part_eq_slot hs hf (cyc ▸ hd))
    rw [slot]
    refine ⟨State.slot_held w hi, ?_⟩
    intro hh ha ho full selects
    rw [State.slot_eq_decode w hi hh ha ho]
    refine ⟨fun ok => ?_, fun bad hx => ?_⟩
    · rw [show decode at_.cur.st w = .ok d from ok]
      refine ⟨fun h hw => ?_, fun h hw => ?_, fun hm hn => at_.issue_empty hm hn, fun h hn => State.issue_passed h hn⟩
      · exact (State.issue_selected h).trans (if_neg (Bool.eq_false_iff.1 hw))
      · exact (State.issue_selected h).trans (if_pos hw)
    · rw [show decode at_.cur.st w = .error e from bad]
      refine ⟨_, exec_unassignedOpcode at_ e, ?_⟩
      have core : ∀ k, at_.core k = s.core k := fun k => by
        rw [State.core, State.core, show at_.cores = s.cores from State.fetchEffects_cores r c st x]
      obtain ⟨mem, others, own⟩ := State.fault_frame (s := { at_ with on := { flag := e == .reservedBits } }) hx
        (cause0 st (if e = .reservedBits then 1 else 0))
      refine ⟨mem.trans (State.fetchEffects_mem r c st x), fun k hk => (others k hk).trans (core k), own.trans ?_⟩
      rw [← core c]
      rfl
  · intro s d l t hp
    refine ⟨fun ha hd => ?_, fun hn ha hd => ?_⟩
    · exact step_of_event (h := (d.ev, d.on)) (r := { s with agenda := l }) hp (by simp [State.popAgenda, ha, hd]) t
    · exact step_of_event (h := (d.ev, d.on)) (r := { s with alarms := l }) hp (by simp [State.popAgenda, State.popAlarm, hn, ha, hd]) t
  · intro s before t h
    cases h
    have frame := s.noteProducer_frame before
    refine ⟨?_, ?_, ?_, frame⟩ <;> rw [frame]

end Sys2Proof.Machine
end

section
/-! PROOF. The deadline waits at issue (02 R39, 05 R159; O13). -/

namespace Sys2Proof.Machine

/-- A core in elastic mode whose helm is one cycle late: its slot stands at position 0 and comes in cycle 1 (02 R42). -/
def State.lateByOne : State := State.reset.setCore 0 { cyc := 1 }

/-- A wait that ends at its issue stands at its deadline, to which the position of the issuing slot moves from the one it had (02 R39). -/
theorem twait_ends_at_deadline {t : State} (h : exec (.twait 0) State.lateByOne = .next t) : t.cur.pos = 1 := by
  cases h
  rfl

/-- Refutes O13: its `Begins` keeps all but the cores and the counter of free values, `cur.pos` with them, and TWAIT 0 in a slot that comes after its
position moves `cur.pos` to its deadline. -/
theorem not_waitWords : ¬ Obligations.WaitWords := by
  unfold Obligations.WaitWords
  rintro ⟨h, -⟩
  obtain ⟨⟨t, runs, alone, -⟩, -⟩ := (h State.lateByOne 0 0 0 0 0 0 0 0).1 rfl
  have kept : t.cur.pos = State.lateByOne.cur.pos := by rw [alone.rest]
  have moved : t.cur.pos = 1 := twait_ends_at_deadline runs
  exact absurd (kept.symm.trans moved) (by decide)

end Sys2Proof.Machine
end

section
/-! PROOF. The frame of the words of a core's streams (02 R32, 03 R83, 05 R134; O60). -/

namespace Sys2Proof.Machine

/-! ## The operations of the helm's words -/

/-- Whatever an outcome leads to keeps the frame of `s`. -/
def State.Framed (s : State) (o : Host.Outcome State Fault Refusal) : Prop := ∀ t, o = .next t → s.Frame t

theorem State.Frame.framed {s t : State} (h : s.Frame t) : s.Framed (.next t) := by
  rintro _ ⟨⟩
  exact h

theorem State.Frame.annul {s t : State} (h : s.Frame t) : s.Frame t.annul := h.advance.modMe _ (by constructor <;> rfl)

/-- An access of any pool is sent on its way. -/
theorem State.Frame.sendAccess {s t : State} (h : s.Frame t) (k : AccKind) (va : Word) (ac : BitVec 3) (rd : SReg) (v c : Word) (p : Pool) :
    s.Frame (t.startAccess k va ac rd v c p) :=
  h.chosen.modMe _ (by constructor <;> rfl)

theorem State.Frame.mismatch {s t : State} (h : s.Frame t) (b : Bool) : s.Frame (t.mismatch b) := by
  unfold State.mismatch
  split
  · exact h.modMe _ (by constructor <;> rfl)
  · exact h

theorem State.Frame.vresults {s t : State} (h : s.Frame t) (lat occ : Nat) (b : Bool) (effs : List Eff) (sp : List Nat) :
    s.Frame (t.vdone lat occ b effs sp) :=
  ((h.modMe _ (by constructor <;> rfl)).modMe _ (by constructor <;> rfl)).advance

theorem State.Frame.tagScrub {s t : State} (h : s.Frame t) : s.Frame t.tagScrub := by
  unfold State.tagScrub
  dsimp only
  exact List.foldlRecOn (motive := fun u : State => s.Frame u) t.me.tagBad _ (h.modMe _ (by constructor <;> rfl))
    fun u hu _ _ => hu.of_eq rfl rfl rfl rfl rfl rfl rfl rfl rfl rfl

theorem State.Frame.arrive {s t : State} (h : s.Frame t) (l : Launch) (x : Nat × Nat × Nat × Nat) (sync : Bool) (dl : Nat) :
    s.Frame (t.arrive l x sync dl).1 := by
  unfold State.arrive
  dsimp only
  split <;> exact h.of_eq rfl rfl rfl rfl rfl rfl rfl rfl rfl rfl

theorem State.Frame.sendQ {s t : State} (h : s.Frame t) (l : List QSend) (n : Nat) : s.Frame { t with qsends := l, nextQ := n } :=
  h.of_eq rfl rfl rfl rfl rfl rfl rfl rfl rfl rfl

theorem Core.modSlot_sameFiles (c : Core) (z : Nat) (f : ShapeSlot → ShapeSlot) : c.SameFiles (c.modSlot z f) := by constructor <;> rfl

/-! ## Copy commands outside a phase -/

/-- Outside a phase a copy command is not logged, and its issue changes no file of its core (13 R396). -/
theorem State.Frame.issueCopy {s t : State} (h : s.Frame t) (hp : t.me.phase = none) (o : CRecOp) (k : CopyCmd) :
    s.Frame (t.issueCopy o k) := by
  unfold State.issueCopy
  dsimp only
  refine State.Frame.advance ((h.emit _ _).modMe _ ?_)
  generalize (if o.kg = 1 then [Eff.qEmpty (o.rg.setWidth 5)] else []) ++
    (if o.idq = 0 then [] else [Eff.q (o.idq.setWidth 5) (BitVec.ofNat 64 k.ident)]) = effs
  have hp' : (t.emit 1 effs).me.phase = none := by
    rw [State.emit, State.me_modMe]
    exact hp
  have notLogged : (t.emit 1 effs).me.logs (t.emit 1 effs).cur.core k = false := by rw [Core.logs, hp']
  have notLogged' : (t.emit 1 effs).me.logs t.cur.core k = false := notLogged
  simp only [notLogged']
  constructor <;> rfl

/-! ## Checked words -/

section
variable {s : State} (hx : s.cur.st ≠ .crossing)
include hx

/-- A checked word keeps the frame where its effect does. -/
theorem framed_perform {v : Verdict} {eff : State → State} (he : s.Frame s → s.Frame (eff s)) : s.Framed (s.perform v eff) :=
  fun _ ht => (State.Frame.refl s).perform hx (he (.refl s)) ht

theorem framed_performH {n : Nat} {v : Verdict} {eff : State → State} (he : s.Frame s → s.Frame (eff s)) :
    s.Framed (s.performH n v eff) :=
  fun _ ht => (State.Frame.refl s).performH hx (he (.refl s)) ht

theorem framed_write {v : Verdict} {lat : Nat} {effs : State → List Eff} : s.Framed (s.perform v fun s => s.write lat (effs s)) := by
  refine framed_perform hx fun h => ?_
  exact h.write _ _

theorem framed_setS (lat : Nat) (rd : SReg) (v : Word) : s.Framed (s.setS lat rd v) := framed_write hx

theorem framed_setP (v : Verdict) (pd : PReg) (b : Bool) : s.Framed (s.setP v pd b) := framed_write hx

theorem framed_advance {v : Verdict} : s.Framed (s.perform v State.advance) := by
  refine framed_perform hx fun h => ?_
  exact h.advance

theorem framed_branch {v : Verdict} {a : State → Word} : s.Framed (s.perform v fun s => s.branchTo (a s)) := by
  refine framed_perform hx fun h => ?_
  exact h.branchTo _

/-- A branch that a predicate decides, between any two ways on. -/
theorem framed_either {v : Verdict} {b : State → Bool} {f g : State → State} (hf : s.Frame s → s.Frame (f s))
    (hg : s.Frame s → s.Frame (g s)) : s.Framed (s.perform v fun s => if b s then f s else g s) := by
  refine framed_perform hx fun h => ?_
  split
  · exact hf h
  · exact hg h

theorem framed_call {v : Verdict} {a : State → Word} {f : State → List Word → List Word} :
    s.Framed (s.perform v fun s => (s.branchTo (a s)).modMe fun c =>
      { c with helmSt := { c.helmSt with shadow := f s c.helmSt.shadow } }) := by
  refine framed_perform hx fun h => ?_
  exact (h.branchTo _).modMe _ (by constructor <;> rfl)

theorem framed_access {v : Verdict} {k : AccKind} {va : State → Word} {ac : BitVec 3} {rd : SReg} {w x : State → Word} {p : Pool} :
    s.Framed (s.perform v fun s => (s.startAccess k (va s) ac rd (w s) (x s) p).advance) := by
  refine framed_perform hx fun h => ?_
  exact (h.sendAccess _ _ _ _ _ _ _).advance

theorem framed_trapped {v : Verdict} {i : State → TrapInfo} : s.Framed (s.perform v fun s => s.advance.faultWith (i s)) := by
  refine framed_perform hx fun h => ?_
  exact h.advance.faultWith hx _

theorem framed_wait {v : Verdict} {k : WaitKind} {d : State → Nat} {b : State → Bool} :
    s.Framed (s.perform v fun s => s.beginWait k (d s) (b s)) := by
  refine framed_perform hx fun h => ?_
  exact h.beginWait hx _ _ _

theorem framed_tbar (ra : SReg) (desc : BitVec 7) (dl : BitVec 1) (sync : Bool) : s.Framed (s.tbar ra desc dl sync) := by
  unfold State.tbar
  refine framed_perform hx fun h => ?_
  extract_lets d r k
  split
  · exact (h.arrive _ _ _ _).modMine _
  · exact (h.arrive _ _ _ _).beginWait hx _ _ _

theorem framed_yieldptHold (ra : SReg) (n : BitVec 24) : s.Framed (execYieldptHold ra n s) := by
  unfold execYieldptHold
  dsimp only
  split
  · exact framed_advance hx
  · exact framed_perform hx fun h => (h.modMe _ (by constructor <;> rfl)).beginWait hx _ _ _

theorem framed_exit : s.Framed (execExit s) := by
  unfold execExit
  split
  · exact (State.Frame.refl s).framed
  · exact framed_perform hx fun h => h.advance.modMe _ (by constructor <;> rfl)

theorem framed_rel (ra : SReg) : s.Framed (execRel ra s) := by
  refine framed_perform hx fun h => ?_
  dsimp only
  split
  · exact ((h.sendAccess _ _ _ _ _ _ _).modMe _ (by constructor <;> rfl)).write _ _
  · exact (h.sendAccess _ _ _ _ _ _ _).write _ _

theorem framed_tagset (ra rb : SReg) : s.Framed (execTagset ra rb s) := by
  unfold execTagset
  refine framed_perform hx fun h => ?_
  exact (h.modMe _ (by constructor <;> rfl)).advance

theorem framed_tagclr (ra : SReg) : s.Framed (execTagclr ra s) := by
  refine framed_perform hx fun h => ?_
  exact (h.modMe _ (by split <;> constructor <;> rfl)).advance

theorem framed_csrr (rd : SReg) (csr : BitVec 12) : s.Framed (execCsrr rd csr s) := by
  unfold execCsrr
  refine framed_perform hx fun h => ?_
  dsimp only
  split
  · exact (h.modTile _ _).write _ _
  · exact h.write _ _

theorem framed_yieldpt (rd ra : SReg) (n : BitVec 24) : s.Framed (execYieldpt rd ra n s) := by
  refine framed_perform hx fun h => ?_
  split
  · exact h.advance
  · exact (h.modMe _ (by constructor <;> rfl)).advance

/-! ## Vector words -/

theorem framed_vdone {v : Verdict} {lat occ : Nat} {b : Bool} {effs : State → List Eff} {sp : State → List Nat} :
    s.Framed (s.perform v fun s => s.vdone lat occ b (effs s) (sp s)) := by
  refine framed_perform hx fun h => ?_
  exact h.vresults _ _ _ _ _

theorem framed_varith (o : VBin) (cls : ElemType → Bool) (time : ElemType → Nat × Nat) (covers : Bool) (n : Nat)
    (ff : Bool → Num → Num → Num → Num) (fi : Int → Int → Int → Int) : s.Framed (s.varith o cls time covers n ff fi) := by
  refine framed_perform hx fun h => ?_
  exact (h.mismatch _).vresults _ _ _ _ _

theorem framed_vcmp (o : VCmpOp) : s.Framed (execVcmp o s) := by
  unfold execVcmp
  refine framed_perform hx fun h => ?_
  exact (h.mismatch _).vresults _ _ _ _ _

theorem framed_vapprox (o : VUn) (f : Num → Num) : s.Framed (s.vapprox o f) := by
  refine framed_perform hx fun h => ?_
  exact h.vresults _ _ _ _ _

theorem framed_vbits (o : VBin) (cls : ElemType → Bool) (f : ElemType → Nat → Nat → Nat → Nat) : s.Framed (s.vbits o cls f) := by
  refine framed_perform hx fun h => ?_
  exact h.vresults _ _ _ _ _

theorem framed_vconvert (o : VCvOp) (ok : Nat → Nat → Bool) : s.Framed (s.vconvert o ok) := by
  unfold State.vconvert
  refine framed_perform hx fun h => ?_
  exact h.vresults _ _ _ _ _

theorem framed_vcvt (o : VCvOp) : s.Framed (execVcvt o s) := by
  unfold execVcvt
  dsimp only
  split
  · exact framed_perform hx fun h => h.vresults _ _ _ _ _
  · exact framed_vconvert hx _ _

theorem framed_vdeq (o : VCvOp) : s.Framed (execVdeq o s) := by
  unfold execVdeq
  refine framed_perform hx fun h => ?_
  exact h.vresults _ _ _ _ _

theorem framed_vquant (o : VCvOp) : s.Framed (execVquant o s) := by
  unfold execVquant
  refine framed_perform hx fun h => ?_
  dsimp only
  split
  · exact h.vresults _ _ _ _ _
  · exact (h.of_eq rfl rfl rfl rfl rfl rfl rfl rfl rfl rfl : s.Frame { s with freeCtr := s.freeCtr + 64 }).vresults _ _ _ _ _

theorem framed_reduce (op : Nat) (o : VRed) (comb : ElemType → Comb) : s.Framed (s.reduce op o comb) := by
  unfold State.reduce
  refine framed_perform hx fun h => ?_
  exact (h.setCarry _ _).redDone _ _ _ _

theorem framed_vscan (o : VRed) : s.Framed (execVscan o s) := by
  unfold execVscan
  refine framed_perform hx fun h => ?_
  exact (h.setCarry _ _).redDone _ _ _ _

theorem framed_normalise (o : VRed) (op lat : Nat) (sat : Bool) (f : Seg → List (Nat × Nat)) : s.Framed (s.normalise o op lat sat f) := by
  unfold State.normalise
  refine framed_perform hx fun h => ?_
  exact h.redDone _ _ _ _

theorem framed_vldr (o : VLdrOp) : s.Framed (execVldr o s) := by
  unfold execVldr
  refine framed_perform hx fun h => ?_
  exact (h.bindWord _).vresults _ _ _ _ _

theorem framed_vloadWord (t : BitVec 3) (cls : ElemType → Bool) (tg : BitVec 1) (sb : SReg) (vd : BitVec 6) (mk : BitVec 4)
    (acc : ElemType → Access1) : s.Framed (s.vloadWord t cls tg sb vd mk acc) := by
  unfold State.vloadWord
  refine framed_perform hx fun h => ?_
  exact h.vresults _ _ _ _ _

theorem framed_vstoreWord (t : BitVec 3) (cls : ElemType → Bool) (vd : BitVec 6) (mk : BitVec 4) (acc : ElemType → Access1) :
    s.Framed (s.vstoreWord t cls vd mk acc) := by
  unfold State.vstoreWord
  refine framed_perform hx fun h => ?_
  exact h.vresults _ _ _ _ _

/-! ## Matrix words and stream control -/

theorem framed_mdone {v : Verdict} {u occ : Nat} {effs : State → List (Nat × List Eff)} :
    s.Framed (s.perform v fun s => s.mdone u occ (effs s)) := by
  refine framed_perform hx fun h => ?_
  exact h.mdone _ _ _

theorem framed_mmar (o : MMarOp) : s.Framed (execMmar o s) := by
  unfold execMmar
  refine framed_perform hx fun h => ?_
  exact ((h.bindWord _).bindWord _).mdone _ _ _

theorem framed_mout (o : MOutOp) (q : Option (BitVec 5)) : s.Framed (s.mout o q) := by
  unfold State.mout
  refine framed_perform hx fun h => ?_
  exact h.mdone _ _ _

theorem framed_loops (lv : BitVec 1) (n : Count) (len : BitVec 9) (stg : BitVec 3) (ps : PReg) :
    s.Framed (execLoops lv n len stg ps s) := by
  unfold execLoops
  refine framed_perform hx fun h => ?_
  split <;> exact h.beginLoop _ _ _ _ _

theorem framed_phaseb (ra : SReg) : s.Framed (execPhaseb ra s) := by
  unfold execPhaseb
  refine framed_perform hx fun h => ?_
  exact ((h.modMe _ (by constructor <;> rfl)).emit _ _).write _ _

end

/-! ## Every word -/

/-- The copy commands with a record or a descriptor (08 R239). -/
def isCopyCommand : Instr → Bool
  | .cpy _ _ _ | .cpyr _ _ _ _ | .cgath _ _ | .cscat _ _ | .cbin _ _ | .csend _ _ _ _ | .crecvb _ _ | .cnmc _ | .ccoll _ | .cconst _ => true
  | _ => false

section
variable {i : Instr} {s : State} (hx : s.cur.st ≠ .crossing)
include hx

/-- The helm's own words, by what their effect is made of. -/
theorem framed_helmWord (hw : i.streams = [.helm]) (hb : beyondFrame i = false) : s.Framed (exec i s) := by
  cases i with
  | add | sub | and | or | xor | andn | sll | srl | sra | mul | mulh | mulhu | addi | andi | ori | xori | ldi | seth | slt | sltu | slti | min
  | max | minu | maxu | clz | ctz | popc | brev => exact framed_setS hx _ _ _
  | cmpeq | cmpne | cmplt | cmpltu | cmple | cmpleu | pand | por | pxor | pnot | pset | pfrom =>
    dsimp only [exec, execCmpeq, execCmpne, execCmplt, execCmpltu, execCmple, execCmpleu, execPand, execPor, execPxor, execPnot, execPset,
      execPfrom]
    exact framed_setP hx _ _ _
  | div | divu | rem | remu =>
    dsimp only [exec, execDiv, execDivu, execRem, execRemu, State.divide]
    exact framed_write hx
  | slli | srli | srai | bext | bexts | bins | fshl | fshr =>
    dsimp only [exec, execSlli, execSrli, execSrai, execBext, execBexts, execBins, execFshl, execFshr, State.shiftImm, State.field, State.funnel]
    exact framed_write hx
  | pclr | ptos | ldc | qrecv | qpeek | bind | phasec | shinv =>
    dsimp only [exec, execPclr, execPtos, execLdc, execQrecv, execQpeek, execBind, execPhasec, execShinv]
    exact framed_write hx
  | mwait => exact framed_advance hx
  | br | jmpr =>
    dsimp only [exec, execBr, execJmpr]
    exact framed_branch hx
  | brt | brf | brtn | brfn =>
    dsimp only [exec, execBrt, execBrf, execBrtn, execBrfn]
    refine framed_perform hx fun h => ?_
    split <;> apply_rules [State.Frame.branchTo, State.Frame.advance, State.Frame.annul]
  | call | callr | ret =>
    dsimp only [exec, execCall, execCallr, execRet]
    exact framed_perform hx fun h => (h.branchTo _).modMe _ (by constructor <;> rfl)
  | trap | syscall =>
    dsimp only [exec, execTrap, execSyscall]
    exact framed_trapped hx
  | exit => exact framed_exit hx
  | ld8 | ld8s | ld16 | ld16s | ld32 | ld32s | ld64 | st8 | st16 | st32 | st64 =>
    dsimp only [exec, execLd8, execLd8s, execLd16, execLd16s, execLd32, execLd32s, execLd64, execSt8, execSt16, execSt32, execSt64, State.load,
      State.store]
    exact framed_access hx
  | aadd | aaddf | aswap | acas | amin | amax | abump | acq | mstore | launch =>
    dsimp only [exec, execAadd, execAaddf, execAswap, execAcas, execAmin, execAmax, execAbump, execAcq, execMstore, execLaunch, State.atomic]
    exact framed_access hx
  | fence =>
    dsimp only [exec, execFence]
    exact framed_perform hx fun h => (h.chosen.modMe _ (by constructor <;> rfl)).advance
  | rel => exact framed_rel hx _
  | qsend =>
    dsimp only [exec, execQsend]
    exact framed_perform hx fun h => (h.sendQ _ _).advance
  | taglk =>
    dsimp only [exec, execTaglk]
    exact framed_perform hx fun h => h.tagScrub.write _ _
  | tagset => exact framed_tagset hx _ _
  | tagclr => exact framed_tagclr hx _
  | shld =>
    dsimp only [exec, execShld]
    exact framed_perform hx fun h => (h.modMe _ (Core.modSlot_sameFiles _ _ _)).write _ _
  | phaseb => exact framed_phaseb hx _
  | twait | waitid | waitidLaunch | waitq =>
    dsimp only [exec, execTwait, execWaitid, execWaitidLaunch, execWaitq]
    exact framed_wait hx
  | tbar | tbarSync => exact framed_tbar hx _ _ _ _
  | yieldpt => exact framed_yieldpt hx _ _ _
  | yieldptHold => exact framed_yieldptHold hx _ _
  | csrr => exact framed_csrr hx _ _
  | csrw | hret | hesc | tstart => exact nomatch hb
  | _ => exact nomatch hw

/-- The vector stream's own words. -/
theorem framed_vectorWord (hw : i.streams = [.vector]) : s.Framed (exec i s) := by
  cases i with
  | vadd | vsub | vmul | vfma | vfms | vfnma | vmin | vmax | vabs | vneg | vdiv | vsqrt =>
    dsimp only [exec, execVadd, execVsub, execVmul, execVfma, execVfms, execVfnma, execVmin, execVmax, execVabs, execVneg, execVdiv, execVsqrt]
    exact framed_varith hx _ _ _ _ _ _ _
  | vrcp | vrsq | vexp2 | vlog2 => exact framed_vapprox hx _ _
  | vand | vor | vxor | vshl | vshr | vsra | vbext | vfsh | vpopc | vclz =>
    dsimp only [exec, execVand, execVor, execVxor, execVshl, execVshr, execVsra, execVbext, execVfsh, execVpopc, execVclz]
    exact framed_vbits hx _ _ _
  | vcmp => exact framed_vcmp hx _
  | vsel | vmov | vbcast | viota | vperm | vextr | vpart =>
    dsimp only [exec, execVsel, execVmov, execVbcast, execViota, execVperm, execVextr, execVpart]
    exact framed_vdone hx
  | vcvt => exact framed_vcvt hx _
  | vpack | vunpack =>
    dsimp only [exec, execVpack, execVunpack]
    exact framed_vconvert hx _ _
  | vquant => exact framed_vquant hx _
  | vdeq => exact framed_vdeq hx _
  | vrsum | vrmax | vrmin =>
    dsimp only [exec, execVrsum, execVrmax, execVrmin]
    exact framed_reduce hx _ _ _
  | vscan => exact framed_vscan hx _
  | vrnorm | vrsmax =>
    dsimp only [exec, execVrnorm, execVrsmax]
    exact framed_normalise hx _ _ _ _ _
  | vldr => exact framed_vldr hx _
  | vld | vlds | vgath =>
    dsimp only [exec, execVld, execVlds, execVgath]
    exact framed_vloadWord hx _ _ _ _ _ _ _
  | vst | vsts | vscat =>
    dsimp only [exec, execVst, execVsts, execVscat]
    exact framed_vstoreWord hx _ _ _ _ _
  | _ => exact nomatch hw

/-- The matrix stream's own words. -/
theorem framed_matrixWord (hw : i.streams = [.matrix]) : s.Framed (exec i s) := by
  cases i with
  | mldt | mstt | mlds | mlda | msta | mzero | mzeroRelease | mband | mtrn | mma =>
    dsimp only [exec, execMldt, execMstt, execMlds, execMlda, execMsta, execMzero, execMzeroRelease, execMband, execMtrn, execMma]
    exact framed_mdone hx
  | mmar => exact framed_mmar hx _
  | mout | moutq =>
    dsimp only [exec, execMout, execMoutq]
    exact framed_mout hx _ _
  | retire =>
    dsimp only [exec, execRetire]
    exact framed_perform hx fun h => (h.modMe _ (by constructor <;> rfl)).advance
  | _ => exact nomatch hw

/-- The copy stream's own words but its commands. -/
theorem framed_copyWord (hw : i.streams = [.copy]) (hb : beyondFrame i = false) : s.Framed (exec i s) := by
  cases i with
  | cwait =>
    dsimp only [exec, execCwait]
    exact framed_write hx
  | cfence =>
    dsimp only [exec, execCfence]
    exact framed_perform hx fun h => (h.modMe _ (by constructor <;> rfl)).advance
  | cpy | cpyr | cgath | cscat | cbin | csend | crecvb | cnmc | ccoll | cconst => exact nomatch hb
  | _ => exact nomatch hw

/-- The words that several streams share: NOP and stream control (05 R163). -/
theorem framed_sharedWord (hw : 1 < i.streams.length) : s.Framed (exec i s) := by
  cases i with
  | nop => exact framed_advance hx
  | loop =>
    dsimp only [exec, execLoop, State.control]
    exact framed_perform hx fun h => h.beginLoop _ _ _ _ _
  | loops => exact framed_loops hx _ _ _ _ _
  | endStream | setvc =>
    dsimp only [exec, execEndStream, execSetvc, State.control]
    exact framed_perform hx fun h => h.advance.modMine _
  | fmtld =>
    dsimp only [exec, execFmtld, State.control]
    exact framed_write hx
  | engineTwait | waitf =>
    dsimp only [exec, execEngineTwait, execWaitf]
    exact framed_wait hx
  | _ => simp [Instr.streams] at hw

/-- A copy command with a record, outside a phase. -/
theorem framed_copyCommand (hc : isCopyCommand i = true) (hp : s.me.phase = none) : s.Framed (exec i s) := by
  have issue : ∀ o k, s.Frame (s.chosen.issueCopy o k) := fun o k => (State.Frame.refl s).chosen.issueCopy hp o k
  cases i with
  | cpy | cgath | cscat | cbin | cnmc | ccoll =>
    dsimp only [exec, execCpy, execCgath, execCscat, execCbin, execCnmc, execCcoll]
    exact framed_perform hx fun _ => issue _ _
  | cpyr =>
    dsimp only [exec, execCpyr]
    exact framed_perform hx fun _ => (issue _ _).modMe _ (Core.bindTo_sameFiles _ _ _)
  | cconst =>
    dsimp only [exec, execCconst]
    exact framed_perform hx fun h => h.issueCopy hp _ _
  | csend | crecvb =>
    dsimp only [exec, execCsend, execCrecvb]
    exact framed_performH hx fun _ => (issue _ _).modHandle _ _
  | _ => exact nomatch hc

end

/-- A word of one stream alone, or of several. -/
theorem framed_exec {i : Instr} {s : State} (hw : i.streams.contains s.cur.st = true) (hx : s.cur.st ≠ .crossing)
    (hb : beyondFrame i = false) : s.Framed (exec i s) := by
  by_cases hl : 1 < i.streams.length
  · exact framed_sharedWord hx hl
  · have only : i.streams = [s.cur.st] := by
      match h : i.streams with
      | [] => rw [h] at hw; cases hw
      | [st] => rw [h] at hw; simpa [eq_comm] using hw
      | _ :: _ :: _ => rw [h] at hl; simp at hl
    cases hs : s.cur.st with
    | helm => exact framed_helmWord hx (hs ▸ only) hb
    | vector => exact framed_vectorWord hx (hs ▸ only)
    | matrix => exact framed_matrixWord hx (hs ▸ only)
    | copy => exact framed_copyWord hx (hs ▸ only) hb
    | crossing => exact absurd hs hx

/-! ## The returns from a handler -/

/-- What HRET and HESC leave of the issuing core: its registers and its local store. -/
structure Core.SameRegisters (a b : Core) : Prop where
  sregs : b.sregs = a.sregs
  hbank : b.hbank = a.hbank
  pregs : b.pregs = a.pregs
  qregs : b.qregs = a.qregs
  vregs : b.vregs = a.vregs
  ls : b.ls = a.ls
  tcause : b.tcause = a.tcause

/-- The issuing core keeps its registers, and every other core is as it was. -/
structure State.Returns (s t : State) : Prop where
  core : t.cur.core = s.cur.core
  others : ∀ c, c ≠ s.cur.core → t.core c = s.core c
  own : (s.core s.cur.core).SameRegisters (t.core s.cur.core)

theorem State.Frame.returns {s t : State} (h : s.Frame t) : s.Returns t :=
  ⟨h.core, h.others, h.files.sregs, h.files.hbank, h.files.pregs, h.files.qregs, h.files.vregs, h.files.ls, h.files.tcause⟩

theorem State.Returns.modCore {s t : State} (h : s.Returns t) {f : Core → Core}
    (hf : (t.core s.cur.core).SameRegisters (f (t.core s.cur.core))) : s.Returns (t.modCore s.cur.core f) where
  core := h.core
  others c hc := (State.core_modCore_other _ _ _ _ hc).trans (h.others c hc)
  own := by
    rw [State.core_modCore_same]
    obtain ⟨h1, h2, h3, h4, h5, h6, h7⟩ := h.own
    obtain ⟨g1, g2, g3, g4, g5, g6, g7⟩ := hf
    exact ⟨g1.trans h1, g2.trans h2, g3.trans h3, g4.trans h4, g5.trans h5, g6.trans h6, g7.trans h7⟩

theorem State.Returns.of_cores {s t u : State} (h : s.Returns t) (hc : u.cores = t.cores) (h0 : u.cur.core = t.cur.core) : s.Returns u where
  core := h0.trans h.core
  others c hd := by simpa only [State.core, hc] using h.others c hd
  own := by simpa only [State.core, hc] using h.own

theorem State.Returns.refl (s : State) : s.Returns s := (State.Frame.refl s).returns

theorem State.Returns.writeHome {s t : State} (h : s.Returns t) (key : Nat) (b : List Byte) : s.Returns (t.writeHome key b) :=
  h.of_cores rfl rfl

theorem State.Returns.modTile {s t : State} (h : s.Returns t) (n : Nat) (f : TileSt → TileSt) : s.Returns (t.modTile n f) := h.of_cores rfl rfl

theorem State.Returns.modMe {s t : State} (h : s.Returns t) {f : Core → Core} (hf : t.me.SameRegisters (f t.me)) : s.Returns (t.modMe f) := by
  have me : t.me = t.core s.cur.core := congrArg t.core h.core
  rw [me] at hf
  rw [State.modMe, h.core]
  exact h.modCore hf

/-- Setting the issuing core to one with its registers. -/
theorem State.Returns.setCore {s : State} {k : Core} (hk : (s.core s.cur.core).SameRegisters k) : s.Returns (s.setCore s.cur.core k) :=
  (State.Returns.refl s).modCore (f := fun _ => k) hk

theorem State.Returns.resumeXing {s t : State} (h : s.Returns t) (c : Nat) (r : List Byte) : s.Returns (t.resumeXing c r) := by
  unfold State.resumeXing
  split
  · exact h.of_cores rfl rfl
  · exact h

theorem Core.SameRegisters.resumeAt {a b : Core} (h : a.SameRegisters b) (st : Nat) (pc np nn : Word) :
    a.SameRegisters (b.resumeAt st pc np nn) := by
  unfold Core.resumeAt
  obtain ⟨hs, hh, hp, hq, hv, hl, ht⟩ := h
  split <;> exact ⟨hs, hh, hp, hq, hv, hl, ht⟩

/-- The return from a trap restores streams and flights, and no register (12 R377). -/
theorem State.returns_returnTrap (s : State) (r : List Byte) : s.Returns (s.returnTrap s.cur.core r) := by
  unfold State.returnTrap
  extract_lets aged b own
  split
  · exact State.Returns.setCore (by constructor <;> rfl)
  · extract_lets d acc k u
    have hk : (s.core s.cur.core).SameRegisters k := by constructor <;> rfl
    have hu : s.Returns u := by
      unfold u
      split
      · exact (State.Returns.setCore hk).resumeXing _ _
      · exact State.Returns.setCore (hk.resumeAt _ _ _ _)
    split
    · exact hu.of_cores rfl rfl
    · exact hu

/-- A refused or stalled return keeps the frame; one that issues keeps what its effect keeps. -/
theorem returns_perform {s : State} (hx : s.cur.st ≠ .crossing) {v : Verdict} {eff : State → State} (he : s.Returns (eff s)) {t : State}
    (ht : s.perform v eff = .next t) : s.Returns t := by
  cases v with
  | ok =>
    cases ht
    exact he
  | wait code =>
    exact ((State.Frame.refl s).perform hx (v := .wait code) (eff := fun s => s) (State.Frame.refl s) ht).returns
  | fault code =>
    exact ((State.Frame.refl s).perform hx (v := .fault code) (eff := fun s => s) (State.Frame.refl s) ht).returns

theorem returns_hret {s t : State} (hx : s.cur.st ≠ .crossing) (ht : execHret s = .next t) : s.Returns t := by
  refine returns_perform hx ?_ ht
  split
  · exact (State.Frame.refl s).advance.returns
  · exact s.returns_returnTrap _

theorem returns_hesc {s t : State} (hx : s.cur.st ≠ .crossing) (ht : execHesc s = .next t) : s.Returns t := by
  refine returns_perform hx ?_ ht
  exact (((State.Returns.refl s).writeHome _ _).modTile _ _).modMe (by constructor <;> rfl)

/-- Settles O60, stream by stream: each operation that a word's effect is made of keeps the frame, and the returns keep the
registers of their core and every other core. -/
theorem wordFrame : Obligations.WordFrame := by
  intro i s t hw hx ht copies
  refine ⟨fun hb => framed_exec hw hx hb t ht, fun hc hp => ?_, fun hret => ?_⟩
  · have hi : isCopyCommand i = true := by
      cases i <;> exact hc
    exact framed_copyCommand hx hi hp t ht
  · have hr : s.Returns t := by
      rcases hret with rfl | rfl
      · exact returns_hret hx ht
      · exact returns_hesc hx ht
    obtain ⟨hcore, hothers, ⟨hs, hh, hp, hq, hv, hl, htc⟩⟩ := hr
    have me : t.me = t.core s.cur.core := congrArg t.core hcore
    rw [me]
    exact ⟨hothers, hs, hh, hp, hq, hv, hl, htc⟩

end Sys2Proof.Machine
end

section
/-! PROOF. The ends of waits, the releases, and the faults that time brings (02 R39-R59, 10 R305, R306, 12 R379, R380; O38). -/

namespace Sys2Proof.Machine

/-! ## Cores and launches -/

/-- The launch of number `n` after a change that keeps numbers. -/
theorem State.launch?_of_updIf {s t : State} {n : Nat} {l : Launch} {f : Launch → Launch} (hl : s.launch? n = some l)
    (hf : ∀ x, (f x).lid = x.lid) (ht : t.launches = updIf (·.lid == n) f s.launches) : t.launch? n = some (f l) := by
  rw [State.launch?, ht]
  exact (find?_updIf Launch.lid n f hf s.launches).trans (congrArg (Option.map f) hl)

theorem State.core_eq_of_cores_eq {s t : State} (h : s.cores = t.cores) (c : Nat) : s.core c = t.core c := by
  simp only [State.core, h]

/-! ## Leaving a wait -/

theorem loopNext_posBase (x : StreamSt) (pc : Word) (ls : List Loop) : (loopNext x pc ls).1.posBase = x.posBase := by
  induction ls generalizing x with
  | nil => rfl
  | cons l rest ih =>
    have lc : ∀ n, (x.setLc l.lv n).posBase = x.posBase := fun n => by
      unfold StreamSt.setLc
      split <;> rfl
    unfold loopNext
    split
    · split
      · exact lc _
      · exact (ih _).trans (lc _)
    · rfl

theorem State.modMine_of_core {s : State} (h : s.cur.st ≠ .crossing) (f : StreamSt → StreamSt) :
    s.modMine f = s.modMe fun c => c.modStream s.cur.st f := by
  unfold State.modMine
  split
  · exact absurd ‹_› h
  · rfl

/-- What leaving a wait of stream `st` of core `c` makes of the state: that stream counts from the position `p`, and every other stream, every other
core and memory stand (02 R39). -/
structure State.Left (s t : State) (c : Nat) (st : Stream) (p : Nat) : Prop where
  cur : t.cur.core = c ∧ t.cur.st = st
  pos : ((t.core c).stream st).posBase = p + 1
  streams : ∀ d, d ≠ st → (t.core c).stream d = (s.core c).stream d
  others : ∀ d, d ≠ c → t.core d = s.core d
  mem : t.mem = s.mem

/-- A change of the issuing core alone that moves its stream to `p` and keeps the others. -/
theorem State.Left.of_modMe {s : State} {f : Core → Core} {p : Nat} (hp : ((f s.me).stream s.cur.st).posBase = p + 1)
    (hs : ∀ d, d ≠ s.cur.st → (f s.me).stream d = s.me.stream d) : s.Left (s.modMe f) s.cur.core s.cur.st p where
  cur := ⟨rfl, rfl⟩
  pos := by
    rw [State.modMe, State.core_modCore_same]
    exact hp
  streams d hd := by
    rw [State.modMe, State.core_modCore_same]
    exact hs d hd
  others d hd := State.core_modCore_other _ _ _ _ hd
  mem := rfl

theorem State.left_leave (s : State) (h : s.cur.st ≠ .crossing) : s.Left s.leave s.cur.core s.cur.st s.cur.pos := by
  unfold State.leave
  split
  case h_1 hst =>
    refine State.Left.of_modMe ?_ fun d hd => ?_
    · rw [hst]
      rfl
    · rw [hst] at hd
      cases d with
      | helm => exact absurd rfl hd
      | _ => rfl
  case h_2 hst => exact absurd hst h
  case h_3 =>
    refine State.Left.of_modMe ?_ fun d hd => Core.stream_setStream_other _ _ _ _ hd
    rw [Core.stream_setStream _ _ _ h]
    exact loopNext_posBase _ _ _

theorem State.Left.modMine {s t : State} {c : Nat} {st : Stream} {p : Nat} (h : s.Left t c st p) (hx : st ≠ .crossing) {f : StreamSt → StreamSt}
    (hf : ∀ x, (f x).posBase = x.posBase ∧ (f x).wait = none) :
    s.Left (t.modMine f) c st p ∧ (((t.modMine f).core c).stream st).wait = none := by
  obtain ⟨⟨hc, hst⟩, hpos, hstreams, hothers, hmem⟩ := h
  have hn : t.cur.st ≠ .crossing := hst ▸ hx
  have core : (t.modMine f).core c = (t.core c).setStream st (f ((t.core c).stream st)) := by
    rw [State.modMine_of_core hn, State.modMe, hc, State.core_modCore_same, hst]
    rfl
  refine ⟨⟨?_, ?_, fun d hd => ?_, fun d hd => ?_, ?_⟩, ?_⟩
  · rw [State.modMine_of_core hn]
    exact ⟨hc, hst⟩
  · rw [core, Core.stream_setStream _ _ _ hx]
    exact (hf _).1.trans hpos
  · rw [core, Core.stream_setStream_other _ _ _ _ hd]
    exact hstreams d hd
  · rw [State.modMine_of_core hn, State.modMe, hc, State.core_modCore_other _ _ _ _ hd]
    exact hothers d hd
  · rw [State.modMine_of_core hn]
    exact hmem
  · rw [core, Core.stream_setStream _ _ _ hx]
    exact (hf _).2

/-- A wait of a core's stream has ended: its next word counts from the wait's deadline (02 R39). -/
theorem State.left_endWait (s : State) (w : Wait) (h : s.cur.st ≠ .crossing) :
    s.Left (s.endWait w) s.cur.core s.cur.st w.pos ∧ (((s.endWait w).core s.cur.core).stream s.cur.st).wait = none := by
  obtain ⟨cur, pos, streams, others, mem⟩ := State.left_leave { s with cur := { s.cur with pos := w.pos } } h
  have left : s.Left ({ s with cur := { s.cur with pos := w.pos } }).leave s.cur.core s.cur.st w.pos := ⟨cur, pos, streams, others, mem⟩
  exact left.modMine h fun x => ⟨rfl, rfl⟩

theorem State.finishWait_of_not_plain {s : State} {w : Wait} (h : ∀ i, w.kind ≠ .bar i true) : s.finishWait w = s.endWait w := by
  unfold State.finishWait
  split
  · exact absurd ‹_› (h _)
  · rfl

/-! ## Deadlines of a core's streams -/

/-- Stream `st` of core `c` is at its wait. -/
def State.at_ (s : State) (c : Nat) (st : Stream) : State := { s with cur := ⟨c, st, 0⟩ }

/-- A wait of a core's stream has ended: its next word counts from the position `p`, and all else stands. -/
def State.Ended (s t : State) (c : Nat) (st : Stream) (p : Nat) : Prop :=
  ((t.core c).stream st).wait = none ∧ ((t.core c).stream st).posBase = p + 1 ∧
    (∀ d, d ≠ st → (t.core c).stream d = (s.core c).stream d) ∧ (∀ d, d ≠ c → t.core d = s.core d) ∧ t.mem = s.mem

theorem State.ended_finishWait (s : State) {c : Nat} {st : Stream} {w : Wait} (hx : st ≠ .crossing) (hk : ∀ i, w.kind ≠ .bar i true) :
    s.Ended ((s.at_ c st).finishWait w) c st w.pos := by
  rw [State.finishWait_of_not_plain hk]
  obtain ⟨⟨_, pos, streams, others, mem⟩, wait⟩ := State.left_endWait (s.at_ c st) w hx
  exact ⟨wait, pos, streams, others, mem⟩

theorem Core.modStream_raised (k : Core) (st : Stream) (f : StreamSt → StreamSt) : (k.modStream st f).raised = k.raised := by
  cases st <;> rfl

/-- The word that a wait stands at faults, and its wait is given up (02 R39). -/
theorem raised_fault_noWait (s : State) (hx : s.cur.st ≠ .crossing) (code : Nat) :
    ((s.fault code).modMine fun x => { x with wait := none }).Raised s.cur.core code ∧
      ((((s.fault code).modMine fun x => { x with wait := none }).core s.cur.core).stream s.cur.st).wait = none := by
  have fault : s.fault code = s.raiseAt s.cur.core { s.info code with ofWord := true } := by
    unfold State.fault State.faultWith
    dsimp only
    split
    · exact absurd ‹_› hx
    · rfl
  have code_eq : (s.info code).code = code := by
    unfold State.info
    split <;> rfl
  have cur : (s.fault code).cur = s.cur := by rw [fault]; rfl
  have core : ((s.fault code).modMine fun x => { x with wait := none }).core s.cur.core =
      ((s.fault code).core s.cur.core).modStream s.cur.st fun x => { x with wait := none } := by
    rw [State.modMine_of_core (cur ▸ hx), State.modMe, cur, State.core_modCore_same]
  have raised : (s.fault code).Raised s.cur.core (s.info code).code := by
    rw [fault]
    exact State.Raised.raiseAt s s.cur.core { s.info code with ofWord := true }
  rw [code_eq] at raised
  unfold State.Raised
  rw [core]
  refine ⟨?_, ?_⟩
  · rw [Core.modStream_raised]
    exact raised
  · rw [Core.modStream, Core.stream_setStream _ _ _ hx]

section
variable {s : State} {w : Wait} (hx : s.on.st ≠ .crossing) (hr : (s.core s.on.a).runs s.on.st = true)
  (hw : ((s.core s.on.a).stream s.on.st).wait = some w) (hh : ∀ h, w.kind ≠ .hour h)
include hx hr hw hh

omit hr hh in
theorem mine_wait_at : (s.at_ s.on.a s.on.st).mine.wait = some w := by
  rw [State.mine_eq _ hx]
  exact hw

omit hx in
theorem deadlineDue_of_wait (hd : w.due = (s.core s.on.a).time) (hc : w.held = true ∨ s.timedAt s.on.a = true) :
    s.deadlineDue s.on.a s.on.st = true := by
  unfold State.deadlineDue
  dsimp only
  rw [hr, hw]
  dsimp only
  split
  · exact absurd ‹_› (hh _)
  · simp [hd, hc]

omit hx in
theorem lateEndDue_of_wait (hd : w.due < (s.core s.on.a).time) (hc : w.held = true) : s.lateEndDue s.on.a s.on.st = true := by
  unfold State.lateEndDue
  dsimp only
  rw [hr, hw]
  dsimp only
  split
  · exact absurd ‹_› (hh _)
  · simp [hd, hc]

/-- A wait at its deadline, and what its end or its fault is (02 R39, R43). -/
theorem exec_deadlineReached (hd : w.due = (s.core s.on.a).time) (hc : w.held = true ∨ s.timedAt s.on.a = true) :
    exec .deadlineReached s = .next (if w.held || s.on.st == .crossing then (s.at_ s.on.a s.on.st).finishWait w
      else ((s.at_ s.on.a s.on.st).fault (cause2 s.on.st deadlineC)).modMine fun x => { x with wait := none }) := by
  have due := deadlineDue_of_wait hr hw hh hd hc
  have wait := mine_wait_at hx hw
  unfold State.at_ at wait
  simp only [exec, execDeadlineReached]
  split
  case h_1 hwait =>
    cases wait.symm.trans hwait
    split <;> rfl
  case h_2 hno =>
    exact absurd wait (hno _ due)

theorem happens_deadlineReached (hp : ∀ i, w.kind ≠ .bar i true) (hd : w.due = (s.core s.on.a).time) (hc : w.held = true) :
    Happens .deadlineReached s fun t => s.Ended t s.on.a s.on.st w.pos := by
  refine ⟨_, exec_deadlineReached hx hr hw hh hd (.inl hc), ?_⟩
  rw [hc]
  exact s.ended_finishWait hx hp

theorem happens_deadlinePassed (hd : w.due = (s.core s.on.a).time) (hc : w.held = false) (ht : s.timedAt s.on.a = true) :
    Happens .deadlineReached s fun t => t.Raised s.on.a (cause2 s.on.st 3) ∧ ((t.core s.on.a).stream s.on.st).wait = none := by
  refine ⟨_, exec_deadlineReached hx hr hw hh hd (.inr ht), ?_⟩
  have crossing : (s.on.st == .crossing) = false := by simpa using hx
  rw [hc, crossing]
  obtain ⟨hraised, hwait⟩ := raised_fault_noWait (s.at_ s.on.a s.on.st) hx (cause2 s.on.st deadlineC)
  exact ⟨hraised, hwait⟩

theorem happens_elasticWaitEnd (hp : ∀ i, w.kind ≠ .bar i true) (hd : w.due < (s.core s.on.a).time) (hc : w.held = true) :
    Happens .elasticWaitEnd s fun t => s.Ended t s.on.a s.on.st w.pos := by
  have due := lateEndDue_of_wait hr hw hh hd hc
  have wait := mine_wait_at hx hw
  unfold State.at_ at wait
  refine ⟨(s.at_ s.on.a s.on.st).finishWait w, ?_, s.ended_finishWait hx hp⟩
  simp only [exec, execElasticWaitEnd, due, wait]
  rfl

end

/-! ## Waits of the crossing program -/

/-- The crossing program of launch `c` has left its word at `pc`. -/
def State.Resumed (t : State) (c : Nat) (pc : Word) : Prop :=
  ∃ m y, t.launch? c = some m ∧ m.xing = some y ∧ y.prog.wait = none ∧ y.prog.pc = pc + 8

theorem State.launch?_modXing {s : State} {c : Nat} {l : Launch} {x : Xing} (hl : s.launch? c = some l) (hx : l.xing = some x) (f : Xing → Xing) :
    (s.modXing c f).launch? c = some { l with xing := some (f x) } := by
  refine (State.launch?_of_updIf (f := fun l => { l with xing := l.xing.map f }) hl (fun _ => rfl) rfl).trans ?_
  rw [hx, Option.map_some]

theorem State.resumed_endWait {s : State} {c : Nat} {l : Launch} {x : Xing} (hl : s.launch? c = some l) (hx : l.xing = some x) (w : Wait) :
    ((s.at_ c .crossing).endWait w).Resumed c x.prog.pc := by
  have left := State.launch?_modXing (s := { s with cur := ⟨c, .crossing, w.pos⟩ }) hl hx fun x =>
    { x with prog := { x.prog.passed w.pos ({ s with cur := ⟨c, .crossing, w.pos⟩ } : State).cyc with pc := x.prog.pc + 8 } }
  exact ⟨_, _, State.launch?_modXing left rfl fun x =>
    { x with prog := { x.prog with wait := none, issueBase := w.since + 1, notBefore := (s.at_ c .crossing).cyc } }, rfl, rfl, rfl⟩

theorem State.resumed_finishWait {s : State} {c : Nat} {l : Launch} {x : Xing} (hl : s.launch? c = some l) (hx : l.xing = some x) (w : Wait) :
    ((s.at_ c .crossing).finishWait w).Resumed c x.prog.pc := by
  unfold State.finishWait
  split <;> exact State.resumed_endWait hl hx _

section
variable {s : State} {l : Launch} {x : Xing} {w : Wait} (hl : s.launch? s.on.a = some l) (hx : l.xing = some x) (hs : x.stopped = false)
  (hf : l.frozenUntil = none) (hr : l.stage = .running) (hw : x.prog.wait = some w)

include hl hx hw in
theorem mine_wait_crossing : (s.at_ s.on.a .crossing).mine.wait = some w := by
  have xing : (s.at_ s.on.a .crossing).myXing = some x := by
    have launch : (s.at_ s.on.a .crossing).launch? s.on.a = some l := hl
    unfold State.myXing
    exact (congrArg (·.bind Launch.xing) launch).trans hx
  unfold State.mine
  rw [xing]
  exact hw

include hl hx hs hf hr hw

theorem xDeadlineDue_of_wait (hh : ∀ h, w.kind ≠ .hour h) (hd : w.due ≤ l.count) : s.xDeadlineDue s.on.a = true := by
  unfold State.xDeadlineDue
  rw [hl]
  dsimp only
  rw [hx]
  dsimp only
  rw [hw]
  dsimp only
  split
  · exact absurd ‹_› (hh _)
  · simp [hs, hf, hr, hd]

theorem happens_xDeadlineReached (hst : s.on.st = .crossing) (hh : ∀ h, w.kind ≠ .hour h) (hd : w.due ≤ l.count) :
    Happens .deadlineReached s fun t => t.Resumed s.on.a x.prog.pc := by
  have due := xDeadlineDue_of_wait hl hx hs hf hr hw hh hd
  have wait := mine_wait_crossing hl hx hw
  unfold State.at_ at wait
  refine ⟨(s.at_ s.on.a .crossing).finishWait w, ?_, State.resumed_finishWait hl hx w⟩
  simp only [exec, execDeadlineReached, hst, due, wait, beq_self_eq_true, Bool.or_true]
  rfl

theorem happens_xhourEnd (hk : w.kind = .hour s.hourNow) (hp : s.inProgram = true) :
    Happens .xhourEnd s fun t => t.Resumed s.on.a x.prog.pc := by
  have due : s.xhourDue s.on.a = true := by
    unfold State.xhourDue
    rw [hl]
    dsimp only
    rw [hx]
    dsimp only
    rw [hw]
    dsimp only
    rw [hk]
    simp [hs, hf, hr, hp]
  have wait := mine_wait_crossing hl hx hw
  unfold State.at_ at wait
  refine ⟨(s.at_ s.on.a .crossing).endWait { w with pos := (s.at_ s.on.a .crossing).cyc }, ?_, State.resumed_endWait hl hx _⟩
  simp only [exec, execXhourEnd, due, wait]
  rfl

end

/-! ## Quiet launches, the retirement bound, interrupts and restarts -/

theorem happens_quietDeadlock {s : State} {l : Launch} (hl : s.launch? s.on.a = some l) (hr : l.stage = .running) (ht : l.timedNow = false)
    (hq : 2 ^ 24 ≤ l.quiet) : Happens .quietDeadlock s fun t => ∀ d ∈ l.cores, t.Raised d (cause 2 7 5) := by
  refine ⟨l.cores.foldl (fun (s : State) c => s.unitFault c (cause 2 7 quietC)) (s.modLaunch l.lid fun l => { l with quiet := 0 }), ?_,
    fun d hd => State.foldl_unitFault_raised _ hd⟩
  have due : ¬ (l.stage ≠ .running ∨ l.timedNow = true ∨ l.quiet < 2 ^ 24) := by
    rw [hr, ht]
    simpa using hq
  simp only [exec, execQuietDeadlock, hl]
  exact if_neg due

theorem happens_retirementBoundExceeded {s : State} {l : Launch} (hl : s.launchOf s.on.a = some l) (hr : l.stage = .running)
    (hf : (s.core s.on.a).frozen = false) (hs : (s.core s.on.a).stopped = false) (hb : l.bound < (s.core s.on.a).sinceRetire)
    (hm : l.timedNow = true ∨ s.pointWanted l = true) :
    Happens .retirementBoundExceeded s fun t => t.Raised s.on.a (cause 2 7 4) ∧ ∀ d, d ≠ s.on.a → t.core d = s.core d := by
  have due : s.boundPassed s.on.a = true := by
    unfold State.boundPassed
    rw [hl]
    simp [hr, hf, hs, hb, hm]
  refine ⟨(s.modCore s.on.a fun k => { k with sinceRetire := 0 }).unitFault s.on.a (cause 2 7 boundC), ?_, State.Raised.raiseAt _ _ _,
    fun d hd => (State.core_modCore_other _ _ _ _ hd).trans (State.core_modCore_other _ _ _ _ hd)⟩
  simp only [exec, execRetirementBoundExceeded, due]
  rfl

theorem happens_interruptTaken {s : State} {tag : BitVec 32} {n : Nat} (hd : s.interruptDue s.on.a s.cur.pos = true)
    (hi : (s.core s.on.a).interrupt = some (tag, n)) :
    Happens .interruptTaken s fun t => (∃ i ∈ (t.core s.on.a).raised, i.code = 0x036 ∧ i.stat = tag) ∧ (t.core s.on.a).interrupt = none := by
  refine ⟨(s.modCore s.on.a fun k => { k with interrupt := none }).raiseAt s.on.a
    { code := cause 0 6 softC, st := .helm, cmd := (s.core s.on.a).helm.step, cyc := (s.core s.on.a).time, stat := tag }, ?_,
    ⟨{ code := cause 0 6 softC, st := .helm, cmd := (s.core s.on.a).helm.step, cyc := (s.core s.on.a).time, stat := tag }, ?_, rfl, rfl⟩, ?_⟩
  · simp only [exec, execInterruptTaken, hd, hi]
  · simp [State.raiseAt]
  · simp [State.raiseAt]

theorem happens_trapResume {s : State} {l : Launch} (hl : s.launch? s.on.a = some l) (hf : l.freezing = true) (ho : l.owing = [])
    (hu : l.frozenUntil = none) (hc : ∀ d ∈ l.cores, (s.core d).freezeAt = none ∧ (s.core d).trap = none) :
    Happens .trapResume s fun t => (∀ d ∈ l.cores, (t.core d).frozen = false) ∧
      ∃ m, t.launch? s.on.a = some m ∧ m.elastic = true ∧ m.freezing = false := by
  have due : s.trapResumeDue l = true := by
    unfold State.trapResumeDue
    simp only [hf, ho, hu, List.isEmpty_nil, Option.isNone_none, Bool.true_and, List.all_eq_true]
    intro d hd
    obtain ⟨freeze, trap⟩ := hc d hd
    simp [freeze, trap]
  have lid := State.lid_of_launch? hl
  refine ⟨l.cores.foldl (fun (s : State) c => s.modCore c fun k => { k with frozen := false })
    (s.modLaunch s.on.a fun l => { l with freezing := false, elastic := true, quiet := 0 }), ?_, fun d hd => ?_, ?_⟩
  · simp only [exec, execTrapResume, hl, due, lid]
    rfl
  · refine foldl_of_mem (P := fun t : State => (t.core d).frozen = false) hd (fun u => ?_) fun u c hu => ?_
    · rw [State.core_modCore_same]
    · by_cases e : d = c
      · rw [e, State.core_modCore_same]
      · rwa [State.core_modCore_other _ _ _ _ e]
  · exact ⟨_, State.launch?_of_updIf (f := fun l => { l with freezing := false, elastic := true, quiet := 0 }) hl (fun _ => rfl)
      (foldl_keeps State.launches (f := fun (s : State) c => s.modCore c fun k => { k with frozen := false }) (fun _ _ => rfl) _ _), rfl, rfl⟩

/-! ## The release of a barrier -/

/-- The stream that `r` names of a core stands at the wait `w`. -/
def Core.WaitsIn (r : Core → Option StreamSt) (k : Core) (w : Wait) : Prop := ∃ x, r k = some x ∧ x.wait = some w

/-- `r` names a stream of a core that a release reaches: its helm, or the one that a trap has saved. -/
def Core.ReachedAt (r : Core → Option StreamSt) : Prop := ∀ (k : Core) (bar : Nat), r (k.holdBar bar) = (r k).map (·.holdBar bar)

theorem Core.reachedAt_helm : Core.ReachedAt fun k => some k.helm := fun _ _ => rfl

theorem Core.reachedAt_trapped : Core.ReachedAt fun k => k.trapped.map (·.stream) := fun k bar => by
  simp only [Core.holdBar, Option.map_map]
  rfl

theorem StreamSt.holdBar_wait {x : StreamSt} {v : Wait} {bar : Nat} {p : Bool} (hk : v.kind = .bar bar p) (hx : x.wait = some v) :
    (x.holdBar bar).wait = some { v with held := true } := by
  simp [StreamSt.holdBar, hx, hk]

theorem Core.WaitsIn.holdBar {r : Core → Option StreamSt} (hr : Core.ReachedAt r) {k : Core} {v : Wait} {bar : Nat} {p : Bool}
    (hk : v.kind = .bar bar p) (h : k.WaitsIn r v) : (k.holdBar bar).WaitsIn r { v with held := true } := by
  obtain ⟨x, hx, hw⟩ := h
  exact ⟨x.holdBar bar, by rw [hr, hx, Option.map_some], StreamSt.holdBar_wait hk hw⟩

/-- A member's wait has its condition once the release has come to its core, however often it arrived (02 R57). -/
theorem waitsIn_held_of_release {r : Core → Option StreamSt} (hr : Core.ReachedAt r) {s : State} {as : List Arrival} {a : Arrival} (ha : a ∈ as)
    {bar : Nat} {p : Bool} {v : Wait} (hk : v.kind = .bar bar p) (h : (s.core a.core).WaitsIn r v) :
    ((as.foldl (fun (s : State) a => s.modCore a.core fun c => c.holdBar bar) s).core a.core).WaitsIn r { v with held := true } := by
  have here : ∀ u : State, (u.core a.core).WaitsIn r v ∨ (u.core a.core).WaitsIn r { v with held := true } →
      ((u.modCore a.core fun c => c.holdBar bar).core a.core).WaitsIn r { v with held := true } := by
    rintro u (hu | hu) <;> rw [State.core_modCore_same]
    · exact hu.holdBar hr hk
    · exact hu.holdBar hr (v := { v with held := true }) hk
  refine foldl_of_mem_of_inv (I := fun u : State => (u.core a.core).WaitsIn r v ∨ (u.core a.core).WaitsIn r { v with held := true })
    (P := fun u : State => (u.core a.core).WaitsIn r { v with held := true }) ha (.inl h) (fun u y hu => ?_) here fun u y _ hu => ?_
  · by_cases e : a.core = y.core
    · exact .inr (e ▸ here u hu)
    · rwa [State.core_modCore_other _ _ _ _ e]
  · by_cases e : a.core = y.core
    · exact e ▸ here u (.inr hu)
    · rwa [State.core_modCore_other _ _ _ _ e]

/-- What a release does to a core by itself, its count being set to `n` (02 R49): the core's part of `execBarrierRelease`. -/
def State.resyncCore (n : Nat) (s : State) (c : Nat) : State :=
  let old := (s.core c).cyc
  let s := { s with qsends := s.qsends.map fun (q : QSend) => if q.dst = c then { q with due := q.due + n - old } else q }
  let s := s.modCore c fun x => x.resync n
  let s := { s with cur := ⟨c, .helm, 0⟩ }
  match s.mine.wait with
  | some w => if s.me.handler.isSome || s.me.trapped.isSome then s else s.endWait { w with pos := n, since := n }
  | none => s

/-- Two cores that differ in the helm's state alone. -/
def Core.SameButHelm (a b : Core) : Prop := b = { a with helm := b.helm, helmSt := b.helmSt }

theorem Core.SameButHelm.trans {a b c : Core} (h : a.SameButHelm b) (g : b.SameButHelm c) : a.SameButHelm c := by
  unfold Core.SameButHelm at h g ⊢
  rw [g, h]

theorem Core.sameButHelm_modStream (k : Core) (f : StreamSt → StreamSt) : k.SameButHelm (k.modStream .helm f) := rfl

theorem Core.sameButHelm_helmTo (k : Core) (a : Word) : k.SameButHelm (k.helmTo a) := rfl

/-- The end of a helm's wait changes its helm alone. -/
theorem State.core_endWait_helm (s : State) (c : Nat) (w : Wait) : (s.core c).SameButHelm (((s.at_ c .helm).endWait w).core c) := by
  have left : (({ s with cur := ⟨c, .helm, w.pos⟩ } : State).leave).core c =
      (((s.core c).modStream .helm fun x => x.passed w.pos (s.core c).time).helmTo ((s.core c).helmSt.nnpc + 8)) := State.core_modCore_same _ _ _
  have ended : ((s.at_ c .helm).endWait w).core c = ((({ s with cur := ⟨c, .helm, w.pos⟩ } : State).leave).core c).modStream .helm fun x =>
      { x with wait := none, issueBase := w.since + 1, notBefore := (s.at_ c .helm).cyc } := State.core_modCore_same _ _ _
  rw [ended, left]
  exact ((Core.sameButHelm_modStream _ _).trans (Core.sameButHelm_helmTo _ _)).trans (Core.sameButHelm_modStream _ _)

theorem State.core_endWait_helm_other (s : State) (c d : Nat) (w : Wait) (h : d ≠ c) : ((s.at_ c .helm).endWait w).core d = s.core d :=
  (State.left_endWait (s.at_ c .helm) w (by exact Stream.noConfusion)).1.others d h

theorem State.resyncCore_cases (s : State) (n c : Nat) : ∃ u : State, u.cores = (s.modCore c fun x => x.resync n).cores ∧
    (s.resyncCore n c = u.at_ c .helm ∨ ∃ w, s.resyncCore n c = (u.at_ c .helm).endWait w) := by
  unfold State.resyncCore
  extract_lets old q m u
  refine ⟨m, rfl, ?_⟩
  split
  · split
    · exact .inl rfl
    · exact .inr ⟨_, rfl⟩
  · exact .inl rfl

theorem State.core_resyncCore_other (s : State) (n c d : Nat) (h : d ≠ c) : (s.resyncCore n c).core d = s.core d := by
  obtain ⟨u, hu, e⟩ := s.resyncCore_cases n c
  have core : u.core d = s.core d := (State.core_eq_of_cores_eq hu d).trans (State.core_modCore_other _ _ _ _ h)
  rcases e with e | ⟨w, e⟩ <;> rw [e]
  · exact core
  · exact (State.core_endWait_helm_other _ _ _ _ h).trans core

/-- A core that a release has re-based: only its helm, where its wait ends, is then as the end of a wait leaves it. -/
theorem State.core_resyncCore_same (s : State) (n c : Nat) : ((s.core c).resync n).SameButHelm ((s.resyncCore n c).core c) := by
  obtain ⟨u, hu, e⟩ := s.resyncCore_cases n c
  have core : u.core c = (s.core c).resync n := (State.core_eq_of_cores_eq hu c).trans (State.core_modCore_same _ _ _)
  rw [← core]
  rcases e with e | ⟨w, e⟩ <;> rw [e]
  · exact rfl
  · exact u.core_endWait_helm c w

theorem State.cyc_resyncCore (s : State) (n c : Nat) : ((s.resyncCore n c).core c).cyc = n := by
  rw [s.core_resyncCore_same n c]
  rfl

/-- A core's saved helm has a wait that its condition has come to at cycle `n`. -/
def Core.SavedDue (k : Core) (n : Nat) : Prop := ∃ y u, k.trapped = some y ∧ y.stream.wait = some u ∧ u.held = true ∧ u.due = n

theorem State.savedDue_resyncCore (s : State) (n c : Nat) {h : Stopped} {v : Wait} (ht : (s.core c).trapped = some h)
    (hv : h.stream.wait = some v) : ((s.resyncCore n c).core c).SavedDue n := by
  rw [s.core_resyncCore_same n c]
  refine ⟨h.resync ((n : Int) - (s.core c).cyc) n, _, congrArg (Option.map _) ht, congrArg (Option.map _) hv, rfl, rfl⟩

theorem cyc_of_resync {s : State} {cs : List Nat} {n d : Nat} (hd : d ∈ cs) : ((cs.foldl (State.resyncCore n) s).core d).cyc = n := by
  refine foldl_of_mem (P := fun t : State => (t.core d).cyc = n) hd (fun u => u.cyc_resyncCore n d) fun u c hu => ?_
  by_cases e : d = c
  · exact e ▸ u.cyc_resyncCore n d
  · rwa [State.core_resyncCore_other _ _ _ _ e]

theorem savedDue_of_resync {s : State} {cs : List Nat} {n d : Nat} (hd : d ∈ cs) {h : Stopped} {v : Wait} (ht : (s.core d).trapped = some h)
    (hv : h.stream.wait = some v) : ((cs.foldl (State.resyncCore n) s).core d).SavedDue n := by
  refine foldl_of_mem_of_inv (I := fun t : State => ∃ h v, (t.core d).trapped = some h ∧ h.stream.wait = some v)
    (P := fun t : State => (t.core d).SavedDue n) hd ⟨h, v, ht, hv⟩ (fun u c hu => ?_) (fun u hu => ?_) fun u c _ hu => ?_
  · obtain ⟨h, v, ht, hv⟩ := hu
    by_cases e : d = c
    · subst e
      obtain ⟨y, w, hy, hw, _⟩ := u.savedDue_resyncCore n d ht hv
      exact ⟨y, w, hy, hw⟩
    · rw [State.core_resyncCore_other _ _ _ _ e]
      exact ⟨h, v, ht, hv⟩
  · obtain ⟨h, v, ht, hv⟩ := hu
    exact u.savedDue_resyncCore n d ht hv
  · by_cases e : d = c
    · subst e
      obtain ⟨y, w, hy, hw, _⟩ := hu
      exact u.savedDue_resyncCore n d hy hw
    · rwa [State.core_resyncCore_other _ _ _ _ e]

theorem State.launches_resyncCore (s : State) (n c : Nat) : (s.resyncCore n c).launches = s.launches := by
  unfold State.resyncCore
  extract_lets old q m u
  split
  · split <;> rfl
  · rfl

section
variable {s : State} {b : Bar} (hb : s.bars.find? (·.id == s.on.a) = some b) (hr : s.barReady b = true)
include hb hr

theorem happens_barrierRelease (hn : s.barResync b = false) :
    Happens .barrierRelease s fun t => (∀ q ∈ t.bars, q.id ≠ s.on.a) ∧ ∀ a ∈ b.arrived, ∀ v p, v.kind = .bar s.on.a p →
      ((s.core a.core).helm.wait = some v → (t.core a.core).helm.wait = some { v with held := true }) ∧
      (∀ h, (s.core a.core).trapped = some h → h.stream.wait = some v →
        ∃ y, (t.core a.core).trapped = some y ∧ y.stream.wait = some { v with held := true }) := by
  refine ⟨b.arrived.foldl (fun (u : State) a => u.modCore a.core fun c => c.holdBar s.on.a) { s with bars := s.bars.filter (·.id != s.on.a) },
    ?_, fun q hq => ?_, fun a ha v p hk => ⟨fun hv => ?_, fun h ht hv => ?_⟩⟩
  · simp only [exec, execBarrierRelease, hb, hr, hn, Bool.not_true, Bool.false_eq_true, ↓reduceIte]
  · rw [foldl_keeps State.bars (by exact fun _ _ => rfl)] at hq
    simpa using (List.mem_filter.1 hq).2
  · obtain ⟨x, hx, hw⟩ := waitsIn_held_of_release (s := { s with bars := s.bars.filter (·.id != s.on.a) }) Core.reachedAt_helm ha hk ⟨_, rfl, hv⟩
    cases hx
    exact hw
  · obtain ⟨x, hx, hw⟩ := waitsIn_held_of_release (s := { s with bars := s.bars.filter (·.id != s.on.a) }) Core.reachedAt_trapped ha hk
      ⟨_, congrArg (Option.map _) ht, hv⟩
    obtain ⟨y, hy, rfl⟩ := Option.map_eq_some_iff.1 hx
    exact ⟨y, hy, hw⟩

theorem happens_resync {l : Launch} (hn : s.barResync b = true) (hl : s.launch? b.lid = some l) :
    Happens .barrierRelease s fun t => (∀ d ∈ l.cores, (t.core d).cyc = l.count) ∧ (∃ m, t.launch? b.lid = some m ∧ m.elastic = false) ∧
      ∀ d ∈ l.cores, ∀ h v, (s.core d).trapped = some h → h.stream.wait = some v → (t.core d).SavedDue l.count := by
  refine ⟨(l.cores.foldl (State.resyncCore l.count) { s with bars := s.bars.filter (·.id != s.on.a) }).modLaunch b.lid
    fun l => { l with elastic := false }, ?_, fun d hd => cyc_of_resync hd, ?_, fun d hd h v ht hv => savedDue_of_resync hd ht hv⟩
  · simp only [exec, execBarrierRelease, hb, hr, hn, hl, Bool.not_true, Bool.false_eq_true, ↓reduceIte]
    rfl
  · have launches := foldl_keeps State.launches (f := State.resyncCore l.count) (fun u c => u.launches_resyncCore _ c) l.cores
      { s with bars := s.bars.filter (·.id != s.on.a) }
    refine ⟨_, State.launch?_of_updIf (f := fun l => { l with elastic := false }) hl (fun _ => rfl) ?_, rfl⟩
    rw [State.modLaunch_launches, launches]

end

/-- Settles O38, event by event: the end of a wait leaves its stream alone, the releases reach every member's helm or the one that a trap has saved,
and a fault that time brings is put to its core. -/
theorem waitEvents : Obligations.WaitEvents := by
  intro s l w x b tag n c st k ended
  refine ⟨fun hx hr hw hh hp => ⟨fun hd hc => ?_, fun hd hc ht => ?_, fun hd hc => ?_⟩, fun hl hx hs hf hr hw => ?_,
    ?_, ?_, fun hb hr => ⟨fun hn => ?_, fun hn hl => ?_⟩, ?_, ?_⟩
  · exact happens_deadlineReached hx hr hw hh hp hd hc
  · exact happens_deadlinePassed hx hr hw hh hd hc ht
  · exact happens_elasticWaitEnd hx hr hw hh hp hd hc
  · exact ⟨fun hst hh hd => happens_xDeadlineReached hl hx hs hf hr hw hst hh hd,
      fun h hk hp hn => happens_xhourEnd hl hx hs hf hr hw (hn ▸ hk) hp⟩
  · exact happens_quietDeadlock
  · exact happens_retirementBoundExceeded
  · exact happens_barrierRelease hb hr hn
  · exact happens_resync hb hr hn hl
  · exact happens_interruptTaken
  · exact happens_trapResume

end Sys2Proof.Machine
end

section
/-! PROOF. A handoff send that finds its register full (05 R158, 13 R396; O39). -/

namespace Sys2Proof.Machine

/-- A phase open since cycle 0, which can still be rerun (13 R393). -/
def openPhase0 : Phase :=
  { desc := 0, start := 0, sregs := Vector.replicate 64 0, pregs := Vector.replicate 128 false, pfull := Vector.replicate 128 false,
    qregs := Vector.replicate 32 0, qfull := Vector.replicate 32 false, helm := {}, helmS := {}, vecS := {}, matS := {}, carry := {} }

/-- A core whose q0 is full, in its phase. -/
def Core.fullInPhase : Core := { qfull := Vector.replicate 32 true, phase := some openPhase0 }

/-- A value for q0 of core 0 whose arrival is due. -/
def sendToFull : QSend := { id := 0, src := 1, dst := 0, q := 0, v := 7, due := 0 }

/-- Core 0 in its phase, with q0 full, and a value for q0 on its way. -/
def State.fullAtArrival : State := { State.reset.setCore 0 Core.fullInPhase with qsends := [sendToFull] }

/-- Whether a core's phase can no longer be rerun (13 R396). -/
def State.phaseLost (s : State) (c : Nat) : Option Bool := (s.core c).phase.map (·.unrecoverable)

/-- A value that has to wait leaves its target's open phase beyond a rerun (13 R396). -/
theorem phaseLost_of_waiting_arrival {s t : State} {q : QSend} (hq : s.qsends.find? (·.id == s.on.a) = some q) (ha : s.arrivesNow q = true)
    (hf : (s.core q.dst).qFillable q.q = false) (hw : q.waiting = false) (ht : s.timedAt q.dst = false) (h : exec .qsendArrival s = .next t) :
    t.phaseLost q.dst = (s.core q.dst).phase.map fun _ => true := by
  have due : s.qsendDue q = true := by simp [State.qsendDue, ha, hw]
  simp only [exec, execQsendArrival, hq, due, hf, ht, Bool.not_true, Bool.false_eq_true, ↓reduceIte, Host.Outcome.next.injEq] at h
  rw [State.phaseLost, ← h, State.core_modCore_same, Option.map_map]
  rfl

/-- Refutes O39: an arrival that has to wait is to leave every core as it was, yet it makes the open phase of its target unrecoverable. -/
theorem not_landingEvents : ¬ Obligations.LandingEvents := by
  unfold Obligations.LandingEvents
  intro h
  obtain ⟨-, -, arrival, -⟩ := h State.fullAtArrival { st := .helm, issued := 0, due := 0, pos := 0, eff := .pEmpty 0 } {} sendToFull 0 0
  obtain ⟨t, runs, kept, -⟩ := (arrival rfl rfl).2.2 rfl rfl rfl
  have lost : t.phaseLost 0 = some true := phaseLost_of_waiting_arrival rfl rfl rfl rfl rfl runs
  have before : t.phaseLost 0 = State.fullAtArrival.phaseLost 0 := by
    simp only [State.phaseLost, State.core, kept]
  exact absurd (before.symm.trans lost) (by decide)

end Sys2Proof.Machine
end

section
/-! PROOF. Pre-emption, termination and resumption of launches (02 R46, R60, 10 R335, 11 R349-R352, 12 R383; O45). -/

namespace Sys2Proof.Machine

/-! ## The stop -/

/-- A core is stopped, its files as they were. -/
def Core.StoppedFrom (a b : Core) : Prop := b.frozen = true ∧ b.held = true ∧ a.SameFiles b

theorem Core.SameFiles.freeze {a b : Core} (h : a.SameFiles b) : a.StoppedFrom { b with frozen := true, held := true } :=
  ⟨rfl, rfl, h.trans (by constructor <;> rfl)⟩

theorem happens_stop {s : State} {l : Launch} (hl : s.launch? s.on.a = some l) (hd : s.stopDue l = true) :
    Happens .preemptionStop s fun t => t.mem = s.mem ∧ (∃ m, t.launch? s.on.a = some m ∧ m.stage = .preempting) ∧
      ∀ c ∈ l.cores, (s.core c).StoppedFrom (t.core c) := by
  have lid := State.lid_of_launch? hl
  have step : ∀ (u : State) (c : Nat), (s.core c).SameFiles (u.core c) →
      (s.core c).StoppedFrom ((u.modCore c fun k => { k with frozen := true, held := true }).core c) := fun u c hu => by
    rw [State.core_modCore_same]
    exact hu.freeze
  refine ⟨l.cores.foldl (fun (s : State) c => s.modCore c fun k => { k with frozen := true, held := true })
    (s.modLaunch s.on.a fun l => { l with stage := .preempting, preempt := none }), ?_, ?_, ?_, fun c hc => ?_⟩
  · simp only [exec, execPreemptionStop, hl, hd, lid, ↓reduceIte]
  · rw [foldl_keeps State.mem (by exact fun _ _ => rfl)]
    rfl
  · have launch := State.launch?_of_updIf (f := fun l => { l with stage := .preempting, preempt := none }) hl (fun _ => rfl)
      (foldl_keeps State.launches (f := fun (s : State) c => s.modCore c fun k => { k with frozen := true, held := true }) (fun _ _ => rfl) l.cores
        (s.modLaunch s.on.a fun l => { l with stage := .preempting, preempt := none }))
    exact ⟨_, launch, rfl⟩
  · refine foldl_of_mem_of_inv (I := fun u : State => (s.core c).SameFiles (u.core c)) (P := fun u : State => (s.core c).StoppedFrom (u.core c)) hc
      (Core.SameFiles.rfl' _) (fun u d hu => ?_) (fun u hu => step u c hu) fun u d _ hu => ?_
    · by_cases e : c = d
      · exact e ▸ (step u c hu).2.2
      · rwa [State.core_modCore_other _ _ _ _ e]
    · by_cases e : c = d
      · exact e ▸ step u c hu.2.2
      · rwa [State.core_modCore_other _ _ _ _ e]

/-! ## The save -/

/-- What leaving the collectives that have not passed their digest does to a core: its places in them, and its commands' (11 R349 step 2). -/
def Launch.unjoinCore (l : Launch) (c : Nat) (k : Core) : Core :=
  { k with
    colls := k.waitingColls.foldl (fun n j => match l.team c (collOf j.record).team with
      | some e => tabSet n (teamKey e) ((tabGet n (teamKey e)).getD 0 - 1)
      | none => n) k.colls
    copies := updIf (fun j => j.joined && j.saved) (fun j => { j with taken := none }) k.copies }

theorem updIf_of_filter_nil {α : Type} {p : α → Bool} (f : α → α) {l : List α} (h : l.filter p = []) : updIf p f l = l := by
  rw [List.filter_eq_nil_iff] at h
  unfold updIf
  refine (List.map_congr_left fun x hx => ?_).trans (List.map_id l)
  exact if_neg (h x hx)

theorem Launch.unjoinCore_of_waiting_nil (l : Launch) (c : Nat) {k : Core} (h : k.waitingColls = []) : l.unjoinCore c k = k := by
  unfold Launch.unjoinCore
  rw [h, updIf_of_filter_nil _ h]
  rfl

/-- A core that has left its launch's collectives: its files, its results in flight and its count stand, and all of it where it waits in none. -/
structure Core.UnjoinedFrom (a b : Core) : Prop where
  files : a.SameFiles b
  flights : b.flights = a.flights
  cyc : b.cyc = a.cyc
  same : a.waitingColls = [] → b = a

theorem Core.UnjoinedFrom.refl (k : Core) : k.UnjoinedFrom k := ⟨.rfl' k, rfl, rfl, fun _ => rfl⟩

theorem Core.UnjoinedFrom.unjoinCore {a b : Core} (h : a.UnjoinedFrom b) (l : Launch) (c : Nat) : a.UnjoinedFrom (l.unjoinCore c b) where
  files := h.files.trans (by constructor <;> rfl)
  flights := h.flights
  cyc := h.cyc
  same hw := by
    have e := h.same hw
    rw [e]
    exact l.unjoinCore_of_waiting_nil c hw

/-- The state of a launch's cores as it is saved (11 R349 step 2). -/
theorem State.core_unjoin (s : State) (l : Launch) (c : Nat) :
    (s.core c).UnjoinedFrom ((s.unjoin l).core c) ∧ (c ∉ l.cores → (s.unjoin l).core c = s.core c) := by
  refine List.foldlRecOn (motive := fun u : State => (s.core c).UnjoinedFrom (u.core c) ∧ (c ∉ l.cores → u.core c = s.core c)) l.cores _
    ⟨.refl _, fun _ => rfl⟩ fun u hu d hd => ?_
  have core : (u.modCore c (l.unjoinCore c)).core c = l.unjoinCore c (u.core c) := State.core_modCore_same _ _ _
  by_cases e : c = d
  · subst e
    exact ⟨core ▸ hu.1.unjoinCore l c, fun hc => absurd hd hc⟩
  · have other : (u.modCore d (l.unjoinCore d)).core c = u.core c := State.core_modCore_other _ _ _ _ e
    exact ⟨other ▸ hu.1, fun hc => other.trans (hu.2 hc)⟩

/-- Leaving the collectives keeps what has no part in the cores and the collectives. -/
theorem State.unjoin_keeps {γ : Type} (π : State → γ) (hπ : ∀ (s : State) c x, π { s with cores := c, colls := x } = π s) (s : State) (l : Launch) :
    π (s.unjoin l) = π s :=
  (foldl_keeps π (fun u c => hπ u (tabSet u.cores c (l.unjoinCore c (u.core c))) u.colls) l.cores _).trans (hπ s s.cores _)

/-- Writing an image changes memory and its marks alone (11 R350). -/
theorem State.saveCore_keeps {γ : Type} (π : State → γ) (hπ : ∀ (s : State) m p b, π { s with mem := m, poison := p, bad := b } = π s)
    (s : State) (ctx i : Nat) (k : Core) : π (s.saveCore ctx i k) = π s := by
  have cells : ∀ (u : State) key len cs, π (u.restoreCells key len cs) = π u := fun u key len cs => hπ u _ u.poison u.bad
  have home : ∀ (u : State) key b, π (u.writeHome key b) = π u := fun u key b => hπ u _ _ _
  unfold State.saveCore
  extract_lets key v mine
  calc π _ = π v := hπ v v.mem _ _
    _ = π (k.image.foldl (fun (s : State) x => s.writeHome (key + x.1) x.2) (s.restoreCells key imageLs [])) := cells _ _ _ _
    _ = π s := (foldl_keeps π (fun _ _ => home _ _ _) _ _).trans (cells _ _ _ _)

/-- The images of a launch's cores, in the order of its rectangle. -/
def State.coreImages (s : State) (l : Launch) : List Image := (l.cores.zipIdx).map fun c => ⟨c.2, s.core c.1⟩

/-- The save of a launch, its parts named: what changes a launch, the handles that are given up, and the cores that are free (11 R349, R350). -/
theorem State.saveLaunch_parts (s : State) (l : Launch) : ∃ (u : State) (f : Launch → Launch), u.launches = s.launches ∧ u.handles = s.handles ∧
    (∀ m, (f m).lid = m.lid ∧ (f m).stage = .preempted ∧ (f m).saved = (s.unjoin l).coreImages l) ∧
    s.saveLaunch l = l.cores.foldl (fun (s : State) c => s.setCore c {}) ({ u with
      handles := u.handles.map fun (h : Handle) => if h.holds ∧ h.lid = l.lid then h.freed
        else { h with bindings := h.bindings.filter fun b => !l.has b.1 } }.modLaunch l.lid f) := by
  unfold State.saveLaunch
  extract_lets s1 kept imgs s2 s3 s4
  have launches : s3.launches = s.launches := (foldl_keeps State.launches (fun _ _ => State.saveCore_keeps State.launches (fun _ _ _ _ => rfl) _ _ _ _) imgs s1).trans
    (State.unjoin_keeps State.launches (fun _ _ _ => rfl) s l)
  have handles : s3.handles = s.handles := (foldl_keeps State.handles (fun _ _ => State.saveCore_keeps State.handles (fun _ _ _ _ => rfl) _ _ _ _) imgs s1).trans
    (State.unjoin_keeps State.handles (fun _ _ _ => rfl) s l)
  refine ⟨s3, _, launches, handles, ?_, rfl⟩
  exact fun m => ⟨rfl, rfl, rfl⟩

theorem happens_save {s : State} {l : Launch} (hl : s.launch? s.on.a = some l) (hd : s.saveDue l = true) :
    Happens .preemptionStop s fun t =>
      (∃ m, t.launch? s.on.a = some m ∧ m.stage = .preempted ∧ m.saved = (s.unjoin l).coreImages l) ∧
      (∀ c ∈ l.cores, t.core c = {}) ∧ ∀ h, (s.handle h).holds = true → (s.handle h).lid = s.on.a → (t.handle h).st = .free := by
  have lid := State.lid_of_launch? hl
  have stage : l.stage = .preempting := by
    simp only [State.saveDue, Bool.and_eq_true, beq_iff_eq] at hd
    exact hd.1.1.1
  have notStop : s.stopDue l = false := by
    simp [State.stopDue, stage]
  obtain ⟨u, f, launches, handles, hf, e⟩ := s.saveLaunch_parts l
  refine ⟨s.saveLaunch l, ?_, ⟨f l, ?_, (hf l).2⟩, fun c hc => ?_, fun h hh hi => ?_⟩
  · simp only [exec, execPreemptionStop, hl, hd, notStop, Bool.false_eq_true, ↓reduceIte]
  · refine State.launch?_of_updIf hl (fun m => (hf m).1) ?_
    rw [e, foldl_keeps State.launches (by exact fun _ _ => rfl), ← launches, ← lid]
    rfl
  · rw [e]
    refine foldl_of_mem (P := fun t : State => t.core c = {}) hc (fun v => State.core_setCore_same _ _ _) fun v d hv => ?_
    by_cases ed : c = d
    · exact ed ▸ State.core_setCore_same _ _ _
    · exact (State.core_setCore_other _ _ _ _ ed).trans hv
  · rw [e, State.handle, foldl_keeps State.handles (by exact fun _ _ => rfl), State.modLaunch_handles, handles, vAt_map]
    rw [if_pos ⟨hh, hi.trans lid.symm⟩]
    rfl

/-! ## The resume -/

/-- The register areas of a core and its count. -/
structure Core.SameAreas (a b : Core) : Prop where
  sregs : b.sregs = a.sregs
  pregs : b.pregs = a.pregs
  qregs : b.qregs = a.qregs
  vregs : b.vregs = a.vregs
  cyc : b.cyc = a.cyc

theorem Core.SameAreas.trans {a b c : Core} (h : a.SameAreas b) (g : b.SameAreas c) : a.SameAreas c :=
  ⟨g.sregs.trans h.sregs, g.pregs.trans h.pregs, g.qregs.trans h.qregs, g.vregs.trans h.vregs, g.cyc.trans h.cyc⟩

theorem Core.sameAreas_fromControl (c : Core) (b : List Byte) : c.SameAreas (c.fromControl b) := by constructor <;> rfl
theorem Core.sameAreas_fromCopyImage (c : Core) (b : List Byte) : c.SameAreas (c.fromCopyImage b) := by constructor <;> rfl
theorem Core.sameAreas_fromQueue (c : Core) (b : List Byte) : c.SameAreas (c.fromQueue b) := by constructor <;> rfl
theorem Core.sameAreas_phase (c : Core) (p : Option Phase) : c.SameAreas { c with phase := p } := by constructor <;> rfl

/-- The register areas of the image at `key`, as R350 places them, and a count. -/
structure Core.HasAreas (k : Core) (m : Memory) (key cyc : Nat) : Prop where
  sregs : ∀ r : SReg, vGet r k.sregs = BitVec.ofNat 64 (memRead m (key + 0x400 + 8 * r.toNat) 8)
  pregs : ∀ r : PReg, vGet r k.pregs = (memRead m (key + 0x700 + r.toNat / 8) 1 / 2 ^ (r.toNat % 8) % 2 == 1)
  qregs : ∀ r : BitVec 5, vGet r k.qregs = BitVec.ofNat 64 (memRead m (key + 0x740 + 8 * r.toNat) 8)
  vregs : ∀ r : BitVec 6, vGet r k.vregs = BitVec.ofNat 4096 (memRead m (key + 0x2000 + 512 * r.toNat) 512)
  cyc : k.cyc = cyc

theorem Core.SameAreas.hasAreas {a b : Core} (h : a.SameAreas b) {m : Memory} {key n : Nat} (ha : a.HasAreas m key n) : b.HasAreas m key n where
  sregs r := h.sregs ▸ ha.sregs r
  pregs r := h.pregs ▸ ha.pregs r
  qregs r := h.qregs ▸ ha.qregs r
  vregs r := h.vregs ▸ ha.vregs r
  cyc := h.cyc.trans ha.cyc

theorem vGet_ofFn {α : Type} {n : Nat} (r : BitVec n) (f : Fin (2 ^ n) → α) : vGet r (Vector.ofFn f) = f r.toFin := by
  simp [vGet]

theorem State.loadCore_hasAreas (s : State) (ctx i : Nat) (c : Core) : (s.loadCore ctx i c).HasAreas s.mem (s.imageKey ctx i) c.cyc := by
  unfold State.loadCore
  extract_lets key n b z c1 c2
  have beside : c1.SameAreas c2 :=
    ((Core.sameAreas_fromControl _ _).trans (Core.sameAreas_fromCopyImage _ _)).trans (Core.sameAreas_fromQueue _ _)
  refine (beside.trans (Core.sameAreas_phase _ _)).hasAreas ⟨fun r => ?_, fun r => ?_, fun r => ?_, fun r => ?_, ?_⟩
  · refine (vGet_ofFn r _).trans ?_
    simp only [n, Nat.add_assoc]
    rfl
  · refine (vGet_ofFn r _).trans ?_
    simp only [n, Nat.add_assoc]
    rfl
  · refine (vGet_ofFn r _).trans ?_
    simp only [n, Nat.add_assoc]
    rfl
  · refine (vGet_ofFn r _).trans ?_
    simp only [n, Nat.add_assoc]
    rfl
  · dsimp only [c1]

/-- The first eight bytes of a control area are the helm's pc. -/
theorem recField_pc (m : Memory) (a : Nat) : recField (((memBytes m (a + 0) 0x400).drop 0).take 128) 0 8 = memRead m a 8 := by
  have whole := memBytes_within m (a + 0) 0 128 0x400 (by omega)
  exact (congrArg (fun b => recField b 0 8) whole.symm).trans (memRead_eq_recField m a 0 8 128 (by omega)).symm

theorem Core.helm_fromControl (c : Core) (b : List Byte) : (c.fromControl b).helm = c.helm.restore ((b.drop 0).take 128) := rfl
theorem Core.helm_fromCopyImage (c : Core) (b : List Byte) : (c.fromCopyImage b).helm = c.helm := rfl
theorem Core.helm_fromQueue (c : Core) (b : List Byte) : (c.fromQueue b).helm = c.helm := rfl

theorem State.loadCore_pc (s : State) (ctx i : Nat) (c : Core) :
    (s.loadCore ctx i c).helm.pc = BitVec.ofNat 64 (memRead s.mem (s.imageKey ctx i) 8) := by
  unfold State.loadCore
  extract_lets key n b z c1 c2
  have helm : c2.helm = c1.helm.restore (((b 0 0x400).drop 0).take 128) :=
    ((Core.helm_fromQueue _ _).trans (Core.helm_fromCopyImage _ _)).trans (Core.helm_fromControl _ _)
  dsimp only
  rw [helm]
  exact congrArg (BitVec.ofNat 64) (recField_pc s.mem key)

/-- A core runs again from the image `q` of a launch: neither frozen nor held, its registers and count those of its image (11 R350, R352). -/
structure Core.RestartedFrom (k : Core) (s : State) (l : Launch) (q : Image) : Prop where
  frozen : k.frozen = false
  held : k.held = false
  pc : k.helm.pc = BitVec.ofNat 64 (memRead s.mem (s.imageKey l.ctx q.core) 8)
  areas : k.HasAreas s.mem (s.imageKey l.ctx q.core) q.st.cyc

theorem State.restarted_resumeImage (s : State) (l : Launch) (q : Image) :
    ((s.resumeImage l q).core (l.cores.getD q.core 0)).RestartedFrom s l q := by
  unfold State.resumeImage
  extract_lets c k bad xlat
  rw [State.core_setCore_same]
  have kept : k.SameAreas { k with
    frozen := false, held := false, hbank := Vector.replicate 8 0, atRetire := k.holding, yieldAt := none, retireAt := none
    copies := k.copies.map fun x => x.again k.time s.now (s.choice (k.time + 1) (k.time + xlat x))
    raised := if s.imageBad l.ctx q.core then [bad] else k.raised } := by constructor <;> rfl
  have pc : k.helm.pc = BitVec.ofNat 64 (memRead s.mem (s.imageKey l.ctx q.core) 8) := s.loadCore_pc l.ctx q.core q.st
  have areas : k.HasAreas s.mem (s.imageKey l.ctx q.core) q.st.cyc := s.loadCore_hasAreas l.ctx q.core q.st
  exact ⟨rfl, rfl, pc, kept.hasAreas areas⟩

/-- Taking a saved binding's place again changes its handle alone. -/
theorem State.rebind_keeps {γ : Type} (π : State → γ) (hπ : ∀ (s : State) h, π { s with handles := h } = π s) (s : State) (c : Nat) :
    π (s.rebind c) = π s := by
  unfold State.rebind
  refine foldl_keeps π (fun u k => ?_) _ _
  split
  · exact hπ u _
  · rfl

theorem happens_resume {s : State} {l : Launch} {q : Image} (hl : s.launch? s.on.a = some l) (hst : l.stage = .resuming) (ha : l.startAt ≤ s.now)
    (hh : l.savedHandles = []) (hq : l.saved = [q]) : Happens .preemptedResume s fun t =>
      t.mem = s.mem ∧ (∃ m, t.launch? s.on.a = some m ∧ m.stage = .running ∧ m.saved = []) ∧
      (t.core (l.cores.getD q.core 0)).RestartedFrom s l q := by
  have lid := State.lid_of_launch? hl
  have due : ¬ (l.stage ≠ .resuming ∨ s.now < l.startAt ∨
      (!(l.savedHandles.all fun h => s.relocked l.ctx h.2 || s.unlockable l.ctx h.2)) = true) := by
    rw [hst, hh]
    simpa using ha
  refine ⟨s.resumeLaunch l, ?_, ?_⟩
  · simp only [exec, execPreemptedResume, hl]
    exact if_neg due
  · unfold State.resumeLaunch
    rw [hh, hq]
    extract_lets block u v w
    have cores : w.cores = (s.resumeImage l q).cores := foldl_keeps State.cores (fun _ _ => State.rebind_keeps State.cores (fun _ _ => rfl) _ _) l.cores v
    have mem : w.mem = s.mem := foldl_keeps State.mem (fun _ _ => State.rebind_keeps State.mem (fun _ _ => rfl) _ _) l.cores v
    have launches : w.launches = s.launches :=
      foldl_keeps State.launches (fun _ _ => State.rebind_keeps State.launches (fun _ _ => rfl) _ _) l.cores v
    refine ⟨mem, ⟨{ l.restore block with stage := .running, saved := [], savedHandles := [] }, ?_, rfl, rfl⟩, ?_⟩
    · refine State.launch?_of_updIf (f := fun l => { l.restore block with stage := .running, saved := [], savedHandles := [] }) hl (fun _ => rfl) ?_
      rw [State.modLaunch_launches, launches, lid]
    · have core : (w.modLaunch l.lid fun l => { l.restore block with stage := .running, saved := [], savedHandles := [] }).core
          (l.cores.getD q.core 0) = (s.resumeImage l q).core (l.cores.getD q.core 0) :=
        State.core_eq_of_cores_eq cores _
      rw [core]
      exact s.restarted_resumeImage l q

/-! ## Termination and requests -/

/-- What a termination leaves of a core: the launch it belongs to and its local store (12 R383). -/
def Core.emptied (k : Core) : Core := { ({} : Core) with lid := k.lid, ls := k.ls }

/-- A core whose streams have ended, with nothing under way. -/
def Core.Empty (k : Core) : Prop := k.helm.ended = true ∧ k.accesses = [] ∧ k.copies = []

/-- A launch's cores are empty but for their local stores (12 R383). -/
theorem empty_of_terminated (s : State) {cs : List Nat} {c : Nat} (hc : c ∈ cs) :
    ((cs.foldl (fun (s : State) c => s.modCore c Core.emptied) s).core c).Empty := by
  have here : ∀ (u : State) (d : Nat), ((u.modCore d Core.emptied).core d).Empty := fun u d => by
    rw [State.core_modCore_same]
    exact ⟨rfl, rfl, rfl⟩
  refine foldl_of_mem (P := fun u : State => (u.core c).Empty) hc (fun u => here u c) fun u d hu => ?_
  by_cases e : c = d
  · exact e ▸ here u c
  · rwa [State.core_modCore_other _ _ _ _ e]

/-- What a launch's helms have on its way changes cores, contexts and groups alone. -/
theorem State.leaveCores_keeps {γ : Type} (π : State → γ) (hπ : ∀ (s : State) c x g, π { s with cores := c, contexts := x, groups := g } = π s)
    (s : State) (l : Launch) : π (s.leaveCores l) = π s := by
  have core : ∀ (u : State) c k, π (u.setCore c k) = π u := fun u c k => hπ u (tabSet u.cores c k) u.contexts u.groups
  unfold State.leaveCores
  extract_lets wake u
  refine (hπ u u.cores _ _).trans (foldl_keeps π (fun v c => ?_) _ _)
  dsimp only
  split
  · exact core _ _ _
  · exact (core _ _ _).trans (core _ _ _)

/-- A termination, its parts named: what gives up the cores, and what changes the launch (12 R383). -/
theorem State.terminate_parts (s : State) (l : Launch) : ∃ (u : State) (f : Launch → Launch), u.mem = s.mem ∧ u.launches = s.launches ∧
    (∀ m, (f m).lid = m.lid ∧ (f m).stage = .retired ∧ (f m).status = 3) ∧
    (l.holdsCores = true →
      u = l.cores.foldl (fun (s : State) c => s.modCore c Core.emptied) (s.leaveCores l)) ∧
    s.terminate l = (u.release l).modLaunch l.lid f := by
  unfold State.terminate
  extract_lets top fresh u
  have keeps : ∀ {γ : Type} (π : State → γ), (∀ (s : State) c x g, π { s with cores := c, contexts := x, groups := g } = π s) → π u = π s := by
    intro γ π hπ
    unfold u
    split
    · exact (foldl_keeps π (fun v c => hπ v (tabSet v.cores c _) v.contexts v.groups) _ _).trans (State.leaveCores_keeps π hπ s l)
    · rfl
  refine ⟨u, _, keeps State.mem fun _ _ _ _ => rfl, keeps State.launches fun _ _ _ _ => rfl, ?_, fun hh => if_pos hh, rfl⟩
  exact fun m => ⟨rfl, rfl, rfl⟩

theorem happens_pterm {s : State} {l : Launch} (hn : s.named s.on.word = some l) (hl : s.launch? l.lid = some l) : Happens .pterm s fun t =>
    t.mem = s.mem ∧ (∃ m, t.launch? l.lid = some m ∧ m.stage = .retired ∧ m.status = 3) ∧
    (l.holdsCores = true → ∀ c ∈ l.cores, (t.core c).Empty) := by
  obtain ⟨u, f, mem, launches, hf, emptied, e⟩ := s.terminate_parts l
  refine ⟨s.terminate l, ?_, ?_⟩
  · simp only [exec, execPterm, State.ptermWrite, hn]
  · rw [e]
    refine ⟨mem, ⟨f l, State.launch?_of_updIf hl (fun m => (hf m).1) ?_, (hf l).2⟩, fun hh c hc => ?_⟩
    · rw [State.modLaunch_launches, ← launches]
      rfl
    · have empty := empty_of_terminated (s.leaveCores l) hc
      rw [← emptied hh] at empty
      exact empty

theorem happens_ppre {s : State} {l : Launch} (hn : s.named s.on.word = some l) (hl : s.launch? l.lid = some l) (hr : l.stage = .running) :
    Happens .ppre s fun t => t.cores = s.cores ∧ ∃ m, t.launch? l.lid = some m ∧ ∃ i, m.preempt = some i ∧ s.now < i ∧ i ≤ s.now + 64 := by
  obtain ⟨lo, hi⟩ := s.choice_bounds (lo := 1) (hi := 64) (by decide)
  refine ⟨s.chosen.modLaunch l.lid fun l => { l with preempt := some (s.now + s.choice 1 64) }, ?_, rfl,
    { l with preempt := some (s.now + s.choice 1 64) }, ?_, s.now + s.choice 1 64, rfl, ?_, ?_⟩
  · simp only [exec, execPpre, State.ppreWrite, hn, hr, ↓reduceIte]
  · exact State.launch?_of_updIf (f := fun l => { l with preempt := some (s.now + s.choice 1 64) }) hl (fun _ => rfl) rfl
  · omega
  · omega

theorem happens_unnamed {s : State} (hn : s.named s.on.word = none) : (Happens .pterm s fun t => t = s) ∧ Happens .ppre s fun t => t = s := by
  refine ⟨⟨s, ?_, rfl⟩, ⟨s, ?_, rfl⟩⟩
  · simp only [exec, execPterm, State.ptermWrite, hn]
  · simp only [exec, execPpre, State.ppreWrite, hn]

/-- Settles O45, event by event: a save leaves each core's files and flights as it stores them, and a resume reads each register back from the place
that R350 gives. -/
theorem preemptionEvents : Obligations.PreemptionEvents := by
  intro s l q n now key
  refine ⟨fun hl hd => happens_stop hl hd, fun hl hd => (happens_save hl hd).mono ?_, fun hl hst ha hh hq => (happens_resume hl hst ha hh hq).mono ?_,
    fun hn hl => happens_pterm hn hl, fun hn => (happens_unnamed hn).1, fun hn hl hr => happens_ppre hn hl hr, fun hn => (happens_unnamed hn).2⟩
  · rintro t ⟨⟨m, hm, stage, saved⟩, cores, handles⟩
    refine ⟨⟨m, hm, stage, (s.unjoin l).core, saved, fun c => ?_⟩, cores, handles⟩
    obtain ⟨unjoined, outside⟩ := s.core_unjoin l c
    exact ⟨unjoined.files, unjoined.flights, unjoined.cyc, fun h => h.elim outside unjoined.same⟩
  · rintro t ⟨mem, launch, restarted⟩
    obtain ⟨frozen, held, pc, sregs, pregs, qregs, vregs, cyc⟩ := restarted
    exact ⟨mem, launch, frozen, held, cyc, pc, sregs, pregs, qregs, vregs⟩

end Sys2Proof.Machine
end

section
/-! PROOF. The fields of a word, and the word of an instruction read back in its stream (03 R68, R72-R93; O54). -/

namespace Sys2Proof

/-! ## Fields -/

theorem fld_enc_operands (op : BitVec 8) (x : BitVec 37) {lo n : Nat} (h : lo + n ≤ 37) : fld (enc op x) lo n = x.extractLsb' lo n :=
  BitVec.extractLsb'_append_eq_of_add_le h

theorem fld_enc_opcode (op : BitVec 8) (x : BitVec 37) : fld (enc op x) 37 8 = op := by
  have above : fld (enc op x) 37 8 = (0#19 ++ op).extractLsb' 0 8 := BitVec.extractLsb'_append_eq_of_le (Nat.le_refl 37)
  rw [above, BitVec.extractLsb'_append_eq_of_add_le (Nat.le_refl 8), BitVec.extractLsb'_eq_self]

/-- Words that agree below bit `m` agree in every field there. -/
theorem fld_eq_of_low {w v : Word} {m lo n : Nat} (e : fld w 0 m = fld v 0 m) (h : lo + n ≤ m) : fld w lo n = fld v lo n := by
  have nested (u : Word) : fld u lo n = (fld u 0 m).extractLsb' lo n := by simp [fld, BitVec.extractLsb'_extractLsb'_of_le h]
  rw [nested w, nested v, e]

theorem fld_append_fld (w : Word) (lo n m : Nat) : fld w (lo + n) m ++ fld w lo n = fld w lo (m + n) :=
  BitVec.extractLsb'_append_extractLsb'_eq_extractLsb' rfl

theorem opcode_append_operands (w : Word) : fld w 37 8 ++ fld w 0 37 = fld w 0 45 := fld_append_fld w 0 37 8

/-- A word is its IDLE, its guard and its low 45 bits (R68). -/
theorem append_fields (w : Word) : fld w 54 10 ++ fld w 52 2 ++ fld w 45 7 ++ fld w 0 45 = w := by
  have mode : fld w 54 10 ++ fld w 52 2 = fld w 52 12 := fld_append_fld w 52 2 10
  have guard : fld w 52 12 ++ fld w 45 7 = fld w 45 19 := fld_append_fld w 45 7 12
  have whole : fld w 45 19 ++ fld w 0 45 = fld w 0 64 := fld_append_fld w 0 45 19
  rw [mode, guard, whole]
  exact BitVec.extractLsb'_eq_self

theorem fields_append (idle : BitVec 10) (gm : BitVec 2) (gp : PReg) (low : BitVec 45) :
    let w : Word := idle ++ gm ++ gp ++ low
    fld w 54 10 = idle ∧ fld w 52 2 = gm ∧ fld w 45 7 = gp ∧ fld w 0 45 = low := by
  simp (disch := omega) only [fld, BitVec.extractLsb'_append_eq_of_le, BitVec.extractLsb'_append_eq_of_add_le, BitVec.extractLsb'_eq_self,
    Nat.reduceSub, and_self]

/-! ## Reading an instruction back

A word with the low bits of the instruction's own has its opcode, which names the instruction's row in the stream's map. The row then finds
each operand where the format has put it. -/

section
variable {w : Word} {op : BitVec 8} {x : BitVec 37} (e : fld w 0 45 = fld (enc op x) 0 45)
include e

theorem opcode_of_low : fld w 37 8 = op := (fld_eq_of_low e (by omega)).trans (fld_enc_opcode op x)

theorem operands_of_low {lo n : Nat} (h : lo + n ≤ 37) : fld w lo n = x.extractLsb' lo n :=
  (fld_eq_of_low e (by omega)).trans (fld_enc_operands op x h)

end

section
variable {w : Word} {i : Instr} (e : fld w 0 45 = fld (encode i) 0 45) (ok : i.operandsOk = true)
include e

include ok in
theorem parse_helm_of_low (hs : i.streams.contains .helm = true) : parse .helm w = some i := by
  cases i
  all_goals cases hs
  all_goals
    rw [parse, parseHelm, opcode_of_low e]
    refine congrArg some ?_
  case' cmpeq | cmpne | cmplt | cmpltu | cmple | cmpleu => cases ‹CmpSrc›
  all_goals
    simp (disch := omega) only [operands_of_low e, BitVec.extractLsb'_append_eq_of_le, BitVec.extractLsb'_append_eq_of_add_le,
      BitVec.extractLsb'_eq_self, Nat.reduceSub, Nat.sub_self, cmpBits, ↓reduceIte, BitVec.reduceEq]
  case waitid => exact if_neg (bne_iff_ne.mp ok)

theorem parse_vector_of_low (hs : i.streams.contains .vector = true) : parse .vector w = some i := by
  cases i
  all_goals cases hs
  all_goals
    rw [parse, parseVectorOnly, parseControl, opcode_of_low e]
    refine congrArg some ?_
  case' loop | loops => cases ‹Count›
  case' setvc src => rcases src with (_ | _) | _
  all_goals
    simp (disch := omega) only [operands_of_low e, BitVec.extractLsb'_append_eq_of_le, BitVec.extractLsb'_append_eq_of_add_le,
      BitVec.extractLsb'_eq_self, Nat.reduceSub, Nat.sub_self, countField, countBits, vcBits, ↓reduceIte, BitVec.reduceEq]

include ok in
theorem parse_matrix_of_low (hs : i.streams.contains .matrix = true) : parse .matrix w = some i := by
  cases i
  all_goals cases hs
  all_goals
    rw [parse, parseMatrixOnly, parseControl, opcode_of_low e]
    refine congrArg some ?_
  case' loop | loops => cases ‹Count›
  case' setvc src => rcases src with (_ | _) | _
  all_goals
    simp (disch := omega) only [operands_of_low e, BitVec.extractLsb'_append_eq_of_le, BitVec.extractLsb'_append_eq_of_add_le,
      BitVec.extractLsb'_eq_self, Nat.reduceSub, Nat.sub_self, countField, countBits, vcBits, ↓reduceIte, BitVec.reduceEq]
  case mzero =>
    obtain ⟨notRelease, -⟩ := Bool.and_eq_true_iff.mp ok
    exact if_neg (bne_iff_ne.mp notRelease)

theorem parse_copy_of_low (hs : i.streams.contains .copy = true) : parse .copy w = some i := by
  cases i
  all_goals cases hs
  all_goals
    rw [parse, parseCopyOnly, parseControl, opcode_of_low e]
    refine congrArg some ?_
  case' loop | loops => cases ‹Count›
  case' setvc src => rcases src with (_ | _) | _
  all_goals
    simp (disch := omega) only [operands_of_low e, BitVec.extractLsb'_append_eq_of_le, BitVec.extractLsb'_append_eq_of_add_le,
      BitVec.extractLsb'_eq_self, Nat.reduceSub, Nat.sub_self, countField, countBits, vcBits, ↓reduceIte, BitVec.reduceEq]

theorem parse_crossing_of_low (hs : i.streams.contains .crossing = true) : parse .crossing w = some i := by
  cases i
  all_goals cases hs
  all_goals
    rw [parse, parseCrossing, opcode_of_low e]
    refine congrArg some ?_
    simp (disch := omega) only [operands_of_low e, BitVec.extractLsb'_append_eq_of_le, BitVec.extractLsb'_append_eq_of_add_le,
      BitVec.extractLsb'_eq_self, Nat.reduceSub, ↓reduceIte, BitVec.reduceEq]

end

theorem parse_of_low {st : Stream} {i : Instr} {w : Word} (hi : i.wf st = true) (e : fld w 0 45 = fld (encode i) 0 45) :
    parse st w = some i := by
  obtain ⟨listed, ok⟩ := Bool.and_eq_true_iff.mp hi
  cases st with
  | helm => exact parse_helm_of_low e ok listed
  | vector => exact parse_vector_of_low e listed
  | matrix => exact parse_matrix_of_low e ok listed
  | copy => exact parse_copy_of_low e listed
  | crossing => exact parse_crossing_of_low e listed

end Sys2Proof
end

section
/-! PROOF. What a map's rows name, and what the decoder checks of a word (03 R68, R69, R87-R93, 00 R9; O54, O55). -/

namespace Sys2Proof

/-! ## The rows of the maps -/

/-- The instruction has the opcode of the word, and the stream's map lists it. -/
def Instr.NamedBy (i : Instr) (st : Stream) (w : Word) : Prop := fld (encode i) 37 8 = fld w 37 8 ∧ i.streams.contains st = true

theorem Instr.namedBy_of_row {i : Instr} {st : Stream} {w : Word} {op : BitVec 8} {x : BitVec 37} (hi : encode i = enc op x)
    (listed : i.streams.contains st = true) (row : (fld w 37 8).toNat = op.toNat) : i.NamedBy st w :=
  ⟨by rw [hi, fld_enc_opcode, BitVec.eq_of_toNat_eq row], listed⟩

section
variable {w : Word} {i : Instr}

theorem parseHelm_namedBy (h : parseHelm w = some i) : i.NamedBy .helm w := by
  unfold parseHelm at h
  repeat' split at h
  all_goals cases h
  all_goals exact Instr.namedBy_of_row rfl rfl ‹_›

theorem parseVectorOnly_namedBy (h : parseVectorOnly w = some i) : i.NamedBy .vector w := by
  unfold parseVectorOnly at h
  split at h
  all_goals cases h
  all_goals exact Instr.namedBy_of_row rfl rfl ‹_›

theorem parseMatrixOnly_namedBy (h : parseMatrixOnly w = some i) : i.NamedBy .matrix w := by
  unfold parseMatrixOnly at h
  repeat' split at h
  all_goals cases h
  all_goals exact Instr.namedBy_of_row rfl rfl ‹_›

theorem parseCopyOnly_namedBy (h : parseCopyOnly w = some i) : i.NamedBy .copy w := by
  unfold parseCopyOnly at h
  split at h
  all_goals cases h
  all_goals exact Instr.namedBy_of_row rfl rfl ‹_›

theorem parseCrossing_namedBy (h : parseCrossing w = some i) : i.NamedBy .crossing w := by
  unfold parseCrossing at h
  repeat' split at h
  all_goals cases h
  all_goals exact Instr.namedBy_of_row rfl rfl ‹_›

/-- The stream-control rows are those of every engine stream, but RETIRE of the matrix stream alone and FMTLD not of the copy stream (R92). -/
theorem parseControl_namedBy {st : Stream} (h : parseControl w = some i) (engine : st = .vector ∨ st = .matrix ∨ st = .copy)
    (retire : fld w 37 8 = 0xF7#8 → st = .matrix) (fmtld : fld w 37 8 = 0xF4#8 → st ≠ .copy) : i.NamedBy st w := by
  unfold parseControl at h
  repeat' split at h
  all_goals cases h
  all_goals refine Instr.namedBy_of_row rfl ?_ ‹_›
  case h_6 row =>
    obtain rfl | rfl | rfl := engine
    · rfl
    · rfl
    · exact absurd rfl (fmtld (BitVec.eq_of_toNat_eq row))
  case h_9 row =>
    rw [retire (BitVec.eq_of_toNat_eq row)]
    rfl
  all_goals obtain rfl | rfl | rfl := engine <;> rfl

theorem parse_namedBy {st : Stream} (h : parse st w = some i) : i.NamedBy st w := by
  cases st with
  | helm => exact parseHelm_namedBy h
  | vector =>
    obtain ⟨notRetire, h⟩ := Option.ite_none_left_eq_some.mp h
    obtain h | ⟨-, h⟩ := Option.or_eq_some_iff.mp h
    · exact parseVectorOnly_namedBy h
    · exact parseControl_namedBy h (by simp) (absurd · notRetire) (by simp)
  | matrix =>
    obtain h | ⟨-, h⟩ := Option.or_eq_some_iff.mp h
    · exact parseMatrixOnly_namedBy h
    · exact parseControl_namedBy h (by simp) (by simp) (by simp)
  | copy =>
    obtain ⟨neither, h⟩ := Option.ite_none_left_eq_some.mp h
    obtain h | ⟨-, h⟩ := Option.or_eq_some_iff.mp h
    · exact parseCopyOnly_namedBy h
    · exact parseControl_namedBy h (by simp) (fun op => absurd (.inl op) neither) (fun op => absurd (.inr op) neither)
  | crossing => exact parseCrossing_namedBy h

end

/-! ## The decoder's checks -/

/-- R68 allows the guard in the stream. -/
def Decoded.GuardOk (d : Decoded) (st : Stream) : Prop := d.gm ≠ 3 ∧ (d.gm = 0 → d.gp = 0) ∧ (st = .crossing → d.gm = 0)

theorem error_ite_eq_ok {c : Prop} [Decidable c] {r : DecodeError} {x : Except DecodeError Decoded} {d : Decoded} :
    (if c then .error r else x) = .ok d ↔ ¬ c ∧ x = .ok d := by
  split <;> simp [*]

/-- A word decodes to an instruction that its opcode names, whose operand bits are all of the word's, with the word's IDLE and guard. -/
theorem decode_eq_ok_iff {st : Stream} {w : Word} {d : Decoded} : decode st w = .ok d ↔
    parse st w = some d.instr ∧ fld (encode d.instr) 0 37 = fld w 0 37 ∧ d.instr.operandsOk = true ∧ d.GuardOk st ∧
      d.idle = fld w 54 10 ∧ d.gm = fld w 52 2 ∧ d.gp = fld w 45 7 := by
  obtain ⟨idle, gm, gp, j⟩ := d
  unfold decode
  cases parse st w with
  | none => simp
  | some i =>
    simp only [error_ite_eq_ok, Decoded.GuardOk, Except.ok.injEq, Option.some.injEq, Decoded.mk.injEq, not_and, not_not, Bool.not_eq_false]
    constructor
    · rintro ⟨operands, ok, mode, always, crossing, rfl, rfl, rfl, rfl⟩
      exact ⟨rfl, operands, ok, ⟨mode, always, crossing⟩, rfl, rfl, rfl⟩
    · rintro ⟨rfl, operands, ok, ⟨mode, always, crossing⟩, rfl, rfl, rfl⟩
      exact ⟨operands, ok, mode, always, crossing, rfl, rfl, rfl, rfl⟩

end Sys2Proof
end

section
/-! PROOF. Decoding and encoding undo each other (O54, O55), words that the spec writes out (O56), and what reset leaves (O58). -/

namespace Sys2Proof.Machine

/-! ## Words -/

/-- Settles O54: the word's low bits are those of the instruction's own word, so that they read back, and its other fields are the ones given. -/
theorem decodeEncode : Obligations.DecodeEncode := by
  unfold Obligations.DecodeEncode
  intro st d wf mode always crossing
  obtain ⟨idle, gm, gp, low⟩ := fields_append d.idle d.gm d.gp (fld (encode d.instr) 0 45)
  obtain ⟨-, ok⟩ := Bool.and_eq_true_iff.mp wf
  have operands := fld_eq_of_low (lo := 0) (n := 37) low (by omega)
  exact decode_eq_ok_iff.mpr ⟨parse_of_low wf low, operands.symm, ok, ⟨mode, always, crossing⟩, idle.symm, gm.symm, gp.symm⟩

/-- Settles O55: the row of a map gives its own opcode back, the decoder has compared the operand bits, and it takes the rest from the word. -/
theorem encodeDecode : Obligations.EncodeDecode := by
  unfold Obligations.EncodeDecode
  intro st w d decoded
  obtain ⟨parsed, operands, ok, guard, idle, gm, gp⟩ := decode_eq_ok_iff.mp decoded
  obtain ⟨opcode, listed⟩ := parse_namedBy parsed
  refine ⟨?_, Bool.and_eq_true_iff.mpr ⟨listed, ok⟩, guard⟩
  calc encodeDecoded d = fld w 54 10 ++ fld w 52 2 ++ fld w 45 7 ++ fld (encode d.instr) 0 45 := by rw [encodeDecoded, idle, gm, gp]
    _ = fld w 54 10 ++ fld w 52 2 ++ fld w 45 7 ++ fld w 0 45 := by
      rw [← opcode_append_operands, opcode, operands, opcode_append_operands]
    _ = w := append_fields w

/-- Settles O56, word by word: each is a closed computation of the decoder. -/
theorem specWordsDecode : Obligations.SpecWordsDecode := by
  unfold Obligations.SpecWordsDecode
  and_intros
  all_goals decide

/-! ## Reset -/

@[simp] theorem vAt_replicate {α : Type} {k : Nat} (x : α) (i : Nat) : vAt (Vector.replicate (k + 1) x) i = x := by
  simp [vAt]

@[simp] theorem vGet_replicate {α : Type} {n : Nat} (x : α) (r : BitVec n) : vGet r (Vector.replicate (2 ^ n) x) = x := by
  simp [vGet]

theorem State.reset_core (c : Nat) : State.reset.core c = {} := rfl
theorem State.reset_handle (h : Nat) : State.reset.handle h = {} := vAt_replicate _ h
theorem State.reset_landing (l : Nat) : State.reset.landing l = {} := vAt_replicate _ l
theorem State.reset_group (g : Nat) : State.reset.group g = {} := vAt_replicate _ g
theorem State.reset_stack (i : Nat) : State.reset.stack i = {} := vAt_replicate _ i

theorem State.reset_storesOk : State.reset.storesOk := ⟨rfl, rfl, fun _ h => absurd h List.not_mem_nil⟩

theorem Core.hardwired_default : Core.hardwired {} := ⟨rfl, rfl, rfl, rfl⟩

/-- Settles O58: every core, handle, landing, group and stack of the package is as its type's defaults have it. -/
theorem resetState : Obligations.ResetState := by
  unfold Obligations.ResetState
  intro s
  refine ⟨State.reset_storesOk, fun _ => Core.hardwired_default, fun _ => rfl, rfl, rfl, rfl, rfl, rfl, rfl, fun h => ?_, fun l => ?_,
    fun g => congrArg Group.valid (State.reset_group g), fun i => ?_, fun c => ?_⟩
  · rw [State.reset_handle]
    exact ⟨rfl, rfl⟩
  · rw [State.reset_landing]
    exact ⟨rfl, rfl⟩
  · rw [State.reset_stack]
    exact ⟨rfl, rfl, rfl⟩
  · rw [State.reset_core]
    exact ⟨vGet_replicate 0, vGet_replicate 0, vGet_replicate false, vGet_replicate false, vGet_replicate false, rfl, rfl, rfl, rfl, rfl, rfl,
      rfl⟩

end Sys2Proof.Machine
end

section
/-! PROOF. CSRR and CSRW on a launch core (03 R85, R86, 05 R161, 12 R377, R378, 13 R395; O14). -/

namespace Sys2Proof.Machine

/-! ## A word by its outcome -/

theorem Traps.of_fault {i : Instr} {s : State} {code : Nat} (hx : s.cur.st ≠ .crossing) (hi : exec i s = .next (s.fault code)) :
    Traps i s code := by
  obtain ⟨-, others, me⟩ := State.fault_frame hx code
  rw [State.fault, State.faultWith_of_core hx] at hi others me
  exact ⟨_, hi, ⟨rfl, others⟩, me⟩

theorem Gives.of_write {i : Instr} {s : State} {e : Eff} (hx : s.cur.st ≠ .crossing) (hi : exec i s = .next (s.write 1 [e])) :
    Gives i s [(1, e)] :=
  ⟨_, hi, s.issued_write 1 [e] hx⟩

/-- A helm word that changes fields of its core in which no stream has a part. -/
theorem Becomes.of_modMe {i : Instr} {s : State} {f : Core → Core} (hst : s.cur.st = .helm) (hi : exec i s = .next (s.modMe f).advance)
    (same : s.SameStreams (s.modMe f)) (comm : ∀ c x p, { f c with helm := x, helmSt := p } = f { c with helm := x, helmSt := p }) :
    Becomes i s f := by
  have advanced := same.advance (by simp [hst])
  refine ⟨_, hi, ?_, ?_⟩
  · rw [advanced]
    exact (State.Alone.modMe' s f).modMe rfl _
  · rw [advanced, State.me_modMe, State.me_modMe, State.passCore, hst]
    exact comm _ _ _

/-! ## The checks of a number (03 R86, 12 R377, R378) -/

theorem lt_of_mem_assignedCsrs {n : Nat} (h : n ∈ assignedCsrs) : n < 0x800 := by
  revert n
  decide

theorem mem_assignedCsrs_of_writable {n : Nat} (h : n ∈ writableCsrs) : n ∈ assignedCsrs := by
  revert n
  decide

theorem mem_writableCsrs_of_isTrw {n : Nat} (h : isTrw n = true) : n ∈ writableCsrs := by
  obtain ⟨lo, hi⟩ := of_decide_eq_true h
  interval_cases n <;> decide

theorem isTrw_of_lt {j : Nat} (h : j < 8) : isTrw (0x050 + j) = true := by
  simp only [isTrw, decide_eq_true_eq]
  omega

section
variable {s : State} {n : Nat} {write : Bool}

theorem State.csrAccess_of_purser (hp : isPurser s.cur.core = false) (hn : 0x800 ≤ n) : s.csrAccess n write = .fault (cause0 .helm privC) := by
  simp [State.csrAccess, hn, hp]

theorem State.csrAccess_of_unassigned (hn : n < 0x800) (ha : n ∉ assignedCsrs) : s.csrAccess n write = .fault (cause0 .helm rangeC) := by
  simp [State.csrAccess, Nat.not_le.mpr hn, ha]

theorem State.csrAccess_of_trw (ht : isTrw n = true) (hh : s.me.handler = none) : s.csrAccess n write = .fault (cause0 .helm privC) := by
  have ha := mem_assignedCsrs_of_writable (mem_writableCsrs_of_isTrw ht)
  simp [State.csrAccess, Nat.not_le.mpr (lt_of_mem_assignedCsrs ha), ha, ht, hh]

theorem State.csrAccess_of_readOnly (ha : n ∈ assignedCsrs) (hw : n ∉ writableCsrs) : s.csrAccess n true = .fault (cause0 .helm privC) := by
  have ht : isTrw n = false := by simpa using mt mem_writableCsrs_of_isTrw hw
  simp [State.csrAccess, Nat.not_le.mpr (lt_of_mem_assignedCsrs ha), ha, ht, hw]

theorem State.csrAccess_ok (ha : n ∈ assignedCsrs) (hh : isTrw n = true → s.me.handler ≠ none) (hw : write = true → n ∈ writableCsrs) :
    s.csrAccess n write = .ok := by
  have trw : ¬ (isTrw n = true ∧ s.me.handler = none) := fun h => hh h.1 h.2
  have readOnly : ¬ (write = true ∧ n ∉ writableCsrs) := fun h => h.2 (hw h.1)
  simp [State.csrAccess, Nat.not_le.mpr (lt_of_mem_assignedCsrs ha), ha, trw, readOnly]

theorem State.csrAccess_write (hw : n ∈ writableCsrs) (hh : isTrw n = true → s.me.handler ≠ none) : s.csrAccess n true = .ok :=
  State.csrAccess_ok (mem_assignedCsrs_of_writable hw) hh fun _ => hw

end

/-! ## CSRR: the values (03 R85) -/

theorem State.csr_chst (s : State) {j : Nat} (h : j < 4) : s.csr (0x020 + j) = BitVec.ofNat 64 (s.me.chst[j]'h) := by
  interval_cases j <;> rfl

theorem State.csr_chIssued (s : State) {j : Nat} (h : j < 4) : s.csr (0x024 + j) = BitVec.ofNat 64 (s.me.chIssued[j]'h) := by
  interval_cases j <;> rfl

theorem State.csr_trw (s : State) {j : Nat} (h : j < 8) :
    s.csr (0x050 + j) = BitVec.ofNat 64 (memRead s.me.ls (s.me.trec.toNat + 8 * j) 8) := by
  interval_cases j <;> rfl

theorem State.csr_seed (s : State) : s.csr 0x010 = BitVec.ofNat 64 s.me.seed.toNat := by simp [State.csr]

theorem State.csr_tvec (s : State) : s.csr 0x030 = BitVec.ofNat 64 s.me.tvec.toNat := by simp [State.csr]

theorem State.csr_tcause (s : State) : s.csr 0x031 = BitVec.ofNat 64 s.me.tcause.toNat := by simp [State.csr, BitVec.ofNat_toNat]

theorem State.csr_trec (s : State) : s.csr 0x032 = BitVec.ofNat 64 s.me.trec.toNat := by simp [State.csr, BitVec.ofNat_toNat]

theorem State.csr_coreid {s : State} (h : isPurser s.cur.core = false) :
    s.csr 0x040 = BitVec.ofNat 64 (coreX s.cur.core + 2 ^ 8 * (coreY s.cur.core % 32) + 2 ^ 16 * tileOf s.cur.core) := by
  have place : placeBits s.cur.core = coreX s.cur.core + 2 ^ 8 * (coreY s.cur.core % 32) := by simp [placeBits, h]
  rw [← place]
  rfl

section
variable {s : State} {l : Launch} (hl : s.launchOf s.cur.core = some l)
include hl

theorem State.csr_cid : s.csr 0x041 = BitVec.ofNat 64 l.cid := by simp [State.csr, hl]

theorem State.csr_ctx : s.csr 0x042 = BitVec.ofNat 64 l.ctx := by simp [State.csr, State.ctxOf, hl]

theorem State.csr_mode : s.csr 0x043 = BitVec.ofNat 64 ((if l.timed then 1 else 0) + if l.elastic then 2 else 0) := by
  simp [State.csr, State.modeOf, hl]

end

/-! ## CSRR: the word (05 R161) -/

section
variable {s : State} {rd : SReg} {csr : BitVec 12} (hst : s.cur.st = .helm)
include hst

theorem csrr_traps {code : Nat} (h : s.csrAccess csr.toNat false = .fault code) : Traps (.csrr rd csr) s code := by
  refine .of_fault (by simp [hst]) ?_
  rw [exec, execCsrr, h]
  rfl

theorem csrr_gives {k v : Nat} (hv : s.csr k = BitVec.ofNat 64 v) (ha : k ∈ assignedCsrs) (hh : isTrw k = true → s.me.handler ≠ none)
    (hk : csr.toNat = k) : Gives (.csrr rd csr) s [(1, .s rd (BitVec.ofNat 64 v))] := by
  have below := lt_of_mem_assignedCsrs ha
  refine .of_write (by simp [hst]) ?_
  simp only [exec, execCsrr, hk, State.csrAccess_ok (write := false) ha hh nofun, show k ≠ 0x816 by omega, ← hv]
  rw [State.perform_ok (by simp), if_neg (by omega), if_neg (by omega)]

end

/-! ## CSRW (05 R161, 12 R378, 13 R395) -/

/-- What a write raises on a purser concerns numbers of the pursers alone. -/
theorem State.csrwFault_of_launchCore (s : State) {n : Nat} (h : n < 0x800) (v : Word) : s.csrwFault n v = none := by
  have readsNoRecord : s.recordBad (tileOf s.cur.core) n v = none := by
    unfold State.recordBad
    split
    · omega
    · omega
    · rfl
  unfold State.csrwFault
  split
  · omega
  · omega
  · omega
  · exact readsNoRecord

section
variable {s : State} {csr : BitVec 12} {ra : SReg} (hst : s.cur.st = .helm)
include hst

theorem csrw_refused {code : Nat} (h : s.csrAccess csr.toNat true = .fault code) : Traps (.csrw csr ra) s code := by
  refine .of_fault (by simp [hst]) ?_
  rw [exec, execCsrw, h]
  rfl

theorem csrw_seed (hn : csr.toNat = 0x010) (hp : s.me.inPhase = false) : Gives (.csrw csr ra) s [(1, .seed (s.sr ra))] := by
  have access : s.csrAccess 0x010 true = .ok := State.csrAccess_write (by decide) nofun
  refine .of_write (by simp [hst]) ?_
  simp [exec, execCsrw, hn, access, s.csrwFault_of_launchCore, State.noPhase, hp, State.perform]

theorem csrw_seed_of_inPhase (hn : csr.toNat = 0x010) (hp : s.me.inPhase = true) : Traps (.csrw csr ra) s (cause 0 0 2) := by
  have access : s.csrAccess 0x010 true = .ok := State.csrAccess_write (by decide) nofun
  refine .of_fault (by simp [hst]) ?_
  simp [exec, execCsrw, hn, access, State.noPhase, hp, hst]
  rfl

theorem csrw_tvec (hn : csr.toNat = 0x030) (aligned : (s.sr ra).toNat % 8 = 0) :
    Becomes (.csrw csr ra) s fun c => { c with tvec := s.sr ra } := by
  have access : s.csrAccess 0x030 true = .ok := State.csrAccess_write (by decide) nofun
  refine .of_modMe hst ?_ ⟨rfl, fun st => ?_, ?_, ?_, ?_, ?_⟩ fun _ _ _ => rfl
  · simp [exec, execCsrw, hn, access, aligned, s.csrwFault_of_launchCore, State.perform]
  all_goals simp [State.me_modMe, Core.stream]

theorem csrw_trec (hn : csr.toNat = 0x032) (aligned : (s.sr ra).toNat % 64 = 0) :
    Becomes (.csrw csr ra) s fun c => { c with trec := (s.sr ra).setWidth 22 } := by
  have access : s.csrAccess 0x032 true = .ok := State.csrAccess_write (by decide) nofun
  refine .of_modMe hst ?_ ⟨rfl, fun st => ?_, ?_, ?_, ?_, ?_⟩ fun _ _ _ => rfl
  · simp [exec, execCsrw, hn, access, aligned, s.csrwFault_of_launchCore, State.perform]
  all_goals simp [State.me_modMe, Core.stream]

theorem csrw_misaligned (h : csr.toNat = 0x030 ∧ (s.sr ra).toNat % 8 ≠ 0 ∨ csr.toNat = 0x032 ∧ (s.sr ra).toNat % 64 ≠ 0) :
    Traps (.csrw csr ra) s (cause 0 0 3) := by
  refine .of_fault (by simp [hst]) ?_
  obtain ⟨hn, odd⟩ | ⟨hn, odd⟩ := h
  · have access : s.csrAccess 0x030 true = .ok := State.csrAccess_write (by decide) nofun
    simp [exec, execCsrw, hn, access, odd, hst]
    rfl
  · have access : s.csrAccess 0x032 true = .ok := State.csrAccess_write (by decide) nofun
    simp [exec, execCsrw, hn, access, odd, hst]
    rfl

theorem csrw_trw {j : Nat} (hj : j < 8) (hn : csr.toNat = 0x050 + j) (hh : s.me.handler ≠ none) :
    Gives (.csrw csr ra) s [(1, .bytes (s.me.trec.toNat + 8 * j) (toBytes 8 (s.sr ra).toNat))] := by
  have access : s.csrAccess (0x050 + j) true = .ok := State.csrAccess_write (mem_writableCsrs_of_isTrw (isTrw_of_lt hj)) fun _ => hh
  have below : 0x050 + j < 0x800 := by omega
  refine .of_write (by simp [hst]) ?_
  simp only [exec, execCsrw, hn, access, s.csrwFault_of_launchCore below]
  rw [State.perform_ok (by simp; omega), if_neg (by omega), if_neg (by omega), if_neg (by omega), if_neg (by omega), Nat.add_sub_cancel_left]

end

/-- Settles O14, from the checks of a number and the value or the effect of each number that passes them. -/
theorem csrWords : Obligations.CsrWords := by
  unfold Obligations.CsrWords
  constructor
  · intro s l rd csr hst hp hl c n at_ gives
    have reads {k v : Nat} (hv : s.csr k = BitVec.ofNat 64 v) (ha : k ∈ assignedCsrs) (ht : isTrw k = false) : gives k v :=
      csrr_gives hst hv ha (by simp [ht])
    refine ⟨reads rfl (by decide) rfl, reads rfl (by decide) rfl, reads rfl (by decide) rfl, reads s.csr_seed (by decide) rfl,
      fun j hj => ⟨reads (s.csr_chst hj) ?_ ?_, reads (s.csr_chIssued hj) ?_ ?_⟩,
      reads s.csr_tvec (by decide) rfl, reads s.csr_tcause (by decide) rfl, reads s.csr_trec (by decide) rfl,
      reads (State.csr_coreid hp) (by decide) rfl, reads (State.csr_cid hl) (by decide) rfl, reads (State.csr_ctx hl) (by decide) rfl,
      reads (State.csr_mode hl) (by decide) rfl, fun j hj => ⟨fun hh => ?_, fun hh hn => ?_⟩,
      fun hn ha => csrr_traps hst (State.csrAccess_of_unassigned hn ha), fun hn => csrr_traps hst (State.csrAccess_of_purser hp hn)⟩
    iterate 4 interval_cases j <;> decide
    · exact csrr_gives hst (s.csr_trw hj) (mem_assignedCsrs_of_writable (mem_writableCsrs_of_isTrw (isTrw_of_lt hj))) fun _ => hh
    · exact csrr_traps hst (State.csrAccess_of_trw ((congrArg isTrw hn).trans (isTrw_of_lt hj)) hh)
  · intro s ra csr hst hp n v w
    refine ⟨fun hn => ⟨csrw_seed hst hn, csrw_seed_of_inPhase hst hn⟩,
      fun hn => ⟨csrw_tvec hst hn, fun odd => csrw_misaligned hst (.inl ⟨hn, odd⟩)⟩,
      fun hn => ⟨csrw_trec hst hn, fun odd => csrw_misaligned hst (.inr ⟨hn, odd⟩)⟩,
      fun j hj hn => ⟨csrw_trw hst hj hn, fun hh => csrw_refused hst ?_⟩,
      fun hn ha => csrw_refused hst (State.csrAccess_of_unassigned hn ha),
      fun ha hw => csrw_refused hst (State.csrAccess_of_readOnly ha hw), fun hn => csrw_refused hst (State.csrAccess_of_purser hp hn)⟩
    exact State.csrAccess_of_trw ((congrArg isTrw hn).trans (isTrw_of_lt hj)) hh

end Sys2Proof.Machine
end

section
/-! PROOF. RoundTo on the values that a format holds (04 R101, R103, R113; O30). -/

namespace Sys2Proof.Machine

/-! ## Rounding to a multiple of the last place (04 R113) -/

@[simp] theorem roundsUp_zero (mode : RMode) (neg : Bool) (q sh : Nat) : roundsUp mode neg q 0 sh false = false := rfl

@[simp] theorem roundsUp_rtz (neg : Bool) (q rem sh : Nat) : roundsUp .rtz neg q rem sh false = false := by
  simp [roundsUp]

theorem roundsUp_rup {rem : Nat} (neg : Bool) (q sh : Nat) (pos : 0 < rem) : roundsUp .rup neg q rem sh false = !neg := by
  simp [roundsUp, pos.ne']

theorem roundsUp_rdn {rem : Nat} (neg : Bool) (q sh : Nat) (pos : 0 < rem) : roundsUp .rdn neg q rem sh false = neg := by
  simp [roundsUp, pos.ne']

/-- RNE moves a magnitude up when it lies past the middle, and at the middle when the multiple below is odd. -/
theorem roundsUp_rne_iff {neg : Bool} {q rem sh : Nat} :
    roundsUp .rne neg q rem sh false = true ↔ 2 ^ sh < 2 * rem ∨ 2 * rem = 2 ^ sh ∧ q % 2 = 1 := by
  have pos : 0 < 2 ^ sh := Nat.two_pow_pos sh
  by_cases hr : rem = 0
  · simp [hr, pos.ne]
  · simp [roundsUp, hr]

@[simp] theorem roundUnit_self (mode : RMode) (neg : Bool) (m : Nat) (e : Int) : roundUnit mode neg m e e false = m := by
  simp [roundUnit]

/-- What `roundUnit` compares: the whole multiples of the last place in the magnitude, and the part of one, in units of `2 ^ sh`, that is left over. -/
theorem roundUnit_eq {m q : Nat} {e u : Int} {x : Rat} (hx : x = m * 2 ^ (e - u)) (low : (q : Rat) ≤ x) (high : x < q + 1) :
    ∃ rem sh : Nat, x - q = (rem : Rat) / 2 ^ sh ∧
      ∀ mode neg, roundUnit mode neg m e u false = if roundsUp mode neg q rem sh false then q + 1 else q := by
  rcases le_or_gt u e with h | h
  · obtain ⟨d, hd⟩ := Int.eq_ofNat_of_zero_le (sub_nonneg.mpr h)
    have whole : x = (m * 2 ^ d : Nat) := by rw [hx, hd]; push_cast; norm_cast
    have hq : q = m * 2 ^ d := by
      rw [whole] at low high
      have := Nat.cast_le.mp low
      have : m * 2 ^ d < q + 1 := by exact_mod_cast high
      omega
    exact ⟨0, 0, by simp [whole, hq], fun mode neg => by simp [roundUnit, h, hd, hq]⟩
  · obtain ⟨d, hd⟩ := Int.eq_ofNat_of_zero_le (sub_nonneg.mpr h.le)
    have part : x = (m : Rat) / (2 ^ d : Nat) := by
      rw [hx, show e - u = -(d : Int) by omega, zpow_neg, zpow_natCast]; push_cast; rfl
    have hq : m / 2 ^ d = q := by
      rw [← Nat.floor_div_eq_div (K := Rat), ← part]
      exact (Nat.floor_eq_iff (le_trans q.cast_nonneg low)).mpr ⟨low, high⟩
    have split : (m : Rat) = q * 2 ^ d + (m % 2 ^ d : Nat) := by
      have := Nat.div_add_mod' m (2 ^ d)
      rw [hq] at this
      exact_mod_cast this.symm
    refine ⟨m % 2 ^ d, d, ?_, fun mode neg => ?_⟩
    · rw [part, split]; push_cast; field_simp; ring
    · simp [roundUnit, not_le.mpr h, hd, hq]

/-- 04 R113 for each mode, of a magnitude between the multiples `q` and `q + 1` of the last place. -/
theorem roundUnit_lands {neg : Bool} {m q : Nat} {e u : Int} {x : Rat} (hx : x = m * 2 ^ (e - u)) (low : (q : Rat) ≤ x) (high : x < q + 1) :
    let at_ := fun (mode : RMode) => roundUnit mode neg m e u false
    ((q : Rat) = x → ∀ mode, at_ mode = q) ∧ at_ .rtz = q ∧
      ((q : Rat) < x → at_ .rup = (if neg then q else q + 1) ∧ at_ .rdn = (if neg then q + 1 else q)) ∧
      (x - q < 1 / 2 → at_ .rne = q) ∧ (1 / 2 < x - q → at_ .rne = q + 1) ∧
      (x - q = 1 / 2 → at_ .rne % 2 = 0 ∧ (at_ .rne = q ∨ at_ .rne = q + 1)) := by
  obtain ⟨rem, sh, left, lands⟩ := roundUnit_eq hx low high
  have pos : (0 : Rat) < 2 ^ sh := by positivity
  have below : x - q < 1 / 2 ↔ 2 * rem < 2 ^ sh := by
    rw [left, div_lt_div_iff₀ pos two_pos, ← Nat.cast_lt (α := Rat)]; push_cast; constructor <;> intro h <;> linarith
  have above : 1 / 2 < x - q ↔ 2 ^ sh < 2 * rem := by
    rw [left, div_lt_div_iff₀ two_pos pos, ← Nat.cast_lt (α := Rat)]; push_cast; constructor <;> intro h <;> linarith
  have middle : x - q = 1 / 2 ↔ 2 * rem = 2 ^ sh := by
    rw [left, div_eq_div_iff pos.ne' two_ne_zero, ← Nat.cast_inj (R := Rat)]; push_cast; constructor <;> intro h <;> linarith
  simp only [lands, roundsUp_rtz, roundsUp_rne_iff, below, above, middle]
  refine ⟨fun whole mode => ?_, by simp, fun more => ?_, fun h => ?_, fun h => ?_, fun h => ?_⟩
  · have : rem = 0 := by simpa [← whole] using left.symm
    simp [this]
  · have : 0 < rem := by
      rcases Nat.eq_zero_or_pos rem with rfl | h
      · simp at left; linarith
      · exact h
    rw [roundsUp_rup _ _ _ this, roundsUp_rdn _ _ _ this]
    cases neg <;> simp
  · rw [if_neg (by omega)]
  · rw [if_pos (.inl h)]
  · split <;> omega

/-! ## The encoding of a value that a format holds (04 R101, R103) -/

/-- What the signed formats that an instruction rounds to have in common: the largest finite value is that of the largest code below the infinities
and NaNs, and has a full mantissa. -/
structure FFmt.Regular (f : FFmt) : Prop where
  signed : f.signed = true
  full : 2 ^ f.man ≤ f.maxM
  low : 1 - (f.bias : Int) - f.man ≤ f.maxE
  top : ∀ E m : Nat, E < 2 ^ f.ebits → m < 2 ^ f.man → ¬ (f.hasInf ∧ E = 2 ^ f.ebits - 1) → ¬ (f.man = 3 ∧ f.ebits = 4 ∧ E = 15 ∧ m = 7) →
    (E : Int) - f.bias - f.man < f.maxE ∨ (E : Int) - f.bias - f.man = f.maxE ∧ 2 ^ f.man + m ≤ f.maxM

theorem FFmt.regular_of_mem {f : FFmt} (h : f ∈ [fp32F, fp64F, bf16F, fp16F, e4m3F, e5m2F]) : f.Regular := by
  simp only [List.mem_cons, List.not_mem_nil, or_false] at h
  rcases h with rfl | rfl | rfl | rfl | rfl | rfl <;>
    exact ⟨rfl, by decide, by decide, by simp [fp32F, fp64F, bf16F, fp16F, e4m3F, e5m2F]; omega⟩

section

variable {f : FFmt}

theorem FFmt.unit_of_normal {m : Nat} {e : Int} (hm : m < 2 ^ f.man) (he : 1 - (f.bias : Int) - f.man ≤ e) : f.unit (2 ^ f.man + m) e = e := by
  have log : Nat.log2 (2 ^ f.man + m) = f.man :=
    (Nat.log2_eq_iff (by positivity)).mpr ⟨Nat.le_add_right _ _, by rw [pow_succ]; omega⟩
  rw [FFmt.unit, if_neg (by positivity), log]
  omega

theorem FFmt.unit_of_subnormal {m : Nat} (hm : m < 2 ^ f.man) : f.unit m (1 - (f.bias : Int) - f.man) = 1 - (f.bias : Int) - f.man := by
  rw [FFmt.unit]
  split
  · rfl
  · next h =>
    have := (Nat.log2_lt h).mpr hm
    exact max_eq_left (by omega)

theorem FFmt.Regular.not_tooBig (hf : f.Regular) {q : Nat} {u : Int} (hq : u < f.maxE ∧ q < 2 ^ (f.man + 1) ∨ u = f.maxE ∧ q ≤ f.maxM) :
    f.tooBig q u = false := by
  rcases hq with ⟨hu, hq⟩ | ⟨rfl, hq⟩
  · obtain ⟨d, hd⟩ : ∃ d : Nat, (f.maxE - u).toNat = d + 1 := ⟨(f.maxE - u).toNat - 1, by omega⟩
    have room : 2 ^ (f.man + 1) ≤ f.maxM * 2 ^ (d + 1) := by
      calc 2 ^ (f.man + 1) = 2 ^ f.man * 2 ^ 1 := pow_succ ..
        _ ≤ f.maxM * 2 ^ (d + 1) := Nat.mul_le_mul hf.full (Nat.pow_le_pow_right two_pos (by omega))
    rw [FFmt.tooBig, if_neg (by omega), hd]
    exact decide_eq_false (by omega)
  · simpa [FFmt.tooBig] using hq

theorem FFmt.pack_of_subnormal {q : Nat} (neg : Bool) (u : Int) (hq : q < 2 ^ f.man) : f.pack neg q u = f.sign neg + q := by
  have : q ≠ 2 ^ (f.man + 1) := by rw [pow_succ]; omega
  simp [FFmt.pack, this, hq]

theorem FFmt.pack_of_normal {E m : Nat} (neg : Bool) (hm : m < 2 ^ f.man) :
    f.pack neg (2 ^ f.man + m) ((E : Int) - f.bias - f.man) = f.sign neg + (E * 2 ^ f.man + m) := by
  have : 2 ^ f.man + m ≠ 2 ^ (f.man + 1) := by rw [pow_succ]; omega
  simp [FFmt.pack, this]

/-- A multiple of its own last place that is not too large keeps its value in every mode. -/
theorem FFmt.round_of_unit {m : Nat} {e : Int} (mode : RMode) (sat neg : Bool) (hu : f.unit m e = e) (hm : f.tooBig m e = false) :
    f.round mode sat (.fin neg m e false) = f.pack neg m e := by
  simp [FFmt.round, hu, hm]

/-- An encoding is its sign, exponent and mantissa fields. -/
theorem fields_eq {man ebits b : Nat} (hb : b < 2 ^ (1 + ebits + man)) :
    (if b.testBit (man + ebits) then 2 ^ (man + ebits) else 0) + ((b >>> man) % 2 ^ ebits * 2 ^ man + b % 2 ^ man) = b := by
  have top : b / 2 ^ man / 2 ^ ebits < 2 := by
    rw [Nat.div_div_eq_div_mul, ← pow_add]
    exact Nat.div_lt_of_lt_mul (by rwa [← pow_succ, show man + ebits + 1 = 1 + ebits + man by omega])
  have sign : (if b.testBit (man + ebits) then 2 ^ (man + ebits) else 0) = b / 2 ^ man / 2 ^ ebits * (2 ^ man * 2 ^ ebits) := by
    rw [Nat.testBit_eq_decide_div_mod_eq, pow_add, ← Nat.div_div_eq_div_mul, Nat.mod_eq_of_lt top]
    rcases Nat.lt_succ_iff.mp top |>.lt_or_eq with h | h
    · simp [Nat.lt_one_iff.mp h]
    · simp [h]
  have outer := Nat.div_add_mod' b (2 ^ man)
  have inner := Nat.div_add_mod' (b / 2 ^ man) (2 ^ ebits)
  rw [sign, Nat.shiftRight_eq_div_pow]
  calc _ = (b / 2 ^ man / 2 ^ ebits * 2 ^ ebits + b / 2 ^ man % 2 ^ ebits) * 2 ^ man + b % 2 ^ man := by ring
    _ = b := by rw [inner, outer]

theorem FFmt.Regular.fields (hf : f.Regular) {b : Nat} (hb : b < 2 ^ (1 + f.ebits + f.man)) :
    f.sign (f.signed && b.testBit (f.man + f.ebits)) + ((b >>> f.man) % 2 ^ f.ebits * 2 ^ f.man + b % 2 ^ f.man) = b := by
  simpa [FFmt.sign, hf.signed] using fields_eq hb

/-- The value of an encoding: a NaN, an infinity, or a finite value at its own last place in the format, which the encoding packs. -/
theorem FFmt.Regular.decode_cases (hf : f.Regular) {b : Nat} (hb : b < 2 ^ (1 + f.ebits + f.man)) :
    f.decode b = .nan ∨ (∃ neg, f.hasInf = true ∧ f.decode b = .inf neg ∧ f.inf neg = b) ∨
      ∃ neg m e, f.decode b = .fin neg m e false ∧ f.unit m e = e ∧ f.tooBig m e = false ∧ f.pack neg m e = b := by
  have code := hf.fields hb
  have hE : (b >>> f.man) % 2 ^ f.ebits < 2 ^ f.ebits := Nat.mod_lt _ (by positivity)
  have hm : b % 2 ^ f.man < 2 ^ f.man := Nat.mod_lt _ (by positivity)
  simp only [FFmt.decode]
  generalize (f.signed && b.testBit (f.man + f.ebits)) = neg at code ⊢
  generalize (b >>> f.man) % 2 ^ f.ebits = E at hE code ⊢
  generalize b % 2 ^ f.man = m at hm code ⊢
  by_cases special : f.hasInf ∧ E = 2 ^ f.ebits - 1
  · rw [if_pos special]
    split
    · next zero => exact .inr (.inl ⟨neg, special.1, rfl, by simpa [FFmt.inf, zero, special.2] using code⟩)
    · exact .inl rfl
  rw [if_neg special]
  by_cases nan : f.man = 3 ∧ f.ebits = 4 ∧ E = 15 ∧ m = 7
  · exact .inl (if_pos nan)
  rw [if_neg nan]
  have top := hf.top E m hE hm special nan
  have low := hf.low
  have full := hf.full
  refine .inr (.inr ?_)
  by_cases subnormal : E = 0
  · refine ⟨neg, m, _, if_pos subnormal, FFmt.unit_of_subnormal hm, hf.not_tooBig (by rw [pow_succ]; omega), ?_⟩
    rw [FFmt.pack_of_subnormal neg _ hm]
    simpa [subnormal] using code
  · refine ⟨neg, 2 ^ f.man + m, _, if_neg subnormal, FFmt.unit_of_normal hm (by omega), hf.not_tooBig (by rw [pow_succ]; omega), ?_⟩
    rw [FFmt.pack_of_normal neg hm, code]

/-- 04 R101, R103: rounding the value of an encoding gives the encoding back. -/
theorem FFmt.Regular.round_decode (hf : f.Regular) (mode : RMode) {b : Nat} (hb : b < 2 ^ (1 + f.ebits + f.man)) (real : f.decode b ≠ .nan) :
    f.round mode false (f.decode b) = b := by
  rcases hf.decode_cases hb with nan | ⟨neg, has, inf, code⟩ | ⟨neg, m, e, fin, unit, fits, code⟩
  · exact absurd nan real
  · simpa [inf, FFmt.round, has] using code
  · rw [fin, FFmt.round_of_unit mode false neg unit fits, code]

end

end Sys2Proof.Machine
end

section
/-! PROOF. The exact operations on values (04 R102, 06 R181; O30). -/

namespace Sys2Proof.Machine

/-! ## The number that a finite value is -/

/-- The number `(-1)^neg * m * 2^e`. -/
def finRat (neg : Bool) (m : Nat) (e : Int) : Rat := (if neg then -1 else 1) * m * 2 ^ e

theorem Num.rat_fin (neg : Bool) (m : Nat) (e : Int) (x : Bool) : (Num.fin neg m e x).rat = some (finRat neg m e) := rfl

theorem Num.rat_eq_some_iff {a : Num} {p : Rat} : a.rat = some p ↔ ∃ neg m e x, a = .fin neg m e x ∧ finRat neg m e = p := by
  cases a with
  | fin neg m e x => simp [Num.rat_fin]
  | nan => simp [Num.rat]
  | inf neg => simp [Num.rat]

theorem finRat_not (neg : Bool) (m : Nat) (e : Int) : finRat (!neg) m e = -finRat neg m e := by
  cases neg <;> simp [finRat]

theorem abs_finRat (neg : Bool) (m : Nat) (e : Int) : |finRat neg m e| = m * 2 ^ e := by
  have : (0 : Rat) ≤ m * 2 ^ e := by positivity
  cases neg <;> simp [finRat, abs_of_nonneg this, abs_neg]

theorem finRat_xor_mul (a b : Bool) (m n : Nat) (e f : Int) : finRat (a ^^ b) (m * n) (e + f) = finRat a m e * finRat b n f := by
  simp only [finRat, zpow_add₀ (two_ne_zero' Rat), Nat.cast_mul]
  cases a <;> cases b <;> simp <;> ring

theorem finRat_ne_zero {neg : Bool} {m : Nat} {e : Int} (h : finRat neg m e ≠ 0) : m ≠ 0 := by
  rintro rfl
  simp [finRat] at h

/-- A positive finite value has a positive sign. -/
theorem finRat_pos {neg : Bool} {m : Nat} {e : Int} (h : 0 < finRat neg m e) : neg = false ∧ finRat neg m e = m * 2 ^ e := by
  have : (0 : Rat) ≤ m * 2 ^ e := by positivity
  cases neg with
  | false => simp [finRat]
  | true => simp only [finRat, if_true] at h; linarith

/-- The value as a signed integer at a place that is not above its own. -/
theorem finRat_eq_scaled (neg : Bool) (m : Nat) {e g : Int} (h : g ≤ e) :
    finRat neg m e = (((if neg then -1 else 1) * (m * 2 ^ (e - g).toNat : Nat) : Int) : Rat) * 2 ^ g := by
  have place : (2 : Rat) ^ e = 2 ^ (e - g).toNat * 2 ^ g := by
    rw [← zpow_natCast, ← zpow_add₀ two_ne_zero, Int.toNat_of_nonneg (by omega), sub_add_cancel]
  rw [finRat, place]
  cases neg <;> push_cast <;> ring

/-- A signed integer as a sign and a magnitude. -/
theorem finRat_of_int (i g : Int) : finRat (decide (i < 0)) i.natAbs g = i * 2 ^ g := by
  rcases lt_or_ge i 0 with h | h
  · have : ((i.natAbs : Nat) : Rat) = -(i : Rat) := by rw [Nat.cast_natAbs, abs_of_neg h]; push_cast; rfl
    simp [finRat, h, this]
  · have : ((i.natAbs : Nat) : Rat) = (i : Rat) := by rw [Nat.cast_natAbs, abs_of_nonneg h]
    simp [finRat, not_lt.mpr h, this]

/-! ## Sums, products and signs (04 R102) -/

theorem Num.rat_add_fin (dn a b x y : Bool) (m n : Nat) (e f : Int) :
    ((Num.fin a m e x).add dn (.fin b n f y)).rat = some (finRat a m e + finRat b n f) := by
  have left := finRat_eq_scaled a m (min_le_left e f)
  have right := finRat_eq_scaled b n (min_le_right e f)
  simp only [Num.add]
  generalize ((if a then -1 else 1) * (m * 2 ^ (e - Min.min e f).toNat : Nat) : Int) = i at *
  generalize ((if b then -1 else 1) * (n * 2 ^ (f - Min.min e f).toNat : Nat) : Int) = j at *
  have sum : finRat a m e + finRat b n f = ((i + j : Int) : Rat) * 2 ^ Min.min e f := by rw [left, right]; push_cast; ring
  rw [sum]
  split
  · next zero => simp [Num.rat_fin, finRat, zero]
  · rw [Num.rat_fin, finRat_of_int]

theorem Num.rat_add {a b : Num} {p q : Rat} (dn : Bool) (ha : a.rat = some p) (hb : b.rat = some q) : (a.add dn b).rat = some (p + q) := by
  obtain ⟨_, _, _, _, rfl, rfl⟩ := Num.rat_eq_some_iff.mp ha
  obtain ⟨_, _, _, _, rfl, rfl⟩ := Num.rat_eq_some_iff.mp hb
  exact Num.rat_add_fin ..

theorem Num.rat_mul {a b : Num} {p q : Rat} (ha : a.rat = some p) (hb : b.rat = some q) : (a.mul b).rat = some (p * q) := by
  obtain ⟨_, _, _, _, rfl, rfl⟩ := Num.rat_eq_some_iff.mp ha
  obtain ⟨_, _, _, _, rfl, rfl⟩ := Num.rat_eq_some_iff.mp hb
  exact congrArg some (finRat_xor_mul ..)

theorem Num.rat_neg {a : Num} {p : Rat} (ha : a.rat = some p) : a.neg.rat = some (-p) := by
  obtain ⟨_, _, _, _, rfl, rfl⟩ := Num.rat_eq_some_iff.mp ha
  exact congrArg some (finRat_not ..)

theorem Num.rat_abs {a : Num} {p : Rat} (ha : a.rat = some p) : a.abs.rat = some |p| := by
  obtain ⟨_, _, _, _, rfl, rfl⟩ := Num.rat_eq_some_iff.mp ha
  rw [abs_finRat]
  simp [Num.abs, Num.rat_fin, finRat]

/-! ## The quotient and the square root (06 R181) -/

/-- A quotient of naturals is held below the exact one by less than 1, and exactly where nothing is left over. -/
theorem cast_div_bounds (v : Nat) {n : Nat} (hn : n ≠ 0) :
    ((v / n : Nat) : Rat) ≤ v / n ∧ (v : Rat) / n < (v / n : Nat) + 1 ∧ (((v / n : Nat) : Rat) = v / n ↔ v % n = 0) := by
  have pos : (0 : Rat) < n := by exact_mod_cast Nat.pos_of_ne_zero hn
  have hdiv := Nat.div_add_mod' v n
  refine ⟨Nat.cast_div_le, ?_, ?_⟩
  · rw [← Nat.floor_div_eq_div (K := Rat)]
    exact Nat.lt_floor_add_one _
  · rw [eq_div_iff pos.ne']
    norm_cast
    omega

theorem Num.div_bounds {a b : Num} {p q : Rat} (ha : a.rat = some p) (hb : b.rat = some q) (hq : q ≠ 0) :
    ∃ neg m e x, a.div b = .fin neg m e x ∧ ((m : Rat) * 2 ^ e ≤ |p / q| ∧ |p / q| < (m + 1) * 2 ^ e) ∧
      ((m : Rat) * 2 ^ e = |p / q| ↔ x = false) := by
  obtain ⟨s, m, e, _, rfl, rfl⟩ := Num.rat_eq_some_iff.mp ha
  obtain ⟨t, n, f, _, rfl, rfl⟩ := Num.rat_eq_some_iff.mp hb
  have hn : n ≠ 0 := finRat_ne_zero hq
  obtain ⟨k, hk⟩ : ∃ k, k = 256 + Nat.log2 n := ⟨_, rfl⟩
  obtain ⟨low, high, same⟩ := cast_div_bounds (m * 2 ^ k) hn
  have pos : (0 : Rat) < 2 ^ (e - f - k) := by positivity
  have scaled : |finRat s m e / finRat t n f| = ((m * 2 ^ k : Nat) : Rat) / n * 2 ^ (e - f - k) := by
    rw [abs_div, abs_finRat, abs_finRat, zpow_sub₀ two_ne_zero, zpow_sub₀ two_ne_zero, zpow_natCast]
    push_cast
    field_simp
  refine ⟨s ^^ t, m * 2 ^ k / n, e - f - k, decide (m * 2 ^ k % n ≠ 0), by rw [Num.div, if_neg hn, hk], ?_, ?_⟩
  · rw [scaled]
    exact ⟨mul_le_mul_of_nonneg_right low pos.le, mul_lt_mul_of_pos_right high pos⟩
  · rw [scaled, mul_left_inj' pos.ne', same]
    simp

/-- The bits below place `n` complete a root that is not above the exact one, when the exact one is less than `2 ^ n` above it. -/
theorem isqrt_bounds {v : Nat} : ∀ {n r : Nat}, r * r ≤ v → v < (r + 2 ^ n) * (r + 2 ^ n) →
    isqrt v n r * isqrt v n r ≤ v ∧ v < (isqrt v n r + 1) * (isqrt v n r + 1)
  | 0, _, low, high => ⟨low, high⟩
  | n + 1, r, low, high => by
    rw [isqrt]
    split
    · next fits => exact isqrt_bounds fits (by rwa [add_assoc, ← two_mul, ← pow_succ'])
    · next past => exact isqrt_bounds low (not_le.mp past)

theorem isqrt_eq_sqrt (v : Nat) : isqrt v (Nat.log2 v / 2 + 1) 0 = Nat.sqrt v := by
  refine Nat.eq_sqrt.mpr (isqrt_bounds (Nat.zero_le v) ?_)
  calc v < 2 ^ (Nat.log2 v + 1) := Nat.lt_log2_self
    _ ≤ 2 ^ (Nat.log2 v / 2 + 1 + (Nat.log2 v / 2 + 1)) := Nat.pow_le_pow_right two_pos (by omega)
    _ = _ := by rw [zero_add, pow_add]

/-- The radicand of `Num.sqrt`, with `2 * k` more places: its own place is even. -/
theorem sqrt_radicand (m : Nat) (e : Int) (k : Nat) : (m : Rat) * 2 ^ e =
    (((if e % 2 = 0 then m else 2 * m) * 2 ^ (2 * k) : Nat) : Rat) * (2 ^ ((if e % 2 = 0 then e else e - 1) / 2 - k)) ^ 2 := by
  obtain ⟨h, hh⟩ : ∃ h, (if e % 2 = 0 then e else e - 1) / 2 - k = h := ⟨_, rfl⟩
  have square : ((2 : Rat) ^ h) ^ 2 = 2 ^ (h * 2) := by rw [zpow_mul]; norm_cast
  rw [hh, square]
  split at hh
  · next even =>
    rw [if_pos even, show e = (2 * k : Nat) + h * 2 by omega, zpow_add₀ two_ne_zero, zpow_natCast]
    push_cast; ring
  · next odd =>
    rw [if_neg odd, show e = 1 + (2 * k : Nat) + h * 2 by omega, zpow_add₀ two_ne_zero, zpow_add₀ two_ne_zero, zpow_natCast]
    push_cast; ring

theorem Num.sqrt_bounds {a : Num} {p : Rat} (ha : a.rat = some p) (hp : 0 < p) :
    ∃ m e x, a.sqrt = .fin false m e x ∧ ((m : Rat) * 2 ^ e) ^ 2 ≤ p ∧ p < ((m + 1 : Rat) * 2 ^ e) ^ 2 ∧
      (((m : Rat) * 2 ^ e) ^ 2 = p ↔ x = false) := by
  obtain ⟨neg, m, e, _, rfl, rfl⟩ := Num.rat_eq_some_iff.mp ha
  have hm : m ≠ 0 := finRat_ne_zero hp.ne'
  obtain ⟨rfl, value⟩ := finRat_pos hp
  rw [value, sqrt_radicand m e 256, show 2 * 256 = 512 from rfl, Nat.cast_ofNat]
  simp only [Num.sqrt, if_neg hm, isqrt_eq_sqrt, Bool.false_eq_true, if_false]
  generalize (if e % 2 = 0 then m else 2 * m) * 2 ^ 512 = v
  generalize (if e % 2 = 0 then e else e - 1) / 2 - 256 = h
  have pos : (0 : Rat) < (2 ^ h) ^ 2 := by positivity
  refine ⟨v.sqrt, h, decide (v.sqrt * v.sqrt ≠ v), rfl, ?_, ?_, ?_⟩
  · rw [mul_pow]
    exact mul_le_mul_of_nonneg_right (by exact_mod_cast Nat.sqrt_le' v) pos.le
  · rw [mul_pow]
    exact mul_lt_mul_of_pos_right (by exact_mod_cast Nat.lt_succ_sqrt' v) pos
  · rw [mul_pow, mul_left_inj' pos.ne', sq]
    norm_cast
    simp

/-- Settles O30: what RoundTo makes of an encoding's value (`FFmt.Regular.round_decode`), the operations as numbers, and the multiple of the last place
that each mode lands on (`roundUnit_lands`). -/
theorem floatRules : Obligations.FloatRules := by
  refine ⟨fun m b f hf hb => ⟨(FFmt.regular_of_mem hf).round_decode m hb, fun nan => by rw [nan]; rfl⟩, fun a b p q dn ha hb => ?_,
    fun neg m e u q x hx low high => roundUnit_lands hx low high⟩
  exact ⟨Num.rat_add dn ha hb, Num.rat_mul ha hb, Num.rat_neg ha, Num.rat_abs ha, Num.div_bounds ha hb, Num.sqrt_bounds ha⟩

end Sys2Proof.Machine
end

section
/-! PROOF. The hold form of YIELDPT at issue (02 R39, R59, 05 R172; O12). -/

namespace Sys2Proof.Machine

/-- An elastic helm that is one cycle late and has a joined child, number 1, which has completed: 1 stands in s1, and its context has assigned one
identifier. -/
def State.lateWithChild : State :=
  (State.reset.setCore 0 { cyc := 1, children := [1], sregs := (Vector.replicate 64 0).set 1 1 }).modCtx 0 fun x => { x with assigned := 1 }

/-- The hold of a completed child ends at its issue and stands at its deadline, to which the position of the issuing slot moves (02 R39). -/
theorem yieldptHold_ends_at_deadline {t : State} (h : exec (.yieldptHold 1 0) State.lateWithChild = .next t) : t.cur.pos = 1 := by
  cases h
  rfl

/-- Refutes O12: its `Begins` keeps all but the cores and the counter of free values, `cur.pos` with them, and a hold with no time left, in a slot that
comes after its position, moves `cur.pos` to its deadline. -/
theorem not_phaseWords : ¬ Obligations.PhaseWords := by
  unfold Obligations.PhaseWords
  rintro ⟨-, h⟩
  obtain ⟨-, -, -, -, hold⟩ := (h State.lateWithChild 0 1 0).1 rfl (by decide)
  obtain ⟨⟨t, runs, alone, -⟩, -⟩ := hold rfl (by decide)
  have kept : t.cur.pos = State.lateWithChild.cur.pos := by rw [alone.rest]
  have moved : t.cur.pos = 1 := yieldptHold_ends_at_deadline runs
  exact absurd (kept.symm.trans moved) (by decide)

end Sys2Proof.Machine
end

section
/-! PROOF. A fault found for an access of a launch that has retired (05 R153, 12 R445; O40). -/

namespace Sys2Proof.Machine

/-- The fault of a load, a page that is not mapped. -/
def loadNotMapped : TrapInfo := { code := cause 1 0 0, st := .helm }

/-- An access whose fault has been found and is to be taken. -/
def faultyLoad : Access := { id := 0, kind := .load 8 false, va := 0, issued := 0, pos := 0, window := 512, xlatAt := 1, fault := some loadNotMapped }

/-- What is left of core 0 of launch 0, which has retired: a second faulty access, after a first trap of another cause. -/
def State.secondLateFault : State :=
  { State.reset.setCore 4096 { lid := some 0, cyc := 512, helm := { ended := false }, accesses := [faultyLoad] } with
    launches := [{ lid := 0, ctx := 0, stage := .retired, traps := 1, firstCause := cause 1 1 1 }], on := { a := 4096 } }

/-- The launch's cause stays that of its first trap. -/
theorem cause_of_secondLateFault {t : State} (h : exec .translationResult State.secondLateFault = .next t) :
    (t.launch? 0).map (·.cause) = some (cause 1 1 1) := by
  cases h
  rfl

/-- Refutes O40: it gives the launch the cause of every fault that is found after its retirement, and a launch that has trapped before keeps the cause
of its first trap. -/
theorem not_accessEvents : ¬ Obligations.AccessEvents := by
  unfold Obligations.AccessEvents
  intro h
  obtain ⟨-, taken, -⟩ := (h State.secondLateFault faultyLoad ⟨0, 0, 0⟩ ⟨0, 0, 0, 0, 0, 0, 0⟩ 0 (by decide) rfl).1 rfl
  obtain ⟨t, runs, -, -, recorded⟩ := taken loadNotMapped rfl (by decide)
  obtain ⟨-, m, found, -, given⟩ := recorded _ (by decide) rfl
  have kept : (t.launch? 0).map (·.cause) = some (cause 1 1 1) := cause_of_secondLateFault runs
  rw [show t.launch? 0 = some m from found, Option.map_some, given] at kept
  exact absurd kept (by decide)

end Sys2Proof.Machine
end

section
/-! PROOF. A checked word by its verdict (02 R36, R37, R42), and the helm's sums, products, logic words, shifts and divisions (05 R135-R137; O1). -/

namespace Sys2Proof.Machine

/-! ## A word by its verdict -/

section
variable {i : Instr} {s : State} {v : Verdict} {eff : State → State} (hx : s.cur.st ≠ .crossing) (hi : exec i s = s.perform v eff)
include hx hi

theorem Gives.of_perform {lat : Nat} {effs : List Eff} (hv : v = .ok) (he : eff s = s.write lat effs) : Gives i s (effs.map fun e => (lat, e)) :=
  ⟨_, by rw [hi, State.perform_ok hv, he], s.issued_write lat effs hx⟩

theorem Traps.of_perform {code : Nat} (hv : v = .fault code) : Traps i s code :=
  .of_fault hx (by rw [hi, hv]; rfl)

theorem Stalls.of_perform {code : Nat} (hv : v = .wait code) : Stalls i s code := by
  rw [hv, State.perform] at hi
  unfold Stalls
  split
  · rwa [if_pos ‹_›] at hi
  · rw [if_neg ‹_›] at hi
    exact .of_fault hx hi

end

/-- A helm word that writes one scalar and has no check. -/
theorem gives_of_setS {i : Instr} {s : State} {lat : Nat} {rd : SReg} {u v : Word} (hst : s.cur.st = .helm) (hi : exec i s = s.setS lat rd u)
    (hu : u = v) : Gives i s [(lat, .s rd v)] :=
  .of_perform (effs := [.s rd v]) (by simp [hst]) hi rfl (by rw [hu])

theorem State.bad0_helm {s : State} {bad : Bool} (hst : s.cur.st = .helm) (h : bad = true) (b : Nat) : s.bad0 bad b = .fault (cause 0 0 b) := by
  rw [h, bad0_true, hst]
  rfl

/-! ## Sums, products and comparisons as integers (05 R135, R136) -/

section
variable {w : Nat} (a b : BitVec w)

theorem add_eq_ofInt : a + b = BitVec.ofInt w (a.toInt + b.toInt) := by
  rw [BitVec.ofInt_add, BitVec.ofInt_toInt, BitVec.ofInt_toInt]

theorem sub_eq_ofInt : a - b = BitVec.ofInt w (a.toInt - b.toInt) := by
  rw [Int.sub_eq_add_neg, BitVec.ofInt_add, BitVec.ofInt_neg, BitVec.ofInt_toInt, BitVec.ofInt_toInt, BitVec.sub_eq_add_neg]

theorem mul_eq_ofInt : a * b = BitVec.ofInt w (a.toInt * b.toInt) := by
  rw [BitVec.ofInt_mul, BitVec.ofInt_toInt, BitVec.ofInt_toInt]

theorem add_signExtend_eq_ofInt {v : Nat} (i : BitVec v) : a + i.signExtend w = BitVec.ofInt w (a.toInt + i.toInt) := by
  rw [BitVec.ofInt_add, BitVec.ofInt_toInt, BitVec.signExtend]

theorem ofB_eq_ofInt {c : Bool} {p : Prop} [Decidable p] (h : c = true ↔ p) : ofB c = BitVec.ofInt 64 (if p then 1 else 0) := by
  unfold ofB
  by_cases hp : p
  · rw [if_pos (h.2 hp), if_pos hp]; rfl
  · rw [if_neg (mt h.1 hp), if_neg hp]; rfl

theorem slt_iff_toInt : a.slt b = true ↔ a.toInt < b.toInt := decide_eq_true_iff

theorem ult_iff_toNat : a.ult b = true ↔ a.toNat < b.toNat := decide_eq_true_iff

/-- The one that a comparison chooses, as an integer. -/
theorem ite_eq_ofInt {c : Bool} {p : Prop} [Decidable p] (h : c = true ↔ p) :
    (if c then a else b) = BitVec.ofInt w (if p then a.toInt else b.toInt) := by
  simp only [h]
  split <;> rw [BitVec.ofInt_toInt]

theorem ite_eq_ofNat {c : Bool} {p : Prop} [Decidable p] (h : c = true ↔ p) :
    (if c then a else b) = BitVec.ofInt w ((if p then a.toNat else b.toNat : Nat) : Int) := by
  simp only [h, BitVec.ofInt_natCast]
  split <;> rw [BitVec.ofNat_toNat, BitVec.setWidth_eq]

theorem shiftLeft_eq_ofInt (n : Nat) : a <<< n = BitVec.ofInt w (a.toNat * 2 ^ n : Nat) := by
  rw [BitVec.ofInt_natCast]
  exact BitVec.eq_of_toNat_eq (by simp [Nat.shiftLeft_eq])

theorem ushiftRight_eq_ofInt (n : Nat) : a >>> n = BitVec.ofInt w (a.toNat / 2 ^ n : Nat) := by
  rw [BitVec.ofInt_natCast]
  refine BitVec.eq_of_toNat_eq ?_
  rw [BitVec.toNat_ushiftRight, Nat.shiftRight_eq_div_pow, BitVec.toNat_ofNat, Nat.mod_eq_of_lt ((Nat.div_le_self _ _).trans_lt a.isLt)]

theorem sshiftRight_eq_ofInt (n : Nat) : a.sshiftRight n = BitVec.ofInt w (a.toInt / 2 ^ n) := by
  simp [BitVec.sshiftRight, Int.shiftRight_eq_div_pow]

end

theorem seth_eq_ofInt (a : Word) (i : BitVec 31) : a <<< 31 + i.setWidth 64 = BitVec.ofInt 64 (a.toNat * 2 ^ 31 + i.toNat) := by
  rw [BitVec.ofInt_add, BitVec.ofInt_natCast, BitVec.ofNat_toNat, shiftLeft_eq_ofInt, Nat.cast_mul, Nat.cast_pow, Nat.cast_ofNat]

theorem mulhu_eq_ofInt (a b : Word) :
    BitVec.ofNat 64 (a.toNat * b.toNat / 2 ^ 64) = BitVec.ofInt 64 ((a.toNat : Int) * b.toNat / 2 ^ 64) := by
  norm_cast

/-- The remainder that R135 defines by the quotient. -/
theorem rem_eq_tmod (a b : Int) : a - b * a.tdiv b = a.tmod b := (Int.tmod_def a b).symm

/-! ## The words -/

section
variable {i : Instr} {s : State} {rd ra : SReg} {u v : Word} (hst : s.cur.st = .helm)
include hst

/-- A helm word that writes one scalar, bit by bit. -/
theorem gives_of_bits {f : Nat → Bool} (hi : exec i s = s.setS 1 rd u) (hf : ∀ k, k < 64 → u.getLsbD k = f k) :
    ∃ v : Word, Gives i s [(1, .s rd v)] ∧ ∀ k, k < 64 → v.getLsbD k = f k :=
  ⟨u, gives_of_setS hst hi rfl, hf⟩

theorem gives_of_shiftImm {imm : BitVec 25} (hi : exec i s = s.shiftImm rd imm u) (amount : imm.toNat < 64) (hu : u = v) :
    Gives i s [(1, .s rd v)] :=
  .of_perform (effs := [.s rd v]) (by simp [hst]) hi (by simpa using amount) (by rw [hu])

theorem traps_of_shiftImm {imm : BitVec 25} (hi : exec i s = s.shiftImm rd imm u) (amount : 64 ≤ imm.toNat) : Traps i s (cause 0 0 2) :=
  .of_perform (by simp [hst]) hi (State.bad0_helm hst (by simpa using amount) _)

theorem gives_of_divide {b : Word} (hi : exec i s = s.divide rd b u) (divisor : b ≠ 0) (hu : u = v) : Gives i s [(34, .s rd v)] :=
  .of_perform (effs := [.s rd v]) (by simp [hst]) hi (by simpa using divisor) (by rw [hu])

theorem traps_of_divide {b : Word} (hi : exec i s = s.divide rd b u) (divisor : b = 0) : Traps i s (cause 0 0 7) :=
  .of_perform (by simp [hst]) hi (State.bad0_helm hst (by simpa using divisor) _)

end

/-- Settles O1: each word writes the value that its definition names, and that value is the integer of R135 and R136. -/
theorem integerResults : Obligations.IntegerResults := by
  unfold Obligations.IntegerResults
  refine ⟨fun s rd ra rb i25 i31 hst => ?_, fun s rd ra rb imm hst => ?_, fun s rd ra rb imm hst => ?_, fun s rd ra rb hst => ?_⟩
  · intro a b gives
    refine ⟨gives_of_setS hst rfl (add_eq_ofInt _ _), gives_of_setS hst rfl (sub_eq_ofInt _ _), gives_of_setS hst rfl (mul_eq_ofInt _ _),
      gives_of_setS hst rfl rfl, gives_of_setS hst rfl (mulhu_eq_ofInt _ _), gives_of_setS hst rfl (add_signExtend_eq_ofInt _ _),
      gives_of_setS hst rfl rfl, gives_of_setS hst rfl (seth_eq_ofInt _ _), gives_of_setS hst rfl (ofB_eq_ofInt (slt_iff_toInt _ _)),
      gives_of_setS hst rfl (ofB_eq_ofInt (ult_iff_toNat _ _)), gives_of_setS hst rfl (ofB_eq_ofInt ?_), ?_, ?_, ?_, ?_⟩
    · rw [slt_iff_toInt, simm25, BitVec.toInt_signExtend_of_le (by omega)]
    · exact gives_of_setS hst rfl ((ite_eq_ofInt _ _ (slt_iff_toInt _ _)).trans (by rw [min_def_lt]))
    · exact gives_of_setS hst rfl ((ite_eq_ofInt _ _ (slt_iff_toInt _ _)).trans (by rw [max_def_lt]))
    · exact gives_of_setS hst rfl ((ite_eq_ofNat _ _ (ult_iff_toNat _ _)).trans (by rw [min_def_lt]))
    · exact gives_of_setS hst rfl ((ite_eq_ofNat _ _ (ult_iff_toNat _ _)).trans (by rw [max_def_lt]))
  · intro bit gives
    refine ⟨gives_of_bits hst rfl ?_, gives_of_bits hst rfl ?_, gives_of_bits hst rfl ?_, gives_of_bits hst rfl ?_, gives_of_bits hst rfl ?_,
      gives_of_bits hst rfl ?_, gives_of_bits hst rfl ?_⟩ <;> intro k hk <;> simp [bit, hk]
  · intro a n gives
    refine ⟨gives_of_setS hst rfl (shiftLeft_eq_ofInt _ _), gives_of_setS hst rfl (ushiftRight_eq_ofInt _ _),
      gives_of_setS hst rfl (sshiftRight_eq_ofInt _ _), fun amount => ?_, fun amount => ?_⟩
    · exact ⟨gives_of_shiftImm hst rfl amount (shiftLeft_eq_ofInt _ _), gives_of_shiftImm hst rfl amount (ushiftRight_eq_ofInt _ _),
        gives_of_shiftImm hst rfl amount (sshiftRight_eq_ofInt _ _)⟩
    · simp only [List.forall_mem_cons, List.not_mem_nil, false_imp_iff, implies_true, and_true]
      exact ⟨traps_of_shiftImm hst rfl amount, traps_of_shiftImm hst rfl amount, traps_of_shiftImm hst rfl amount⟩
  · intro a b gives
    refine ⟨fun divisor => ?_, fun divisor => ?_⟩
    · exact ⟨gives_of_divide hst rfl divisor rfl, gives_of_divide hst rfl divisor (congrArg _ (rem_eq_tmod _ _)),
        gives_of_divide hst rfl divisor (BitVec.ofInt_natCast _ _).symm, gives_of_divide hst rfl divisor (BitVec.ofInt_natCast _ _).symm⟩
    · simp only [List.forall_mem_cons, List.not_mem_nil, false_imp_iff, implies_true, and_true]
      exact ⟨traps_of_divide hst rfl divisor, traps_of_divide hst rfl divisor, traps_of_divide hst rfl divisor, traps_of_divide hst rfl divisor⟩

end Sys2Proof.Machine
end

section
/-! PROOF. The counts, bit-field words and funnel shifts of the helm (05 R138; O2). -/

namespace Sys2Proof.Machine

/-! ## Counts -/

theorem leadZeros_spec : ∀ {w v : Nat}, v < 2 ^ w →
    leadZeros w v ≤ w ∧ v < 2 ^ (w - leadZeros w v) ∧ (leadZeros w v < w → 2 ^ (w - 1 - leadZeros w v) ≤ v)
  | 0, _, h => ⟨le_rfl, h, nofun⟩
  | w + 1, v, h => by
    rw [leadZeros]
    by_cases top : v.testBit w
    · exact ⟨by simp [top], by simpa [top] using h, fun _ => by simpa [top] using Nat.ge_two_pow_of_testBit top⟩
    · have small : v < 2 ^ w := by
        by_contra big
        exact top (Nat.testBit_of_two_pow_le_and_two_pow_add_one_gt (not_lt.1 big) h)
      obtain ⟨le, below, above⟩ := leadZeros_spec small
      rw [if_neg top, show w + 1 - (1 + leadZeros w v) = w - leadZeros w v by omega,
        show w + 1 - 1 - (1 + leadZeros w v) = w - 1 - leadZeros w v by omega]
      exact ⟨by omega, below, fun lt => above (by omega)⟩

theorem trailZeros_spec : ∀ (w v : Nat),
    trailZeros w v ≤ w ∧ v % 2 ^ trailZeros w v = 0 ∧ (trailZeros w v < w → v % 2 ^ (trailZeros w v + 1) ≠ 0)
  | 0, v => ⟨le_rfl, Nat.mod_one v, nofun⟩
  | w + 1, v => by
    rw [trailZeros]
    by_cases odd : v.testBit 0
    · rw [if_pos odd]
      exact ⟨Nat.zero_le _, Nat.mod_one v, fun _ => by simpa using odd⟩
    · obtain ⟨le, zeros, one⟩ := trailZeros_spec w (v / 2)
      have even : v = 2 * (v / 2) := by simp at odd; omega
      have mod (n : Nat) : v % 2 ^ (n + 1) = 2 * (v / 2 % 2 ^ n) := by rw [pow_succ', ← Nat.mul_mod_mul_left, ← even]
      rw [if_neg odd, Nat.add_comm 1, mod, mod, zeros]
      exact ⟨by omega, rfl, fun lt => by have := one (by omega); omega⟩

theorem onesCount_eq_length : ∀ (w v : Nat), onesCount w v = ((List.range w).filter v.testBit).length
  | 0, _ => rfl
  | w + 1, v => by
    have tail : v.testBit ∘ Nat.succ = (v / 2).testBit := funext fun k => Nat.testBit_succ v k
    rw [onesCount, onesCount_eq_length w, List.range_succ_eq_map, List.filter_cons, List.filter_map, tail, Nat.testBit_zero]
    rcases Nat.mod_two_eq_zero_or_one v with h | h <;> simp [h, Nat.add_comm]

/-! ## Fields -/

theorem getLsbD_lowOnes {k : Nat} (n : Nat) (hk : k < 64) : (lowOnes n).getLsbD k = decide (k < n) := by
  rw [lowOnes, BitVec.getLsbD_ofNat, Nat.testBit_two_pow_sub_one, decide_eq_true hk, Bool.true_and]

section
variable (a d : Word) {p n : Nat}

theorem bext_toNat (h : n ≤ 64) : (a >>> p &&& lowOnes n).toNat = a.toNat / 2 ^ p % 2 ^ n := by
  have ones : 2 ^ n - 1 < 2 ^ 64 := (Nat.sub_lt (Nat.two_pow_pos n) one_pos).trans_le (Nat.pow_le_pow_right two_pos h)
  rw [BitVec.toNat_and, BitVec.toNat_ushiftRight, lowOnes, BitVec.toNat_ofNat, Nat.mod_eq_of_lt ones, Nat.and_two_pow_sub_one_eq_mod,
    Nat.shiftRight_eq_div_pow]

/-- The low bits of a word, moved to its top and back with their sign. -/
theorem sshiftRight_shiftLeft_eq_signExtend (pos : 1 ≤ n) (h : n ≤ 64) :
    (a <<< (64 - n)).sshiftRight (64 - n) = (a.setWidth n).signExtend 64 := by
  have sign : (a <<< (64 - n)).msb = (a.setWidth n).msb := by
    rw [BitVec.msb_eq_getLsbD_last, BitVec.msb_eq_getLsbD_last, BitVec.getLsbD_shiftLeft, BitVec.getLsbD_setWidth,
      show 64 - 1 - (64 - n) = n - 1 by omega]
    simp [show ¬ 64 - 1 < 64 - n by omega, show 0 < n from pos]
  refine BitVec.eq_of_getLsbD_eq fun k hk => ?_
  rw [BitVec.getLsbD_sshiftRight, BitVec.getLsbD_signExtend, sign, BitVec.getLsbD_shiftLeft, BitVec.getLsbD_setWidth, Nat.add_sub_cancel_left]
  by_cases low : k < n
  · simp [hk, low, show 64 - n + k < 64 by omega]
  · simp [hk, low, show ¬ 64 - n + k < 64 by omega]

theorem bexts_toInt (pos : 1 ≤ n) (h : n ≤ 64) :
    (((a >>> p) <<< (64 - n)).sshiftRight (64 - n)).toInt = (BitVec.ofNat n (a.toNat / 2 ^ p)).toInt := by
  rw [sshiftRight_shiftLeft_eq_signExtend _ pos h, BitVec.toInt_signExtend_of_le h, ← Nat.shiftRight_eq_div_pow, ← BitVec.toNat_ushiftRight,
    BitVec.ofNat_toNat]

theorem bins_getLsbD {k : Nat} (hk : k < 64) : (d &&& ~~~(lowOnes n <<< p) ||| (a &&& lowOnes n) <<< p).getLsbD k =
    if p ≤ k ∧ k < p + n then a.getLsbD (k - p) else d.getLsbD k := by
  have inside : (decide (k < p) = false ∧ decide (k - p < n) = true) ↔ (p ≤ k ∧ k < p + n) := by
    simp only [decide_eq_true_eq, decide_eq_false_iff_not]
    omega
  rw [BitVec.getLsbD_or, BitVec.getLsbD_and, BitVec.getLsbD_not, BitVec.getLsbD_shiftLeft, BitVec.getLsbD_shiftLeft, BitVec.getLsbD_and,
    getLsbD_lowOnes n (show k - p < 64 by omega), decide_eq_true hk, ← if_congr inside rfl rfl]
  cases decide (k < p) <;> cases decide (k - p < n) <;> simp

end

/-! ## Funnels -/

theorem append_toNat (a b : Word) : (a ++ b : BitVec 128).toNat = a.toNat * 2 ^ 64 + b.toNat := by
  rw [BitVec.toNat_append, ← Nat.shiftLeft_add_eq_or_of_lt b.isLt, Nat.shiftLeft_eq]

theorem fshl_toNat (a b : Word) (p : Nat) :
    ((a ++ b : BitVec 128) <<< p |>.extractLsb' 64 64).toNat = (a.toNat * 2 ^ 64 + b.toNat) * 2 ^ p / 2 ^ 64 % 2 ^ 64 := by
  rw [BitVec.extractLsb'_toNat, BitVec.toNat_shiftLeft, append_toNat, Nat.shiftLeft_eq, Nat.shiftRight_eq_div_pow]
  omega

theorem fshr_toNat (a b : Word) (p : Nat) :
    ((a ++ b : BitVec 128) >>> p |>.extractLsb' 0 64).toNat = (a.toNat * 2 ^ 64 + b.toNat) / 2 ^ p % 2 ^ 64 := by
  rw [BitVec.extractLsb'_toNat, BitVec.toNat_ushiftRight, append_toNat, Nat.shiftRight_zero, Nat.shiftRight_eq_div_pow]

/-! ## The words -/

section
variable {i : Instr} {s : State} {rd : SReg} {u : Word} {ok : Word → Prop} (hst : s.cur.st = .helm)
include hst

theorem gives_such_of_setS (hi : exec i s = s.setS 1 rd u) (hu : ok u) : ∃ v : Word, Gives i s [(1, .s rd v)] ∧ ok v :=
  ⟨u, gives_of_setS hst hi rfl, hu⟩

theorem gives_such_of_field {pos : BitVec 6} {len : BitVec 7} (hi : exec i s = s.field rd pos len u)
    (fits : 1 ≤ len.toNat ∧ pos.toNat + len.toNat ≤ 64) (hu : ok u) : ∃ v : Word, Gives i s [(1, .s rd v)] ∧ ok v :=
  ⟨u, .of_perform (effs := [.s rd u]) (by simp [hst]) hi (by simp; omega) rfl, hu⟩

theorem traps_of_field {pos : BitVec 6} {len : BitVec 7} (hi : exec i s = s.field rd pos len u)
    (outside : len.toNat = 0 ∨ 64 < pos.toNat + len.toNat) : Traps i s (cause 0 0 2) :=
  .of_perform (by simp [hst]) hi (State.bad0_helm hst (decide_eq_true (by omega)) _)

theorem gives_such_of_funnel {o : HBf} (hi : exec i s = s.funnel o u) (unused : o.len = 0) (hu : ok u) :
    ∃ v : Word, Gives i s [(1, .s o.rd v)] ∧ ok v :=
  ⟨u, .of_perform (effs := [.s o.rd u]) (by simp [hst]) hi (by simp [unused]) rfl, hu⟩

theorem traps_of_funnel {o : HBf} (hi : exec i s = s.funnel o u) (used : o.len ≠ 0) : Traps i s (cause 0 0 2) :=
  .of_perform (by simp [hst]) hi (State.bad0_helm hst (by simpa using used) _)

end

/-- Settles O2: each word writes the value that its definition names, and that value has the bits of R138. -/
theorem bitFieldResults : Obligations.BitFieldResults := by
  unfold Obligations.BitFieldResults
  refine ⟨fun s rd ra hst => ?_, fun s rd ra pos len o hst => ?_⟩
  · intro a gives
    have small {n : Nat} (h : n ≤ 64) : (BitVec.ofNat 64 n).toNat = n := by rw [BitVec.toNat_ofNat]; omega
    refine ⟨gives_such_of_setS hst rfl ?_, gives_such_of_setS hst rfl ?_, gives_such_of_setS hst rfl ?_, gives_such_of_setS hst rfl ?_⟩
    · have spec := leadZeros_spec (s.sr ra).isLt
      rwa [small spec.1]
    · have spec := trailZeros_spec 64 a
      rwa [small spec.1]
    · have le := List.length_filter_le a.testBit (List.range 64)
      rw [List.length_range, ← onesCount_eq_length] at le
      rw [small le, onesCount_eq_length]
      rfl
    · intro k hk
      rw [BitVec.getLsbD_reverse, BitVec.getMsbD, decide_eq_true hk, Bool.true_and]
  · intro a p n gives
    refine ⟨fun fits => ?_, fun outside => ?_, ?_⟩
    · exact ⟨gives_such_of_field hst rfl fits (bext_toNat _ (by omega)), gives_such_of_field hst rfl fits (bexts_toInt _ fits.1 (by omega)),
        gives_such_of_field hst rfl fits fun k hk => bins_getLsbD _ _ hk⟩
    · simp only [List.forall_mem_cons, List.not_mem_nil, false_imp_iff, implies_true, and_true]
      exact ⟨traps_of_field hst rfl outside, traps_of_field hst rfl outside, traps_of_field hst rfl outside⟩
    · intro x
      refine ⟨fun unused => ?_, fun used => ?_⟩
      · exact ⟨gives_such_of_funnel hst rfl unused (fshl_toNat _ _ _), gives_such_of_funnel hst rfl unused (fshr_toNat _ _ _)⟩
      · simp only [List.forall_mem_cons, List.not_mem_nil, false_imp_iff, implies_true, and_true]
        exact ⟨traps_of_funnel hst rfl used, traps_of_funnel hst rfl used⟩

end Sys2Proof.Machine
end

section
/-! PROOF. Compares, predicate words, the constant bank and handoff reads (05 R139, R140, R155, R156; O3, O4). -/

namespace Sys2Proof.Machine

/-! ## Sources that a word waits for (02 R36) -/

section
variable {s : State}

theorem State.needP_of_full {r : PReg} (h : s.me.pIsFull r = true) : s.needP r = .ok := by rw [State.needP, h, need_true]

theorem State.needP_of_empty (hst : s.cur.st = .helm) {r : PReg} (h : s.me.pIsFull r = false) : s.needP r = .wait (cause 2 0 0) := by
  rw [State.needP, h, need_false, hst]
  rfl

theorem State.takeQ_of_empty (hst : s.cur.st = .helm) {r : BitVec 5} (h : s.me.qIsFull r = false) : s.takeQ r = .wait (cause 2 0 0) := by
  rw [State.takeQ, Core.qCanTake, h, Bool.false_and, need_false, hst]
  rfl

theorem State.needQ_of_empty (hst : s.cur.st = .helm) {r : BitVec 5} (h : s.me.qIsFull r = false) : s.needQ r = .wait (cause 2 0 0) := by
  rw [State.needQ, h, need_false, hst]
  rfl

theorem State.qInFile_of_lt {q : SReg} (h : q.toNat < 32) : s.qInFile q = .ok := by
  rw [State.qInFile, decide_eq_false (not_le.2 h), bad0_false]

theorem State.qInFile_of_le (hst : s.cur.st = .helm) {q : SReg} (h : 32 ≤ q.toNat) : s.qInFile q = .fault (cause 0 0 2) :=
  State.bad0_helm hst (decide_eq_true h) _

/-- Of two predicate sources one is empty, the other full or empty too. -/
theorem State.needs_of_empty (hst : s.cur.st = .helm) {pa : PReg} (h : s.me.pIsFull pa = false) (v : Verdict) (pb : PReg) :
    verdicts [s.needP pa, v] = .wait (cause 2 0 0) ∧ verdicts [s.needP pb, s.needP pa] = .wait (cause 2 0 0) := by
  have wait := State.needP_of_empty hst h
  refine ⟨by rw [wait]; rfl, ?_⟩
  cases hb : s.me.pIsFull pb
  · rw [State.needP_of_empty hst hb]; rfl
  · rw [State.needP_of_full hb, wait]; rfl

end

/-! ## Predicate words -/

section
variable (pr : PReg) (off : BitVec 30) (s : State)

theorem exec_brt : exec (.brt pr off) s = s.perform (verdicts [s.needP pr, s.staysIn off]) fun s =>
    if s.me.preg pr then s.branchTo (s.target off) else s.advance := rfl

theorem exec_brf : exec (.brf pr off) s = s.perform (verdicts [s.needP pr, s.staysIn off]) fun s =>
    if s.me.preg pr then s.advance else s.branchTo (s.target off) := rfl

theorem exec_brtn : exec (.brtn pr off) s = s.perform (verdicts [s.needP pr, s.staysIn off]) fun s =>
    if s.me.preg pr then s.branchTo (s.target off) else s.annul := rfl

theorem exec_brfn : exec (.brfn pr off) s = s.perform (verdicts [s.needP pr, s.staysIn off]) fun s =>
    if s.me.preg pr then s.annul else s.branchTo (s.target off) := rfl

end

theorem State.cmpSrc_eq (s : State) (b : CmpSrc) : s.cmpSrc b = match b with
    | .reg rb => s.sr rb
    | .imm v => BitVec.ofInt 64 v.toInt := by
  cases b <;> rfl

section
variable {i : Instr} {s : State} {v : Verdict} {pd : PReg} {b c : Bool} (hst : s.cur.st = .helm)
include hst

theorem gives_of_setP (hi : exec i s = s.setP v pd b) (hv : v = .ok) (hb : b = c) : Gives i s [(1, .p pd c)] :=
  .of_perform (effs := [.p pd c]) (by simp [hst]) hi hv (by rw [hb])

theorem stalls_of_setP (hi : exec i s = s.setP v pd b) (hv : v = .wait (cause 2 0 0)) : Stalls i s (cause 2 0 0) :=
  .of_perform (by simp [hst]) hi hv

theorem gives_compare {p : Prop} [Decidable p] (hi : exec i s = s.setP .ok pd b) (hb : b = true ↔ p) : Gives i s [(1, .p pd (decide p))] :=
  gives_of_setP hst hi rfl (by simp only [← hb, Bool.decide_eq_true])

theorem stalls_of_perform {eff : State → State} (hi : exec i s = s.perform v eff) (hv : v = .wait (cause 2 0 0)) : Stalls i s (cause 2 0 0) :=
  .of_perform (by simp [hst]) hi hv

end

/-- Settles O3: each word's checks by the state of its sources, and each word's value by its definition. -/
theorem predicateResults : Obligations.PredicateResults := by
  unfold Obligations.PredicateResults
  refine ⟨fun s pd ra src hst => ?_, fun s pd pa pb ra hst fa fb => ?_, fun s pd pa pb ra off hst empty => ?_⟩
  · intro a b gives
    have hb : s.cmpSrc src = b := s.cmpSrc_eq src
    refine ⟨gives_compare hst rfl ?_, gives_compare hst rfl ?_, gives_compare hst rfl ?_, gives_compare hst rfl ?_, gives_compare hst rfl ?_,
      gives_compare hst rfl ?_⟩
    · rw [hb, beq_iff_eq, BitVec.toInt_inj]
    · rw [hb, bne_iff_ne, Ne, Ne, BitVec.toInt_inj]
    · rw [hb, slt_iff_toInt]
    · rw [hb, ult_iff_toNat]
    · rw [hb, BitVec.sle_iff_toInt_le]
    · rw [hb, BitVec.ule_iff_toNat_le]
  · intro x y
    have na := State.needP_of_full fa
    have both : verdicts [s.needP pa, s.needP pb] = .ok := by rw [na, State.needP_of_full fb]; rfl
    have hx : s.cur.st ≠ .crossing := by simp [hst]
    have pclr : exec (.pclr pd) s = execPclr pd s := rfl
    have ptos : exec (.ptos pa ra) s = execPtos pa ra s := rfl
    have pset (v : PReg) : exec (.pset pd v) s = s.perform (s.bad0 (decide (1 < v.toNat)) rangeC) fun s => s.write 1 [.p pd (v == 1)] := rfl
    refine ⟨gives_of_setP hst rfl both rfl, gives_of_setP hst rfl both rfl, gives_of_setP hst rfl both rfl, gives_of_setP hst rfl na rfl,
      .of_perform (effs := [.s ra _]) hx ptos na rfl, gives_of_setP hst rfl rfl ?_, .of_perform (effs := [.pEmpty pd]) hx pclr rfl rfl,
      fun v le => ?_, fun v lt => ?_, rfl, rfl⟩
    · rw [Bool.eq_iff_iff, bne_iff_ne, decide_eq_true_iff]
    · refine gives_of_setP hst (pset v) (by simpa using le) ?_
      rw [Bool.eq_iff_iff, beq_iff_eq, decide_eq_true_iff, BitVec.toNat_eq]
      rfl
    · exact .of_perform hx (pset v) (State.bad0_helm hst (decide_eq_true lt) _)
  · have ptos : exec (.ptos pa ra) s = execPtos pa ra s := rfl
    have first (v : Verdict) := (State.needs_of_empty hst empty v pb).1
    have second := (State.needs_of_empty hst empty .ok pb).2
    have alone := State.needP_of_empty hst empty
    simp only [List.forall_mem_cons, List.not_mem_nil, false_imp_iff, implies_true, and_true]
    exact ⟨stalls_of_setP hst rfl (first _), stalls_of_setP hst rfl (first _), stalls_of_setP hst rfl (first _),
      stalls_of_setP hst rfl second, stalls_of_setP hst rfl second, stalls_of_setP hst rfl second,
      stalls_of_setP hst rfl alone, stalls_of_perform hst ptos alone, stalls_of_perform hst (exec_brt ..) (first _),
      stalls_of_perform hst (exec_brf ..) (first _), stalls_of_perform hst (exec_brtn ..) (first _), stalls_of_perform hst (exec_brfn ..) (first _)⟩

/-! ## The constant bank and handoff reads -/

theorem qField_toNat {q : SReg} (h : q.toNat < 32) : (qField q).toNat = q.toNat := by
  rw [qField, BitVec.toNat_setWidth, Nat.mod_eq_of_lt h]

theorem vGet_qField {α : Type} {q : SReg} (h : q.toNat < 32) (v : Vector α 32) : vGet (qField q) v = v[q.toNat]'h := by
  simp only [vGet, qField_toNat h]

theorem Core.constWord_eq (c : Core) {i : Nat} (h : i < 256) : c.constWord i = c.cbank[i]'h := by
  simp only [Core.constWord, vAt, Nat.mod_eq_of_lt h]

/-- Settles O4: the checks of each word by its register number and by the state of its source. -/
theorem bankAndHandoffReads : Obligations.BankAndHandoffReads := by
  unfold Obligations.BankAndHandoffReads
  intro s rd ra qn imm hst i
  have hx : s.cur.st ≠ .crossing := by simp [hst]
  have ldc : exec (.ldc rd ra imm) s = s.perform (s.bad0 (decide (256 ≤ i)) rangeC) fun s => s.write 2 [.s rd ((s.me.constWord i).setWidth 64)] := rfl
  have qpeek : exec (.qpeek rd qn) s = execQpeek rd qn s := rfl
  have qrecv : exec (.qrecv rd qn) s = execQrecv rd qn s := rfl
  refine ⟨fun h => ?_, fun h => ?_, fun h => ⟨fun full => ?_, fun full => ?_, fun empty => ⟨?_, ?_⟩⟩, fun h => ⟨?_, ?_⟩⟩
  · refine .of_perform (effs := [.s rd _]) hx ldc (by simpa using h) ?_
    rw [s.me.constWord_eq h, BitVec.ofNat_toNat]
  · exact .of_perform hx ldc (State.bad0_helm hst (decide_eq_true h) _)
  · refine .of_perform (effs := [.s rd _]) hx qpeek ?_ (by rw [vGet_qField h])
    rw [State.qInFile_of_lt h, State.needQ, full]
    rfl
  · refine .of_perform (effs := [.qEmpty _, .s rd _]) hx qrecv ?_ (by rw [vGet_qField h])
    rw [State.qInFile_of_lt h, State.takeQ, full]
    rfl
  · refine stalls_of_perform hst qpeek ?_
    rw [State.qInFile_of_lt h, State.needQ_of_empty hst empty]
    rfl
  · refine stalls_of_perform hst qrecv ?_
    rw [State.qInFile_of_lt h, State.takeQ_of_empty hst empty]
    rfl
  · refine .of_perform hx qpeek ?_
    rw [State.qInFile_of_le hst h]
    rfl
  · refine .of_perform hx qrecv ?_
    rw [State.qInFile_of_le hst h]
    rfl

end Sys2Proof.Machine
end

section
/-! PROOF. Branches, calls and returns, the software traps and EXIT (05 R141-R149, 12 R377; O5). -/

namespace Sys2Proof.Machine

/-! ## How a helm passes its word (05 R142) -/

section
variable {s : State} (hst : s.cur.st = .helm)
include hst

theorem State.mine_helm : s.mine = s.me.helm := by
  rw [s.mine_eq (by simp [hst]), hst]
  rfl

theorem State.nextStream_helm : s.nextStream = { s.me.helm.passed s.cur.pos s.me.time with pc := s.me.helmSt.npc } := by
  simp only [State.nextStream, hst, State.mine_helm hst, s.cyc_eq (show s.cur.st ≠ .crossing by simp [hst])]

theorem State.nextPipe_helm : s.nextPipe = { s.me.helmSt with npc := s.me.helmSt.nnpc, nnpc := s.me.helmSt.nnpc + 8 } := by
  simp only [State.nextPipe, hst]

theorem State.advance_helm : s.advance = s.modMe fun c => { c with helm := s.nextStream, helmSt := s.nextPipe } := by
  rw [State.SameStreams.advance ⟨rfl, fun _ => rfl, rfl, rfl, rfl, rfl⟩ (by simp [hst])]
  refine s.modMe_congr _ _ ?_
  simp only [State.passCore, hst]

theorem State.branchTo_helm (a : Word) : s.branchTo a = s.modMe fun c =>
    { c with helm := s.nextStream, helmSt := { c.helmSt with npc := c.helmSt.nnpc, nnpc := a } } := by
  refine s.modMe_congr _ _ ?_
  rw [State.nextStream_helm hst]
  rfl

end

section
variable {i : Instr} {s : State} {v : Verdict} {eff : State → State} {f : Core → Core} (hi : exec i s = s.perform v eff) (hv : v = .ok)
include hi hv

theorem Steers.of_perform {next : Word} {n : BitVec 2} {stack : List Word} (he : eff s = s.modMe f)
    (hf : f s.me = { s.me with helm := s.nextStream, helmSt := ⟨s.me.helmSt.nnpc, next, n, stack⟩ }) : Steers i s next n stack :=
  ⟨_, by rw [hi, State.perform_ok hv, he], .modMe' s f, by rw [State.me_modMe, hf]⟩

variable (hst : s.cur.st = .helm)
include hst

theorem Steers.of_branch {a b : Word} (he : eff s = s.branchTo a) (ha : a = b) : Steers i s b s.me.helmSt.ncount s.me.helmSt.shadow :=
  .of_perform hi hv (he.trans (State.branchTo_helm hst a)) (by rw [ha])

theorem Steers.of_call {a b : Word} {f : List Word → List Word} (he : eff s = (s.branchTo a).modMe fun c =>
    { c with helmSt := { c.helmSt with shadow := f c.helmSt.shadow } }) (ha : a = b) : Steers i s b s.me.helmSt.ncount (f s.me.helmSt.shadow) := by
  rw [State.branchTo_helm hst, State.modMe_modMe] at he
  exact .of_perform hi hv he (by rw [ha])

theorem Steers.of_advance (he : eff s = s.advance) : Steers i s (s.me.helmSt.nnpc + 8) s.me.helmSt.ncount s.me.helmSt.shadow := by
  rw [State.advance_helm hst] at he
  refine .of_perform hi hv he ?_
  rw [State.nextPipe_helm hst]

theorem Steers.of_annul (he : eff s = s.annul) : Steers i s (s.me.helmSt.nnpc + 8) 2 s.me.helmSt.shadow := by
  rw [State.annul, State.advance_helm hst, State.modMe_modMe] at he
  refine .of_perform hi hv he ?_
  rw [State.nextPipe_helm hst]

end

/-! ## Targets and checks (05 R141, R143, R147) -/

section
variable {s : State}

theorem State.target_eq (off : BitVec 30) : s.target off = s.mine.pc + BitVec.ofInt 64 (8 * off.toInt) := by
  rw [State.target, BitVec.ofInt_mul, BitVec.mul_comm]
  rfl

theorem State.inImage_iff {a : Word} : s.inImage a = true ↔
    isPurser s.cur.core = true ∨ (s.mine.base.toNat ≤ a.toNat ∧ a.toNat < s.mine.base.toNat + 8 * s.mine.words) := by
  rw [State.inImage, Bool.or_eq_true, decide_eq_true_iff]

theorem State.staysIn_ok {off : BitVec 30} (h : s.inImage (s.target off) = true) : s.staysIn off = .ok := by
  rw [State.staysIn, h]
  rfl

theorem State.staysIn_fault (hst : s.cur.st = .helm) {off : BitVec 30} (h : ¬ s.inImage (s.target off) = true) :
    s.staysIn off = .fault (cause 0 0 4) :=
  State.bad0_helm hst (by rw [Bool.eq_false_of_not_eq_true h]; rfl) _

theorem State.shadowRoom_ok (h : s.me.helmSt.shadow.length < 64) : s.shadowRoom = .ok := by
  rw [State.shadowRoom, decide_eq_false (not_le.2 h)]
  rfl

theorem State.shadowRoom_fault (hst : s.cur.st = .helm) (h : 64 ≤ s.me.helmSt.shadow.length) : s.shadowRoom = .fault (cause 0 0 4) :=
  State.bad0_helm hst (decide_eq_true h) _

end

/-! ## TRAP, SYSCALL and EXIT (05 R148, R149, 12 R377) -/

section
variable {i : Instr} {s : State} (hst : s.cur.st = .helm)
include hst

theorem Calls.of_perform {v : Verdict} {code : Nat} {stat : BitVec 32}
    (hi : exec i s = s.perform v fun s => s.advance.faultWith { s.info code with stat := stat }) (hv : v = .ok) : Calls i s code stat := by
  have passed : s.advance.cur = s.cur := by rw [State.advance_helm hst]; rfl
  rw [State.perform_ok hv, State.faultWith_of_core (by simp [passed, hst])] at hi
  have raised (t : TrapInfo) : s.advance.raiseAt s.advance.cur.core t = s.modMe fun c =>
      { c with helm := s.nextStream, helmSt := s.nextPipe, raised := c.raised ++ [t] } := by
    rw [State.advance_helm hst]
    exact State.modMe_modMe _ _ fun c => { c with raised := c.raised ++ [t] }
  rw [raised] at hi
  exact ⟨_, hi, .modMe' s _, by rw [State.me_modMe]⟩

omit hst in
theorem exec_exit_waits (h : s.stalls = true) (owes : s.me.owesExit = true) : exec .exit s = .next s := by
  rw [exec, execExit, h, owes]
  rfl

omit hst in
theorem exec_exit_goes (h : s.stalls = false ∨ s.me.owesExit = false) : exec .exit s = .next (s.advance.modMe fun c => { c with
    helm := { c.helm with ended := true }
    accesses := c.accesses.filter fun a => match a.kind with | .load _ _ => false | _ => true }) := by
  have goes : (s.stalls && s.me.owesExit) = false := by rwa [Bool.and_eq_false_iff]
  rw [exec, execExit, goes, if_neg Bool.false_ne_true]
  rfl

theorem becomes_exit (h : s.stalls = false ∨ s.me.owesExit = false) : Becomes .exit s fun c => { c with
    helm := { c.helm with ended := true }
    accesses := c.accesses.filter fun a => match a.kind with | .load _ _ => false | _ => true } := by
  refine ⟨_, exec_exit_goes h, ?_, ?_⟩ <;> rw [State.advance_helm hst, State.modMe_modMe]
  · exact .modMe' s _
  · rw [State.me_modMe]

end

/-- Settles O5: each word's checks by what they name, and how the helm passes its word in each of its ways. -/
theorem transferResults : Obligations.TransferResults := by
  unfold Obligations.TransferResults
  refine ⟨fun s pr off ra hst => ?_, fun s imm n hst => ?_⟩
  · intro h target inside takes passes back bad
    have hx : s.cur.st ≠ .crossing := by simp [hst]
    have ht : s.target off = target := State.target_eq off
    have hin : s.inImage (s.target off) = true ↔ inside := by rw [ht]; exact State.inImage_iff
    have call : exec (.call off) s = s.perform (verdicts [s.staysIn off, s.shadowRoom]) fun s => (s.branchTo (s.target off)).modMe fun c =>
      { c with helmSt := { c.helmSt with shadow := (s.mine.pc + 24) :: c.helmSt.shadow } } := rfl
    have callr : exec (.callr ra) s = execCallr ra s := rfl
    have ret : exec .ret s = execRet s := rfl
    have br : exec (.br off) s = execBr off s := rfl
    refine ⟨fun inside => ?_, fun outside => ?_, .of_branch (show exec (.jmpr ra) s = execJmpr ra s from rfl) rfl hst rfl rfl, fun room => ?_, fun none => ⟨?_, ?_⟩,
      fun none => ?_, fun a l some => ?_⟩
    · have stays := State.staysIn_ok (hin.2 inside)
      refine ⟨.of_branch br stays hst rfl ht, fun room => ?_, fun full => ?_⟩
      · exact .of_call (f := List.cons back) call (by rw [stays, State.shadowRoom_ok room]; rfl) hst rfl ht
      · have ok : verdicts [s.needP pr, s.staysIn off] = .ok := by rw [State.needP_of_full full, stays]; rfl
        refine ⟨fun on => ?_, fun off_ => ?_⟩
        · exact ⟨.of_branch (exec_brt ..) ok hst (if_pos on) ht, .of_advance (exec_brf ..) ok hst (if_pos on),
            .of_branch (exec_brtn ..) ok hst (if_pos on) ht, .of_annul (exec_brfn ..) ok hst (if_pos on)⟩
        · rw [← Bool.not_eq_true] at off_
          exact ⟨.of_advance (exec_brt ..) ok hst (if_neg off_), .of_branch (exec_brf ..) ok hst (if_neg off_) ht,
            .of_annul (exec_brtn ..) ok hst (if_neg off_), .of_branch (exec_brfn ..) ok hst (if_neg off_) ht⟩
    · have leaves := State.staysIn_fault hst (mt hin.1 outside)
      refine ⟨.of_perform hx br leaves, .of_perform hx call (by rw [leaves]; rfl), fun full => ?_⟩
      have fault : verdicts [s.needP pr, s.staysIn off] = .fault bad := by rw [State.needP_of_full full, leaves]; rfl
      simp only [List.forall_mem_cons, List.not_mem_nil, false_imp_iff, implies_true, and_true]
      exact ⟨.of_perform hx (exec_brt ..) fault, .of_perform hx (exec_brf ..) fault, .of_perform hx (exec_brtn ..) fault,
        .of_perform hx (exec_brfn ..) fault⟩
    · exact .of_call (f := List.cons back) callr (State.shadowRoom_ok room) hst rfl rfl
    · exact .of_perform hx callr (State.shadowRoom_fault hst none)
    · refine .of_perform hx call ?_
      by_cases inside : s.inImage (s.target off) = true
      · rw [State.staysIn_ok inside, State.shadowRoom_fault hst none]; rfl
      · rw [State.staysIn_fault hst inside]; rfl
    · exact .of_perform hx ret (State.bad0_helm hst (by rw [show s.me.helmSt.shadow = [] from none]; rfl) _)
    · have top : s.me.helmSt.shadow = a :: l := some
      have := Steers.of_call (f := List.tail) ret (by rw [top]; rfl) hst rfl (b := a) (by rw [top]; rfl)
      rwa [top] at this
  · refine ⟨Calls.of_perform hst rfl rfl, fun ok user => Calls.of_perform hst rfl ?_, fun bad => ?_, exec_exit_waits, becomes_exit hst⟩
    · rw [ok, user]
      rfl
    · refine .of_perform (by simp [hst]) (show exec (.syscall n) s = execSyscall n s from rfl) (State.bad0_helm hst ?_ _)
      rwa [Bool.or_eq_true, Option.isSome_iff_ne_none]

end Sys2Proof.Machine
end

section
/-! PROOF. Loads, stores and atomics at issue (05 R150-R153, 09 R273, R280, R286, 13 R395; O6), and the rule of an access sent on its way. -/

namespace Sys2Proof.Machine

/-! ## Checks that the words of accesses share (05 R152, 13 R395) -/

section
variable {s : State}

theorem State.roomForAccess_ok (h : s.me.outstanding < 32) : s.roomForAccess = .ok := (need_ok_iff _ _).2 (decide_eq_true h)

theorem State.roomForAccess_wait (h : 32 ≤ s.me.outstanding) : s.roomForAccess = .wait (cause 2 0 2) := by
  rw [Core.outstanding] at h
  rw [State.roomForAccess, decide_eq_false (not_lt.2 h)]
  rfl

theorem State.noPhase_ok (h : s.me.inPhase = false) : s.noPhase = .ok := (bad0_ok_iff _ _ _).2 h

theorem State.noPhase_fault (hst : s.cur.st = .helm) (h : s.me.inPhase = true) : s.noPhase = .fault (cause 0 0 2) := State.bad0_helm hst h _

end

/-! ## An access sent on its way -/

theorem bondBroken_iff {bs : List Bond} {a n : Nat} : bondBroken bs a n = true ↔ Breaks bs a n := by
  simp [bondBroken, Breaks, overlaps]

section
variable {s : State} {k : AccKind} {va : Word}

theorem State.issueFault_of_not_mstore (hk : ∀ g, k ≠ .mstore g) :
    s.issueFault k va = if k.writes && bondBroken s.me.bonds va.toNat k.width then some (cause 1 k.axis bondC) else none := by
  cases k with
  | mstore g => exact absurd rfl (hk g)
  | _ => rfl

theorem State.issueFault_mstore (g : Nat) : s.issueFault (.mstore g) va = if s.Unreachable g = true then some (cause 1 6 2) else none := by
  cases home : (s.group g).home with
  | none => simp [State.issueFault, State.Unreachable, home]
  | some pk => simp [State.issueFault, State.Unreachable, home, mstoreA, unreachC]

theorem AccKind.not_mstore_of_writes (h : k.writes = true) (g : Nat) : k ≠ .mstore g := by
  rintro rfl
  exact absurd h Bool.false_ne_true

variable (s k va) in
/-- The access that `State.startAccess` adds. -/
def State.accessSent (ac : BitVec 3) (rd : SReg) (v c : Word) (pool : Pool) : Access :=
  { id := s.me.nextAcc, kind := k, va := va, ac := ac, rd := rd, v := v, c := c, issued := s.cyc, pos := s.cur.pos
    window := match k with | .mstore g => if s.mstoreFar g then 1048576 else 512 | _ => 512
    xlatAt := s.choice (s.cyc + 1) (s.cyc + s.xlatBound (tileOf s.cur.core) (s.ctxOf s.cur.core) va.toNat)
    fault := (s.issueFault k va).map fun code => { s.info code with va := va, cmd := s.mine.pc.toNat % 2 ^ 48 }
    fenceNo := s.me.fences, tick := s.now, pc := s.mine.pc, step := s.mine.step
    bounded := match k with | .mstore g => s.mstoreBound g | _ => false
    bank := s.me.handler.isSome, pool := pool }

theorem State.startAccess_eq (s : State) (k : AccKind) (va : Word) (ac : BitVec 3) (rd : SReg) (v c : Word) (pool : Pool) :
    s.startAccess k va ac rd v c pool = s.chosen.modMe fun x =>
      { x with accesses := x.accesses ++ [s.accessSent k va ac rd v c pool], nextAcc := x.nextAcc + 1 } := rfl

theorem State.xlatBound_pos (s : State) (t c a : Nat) : 1 ≤ s.xlatBound t c a := by
  unfold State.xlatBound
  split <;> omega

theorem State.sent_accessSent {ac : BitVec 3} {rd : SReg} {v c : Word} (hk : ∀ j, k ≠ .launch j) :
    s.Sent (s.accessSent k va ac rd v c .none) k va ac rd v c where
  shape := rfl
  pool := by
    cases k with
    | launch j => exact absurd rfl (hk j)
    | _ => rfl
  soon := by
    have bound := s.xlatBound_pos (tileOf s.cur.core) (s.ctxOf s.cur.core) va.toNat
    exact s.choice_bounds (by omega)
  clear plain whole := by
    have none : (k.writes && bondBroken s.me.bonds va.toNat k.width) = false := by
      rw [Bool.and_eq_false_iff, ← Bool.not_eq_true (bondBroken _ _ _), bondBroken_iff]
      obtain h | rfl | h := whole
      · exact .inl h
      · exact .inl rfl
      · exact .inr h
    simp only [State.accessSent, State.issueFault_of_not_mstore plain, none, Bool.false_eq_true, if_false, Option.map_none]
  broken writes _ breaks := by
    have plain := AccKind.not_mstore_of_writes writes
    simp only [State.accessSent, State.issueFault_of_not_mstore plain, writes, bondBroken_iff.2 breaks, Bool.and_self, if_true, Option.map_some]
    rfl
  reaches g hg reach := by
    subst hg
    simp only [State.accessSent, State.issueFault_mstore, reach, Bool.false_eq_true, if_false, Option.map_none]
  lost g hg away := by
    subst hg
    simp only [State.accessSent, State.issueFault_mstore, away, if_true, Option.map_some]

theorem Sends.of_perform {i : Instr} {ver : Verdict} {eff : State → State} {ac : BitVec 3} {rd : SReg} {v c : Word} (hst : s.cur.st = .helm)
    (hi : exec i s = s.perform ver eff) (hv : ver = .ok) (he : eff s = (s.startAccess k va ac rd v c).advance) (hk : ∀ j, k ≠ .launch j) :
    Sends i s k va ac rd v c := by
  rw [State.startAccess_eq] at he
  have start : s.Alone s.chosen := ⟨rfl, fun _ _ => rfl⟩
  have same : s.SameStreams (s.chosen.modMe fun x =>
      { x with accesses := x.accesses ++ [s.accessSent k va ac rd v c .none], nextAcc := x.nextAcc + 1 }) := by
    refine ⟨rfl, fun st => ?_, ?_, ?_, ?_, ?_⟩ <;> rw [State.me_modMe]
    · cases st <;> rfl
    all_goals rfl
  rw [same.advance (by simp [hst])] at he
  refine ⟨_, s.accessSent k va ac rd v c .none, by rw [hi, State.perform_ok hv, he], (start.modMe rfl _).modMe rfl _, State.sent_accessSent hk, ?_⟩
  rw [State.me_modMe, State.me_modMe]
  simp only [State.passCore, hst]
  rfl

end

/-! ## The words, by their kind -/

theorem State.load_eq (s : State) (o : HMem) (w : Nat) (sg : Bool) :
    s.load o w sg = s.perform (verdicts [s.roomForAccess, s.bad0 (decide ((s.hmemVa o).toNat % w ≠ 0)) alignC]) fun t =>
      (t.startAccess (.load w sg) (s.hmemVa o) o.ac o.rt 0 0).advance := rfl

theorem State.store_eq (s : State) (o : HMem) (w : Nat) :
    s.store o w = s.perform (verdicts [s.roomForAccess, s.noPhase, s.bad0 (decide ((s.hmemVa o).toNat % w ≠ 0)) alignC]) fun t =>
      (t.startAccess (.store w) (s.hmemVa o) o.ac 0 (t.sr o.rt) 0).advance := rfl

theorem State.atomic_eq (s : State) (k : AccKind) (rd ra rb : SReg) :
    s.atomic k rd ra rb = s.perform (verdicts [s.roomForAccess, s.noPhase, s.bad0 (decide ((s.sr ra).toNat % k.width ≠ 0)) alignC]) fun t =>
      (t.startAccess k (s.sr ra) 0 rd (t.sr rb) (t.sr rd)).advance := rfl

section
variable {i : Instr} {s : State} {eff : State → State} (hst : s.cur.st = .helm)
include hst

section
variable {o : HMem} {w : Nat} {sg : Bool} (hi : exec i s = s.load o w sg)
include hi

theorem sends_of_load (room : s.me.outstanding < 32) (aligned : (s.hmemVa o).toNat % w = 0) :
    Sends i s (.load w sg) (s.hmemVa o) o.ac o.rt 0 0 :=
  .of_perform hst (hi.trans (s.load_eq o w sg)) (by simp [State.roomForAccess_ok room, aligned]) rfl nofun

theorem traps_of_load (room : s.me.outstanding < 32) (odd : (s.hmemVa o).toNat % w ≠ 0) : Traps i s (cause 0 0 3) :=
  .of_perform (by simp [hst]) (hi.trans (s.load_eq o w sg))
    (by rw [State.roomForAccess_ok room, State.bad0_helm hst (decide_eq_true odd)]; rfl)

theorem stalls_of_load (none : 32 ≤ s.me.outstanding) : Stalls i s (cause 2 0 2) :=
  .of_perform (by simp [hst]) (hi.trans (s.load_eq o w sg)) (by rw [State.roomForAccess_wait none]; rfl)

end

/-! Stores and atomics have the same checks. -/

section
variable {v : Verdict}

theorem stalls_of_room (hi : exec i s = s.perform (verdicts [s.roomForAccess, s.noPhase, v]) eff) (none : 32 ≤ s.me.outstanding) :
    Stalls i s (cause 2 0 2) :=
  .of_perform (by simp [hst]) hi (by rw [State.roomForAccess_wait none]; rfl)

theorem traps_of_phase (hi : exec i s = s.perform (verdicts [s.roomForAccess, s.noPhase, v]) eff) (room : s.me.outstanding < 32)
    (inside : s.me.inPhase = true) : Traps i s (cause 0 0 2) :=
  .of_perform (by simp [hst]) hi (by rw [State.roomForAccess_ok room, State.noPhase_fault hst inside]; rfl)

end

section
variable {va : Word} {w : Nat} (hi : exec i s = s.perform (verdicts [s.roomForAccess, s.noPhase, s.bad0 (decide (va.toNat % w ≠ 0)) alignC]) eff)
  (room : s.me.outstanding < 32) (out : s.me.inPhase = false)
include hi room out

theorem sends_of_aligned {k : AccKind} {ac : BitVec 3} {rd : SReg} {v c : Word} (he : eff s = (s.startAccess k va ac rd v c).advance)
    (hk : ∀ j, k ≠ .launch j) (aligned : va.toNat % w = 0) : Sends i s k va ac rd v c :=
  .of_perform hst hi (by simp [State.roomForAccess_ok room, State.noPhase_ok out, aligned]) he hk

theorem traps_of_misaligned (odd : va.toNat % w ≠ 0) : Traps i s (cause 0 0 3) :=
  .of_perform (by simp [hst]) hi (by rw [State.roomForAccess_ok room, State.noPhase_ok out, State.bad0_helm hst (decide_eq_true odd)]; rfl)

end
end

/-- Settles O6: the words of a kind have one meaning, with their width. -/
theorem accessIssue : Obligations.AccessIssue := by
  unfold Obligations.AccessIssue
  intro s o rd ra rb hst va loads stores atomics
  have load : ∀ p ∈ loads, exec p.1 s = s.load o p.2.1 p.2.2 := by
    simp only [loads, List.forall_mem_cons, List.not_mem_nil, false_imp_iff, implies_true, and_true]
    exact ⟨rfl, rfl, rfl, rfl, rfl, rfl, rfl⟩
  have store : ∀ p ∈ stores, exec p.1 s = s.store o p.2 := by
    simp only [stores, List.forall_mem_cons, List.not_mem_nil, false_imp_iff, implies_true, and_true]
    exact ⟨rfl, rfl, rfl, rfl⟩
  have atomic : ∀ p ∈ atomics, exec p.1 s = s.atomic p.2.1 rd ra rb ∧ p.2.1.width = p.2.2 ∧ ∀ j, p.2.1 ≠ .launch j := by
    simp only [atomics, List.forall_mem_cons, List.not_mem_nil, false_imp_iff, implies_true, and_true]
    exact ⟨⟨rfl, rfl, nofun⟩, ⟨rfl, rfl, nofun⟩, ⟨rfl, rfl, nofun⟩, ⟨rfl, rfl, nofun⟩, ⟨rfl, rfl, nofun⟩, ⟨rfl, rfl, nofun⟩, rfl, rfl, nofun⟩
  have stored p (hp : p ∈ stores) := (store p hp).trans (s.store_eq o p.2)
  have done p (hp : p ∈ atomics) := (atomic p hp).1.trans (s.atomic_eq p.2.1 rd ra rb)
  refine ⟨fun room => ⟨fun p hp => ?_, fun out => ⟨fun p hp => ?_, fun p hp => ?_⟩, fun inside => ⟨fun p hp => ?_, fun p hp => ?_⟩⟩,
    fun none => ⟨fun p hp => ?_, fun p hp => ?_, fun p hp => ?_⟩⟩
  · exact ⟨sends_of_load hst (load p hp) room, traps_of_load hst (load p hp) room⟩
  · exact ⟨sends_of_aligned hst (stored p hp) room out rfl nofun, traps_of_misaligned hst (stored p hp) room out⟩
  · obtain ⟨-, width, kind⟩ := atomic p hp
    rw [← width]
    exact ⟨sends_of_aligned hst (done p hp) room out rfl kind, traps_of_misaligned hst (done p hp) room out⟩
  · exact traps_of_phase hst (stored p hp) room inside
  · exact traps_of_phase hst (done p hp) room inside
  · exact stalls_of_load hst (load p hp) none
  · exact stalls_of_room hst (stored p hp) none
  · exact stalls_of_room hst (done p hp) none

end Sys2Proof.Machine
end

section
/-! PROOF. QSEND, MSTORE and MWAIT at issue (05 R157, 09 R286, R291, 13 R395; O9). -/

namespace Sys2Proof.Machine

/-! ## QSEND (05 R157) -/

theorem coreOfWord_place {x y : Nat} (hx : x < 64) (hy : y < 32) : coreOfWord (x + 256 * y) = some (coreAt x y) := by
  rw [coreOfWord, if_pos (by omega), show (x + 256 * y) % 64 = x by omega, show (x + 256 * y) / 256 = y by omega]

theorem place_of_coreOfWord {v c : Nat} (h : coreOfWord v = some c) : ∃ x y, x < 64 ∧ y < 32 ∧ v = x + 256 * y ∧ c = coreAt x y := by
  rw [coreOfWord, Option.ite_none_right_eq_some] at h
  obtain ⟨⟨high, gap, low⟩, place⟩ := h
  exact ⟨v % 64, v / 256, by omega, by omega, by omega, (Option.some.inj place).symm⟩

theorem qsend_due (n src dst : Nat) : n + qsendLatency src dst - 1 =
    n + if tileOf src = tileOf dst then 31 else 63 + 32 * ((tileOf dst + 8 - tileOf src) % 8) := by
  rw [qsendLatency, hops]
  split <;> omega

/-- The QSENDs of the issuing core that count against its 32. -/
def State.flying (s : State) : Nat := (s.qsends.filter fun x => x.src == s.cur.core && !x.waiting).length

/-- The value of a QSEND on its way to core `dst`. -/
def State.sendsValue (s : State) (qn rb : SReg) (dst : Nat) : State :=
  { s with qsends := s.qsends ++ [{ id := s.nextQ, src := s.cur.core, dst := dst, q := qField qn, v := s.sr rb
                                    due := (s.core dst).cyc + qsendLatency s.cur.core dst - 1 }], nextQ := s.nextQ + 1 }

theorem exec_qsend (s : State) (qn ra rb : SReg) : exec (.qsend qn ra rb) s =
    s.perform (verdicts [s.qInFile qn, need (decide (s.flying < 32)) (cause2 .helm fullC), s.noPhase,
      s.bad0 (!(match coreOfWord (s.sr ra).toNat with | some c => s.inLaunch c | none => false)) rangeC])
      fun t => (t.sendsValue qn rb ((coreOfWord (s.sr ra).toNat).getD 0)).advance := rfl

section
variable {s : State} {qn ra rb : SReg} (hst : s.cur.st = .helm)
include hst

theorem traps_qsend_outOfFile (h : 32 ≤ qn.toNat) : Traps (.qsend qn ra rb) s (cause 0 0 2) :=
  .of_perform (by simp [hst]) (exec_qsend ..) (by rw [State.qInFile_of_le hst h]; rfl)

variable (file : qn.toNat < 32)
include file

theorem stalls_qsend (h : 32 ≤ s.flying) : Stalls (.qsend qn ra rb) s (cause 2 0 2) :=
  .of_perform (by simp [hst]) (exec_qsend ..) (by rw [State.qInFile_of_lt file, decide_eq_false (not_lt.2 h)]; rfl)

variable (room : s.flying < 32)
include room

theorem traps_qsend (h : s.me.inPhase = true ∨
    ∀ u v, u < 64 → v < 32 → (s.sr ra).toNat = u + 256 * v → s.inLaunch (coreAt u v) = false) : Traps (.qsend qn ra rb) s (cause 0 0 2) := by
  refine .of_perform (by simp [hst]) (exec_qsend ..) ?_
  rw [State.qInFile_of_lt file, decide_eq_true room]
  cases inside : s.me.inPhase with
  | true => rw [State.noPhase_fault hst inside]; rfl
  | false =>
    have none := h.resolve_left (by simp [inside])
    rw [State.noPhase_ok inside, State.bad0_helm hst]
    · rfl
    · cases place : coreOfWord (s.sr ra).toNat with
      | none => rfl
      | some c =>
        obtain ⟨x, y, hx, hy, at_, rfl⟩ := place_of_coreOfWord place
        simp [none x y hx hy at_]

theorem qsend_sends {c : Nat} (out : s.me.inPhase = false) (place : coreOfWord (s.sr ra).toNat = some c) (held : s.inLaunch c = true) :
    ∃ t, exec (.qsend qn ra rb) s = .next t ∧ s.Passed t ∧ t = { s.sendsValue qn rb c with cores := t.cores } := by
  have same : s.SameStreams (s.sendsValue qn rb c) := ⟨rfl, fun _ => rfl, rfl, rfl, rfl, rfl⟩
  have hx : s.cur.st ≠ .crossing := by simp [hst]
  refine ⟨(s.sendsValue qn rb c).advance, ?_, same.passed hx, by rw [same.advance hx]; rfl⟩
  rw [exec_qsend, State.perform_ok, place]
  · rfl
  · rw [State.qInFile_of_lt file, decide_eq_true room, State.noPhase_ok out]
    simp [place, held]

end

/-! ## MSTORE (09 R286) -/

theorem exec_mstore (s : State) (rd ra rb : SReg) : exec (.mstore rd ra rb) s =
    s.perform (verdicts [s.roomForAccess, s.noPhase, s.bad0 (decide (64 ≤ (s.sr rb).toNat)) rangeC,
      bar (!(s.group (s.sr rb).toNat).valid || !(s.group (s.sr rb).toNat).bound s.now) (cause 1 mstoreA notMappedC),
      bar (!(s.group (s.sr rb).toNat).ownedBy (s.ctxOf s.cur.core)) (cause 1 mstoreA permC),
      s.bad0 (!(s.group (s.sr rb).toNat).append && decide ((s.sr ra).toNat % 8 ≠ 0)) alignC,
      s.bad0 (if (s.group (s.sr rb).toNat).append then decide ((s.sr ra).toNat ≠ 0)
        else decide (2 ^ (s.group (s.sr rb).toNat).lsz ≤ (s.sr ra).toNat)) rangeC])
      fun t => (t.startAccess (.mstore (s.sr rb).toNat) (s.sr ra) 0 0 (t.sr rd) 0).advance := rfl

section
variable {s : State} {rd ra rb : SReg} (hst : s.cur.st = .helm)
include hst

theorem stalls_mstore (none : 32 ≤ s.me.outstanding) : Stalls (.mstore rd ra rb) s (cause 2 0 2) :=
  .of_perform (by simp [hst]) (exec_mstore ..) (by rw [State.roomForAccess_wait none]; rfl)

theorem traps_mstore_inPhase (room : s.me.outstanding < 32) (inside : s.me.inPhase = true) : Traps (.mstore rd ra rb) s (cause 0 0 2) :=
  .of_perform (by simp [hst]) (exec_mstore ..) (by rw [State.roomForAccess_ok room, State.noPhase_fault hst inside]; rfl)

variable (room : s.me.outstanding < 32) (out : s.me.inPhase = false)
include room out

theorem traps_mstore_noGroup (none : 64 ≤ (s.sr rb).toNat) : Traps (.mstore rd ra rb) s (cause 0 0 2) :=
  .of_perform (by simp [hst]) (exec_mstore ..)
    (by rw [State.roomForAccess_ok room, State.noPhase_ok out, State.bad0_helm hst (decide_eq_true none)]; rfl)

variable {g : Group} (named : (s.sr rb).toNat < 64) (hg : s.group (s.sr rb).toNat = g)
include named hg

theorem traps_mstore_unbound (h : g.valid = false ∨ g.bound s.now = false) : Traps (.mstore rd ra rb) s (cause 1 6 0) := by
  have unbound : (!g.valid || !g.bound s.now) = true := by simpa using h
  refine .of_perform (by simp [hst]) (exec_mstore ..) ?_
  rw [State.roomForAccess_ok room, State.noPhase_ok out, decide_eq_false (not_le.2 named), hg, unbound]
  rfl

variable (valid : g.valid = true) (bound : g.bound s.now = true)
include valid bound

theorem traps_mstore_notOwned (h : g.ownedBy (s.ctxOf s.cur.core) = false) : Traps (.mstore rd ra rb) s (cause 1 6 1) := by
  refine .of_perform (by simp [hst]) (exec_mstore ..) ?_
  rw [State.roomForAccess_ok room, State.noPhase_ok out, decide_eq_false (not_le.2 named), hg, valid, bound, h]
  rfl

variable (owned : g.ownedBy (s.ctxOf s.cur.core) = true)
include owned

omit hst in
/-- The last two checks of R286, of the offset. -/
theorem exec_mstore_granted : exec (.mstore rd ra rb) s =
    s.perform (verdicts [s.bad0 (!g.append && decide ((s.sr ra).toNat % 8 ≠ 0)) alignC,
      s.bad0 (if g.append then decide ((s.sr ra).toNat ≠ 0) else decide (2 ^ g.lsz ≤ (s.sr ra).toNat)) rangeC])
      fun t => (t.startAccess (.mstore (s.sr rb).toNat) (s.sr ra) 0 0 (t.sr rd) 0).advance := by
  rw [exec_mstore, State.roomForAccess_ok room, State.noPhase_ok out, decide_eq_false (not_le.2 named), hg, valid, bound, owned]
  rfl

theorem sends_mstore (aligned : g.append = false → (s.sr ra).toNat % 8 = 0 ∧ (s.sr ra).toNat < 2 ^ g.lsz)
    (first : g.append = true → (s.sr ra).toNat = 0) : Sends (.mstore rd ra rb) s (.mstore (s.sr rb).toNat) (s.sr ra) 0 0 (s.sr rd) 0 := by
  refine .of_perform hst (exec_mstore_granted room out named hg valid bound owned) ?_ rfl nofun
  cases append : g.append with
  | false =>
    obtain ⟨even, below⟩ := aligned append
    simp [even, not_le.2 below]
  | true => simp [first append]

theorem traps_mstore_misaligned (append : g.append = false) (odd : (s.sr ra).toNat % 8 ≠ 0) : Traps (.mstore rd ra rb) s (cause 0 0 3) := by
  refine .of_perform (by simp [hst]) (exec_mstore_granted room out named hg valid bound owned) ?_
  rw [append, State.bad0_helm hst (by simpa using odd)]
  rfl

theorem traps_mstore_outside (append : g.append = false) (even : (s.sr ra).toNat % 8 = 0) (outside : 2 ^ g.lsz ≤ (s.sr ra).toNat) :
    Traps (.mstore rd ra rb) s (cause 0 0 2) := by
  refine .of_perform (by simp [hst]) (exec_mstore_granted room out named hg valid bound owned) ?_
  rw [append, decide_eq_false (not_not.2 even), if_neg Bool.false_ne_true, State.bad0_helm hst (decide_eq_true outside)]
  rfl

theorem traps_mstore_later (append : g.append = true) (later : (s.sr ra).toNat ≠ 0) : Traps (.mstore rd ra rb) s (cause 0 0 2) := by
  refine .of_perform (by simp [hst]) (exec_mstore_granted room out named hg valid bound owned) ?_
  rw [append, if_pos rfl, State.bad0_helm hst (decide_eq_true later)]
  rfl

end

/-! ## MWAIT (09 R291) -/

/-- The member of a granted group that MWAIT reads. -/
def State.waitsAs (s : State) (g : Group) : Option Nat := if g.valid then s.memberHere g else none

theorem exec_mwait (s : State) (ra : SReg) (gi : BitVec 25) : exec (.mwait ra gi) s =
    s.perform (verdicts [s.bad0 (decide (64 ≤ gi.toNat)) rangeC, s.bad0 (decide (2 ^ 48 ≤ (s.sr ra).toNat)) rangeC,
      s.bad0 (s.waitsAs (s.group gi.toNat)).isNone rangeC,
      need (decide ((s.sr ra).toNat ≤ (s.group gi.toNat).appliedOf ((s.waitsAs (s.group gi.toNat)).getD 0))) (cause2 .helm emptyC)])
      State.advance := rfl

section
variable {s : State} {ra : SReg} {gi : BitVec 25} (hst : s.cur.st = .helm)
include hst

theorem mwait_member {g : Group} {m : Nat} (named : gi.toNat < 64) (small : (s.sr ra).toNat < 2 ^ 48) (hg : s.group gi.toNat = g)
    (valid : g.valid = true) (member : s.memberHere g = some m) :
    ((s.sr ra).toNat ≤ g.appliedOf m → Gives (.mwait ra gi) s []) ∧
      (g.appliedOf m < (s.sr ra).toNat → Stalls (.mwait ra gi) s (cause 2 0 0)) := by
  have as : s.waitsAs g = some m := by rw [State.waitsAs, if_pos valid, member]
  have checks := exec_mwait s ra gi
  rw [decide_eq_false (not_le.2 named), decide_eq_false (not_le.2 small), hg, as] at checks
  refine ⟨fun applied => ⟨_, checks.trans (State.perform_ok ?_ _), s.issued_pass (by simp [hst])⟩, fun behind => .of_perform (by simp [hst]) checks ?_⟩
  · simpa using applied
  · rw [Option.getD_some, decide_eq_false (not_le.2 behind)]
    rfl

theorem traps_mwait (h : 64 ≤ gi.toNat ∨ 2 ^ 48 ≤ (s.sr ra).toNat ∨ (s.group gi.toNat).valid = false ∨ s.memberHere (s.group gi.toNat) = none) :
    Traps (.mwait ra gi) s (cause 0 0 2) := by
  refine .of_perform (by simp [hst]) (exec_mwait ..) ?_
  by_cases outside : 64 ≤ gi.toNat
  · rw [State.bad0_helm hst (decide_eq_true outside)]
    rfl
  by_cases large : 2 ^ 48 ≤ (s.sr ra).toNat
  · rw [decide_eq_false outside, State.bad0_helm hst (decide_eq_true large)]
    rfl
  have none : (s.waitsAs (s.group gi.toNat)).isNone = true := by
    have := (h.resolve_left outside).resolve_left large
    rw [State.waitsAs]
    split
    · rw [this.resolve_left (by simp [*])]
      rfl
    · rfl
  rw [decide_eq_false outside, decide_eq_false large, State.bad0_helm hst none]
  rfl

end

/-- Settles O9: each word's checks in their order, and what it sends when all pass. -/
theorem sendWords : Obligations.SendWords := by
  unfold Obligations.SendWords
  intro s rd ra rb g x y hst dst src ns off gr gw flying
  refine ⟨traps_qsend_outOfFile hst, stalls_qsend hst, traps_qsend hst, fun hx hy at_ file out held room => ?_, stalls_mstore hst,
    traps_mstore_inPhase hst, fun room out => ⟨traps_mstore_noGroup hst room out, fun named valid bound owned => ⟨?_, ?_, ?_, ?_, ?_⟩,
      fun named => traps_mstore_unbound hst room out named rfl, fun named => traps_mstore_notOwned hst room out named rfl⟩,
    fun m named small valid member => mwait_member hst named small rfl valid member, traps_mwait hst⟩
  · have place : coreOfWord (s.sr ra).toNat = some dst := by rw [at_, coreOfWord_place hx hy]
    rw [← qsend_due]
    exact qsend_sends hst file room out place held
  · exact fun append even below => sends_mstore hst room out named rfl valid bound owned (fun _ => ⟨even, below⟩)
      fun yes => absurd (append.symm.trans yes) Bool.false_ne_true
  · exact fun append first => sends_mstore hst room out named rfl valid bound owned (fun no => absurd (no.symm.trans append) Bool.false_ne_true)
      fun _ => first
  · exact traps_mstore_misaligned hst room out named rfl valid bound owned
  · exact traps_mstore_outside hst room out named rfl valid bound owned
  · exact traps_mstore_later hst room out named rfl valid bound owned

end Sys2Proof.Machine
end

section
/-! PROOF. The stream-control words of the vector, matrix and copy streams, NOP, and a word that is none (05 R163-R170, 06 R180; O35). -/

namespace Sys2Proof.Machine

/-! ## The issuing stream put elsewhere -/

/-- The word moves its own stream alone, to `next`, and puts `effs` in flight to land with its issue. -/
def GoesTo (i : Instr) (s : State) (next : StreamSt) (effs : List Eff) : Prop :=
  ∃ t, exec i s = .next t ∧ s.Alone t ∧ t.mine = next ∧ (∀ d, d ≠ s.cur.st → t.me.stream d = s.me.stream d) ∧ s.me.SameFiles t.me ∧
    t.me.flights = s.me.flights ++ effs.map (s.flight 1)

theorem Core.setStream_setStream (c : Core) (st : Stream) (x y : StreamSt) : (c.setStream st x).setStream st y = c.setStream st y := by
  cases st <;> rfl

theorem Core.flights_setStream (c : Core) (st : Stream) (x : StreamSt) : (c.setStream st x).flights = c.flights := by
  cases st <;> rfl

/-- A core with `effs` in flight from the issuing word, to land with its issue. -/
def State.withEffs (s : State) (effs : List Eff) (c : Core) : Core := { c with flights := c.flights ++ effs.map (s.flight 1) }

theorem State.stream_withEffs (s : State) (effs : List Eff) (c : Core) (st : Stream) : (s.withEffs effs c).stream st = c.stream st := by
  cases st <;> rfl

section
variable {s : State} (hx : s.cur.st ≠ .crossing)
include hx

theorem State.emit_emit (lat : Nat) (a b : List Eff) : (s.emit lat a).emit lat b = s.emit lat (a ++ b) := by
  have same : s.SameStreams (s.emit lat a) := .emit ⟨rfl, fun _ => rfl, rfl, rfl, rfl, rfl⟩ lat a
  rw [State.emit, State.emit, State.modMe_modMe, State.emit]
  refine s.modMe_congr _ _ ?_
  rw [List.map_append, ← List.append_assoc, ← State.emit, funext (same.flight hx lat)]

theorem State.modMine_emit (effs : List Eff) (f : StreamSt → StreamSt) :
    (s.emit 1 effs).modMine f = s.modMe fun c => (s.withEffs effs c).modStream s.cur.st f := by
  rw [State.modMine_of_core (s := s.emit 1 effs) hx, State.emit, State.modMe_modMe]
  rfl

theorem GoesTo.of_emit {i : Instr} {f : StreamSt → StreamSt} {next : StreamSt} {effs : List Eff}
    (hi : exec i s = .next ((s.emit 1 effs).modMine f)) (hf : f s.mine = next) : GoesTo i s next effs := by
  rw [State.modMine_emit hx] at hi
  refine ⟨_, hi, .modMe' s _, ?_, fun d hd => ?_, ?_, ?_⟩
  · rw [State.mine_eq (s.modMe _) hx, State.me_modMe, ← hf, s.mine_eq hx, ← s.stream_withEffs effs]
    exact Core.stream_setStream _ _ _ hx
  · rw [State.me_modMe]
    exact (Core.stream_setStream_other _ _ _ _ hd).trans (s.stream_withEffs effs s.me d)
  · rw [State.me_modMe]
    exact Core.SameFiles.trans (b := s.withEffs effs s.me) (by constructor <;> rfl) (Core.modStream_sameFiles _ _ _)
  · rw [State.me_modMe]
    exact Core.flights_setStream _ _ _

theorem State.modMine_advance (engine : s.cur.st ≠ .helm) (f : StreamSt → StreamSt) :
    s.advance.modMine f = (s.emit 1 s.loopEffs).modMine fun _ => f s.nextStream := by
  have pass : s.advance = s.modMe fun _ => s.passCore s.me :=
    State.SameStreams.advance ⟨rfl, fun _ => rfl, rfl, rfl, rfl, rfl⟩ hx
  have core : s.passCore s.me = (s.withEffs s.loopEffs s.me).setStream s.cur.st s.nextStream := by
    rw [State.passCore]
    split
    · exact absurd ‹_› engine
    · rfl
  rw [State.modMine_emit hx, pass, State.modMine_of_core (s := s.modMe _) hx, State.modMe_modMe]
  refine s.modMe_congr _ _ ?_
  rw [core]
  refine (Core.setStream_setStream _ _ _ _).trans (congrArg _ (congrArg f ?_))
  exact Core.stream_setStream _ _ _ hx

theorem GoesTo.of_advance {i : Instr} {f : StreamSt → StreamSt} (engine : s.cur.st ≠ .helm) (hi : exec i s = .next (s.advance.modMine f)) :
    GoesTo i s (f s.nextStream) s.loopEffs :=
  .of_emit hx (by rw [hi, State.modMine_advance hx engine]) rfl

end

/-! ## Beginning a loop (05 R164, R166) -/

/-- The last word of a body of `len` words after the issuing one. -/
def State.bodyEnd (s : State) (len : BitVec 9) : Word := s.mine.pc + BitVec.ofNat 64 (8 * len.toNat)

/-- The issuing stream in the first iteration of a loop whose body follows. -/
def State.inLoop (s : State) (lv : BitVec 1) (len : BitVec 9) (trips : Nat) (stages : Option (PReg × Nat × Nat)) : StreamSt :=
  let y := s.mine.passed s.cur.pos s.cyc
  { y with
    pc := s.mine.pc + 8, lc0 := if lv = 0 then 0 else y.lc0, lc1 := if lv = 0 then y.lc1 else 0
    loops := ⟨lv, s.mine.pc + 8, s.bodyEnd len, 0, trips, stages⟩ :: s.mine.loops }

/-- The issuing stream, in no loop, past a body. -/
def State.pastBody (s : State) (len : BitVec 9) : StreamSt :=
  { s.mine.passed s.cur.pos s.cyc with pc := s.bodyEnd len + 8, loops := [] }

section
variable {i : Instr} {s : State} {lv : BitVec 1} {len : BitVec 9} {effs : List Eff} {stages : Option (PReg × Nat × Nat)} (hx : s.cur.st ≠ .crossing)
include hx

theorem GoesTo.of_beginLoop {trips : Nat} (some : trips ≠ 0) (hi : exec i s = .next (s.beginLoop lv len.toNat trips stages effs)) :
    GoesTo i s (s.inLoop lv len trips stages) effs := by
  rw [State.beginLoop, if_neg some] at hi
  refine .of_emit hx hi ?_
  rw [StreamSt.setLc, State.inLoop]
  split <;> rfl

theorem GoesTo.of_emptyLoop (outermost : s.mine.loops = []) (hi : exec i s = .next (s.beginLoop lv len.toNat 0 stages effs)) :
    GoesTo i s (s.pastBody len) effs := by
  have run : s.beginLoop lv len.toNat 0 stages effs = ((s.emit 1 effs).emit 1 []).modMine fun _ => s.pastBody len := by
    rw [State.beginLoop, if_pos rfl, outermost]
    rfl
  rw [run, State.emit_emit hx, List.append_nil] at hi
  exact .of_emit hx hi rfl

end

/-! ## The rules of nesting and of stage predicates (05 R165, R167) -/

theorem badNest_iff (loops : List Loop) (lv : BitVec 1) (last : Word) : badNest loops lv last = true ↔
    ∃ top rest, loops = top :: rest ∧ (lv = 1 ∨ top.lv = 0 ∨ top.last.toNat < last.toNat) := by
  cases loops with
  | nil => simp [badNest]
  | cons top rest => simp [badNest, or_assoc]

/-- A LOOPS of stage predicates from `p` on, `k` of them, meets those of a loop in another stream of its core. -/
def State.sharesStages (s : State) (p k : Nat) : Bool := (s.me.otherStages s.cur.st).any fun x => overlaps p k x.1 x.2

theorem State.sharesStages_iff (s : State) (p k : Nat) : s.sharesStages p k = true ↔
    ∃ d ∈ [Stream.vector, .matrix, .copy], d ≠ s.cur.st ∧ (s.me.stream d).ended = false ∧
      ∃ l ∈ (s.me.stream d).loops, ∃ q m t, l.stages = some (q, m, t) ∧ p < q.toNat + m ∧ q.toNat < p + k := by
  simp only [State.sharesStages, Core.otherStages, List.any_eq_true, List.mem_flatMap, List.mem_filter, List.mem_filterMap, Option.map_eq_some_iff,
    Bool.and_eq_true, bne_iff_ne, Bool.not_eq_true', overlaps, decide_eq_true_eq]
  constructor
  · rintro ⟨_, ⟨d, ⟨hd, other, runs⟩, l, hl, ⟨q, m, t⟩, stages, rfl⟩, meets⟩
    exact ⟨d, hd, other, runs, l, hl, q, m, t, stages, meets⟩
  · rintro ⟨d, hd, other, runs, l, hl, q, m, t, stages, meets⟩
    exact ⟨(q.toNat, m), ⟨d, ⟨hd, other, runs⟩, l, hl, (q, m, t), stages, rfl⟩, meets⟩

/-- In the first iteration the first stage alone runs. -/
theorem stageWrites_zero (ps : PReg) (k : Nat) {t : Nat} (some : t ≠ 0) :
    stageWrites ps k t 0 = (List.range k).map fun j => .p (ps + BitVec.ofNat 7 j) (j == 0) := by
  refine List.map_congr_left fun j _ => ?_
  rw [stageOn, Nat.zero_sub]
  congr 1
  rw [Bool.eq_iff_iff]
  simp only [decide_eq_true_eq, beq_iff_eq]
  omega

/-! ## LOOP and LOOPS -/

theorem State.control_free {s : State} (free : s.occupied = .ok) (v : Verdict) (eff : State → State) : s.control .ok v eff = s.perform v eff := by
  rw [State.control, free]
  cases v <;> rfl

/-- What LOOPS does when its checks pass. -/
def State.beginStages (lv : BitVec 1) (len : BitVec 9) (stg : BitVec 3) (ps : PReg) (count : Nat) (s : State) : State :=
  let k := stg.toNat + 1
  if count = 0 then s.beginLoop lv len.toNat 0 none (stageClear ps k)
  else s.beginLoop lv len.toNat (count + stg.toNat) (some (ps, k, count)) (stageWrites ps k count 0)

section
variable {s : State} (hx : s.cur.st ≠ .crossing) (free : s.occupied = .ok) {lv : BitVec 1} {n : Count} {len : BitVec 9} {stg : BitVec 3} {ps : PReg}
include free

theorem exec_loop (lv : BitVec 1) (n : Count) (len : BitVec 9) : exec (.loop lv n len) s =
    s.perform (verdicts [s.bad0 (decide (2 ^ 32 ≤ s.countOf n ∨ len = 0)) rangeC, s.misuse (badNest s.mine.loops lv (s.bodyEnd len))])
      fun t => t.beginLoop lv len.toNat (s.countOf n) none [] := by
  show execLoop lv n len s = _
  exact State.control_free free _ _

theorem exec_loops (lv : BitVec 1) (n : Count) (len : BitVec 9) (stg : BitVec 3) (ps : PReg) : exec (.loops lv n len stg ps) s =
    s.perform (verdicts [s.bad0 (decide (2 ^ 32 ≤ s.countOf n ∨ len = 0)) rangeC, s.bad0 (decide (ps.toNat = 0 ∨ 127 < ps.toNat + stg.toNat)) rangeC,
      s.misuse (badNest s.mine.loops lv (s.bodyEnd len)), s.misuse (s.sharesStages ps.toNat (stg.toNat + 1))])
      (State.beginStages lv len stg ps (s.countOf n)) := by
  show execLoops lv n len stg ps s = _
  exact State.control_free free _ _

include hx

theorem traps_loop_outOfRange (h : 2 ^ 32 ≤ s.countOf n ∨ len = 0) :
    ∀ i ∈ [Instr.loop lv n len, .loops lv n len stg ps], Traps i s (cause0 s.cur.st 2) := by
  simp only [List.forall_mem_cons, List.not_mem_nil, false_imp_iff, implies_true, and_true]
  exact ⟨.of_perform hx (exec_loop free ..) (by rw [decide_eq_true h]; rfl), .of_perform hx (exec_loops free ..) (by rw [decide_eq_true h]; rfl)⟩

variable (small : s.countOf n < 2 ^ 32) (body : len ≠ 0)
include small body

omit hx free in
theorem not_loop_outOfRange : ¬ (2 ^ 32 ≤ s.countOf n ∨ len = 0) := not_or.2 ⟨not_le.2 small, body⟩

theorem traps_loop_misnested (bad : badNest s.mine.loops lv (s.bodyEnd len) = true) : Traps (.loop lv n len) s (cause2 s.cur.st 7) :=
  .of_perform hx (exec_loop free ..) (by rw [decide_eq_false (not_loop_outOfRange small body), bad]; rfl)

omit hx in
theorem exec_loop_nested (fits : badNest s.mine.loops lv (s.bodyEnd len) = false) :
    exec (.loop lv n len) s = .next (s.beginLoop lv len.toNat (s.countOf n) none []) := by
  rw [exec_loop free, decide_eq_false (not_loop_outOfRange small body), fits]
  rfl

theorem goesTo_loop (fits : badNest s.mine.loops lv (s.bodyEnd len) = false) (some : s.countOf n ≠ 0) :
    GoesTo (.loop lv n len) s (s.inLoop lv len (s.countOf n) none) [] :=
  .of_beginLoop hx some (exec_loop_nested free small body fits)

theorem goesTo_emptyLoop (outermost : s.mine.loops = []) (none : s.countOf n = 0) : GoesTo (.loop lv n len) s (s.pastBody len) [] :=
  .of_emptyLoop hx outermost (by rw [exec_loop_nested free small body (by rw [outermost]; rfl), none])

theorem traps_loops_outOfFile (h : ps.toNat = 0 ∨ 127 < ps.toNat + stg.toNat) : Traps (.loops lv n len stg ps) s (cause0 s.cur.st 2) :=
  .of_perform hx (exec_loops free ..) (by rw [decide_eq_false (not_loop_outOfRange small body), decide_eq_true h]; rfl)

variable (first : 1 ≤ ps.toNat) (last : ps.toNat + stg.toNat ≤ 127)
include first last

omit hx in
theorem exec_loops_inRange (lv : BitVec 1) : exec (.loops lv n len stg ps) s =
    s.perform (verdicts [s.misuse (badNest s.mine.loops lv (s.bodyEnd len)), s.misuse (s.sharesStages ps.toNat (stg.toNat + 1))])
      (State.beginStages lv len stg ps (s.countOf n)) := by
  have inFile : ¬ (ps.toNat = 0 ∨ 127 < ps.toNat + stg.toNat) := by omega
  rw [exec_loops free, decide_eq_false (not_loop_outOfRange small body), decide_eq_false inFile]
  rfl

theorem traps_loops_misuse (h : badNest s.mine.loops lv (s.bodyEnd len) = true ∨ s.sharesStages ps.toNat (stg.toNat + 1) = true) :
    Traps (.loops lv n len stg ps) s (cause2 s.cur.st 7) := by
  refine .of_perform hx (exec_loops_inRange free small body first last lv) ?_
  cases nest : badNest s.mine.loops lv (s.bodyEnd len) with
  | true => rfl
  | false =>
    rw [h.resolve_left (by simp [nest])]
    rfl

variable (apart : s.sharesStages ps.toNat (stg.toNat + 1) = false)
include apart

theorem goesTo_loops (fits : badNest s.mine.loops lv (s.bodyEnd len) = false) (some : s.countOf n ≠ 0) : GoesTo (.loops lv n len stg ps) s
    (s.inLoop lv len (s.countOf n + stg.toNat) (.some (ps, stg.toNat + 1, s.countOf n)))
    ((List.range (stg.toNat + 1)).map fun j => .p (ps + BitVec.ofNat 7 j) (j == 0)) := by
  refine .of_beginLoop hx (by omega) ?_
  rw [exec_loops_inRange free small body first last, fits, apart, ← stageWrites_zero ps _ some]
  exact congrArg Host.Outcome.next (if_neg some)

theorem goesTo_emptyLoops (outermost : s.mine.loops = []) (none : s.countOf n = 0) :
    GoesTo (.loops lv n len stg ps) s (s.pastBody len) ((List.range (stg.toNat + 1)).map fun j => .p (ps + BitVec.ofNat 7 j) false) := by
  refine .of_emptyLoop (lv := lv) (stages := .none) hx outermost ?_
  rw [exec_loops_inRange free small body first last, outermost, apart]
  exact congrArg Host.Outcome.next (if_pos none)

end

/-! ## NOP, END and SETVC -/

theorem exec_setvc_shape (s : State) (zs : BitVec 3) : exec (.setvc (.shape zs)) s = s.control (s.loaded zs.toNat) .ok fun t =>
    t.advance.modMine fun x => { x with vc := BitVec.ofNat 32 (((s.me.shape? zs.toNat).map (·.rows)).getD 0) } := rfl

section
variable {s : State} (hx : s.cur.st ≠ .crossing)
include hx

theorem traps_unassignedOpcode {b : Nat} (hb : (if s.on.flag then 1 else 0) = b) : Traps .unassignedOpcode s (cause0 s.cur.st b) :=
  .of_fault hx (by rw [← hb]; rfl)

variable (free : s.occupied = .ok)
include free

theorem gives_nop : Gives .nop s [] := ⟨_, State.perform_ok free _, s.issued_pass hx⟩

variable (engine : s.cur.st ≠ .helm)

omit hx in
theorem exec_endStream : exec .endStream s = .next (s.advance.modMine fun x => { x with ended := true }) := by
  show execEndStream s = _
  exact State.control_free free _ _

include engine in
theorem goesTo_endStream : GoesTo .endStream s { s.nextStream with ended := true } s.loopEffs :=
  .of_advance hx engine (exec_endStream free)

omit hx in
theorem exec_setvc_count (n : Count) : exec (.setvc (.count n)) s = s.perform (s.bad0 (decide (2 ^ 32 ≤ s.countOf n)) rangeC)
    fun t => t.advance.modMine fun x => { x with vc := BitVec.ofNat 32 (s.countOf n) } := by
  show execSetvc (.count n) s = _
  exact State.control_free free _ _

include engine in
theorem goesTo_setvc_count {n : Count} (small : s.countOf n < 2 ^ 32) :
    GoesTo (.setvc (.count n)) s { s.nextStream with vc := BitVec.ofNat 32 (s.countOf n) } s.loopEffs := by
  refine .of_advance hx engine ((exec_setvc_count free n).trans (State.perform_ok ?_ _))
  rw [decide_eq_false (not_le.2 small), bad0_false]

theorem traps_setvc_count {n : Count} (large : 2 ^ 32 ≤ s.countOf n) : Traps (.setvc (.count n)) s (cause0 s.cur.st 2) :=
  .of_perform hx (exec_setvc_count free n) (by rw [decide_eq_true large]; rfl)

include engine in
theorem goesTo_setvc_shape {zs : BitVec 3} {g : Shape} (loaded : s.me.shape? zs.toNat = some g) :
    GoesTo (.setvc (.shape zs)) s { s.nextStream with vc := BitVec.ofNat 32 g.rows } s.loopEffs := by
  have run := exec_setvc_shape s zs
  rw [State.loaded, loaded, Option.isNone_some, bad0_false, State.control_free free] at run
  exact .of_advance hx engine run

omit free in
theorem traps_setvc_shape {zs : BitVec 3} (empty : s.me.shape? zs.toNat = none) : Traps (.setvc (.shape zs)) s (cause0 s.cur.st 2) := by
  refine .of_perform hx (exec_setvc_shape s zs) ?_
  rw [State.loaded, empty]
  rfl

end

/-! ## FMTLD (05 R170, 04 R119, R120) -/

theorem memRead_lt (m : Memory) (n : Nat) : ∀ a, memRead m a n < 256 ^ n := by
  induction n with
  | zero => exact fun _ => Nat.one_pos
  | succ n ih =>
    intro a
    have low : (memGet m a).toNat < 256 := (memGet m a).isLt
    have high := ih (a + 1)
    calc memRead m a (n + 1) = (memGet m a).toNat + 256 * memRead m (a + 1) n := rfl
      _ < 256 ^ (n + 1) := by rw [pow_succ]; omega

/-- The table image of FMTLD at `a`. -/
def fmtImage (m : Memory) (a : Nat) : List (BitVec 32) := (List.range 16).map fun j => BitVec.ofNat 32 (memRead m (a + 4 * j) 4)

theorem any_fmtImage {m : Memory} {a : Nat} {f : BitVec 32 → Bool} {p : Nat → Prop} (h : ∀ e : BitVec 32, f e = true ↔ p e.toNat) :
    (fmtImage m a).any f = true ↔ ∃ j, j < 16 ∧ p (memRead m (a + 4 * j) 4) := by
  have entry (j : Nat) : (BitVec.ofNat 32 (memRead m (a + 4 * j) 4)).toNat = memRead m (a + 4 * j) 4 :=
    Nat.mod_eq_of_lt (memRead_lt m 4 _)
  simp only [fmtImage, List.any_map, List.any_eq_true, List.mem_range, Function.comp_apply, h, entry]

theorem bits_setWidth (e : BitVec 32) (hi lo : Nat) : bits (e.setWidth 64) hi lo = e.toNat / 2 ^ lo % 2 ^ (hi + 1 - lo) := by
  rw [bits, Nat.shiftRight_eq_div_pow, BitVec.toNat_setWidth_of_le (by omega)]

section
variable (m : Memory) (a : Nat)

/-- A bit of the image that the table does not have, or a field's value that names nothing. -/
def FmtReserved : Prop := ∃ j, j < 16 ∧ (1024 ≤ memRead m (a + 4 * j) 4 ∨ 5 ≤ memRead m (a + 4 * j) 4 / 64 % 8)

/-- A type that is none, or one of the wrong kind of block. -/
def FmtBad : Prop := ∃ j, j < 16 ∧ (memRead m (a + 4 * j) 4 % 16 = 15 ∨
  memRead m (a + 4 * j) 4 / 16 % 4 ≠ if memRead m (a + 4 * j) 4 % 16 = 11 then 1 else if 12 ≤ memRead m (a + 4 * j) 4 % 16 then 2 else 0)

theorem fmtCheck_eq [Decidable (FmtReserved m a)] [Decidable (FmtBad m a)] :
    fmtCheck (fmtImage m a) = if FmtReserved m a then some reservedC else if FmtBad m a then some rangeC else none := by
  have reserved := any_fmtImage (m := m) (a := a) (p := fun v => 1024 ≤ v ∨ 5 ≤ v / 64 % 8)
    (f := fun e => decide (1024 ≤ e.toNat) || decide (5 ≤ bits (e.setWidth 64) 8 6)) fun e => by simp [bits_setWidth]
  have bad := any_fmtImage (m := m) (a := a) (p := fun v => v % 16 = 15 ∨ v / 16 % 4 ≠ if v % 16 = 11 then 1 else if 12 ≤ v % 16 then 2 else 0)
    (f := fun e => decide (e.toNat % 16 = 15 ∨ bits (e.setWidth 64) 5 4 ≠ if e.toNat % 16 = 11 then 1 else if 12 ≤ e.toNat % 16 then 2 else 0))
    fun e => by simp [bits_setWidth]
  exact if_congr reserved rfl (if_congr bad rfl rfl)

end

section
variable {s : State} (hx : s.cur.st ≠ .crossing) (free : s.occupied = .ok) {sb : SReg} {a : Nat} (ha : (s.me.sreg s.cur.st sb).toNat = a)
include free ha

theorem exec_fmtld : exec (.fmtld sb) s =
    s.perform (verdicts [s.noPhase, s.bad0 (decide (a % 64 ≠ 0)) alignC, s.bad0 (decide (0x400000 ≤ a)) rangeC, bar (s.me.poisoned a 64) (cause 5 0 1),
      match fmtCheck (fmtImage s.me.ls a) with | some b => .fault (cause0 s.cur.st b) | none => .ok])
      fun t => t.write 4 [.fmt (fmtImage s.me.ls a)] := by
  subst ha
  show execFmtld sb s = _
  exact State.control_free free _ _

include hx

theorem traps_fmtld_inPhase (inside : s.me.inPhase = true) : Traps (.fmtld sb) s (cause0 s.cur.st 2) :=
  .of_perform hx (exec_fmtld free ha) (by rw [State.noPhase, inside]; rfl)

variable (out : s.me.inPhase = false)
include out

theorem traps_fmtld_misaligned (odd : a % 64 ≠ 0) : Traps (.fmtld sb) s (cause0 s.cur.st 3) :=
  .of_perform hx (exec_fmtld free ha) (by rw [State.noPhase, out, decide_eq_true odd]; rfl)

variable (aligned : a % 64 = 0)
include aligned

theorem traps_fmtld_outside (large : 0x400000 ≤ a) : Traps (.fmtld sb) s (cause0 s.cur.st 2) :=
  .of_perform hx (exec_fmtld free ha) (by rw [State.noPhase, out, decide_eq_false (not_not.2 aligned), decide_eq_true large]; rfl)

variable (small : a < 0x400000) (clean : s.me.lsPoison = [])
include small clean

omit hx in
theorem exec_fmtld_read : exec (.fmtld sb) s =
    s.perform (match fmtCheck (fmtImage s.me.ls a) with | some b => .fault (cause0 s.cur.st b) | none => .ok)
      fun t => t.write 4 [.fmt (fmtImage s.me.ls a)] := by
  have good : s.me.poisoned a 64 = false := by simp [Core.poisoned, clean]
  rw [exec_fmtld free ha, State.noPhase, out, decide_eq_false (not_not.2 aligned), decide_eq_false (not_le.2 small), good]
  cases fmtCheck (fmtImage s.me.ls a) <;> rfl

theorem traps_fmtld_reserved (reserved : FmtReserved s.me.ls a) : Traps (.fmtld sb) s (cause0 s.cur.st 1) := by
  classical
  refine .of_perform hx (exec_fmtld_read free ha out aligned small clean) ?_
  rw [fmtCheck_eq, if_pos reserved]
  rfl

theorem traps_fmtld_bad (legal : ¬ FmtReserved s.me.ls a) (bad : FmtBad s.me.ls a) : Traps (.fmtld sb) s (cause0 s.cur.st 2) := by
  classical
  refine .of_perform hx (exec_fmtld_read free ha out aligned small clean) ?_
  rw [fmtCheck_eq, if_neg legal, if_pos bad]
  rfl

theorem gives_fmtld (legal : ¬ FmtReserved s.me.ls a) (good : ¬ FmtBad s.me.ls a) : Gives (.fmtld sb) s [(4, .fmt (fmtImage s.me.ls a))] := by
  classical
  refine .of_perform (effs := [.fmt (fmtImage s.me.ls a)]) hx (exec_fmtld_read free ha out aligned small clean) ?_ rfl
  rw [fmtCheck_eq, if_neg legal, if_neg good]

end

/-- Settles O35: each word's checks in their order, and where it leaves its stream. -/
theorem streamControl : Obligations.StreamControl := by
  unfold Obligations.StreamControl
  intro s lv n len stg ps zs sb hx unit st x y count last goes enters nests k p shares both stages
  have free : s.occupied = .ok := by
    by_cases hv : s.cur.st = .vector
    · exact State.occupied_ok_of_le (unit hv)
    · exact s.occupied_of_not_vector hv
  have hcount : count = s.countOf n := by cases n <;> rfl
  have hnests : nests ↔ badNest s.mine.loops lv (s.bodyEnd len) = true := (badNest_iff ..).symm
  have hshares : shares ↔ s.sharesStages ps.toNat (stg.toNat + 1) = true := (s.sharesStages_iff ..).symm
  clear_value count nests shares
  subst hcount
  rw [hnests, hshares, Bool.not_eq_true, Bool.not_eq_true]
  refine ⟨gives_nop hx free, fun no => traps_unassignedOpcode hx (by rw [no]; rfl), fun yes => traps_unassignedOpcode hx (by rw [yes]; rfl),
    fun engine => ⟨traps_loop_outOfRange hx free, fun small body => ⟨traps_loop_misnested hx free small body, goesTo_loop hx free small body,
      goesTo_emptyLoop hx free small body, traps_loops_outOfFile hx free small body, fun first last => ⟨traps_loops_misuse hx free small body first last,
        fun fits apart => goesTo_loops hx free small body first last apart fits,
        fun outermost apart => goesTo_emptyLoops hx free small body first last apart outermost⟩⟩,
      goesTo_endStream hx free engine, goesTo_setvc_count hx free engine, traps_setvc_count hx free, fun _ => goesTo_setvc_shape hx free engine,
      traps_setvc_shape hx, traps_fmtld_inPhase hx free rfl, traps_fmtld_misaligned hx free rfl, traps_fmtld_outside hx free rfl,
      fun out aligned small clean => ⟨traps_fmtld_reserved hx free rfl out aligned small clean, traps_fmtld_bad hx free rfl out aligned small clean,
        gives_fmtld hx free rfl out aligned small clean⟩⟩⟩

end Sys2Proof.Machine
end

section
/-! PROOF. A vector word at issue: its checks, what its results leave, and its operands (06 R174-R180, 13 R389; O19 to O24, O27, O28). -/

namespace Sys2Proof.Machine

/-! ## The checks (06 R178) -/

theorem State.ne_crossing_of_vector {s : State} (hst : s.cur.st = .vector) : s.cur.st ≠ .crossing := by simp [hst]

theorem State.bad0_vector {s : State} {bad : Bool} (hst : s.cur.st = .vector) (h : bad = true) (b : Nat) : s.bad0 bad b = .fault (cause 0 1 b) := by
  rw [h, bad0_true, hst]
  rfl

theorem rmBad_eq_false_iff {rm : BitVec 3} {int : Bool} : rmBad rm int = false ↔ rm.toNat < 6 ∧ (int = true → rm = 0) := by
  simp [rmBad]

theorem srcBad_eq_false_iff {k : BitVec 2} {a : BitVec 8} : srcBad k a = false ↔ InFile k a := by
  simp [srcBad, InFile]

theorem State.vt_of_vtype {s : State} {f : BitVec 3} {t : ElemType} (h : s.vtype f = some t) : s.vt f = t := by
  rw [State.vt, h, Option.getD_some]

theorem State.Typed.mono {s : State} {f rm : BitVec 3} {c d : ElemType → Bool} {t : ElemType} (h : s.Typed f c rm t) (hd : d t = true) :
    s.Typed f d rm t :=
  { h with class_ := hd }

theorem isFI_of_isI {t : ElemType} (h : isI t = true) : isFI t = true := Bool.or_eq_true_iff.mpr (.inr h)

theorem inFile_zero : InFile 0 0 := fun _ => by decide

section
variable {s : State} {f rm : BitVec 3} {cls : ElemType → Bool} {regs sat satOk own : Bool}

/-- A word passes its checks when its type is typed as its class and RM want it, its fields are in range and SAT is legal or clear. -/
theorem State.vchecks_ok_iff : s.vchecks f cls regs rm sat satOk own = .ok ↔
    (∃ t, s.Typed f cls rm t) ∧ regs = false ∧ (sat = true → satOk = true) ∧ own = false := by
  have typed : (∃ t, s.Typed f cls rm t) ↔
      (match s.vtype f with | some t => !cls t | none => true) = false ∧ rmBad rm ((s.vtype f).getD .fp32).isInt = false := by
    rw [rmBad_eq_false_iff]
    constructor
    · rintro ⟨t, resolves, class_, mode, plain⟩
      simpa [resolves, class_] using ⟨mode, plain⟩
    · cases resolves : s.vtype f with
      | none => simp
      | some t =>
        rintro ⟨class_, mode, plain⟩
        exact ⟨t, resolves, by simpa using class_, mode, plain⟩
  rw [typed]
  simp only [State.vchecks, verdicts_cons, verdicts_nil, Verdict.and_ok_iff, bad0_ok_iff, and_true, Bool.or_eq_false_iff]
  cases sat <;> cases satOk <;> simp <;> tauto

/-- A vector word that fails one of its checks raises operand range, whichever it is. -/
theorem State.vchecks_fault (hst : s.cur.st = .vector) (h : s.vchecks f cls regs rm sat satOk own ≠ .ok) :
    s.vchecks f cls regs rm sat satOk own = .fault (cause 0 1 2) := by
  have each (bad : Bool) : s.bad0 bad rangeC = .ok ∨ s.bad0 bad rangeC = .fault (cause 0 1 2) := by
    cases bad with
    | false => exact .inl rfl
    | true => exact .inr (State.bad0_vector hst rfl _)
  have all (l : List Verdict) (hl : ∀ v ∈ l, v = .ok ∨ v = .fault (cause 0 1 2)) : verdicts l = .ok ∨ verdicts l = .fault (cause 0 1 2) := by
    induction l with
    | nil => exact .inl rfl
    | cons v l ih =>
      obtain ⟨hv, rest⟩ := List.forall_mem_cons.mp hl
      rcases hv with rfl | rfl
      · exact ih rest
      · exact .inr rfl
  exact (all _ (by simp only [List.forall_mem_cons, each, true_and]; simp)).resolve_left h

end

/-! ## Results in flight and the occupancy of the unit (06 R179, R180) -/

section
variable {s t : State} (hst : s.cur.st = .vector) (same : s.SameStreams t) (lat occ : Nat) (b : Bool) (effs : List Eff) (sp : List Nat)
include hst same

/-- A vector word's results and its occupancy as one change of the issuing core, `t` being the state that the word has reached before. -/
theorem State.vdone_eq : t.vdone lat occ b effs sp = t.modMe fun _ => { t.me with
    flights := t.me.flights ++ effs.map (fun e => { s.flight lat e with checked := b, spoilt := sp }) ++ s.loopEffs.map (s.flight 1)
    vec := s.nextStream, vbusy := s.cyc + occ } := by
  have hx := s.ne_crossing_of_vector hst
  have hc : t.cyc = s.cyc := by rw [s.cyc_eq hx, t.cyc_eq (by rwa [same.cur]), same.time]
  have hf : t.flight lat = s.flight lat := funext (same.flight hx lat)
  have inner : s.SameStreams (t.modMe fun c => { c with
      flights := c.flights ++ effs.map (fun e => { s.flight lat e with checked := b, spoilt := sp }), vbusy := s.cyc + occ }) := by
    refine ⟨same.cur, fun st => ?_, ?_, ?_, ?_, ?_⟩ <;> rw [State.me_modMe]
    · rw [← same.streams]; cases st <;> rfl
    · exact same.pipe
    · exact same.cyc
    · exact same.htime
    · exact same.handler
  rw [State.vdone, State.emitChecked, State.modMe_modMe, hc, hf, inner.advance hx, State.modMe_modMe]
  refine t.modMe_congr _ _ ?_
  rw [State.me_modMe, State.passCore, hst]
  rfl

theorem State.me_vdone : (t.vdone lat occ b effs sp).me = { t.me with
    flights := t.me.flights ++ effs.map (fun e => { s.flight lat e with checked := b, spoilt := sp }) ++ s.loopEffs.map (s.flight 1)
    vec := s.nextStream, vbusy := s.cyc + occ } := by
  rw [State.vdone_eq hst same, State.me_modMe]

theorem State.alone_vdone (alone : s.Alone t) : s.Alone (t.vdone lat occ b effs sp) := by
  rw [State.vdone_eq hst same]
  exact alone.modMe same.cur _

theorem State.passed_vdone : s.Passed (t.vdone lat occ b effs sp) := by
  have hx := s.ne_crossing_of_vector hst
  have me := State.me_vdone hst same lat occ b effs sp
  have cur : (t.vdone lat occ b effs sp).cur = s.cur := by rw [State.vdone_eq hst same]; exact same.cur
  refine ⟨?_, ?_, fun st other => ?_⟩
  · rw [State.mine_eq _ (by rwa [cur]), me, cur, hst]; rfl
  · rw [me, State.nextPipe, hst]; exact same.pipe
  · rw [me, ← same.streams]
    rw [hst] at other
    cases st <;> first | exact absurd rfl other | rfl

end

/-- A vector word whose whole effect is its results. -/
theorem State.issued_vdone_of {s t : State} (hst : s.cur.st = .vector) (alone : s.Alone t) (cur : t.cur = s.cur) (me : t.me = s.me) (lat occ : Nat)
    (b : Bool) (effs : List Eff) : s.Issued (t.vdone lat occ b effs) (effs.map fun e => (lat, e)) := by
  have same : s.SameStreams t := ⟨cur, fun st => by rw [me], by rw [me], by rw [me], by rw [me], by rw [me]⟩
  refine ⟨State.alone_vdone hst same _ _ _ _ _ alone, State.passed_vdone hst same _ _ _ _ _, ⟨b, ?_⟩, ?_⟩
  · rw [State.me_vdone hst same, me]
    simp only [List.map_map]
    rfl
  · rw [State.KeepsUnits, State.me_vdone hst same, me]

section
variable {i : Instr} {s : State} {v : Verdict} {eff : State → State} {lat occ : Nat} {effs : List Eff}
  (hst : s.cur.st = .vector) (hi : exec i s = s.perform v eff) (hv : v = .ok) (he : ∃ b, eff s = s.vdone lat occ b effs)
include hst hi hv he

theorem runs_of_vdone : ∃ u, exec i s = .next u ∧ u.me.vbusy = s.cyc + occ ∧ s.Issued u (effs.map fun e => (lat, e)) :=
  let ⟨b, he⟩ := he
  ⟨_, by rw [hi, State.perform_ok hv, he], by rw [State.me_vdone hst ⟨rfl, fun _ => rfl, rfl, rfl, rfl, rfl⟩],
    State.issued_vdone_of hst (.refl s) rfl rfl lat occ b effs⟩

theorem Gives.of_vdone : Gives i s (effs.map fun e => (lat, e)) :=
  let ⟨u, runs, _, issued⟩ := runs_of_vdone hst hi hv he
  ⟨u, runs, issued⟩

end

theorem Elementwise.of_vdone {i : Instr} {s : State} {v : Verdict} {eff : State → State} {vd : BitVec 6} {t : ElemType} {mk : BitVec 4} {lat occ : Nat}
    {f : Nat → Nat} (hst : s.cur.st = .vector) (hi : exec i s = s.perform v eff) (hv : v = .ok)
    (he : ∃ b, eff s = s.vdone lat occ b [velems vd t.width ((s.governed mk t.count).map fun e => (e, f e))]) : Elementwise i s vd t mk lat occ f :=
  let ⟨u, runs, busy, issued⟩ := runs_of_vdone hst hi hv he
  ⟨u, runs, issued, busy⟩

/-- A vector word that does not wait for its unit and fails one of the checks of 06 R178. -/
theorem Traps.of_vchecks {i : Instr} {s : State} {f rm : BitVec 3} {cls : ElemType → Bool} {regs sat satOk own : Bool} {eff : State → State}
    (hst : s.cur.st = .vector) (free : s.me.vbusy ≤ s.cyc)
    (hi : exec i s = s.perform (.and s.occupied (s.vchecks f cls regs rm sat satOk own)) eff)
    (bad : ¬ ((∃ t, s.Typed f cls rm t) ∧ regs = false ∧ (sat = true → satOk = true) ∧ own = false)) : Traps i s (cause 0 1 2) := by
  refine .of_perform (s.ne_crossing_of_vector hst) hi ?_
  rw [State.occupied_ok_of_le free, Verdict.and_ok]
  exact State.vchecks_fault hst (mt State.vchecks_ok_iff.mp bad)

/-! ## Operands (03 R75, 06 R177) -/

theorem elemAt_lt {n : Nat} (v : BitVec n) (w e : Nat) : elemAt v w e < 2 ^ w := Nat.mod_lt _ (Nat.two_pow_pos w)

/-- The words of an integer type flush nothing (04 R104). -/
theorem State.flushes_of_isInt {t : ElemType} (s : State) (f : BitVec 3) (h : t.isInt = true) : s.flushes f t = false := by
  cases t <;> simp_all [State.flushes, ElemType.isInt]

theorem State.rawSrc_lt {t : ElemType} (s : State) (k : BitVec 2) (a : BitVec 8) (h : t.isInt = true) (e : Nat) : s.rawSrc k a t e < 2 ^ t.width := by
  have pos : (0 : Int) < 2 ^ t.width := by positivity
  unfold State.rawSrc
  simp only [h, if_true]
  split_ifs
  · exact elemAt_lt _ _ _
  · exact Nat.mod_lt _ (Nat.two_pow_pos _)
  · exact Nat.mod_lt _ (Nat.two_pow_pos _)
  · have := Int.emod_lt_of_pos a.toInt pos
    have := Int.emod_nonneg a.toInt pos.ne'
    zify
    omega

/-! ## Stored residues that do not match (13 R389) -/

@[simp] theorem State.mismatch_false (s : State) : s.mismatch false = s := rfl

theorem State.badIn_of_clean {s : State} (h : s.me.vBad = []) (k : BitVec 2) (a : BitVec 8) (w : Nat) (es : List Nat) : s.badIn k a w es = false := by
  simp [State.badIn, h]

theorem State.spoilt_of_clean {s : State} (h : s.me.vBad = []) (w : Nat) (l : List (Nat × BitVec 2 × BitVec 8 × Nat)) : s.spoilt w l = [] := by
  simp [State.spoilt, State.badIn_of_clean h]

/-- A register operand with a container in error among those of the elements. -/
theorem State.badIn_of_mem {s : State} {a : BitVec 8} {w : Nat} {es : List Nat} (file : a.toNat < 64)
    (h : ∃ e ∈ es, ∃ i ∈ containersOf w e, 128 * a.toNat + i ∈ s.me.vBad) : s.badIn 0 a w es = true := by
  have number : (a.setWidth 6).toNat = a.toNat := by rw [BitVec.toNat_setWidth]; omega
  simpa [State.badIn, number] using h

end Sys2Proof.Machine
end

section
/-! PROOF. The approximated functions as numbers (04 R130; O19). -/

namespace Sys2Proof.Machine

theorem Num.is_fin (neg : Bool) (m : Nat) (e : Int) : (Num.fin neg m e false).Is (finRat neg m e) := ⟨neg, m, e, rfl, rfl⟩

theorem Num.Is.of_eq {x : Num} {p q : Rat} (h : x.Is p) (e : p = q) : x.Is q := e ▸ h

theorem Num.is_ofInt (i : Int) : (Num.ofInt i).Is i :=
  (Num.is_fin _ _ _).of_eq (by rw [finRat_of_int, zpow_zero, mul_one])

/-- The power of an integer is exact: its fixed-point form has no fraction. -/
theorem Num.exp2_ofInt {n : Int} (small : n.natAbs < 2 ^ 64) : (Num.ofInt n).exp2.Is (2 ^ n) := by
  by_cases zero : n.natAbs = 0
  · rw [Int.natAbs_eq_zero.mp zero]
    exact (Num.is_fin false 1 0).of_eq (by simp [finRat])
  have fits : ¬ 64 < Nat.log2 n.natAbs := by have := (Nat.log2_lt zero).mpr small; omega
  have unit : 0 < 2 ^ places := Nat.two_pow_pos places
  have run : (Num.ofInt n).exp2 =
      if n < 0 then .fin false 1 (-(n.natAbs : Int)) false else .fin false (2 ^ places) ((n.natAbs : Int) - places) false := by
    simp [Num.ofInt, Num.exp2, zero, fits, Nat.mul_div_cancel _ unit]
  rw [run]
  generalize places = p
  split
  · next negative => exact (Num.is_fin _ _ _).of_eq (by simp [finRat, abs_of_neg negative])
  · next positive =>
    refine (Num.is_fin _ _ _).of_eq ?_
    simp only [finRat, zpow_sub₀ (two_ne_zero' Rat), Int.natAbs_of_nonneg (not_lt.mp positive)]
    simp [mul_div_cancel₀]

/-- The logarithm of a power of two is exact. -/
theorem Num.log2_two_pow (j : Nat) (e : Int) (x : Bool) : (Num.fin false (2 ^ j) e x).log2.Is (j + e) := by
  have pos : 0 < 2 ^ j := Nat.two_pow_pos j
  have run : (Num.fin false (2 ^ j) e x).log2 = .ofInt (e + j) := by
    simp [Num.log2, Nat.mul_div_cancel_left _ pos]
  rw [run]
  exact (Num.is_ofInt _).of_eq (by push_cast; ring)

/-- A magnitude with an even place: the form in which the roots take it. -/
theorem mul_zpow_eq_even (m : Nat) (e : Int) :
    (m : Rat) * 2 ^ e = ((if e % 2 = 0 then m else 2 * m : Nat) : Rat) * (2 ^ ((if e % 2 = 0 then e else e - 1) / 2)) ^ 2 := by
  simpa using sqrt_radicand m e 0

/-- The reciprocal square root is held below the exact one by less than its last place, and exactly where it is not marked. -/
theorem Num.rsqrt_bounds {m : Nat} (e : Int) (x : Bool) (hm : 0 < m) : ∃ r h y, (Num.fin false m e x).rsqrt = .fin false r h y ∧
    (r * 2 ^ h : Rat) ^ 2 * (m * 2 ^ e) ≤ 1 ∧ 1 < ((r + 1) * 2 ^ h : Rat) ^ 2 * (m * 2 ^ e) ∧
    (y = false ↔ (r * 2 ^ h : Rat) ^ 2 * (m * 2 ^ e) = 1) := by
  obtain ⟨k, hk⟩ : ∃ k, k = 256 + (Nat.log2 m + 1) := ⟨_, rfl⟩
  obtain ⟨n, hn⟩ : ∃ n, n = if e % 2 = 0 then m else 2 * m := ⟨_, rfl⟩
  obtain ⟨g, hg⟩ : ∃ g, g = (if e % 2 = 0 then e else e - 1) / 2 := ⟨_, rfl⟩
  have run : (Num.fin false m e x).rsqrt = .fin false (2 ^ (2 * k) / n).sqrt (-g - (k : Nat))
      (decide ((2 ^ (2 * k) / n).sqrt * (2 ^ (2 * k) / n).sqrt * n ≠ 2 ^ (2 * k))) := by
    rw [Num.rsqrt, if_neg hm.ne', show 512 + 2 * (Nat.log2 m + 1) = 2 * k by omega]
    simp only [isqrt_eq_sqrt, ← hn, ← hg, show 2 * k / 2 = k by omega, Bool.false_eq_true, if_false]
  have npos : 0 < n := by rw [hn]; split <;> omega
  have value (r : Rat) : (r * 2 ^ (-g - (k : Int))) ^ 2 * (m * 2 ^ e) = r ^ 2 * n / 2 ^ (2 * k) := by
    have two : (2 : Rat) ≠ 0 := two_ne_zero
    rw [mul_zpow_eq_even, ← hn, ← hg, zpow_sub₀ two, zpow_neg, zpow_natCast, pow_mul']
    field_simp
  have unit : (0 : Rat) < 2 ^ (2 * k) := by positivity
  generalize hr : (2 ^ (2 * k) / n).sqrt = r at run
  refine ⟨r, _, _, run, ?_, ?_, ?_⟩
  · rw [value, div_le_one unit]
    have : r * r * n ≤ 2 ^ (2 * k) := (Nat.mul_le_mul_right n (hr ▸ Nat.sqrt_le _)).trans (Nat.div_mul_le_self _ _)
    rw [sq]
    exact_mod_cast this
  · rw [value, one_lt_div unit]
    have : 2 ^ (2 * k) < (r + 1) * (r + 1) * n := (Nat.div_lt_iff_lt_mul npos).mp (hr ▸ Nat.lt_succ_sqrt _)
    rw [sq]
    exact_mod_cast this
  · rw [value, div_eq_one_iff_eq unit.ne', sq, decide_eq_false_iff_not, not_not]
    norm_cast

end Sys2Proof.Machine
end

section
/-! PROOF. The arithmetic words of the vector stream (06 R176, R179-R182; O19). -/

namespace Sys2Proof.Machine

/-! ## What the arithmetic words share -/

theorem mulTime_eq (t : ElemType) : mulTime t = if t = .fp64 ∨ t = .int64 then (6, 2) else (4, 1) := by
  cases t <;> rfl

theorem divTime_fst (t : ElemType) : (divTime t).1 = if t = .fp64 then 26 else 14 := apply_ite Prod.fst ..

theorem divTime_snd (t : ElemType) : (divTime t).2 = if t = .fp64 then 8 else 4 := apply_ite Prod.snd ..

/-- One exact operation of 06 R181, then one rounding or fit: what a word of `State.varith` gives element `e`. -/
def State.arithElem (s : State) (o : VBin) (t : ElemType) (ff : Bool → Num → Num → Num → Num) (fi : Int → Int → Int → Int) (e : Nat) : Nat :=
  let a := s.src (s.flushes o.t t) o.ka o.a t e
  let b := s.src (s.flushes o.t t) o.kb o.b t e
  let c := s.src (s.flushes o.t t) 0 (o.vd.setWidth 8) t e
  if t.isInt then t.narrow (o.sat == 1) (fi (t.asInt a) (t.asInt b) (t.asInt c))
  else t.ffmt.round (s.rmode o.rm e) (o.sat == 1) (ff (s.rmode o.rm e).down (t.value a) (t.value b) (t.value c))

section
variable {i : Instr} {s : State} {o : VBin} {cls : ElemType → Bool} {time : ElemType → Nat × Nat} {covers : Bool} {n : Nat}
  {ff : Bool → Num → Num → Num → Num} {fi : Int → Int → Int → Int} {t : ElemType}
  (hst : s.cur.st = .vector) (free : s.me.vbusy ≤ s.cyc) (hi : exec i s = s.varith o cls time covers n ff fi)
include hst free hi

omit hst hi in
theorem varith_ok (typed : s.Typed o.t cls o.rm t) (fileA : InFile o.ka o.a) (fileB : InFile o.kb o.b) :
    Verdict.and s.occupied (s.vchecks o.t cls (srcBad o.ka o.a || srcBad o.kb o.b) o.rm (o.sat == 1) true false) = .ok := by
  rw [Verdict.and_ok_iff, State.vchecks_ok_iff, srcBad_eq_false_iff.mpr fileA, srcBad_eq_false_iff.mpr fileB]
  exact ⟨State.occupied_ok_of_le free, ⟨t, typed⟩, rfl, fun _ => rfl, rfl⟩

theorem Elementwise.of_varith (typed : s.Typed o.t cls o.rm t) (fileA : InFile o.ka o.a) (fileB : InFile o.kb o.b) (clean : s.me.vBad = []) :
    Elementwise i s o.vd t o.msk (time t).1 (time t).2 (s.arithElem o t ff fi) := by
  refine .of_vdone hst hi (varith_ok free typed fileA fileB) ⟨t.isInt || (covers && (t == .fp32 || t == .fp64)), ?_⟩
  simp only [State.vt_of_vtype typed.resolves, State.badIn_of_clean clean, Bool.and_false, Bool.or_false, State.mismatch_false]
  rfl

theorem Traps.of_varith (bad : (¬ ∃ t, s.Typed o.t cls o.rm t) ∨ ¬ (InFile o.ka o.a ∧ InFile o.kb o.b)) : Traps i s (cause 0 1 2) := by
  refine .of_vchecks hst free hi ?_
  rintro ⟨typed, files, -⟩
  rw [Bool.or_eq_false_iff, srcBad_eq_false_iff, srcBad_eq_false_iff] at files
  exact bad.elim (· typed) (· files)

/-- A covered word that reads a container in error goes on, and its result's residue will not match (04 R131, 13 R389). -/
theorem spoils_of_varith (typed : s.Typed o.t cls o.rm t) (fileA : InFile o.ka o.a) (fileB : InFile o.kb o.b) (int : t.isInt = true) (reg : o.ka = 0)
    (hit : ∃ e ∈ s.governed o.msk t.count, ∃ i ∈ containersOf t.width e, 128 * o.a.toNat + i ∈ s.me.vBad) :
    ∃ u, exec i s = .next u ∧ s.Alone u ∧ s.Passed u ∧ s.mine.step ∈ u.me.residueBad := by
  have read : s.badIn o.ka o.a t.width (s.governed o.msk t.count) = true := reg ▸ State.badIn_of_mem (fileA (by simp [reg])) hit
  have same : s.SameStreams (s.mismatch true) := by
    refine ⟨rfl, fun st => ?_, ?_, ?_, ?_, ?_⟩ <;> simp only [State.mismatch, if_true, State.me_modMe]
    cases st <;> rfl
  have alone : s.Alone (s.mismatch true) := by
    rw [State.mismatch, if_pos rfl]
    exact .modMe' s _
  refine ⟨_, by rw [hi]; exact State.perform_ok (varith_ok free typed fileA fileB) _, ?_⟩
  simp only [State.vt_of_vtype typed.resolves, int, read, Bool.true_or, Bool.true_and]
  refine ⟨State.alone_vdone hst same _ _ _ _ _ alone, State.passed_vdone hst same _ _ _ _ _, ?_⟩
  rw [State.me_vdone hst same]
  simp only [State.mismatch, if_true, State.me_modMe, addOnce]
  split
  · next there => simpa using there
  · simp

end

section
variable {i : Instr} {s : State} {o : VUn} {f : Num → Num} {t : ElemType}
  (hst : s.cur.st = .vector) (free : s.me.vbusy ≤ s.cyc) (hi : exec i s = s.vapprox o f)
include hst free hi

theorem Elementwise.of_vapprox (typed : s.Typed o.t isF3 o.rm t) (fileA : InFile o.ka o.a) : Elementwise i s o.vd t o.msk 8 1 fun e =>
    t.ffmt.approx (o.sat == 1) (f (t.value (s.src (s.flushes o.t t) o.ka o.a t e))) := by
  refine .of_vdone hst hi ?_ ⟨false, ?_⟩
  · rw [Verdict.and_ok_iff, State.vchecks_ok_iff, srcBad_eq_false_iff]
    exact ⟨State.occupied_ok_of_le free, ⟨t, typed⟩, fileA, fun _ => rfl, rfl⟩
  · simp only [State.vt_of_vtype typed.resolves]

theorem Traps.of_vapprox (bad : (¬ ∃ t, s.Typed o.t isF3 o.rm t) ∨ ¬ InFile o.ka o.a) : Traps i s (cause 0 1 2) := by
  refine .of_vchecks hst free hi ?_
  rintro ⟨typed, file, -⟩
  exact bad.elim (· typed) (· (srcBad_eq_false_iff.mp file))

end

/-! ## The words -/

section
variable (o : VBin) (u : VUn) (s : State)

theorem exec_vadd : exec (.vadd o) s = s.varith o isFI addTime false 2 (fun d x y _ => x.add d y) (fun x y _ => x + y) := rfl
theorem exec_vsub : exec (.vsub o) s = s.varith o isFI addTime false 2 (fun d x y _ => x.add d y.neg) (fun x y _ => x - y) := rfl
theorem exec_vmul : exec (.vmul o) s = s.varith o isFI mulTime true 2 (fun _ x y _ => x.mul y) (fun x y _ => x * y) := rfl
theorem exec_vfma : exec (.vfma o) s = s.varith o isFI mulTime true 3 (fun d x y z => (x.mul y).add d z) (fun x y z => x * y + z) := rfl
theorem exec_vfms : exec (.vfms o) s = s.varith o isFI mulTime true 3 (fun d x y z => (x.mul y).add d z.neg) (fun x y z => x * y - z) := rfl
theorem exec_vfnma : exec (.vfnma o) s = s.varith o isFI mulTime true 3 (fun d x y z => (x.mul y).neg.add d z) (fun x y z => z - x * y) := by
  simp only [← neg_add_eq_sub]
  rfl
theorem exec_vmin : exec (.vmin o) s = s.varith o isFI addTime false 2 (fun _ x y _ => x.min y) (fun x y _ => min x y) := rfl
theorem exec_vmax : exec (.vmax o) s = s.varith o isFI addTime false 2 (fun _ x y _ => x.max y) (fun x y _ => max x y) := rfl
theorem exec_vdiv : exec (.vdiv o) s = s.varith o isF divTime true 2 (fun _ x y _ => x.div y) (fun x _ _ => x) := rfl
theorem exec_vabs : exec (.vabs u) s = s.varith (unBin u) isFI absTime false 1 (fun _ x _ _ => x.abs) (fun x _ _ => |x|) := by
  simp only [← Int.natCast_natAbs]
  rfl
theorem exec_vneg : exec (.vneg u) s = s.varith (unBin u) isFI absTime false 1 (fun _ x _ _ => x.neg) (fun x _ _ => -x) := rfl
theorem exec_vsqrt : exec (.vsqrt u) s = s.varith (unBin u) isF divTime true 1 (fun _ x _ _ => x.sqrt) (fun x _ _ => x) := rfl
theorem exec_vrcp : exec (.vrcp u) s = s.vapprox u (Num.ofInt 1).div := rfl
theorem exec_vrsq : exec (.vrsq u) s = s.vapprox u Num.rsqrt := rfl
theorem exec_vexp2 : exec (.vexp2 u) s = s.vapprox u Num.exp2 := rfl
theorem exec_vlog2 : exec (.vlog2 u) s = s.vapprox u Num.log2 := rfl

end

/-- Settles O19: each word is `State.varith` or `State.vapprox` of its operation, and the values are those of the exact functions. -/
theorem vectorArithmetic : Obligations.VectorArithmetic := by
  unfold Obligations.VectorArithmetic
  refine ⟨fun s o hst free => ?_, fun s o hst free => ?_, ?_⟩
  · intro files sat words
    refine ⟨fun t typed file reg hit => ?_, fun t typed file clean => ?_, fun bad => ?_, fun bad => ?_⟩
    · obtain ⟨fileA, fileB⟩ := file
      have spoils {i : Instr} {time : ElemType → Nat × Nat} {covers : Bool} {n : Nat} {ff : Bool → Num → Num → Num → Num}
          {fi : Int → Int → Int → Int} (hi : exec i s = s.varith o isFI time covers n ff fi) :=
        spoils_of_varith hst free hi (typed.mono (isFI_of_isI typed.class_)) fileA fileB typed.class_ reg hit
      exact List.forall_iff_forall_mem.mp ⟨spoils (exec_vadd o s), spoils (exec_vsub o s), spoils (exec_vmul o s), spoils (exec_vfma o s),
        spoils (exec_vfms o s), spoils (exec_vfnma o s), spoils (exec_vmin o s), spoils (exec_vmax o s)⟩
    · obtain ⟨fileA, fileB⟩ := file
      have runs {i : Instr} {cls : ElemType → Bool} {time : ElemType → Nat × Nat} {covers : Bool} {n : Nat} {ff : Bool → Num → Num → Num → Num}
          {fi : Int → Int → Int → Int} (hi : exec i s = s.varith o cls time covers n ff fi) (class_ : cls t = true) :=
        Elementwise.of_varith hst free hi (typed.mono class_) fileA fileB clean
      have class_ := typed.class_
      intro a b c add mul div gives
      rw [show mul = mulTime t from (mulTime_eq t).symm]
      exact ⟨runs (exec_vadd o s) class_, runs (exec_vsub o s) class_, runs (exec_vmul o s) class_, runs (exec_vfma o s) class_,
        runs (exec_vfms o s) class_, runs (exec_vfnma o s) class_, runs (exec_vmin o s) class_, runs (exec_vmax o s) class_,
        fun float => runs (exec_vdiv o s) float⟩
    · have trap {i : Instr} {time : ElemType → Nat × Nat} {covers : Bool} {n : Nat} {ff : Bool → Num → Num → Num → Num}
          {fi : Int → Int → Int → Int} (hi : exec i s = s.varith o isFI time covers n ff fi) := Traps.of_varith hst free hi bad
      exact List.forall_iff_forall_mem.mp ⟨trap (exec_vadd o s), trap (exec_vsub o s), trap (exec_vmul o s), trap (exec_vfma o s), trap (exec_vfms o s),
        trap (exec_vfnma o s), trap (exec_vmin o s), trap (exec_vmax o s)⟩
    · exact .of_varith hst free (exec_vdiv o s) bad
  · intro sat
    have files (bad : ¬ InFile o.ka o.a) : ¬ (InFile (unBin o).ka (unBin o).a ∧ InFile (unBin o).kb (unBin o).b) := fun h => bad h.1
    refine ⟨fun t typed fileA clean => ?_, fun bad => ?_, fun bad => ?_, fun bad => ?_⟩
    · have runs {i : Instr} {cls : ElemType → Bool} {time : ElemType → Nat × Nat} {covers : Bool} {n : Nat} {ff : Bool → Num → Num → Num → Num}
          {fi : Int → Int → Int → Int} (hi : exec i s = s.varith (unBin o) cls time covers n ff fi) (class_ : cls t = true) :=
        Elementwise.of_varith (o := unBin o) hst free hi (typed.mono class_) fileA inFile_zero clean
      intro a gives near
      refine ⟨runs (exec_vabs o s) typed.class_, runs (exec_vneg o s) typed.class_, fun float => ?_, fun float3 => ?_⟩
      · rw [← divTime_fst, ← divTime_snd]
        exact runs (exec_vsqrt o s) float
      · have typed3 := typed.mono float3
        exact ⟨.of_vapprox hst free (exec_vrcp o s) typed3 fileA, .of_vapprox hst free (exec_vrsq o s) typed3 fileA,
          .of_vapprox hst free (exec_vexp2 o s) typed3 fileA, .of_vapprox hst free (exec_vlog2 o s) typed3 fileA⟩
    · have bad := bad.imp_right files
      exact List.forall_iff_forall_mem.mp ⟨.of_varith hst free (exec_vabs o s) bad, .of_varith hst free (exec_vneg o s) bad⟩
    · exact .of_varith hst free (exec_vsqrt o s) (bad.imp_right files)
    · exact List.forall_iff_forall_mem.mp ⟨.of_vapprox hst free (exec_vrcp o s) bad, .of_vapprox hst free (exec_vrsq o s) bad,
        .of_vapprox hst free (exec_vexp2 o s) bad, .of_vapprox hst free (exec_vlog2 o s) bad⟩
  · refine ⟨fun n => Num.exp2_ofInt, Num.log2_two_pow, fun m e x => Num.rsqrt_bounds e x, ?_, fun b e x => ⟨rfl, ?_, rfl⟩, ?_, rfl, rfl, rfl, ?_, rfl,
      fun m e x hm => ?_⟩
    · simp [Num.rsqrt, Num.exp2, Num.log2]
    · exact (Num.is_fin false 1 0).of_eq (by simp [finRat])
    · exact (Num.is_fin false 0 0).of_eq (by simp [finRat])
    · exact (Num.is_fin false 0 0).of_eq (by simp [finRat])
    · simp [Num.rsqrt, Num.log2, hm.ne']

end Sys2Proof.Machine
end

section
/-! PROOF. The bit operations and the moves of the vector stream (06 R176, R179, R183, R185; O20, O21). -/

namespace Sys2Proof.Machine

/-! ## The bit operations -/

section
variable {i : Instr} {s : State} {o : VBin} {cls : ElemType → Bool} {f : ElemType → Nat → Nat → Nat → Nat} {t : ElemType}
  (hst : s.cur.st = .vector) (free : s.me.vbusy ≤ s.cyc) (hi : exec i s = s.vbits o cls f)
include hst free hi

theorem Elementwise.of_vbits (typed : s.Typed o.t cls o.rm t) (fileA : InFile o.ka o.a) (fileB : InFile o.kb o.b) (noSat : o.sat = 0) :
    Elementwise i s o.vd t o.msk 2 1 fun e => f t (s.rawSrc o.ka o.a t e) (s.rawSrc o.kb o.b t e) (elemAt (s.vr o.vd) t.width e) := by
  refine .of_vdone hst hi ?_ ⟨false, ?_⟩
  · rw [Verdict.and_ok_iff, State.vchecks_ok_iff, srcBad_eq_false_iff.mpr fileA, srcBad_eq_false_iff.mpr fileB, noSat]
    exact ⟨State.occupied_ok_of_le free, ⟨t, typed⟩, rfl, nofun, rfl⟩
  · simp only [State.vt_of_vtype typed.resolves]

theorem Traps.of_vbits (sat : o.sat = 1) : Traps i s (cause 0 1 2) := by
  refine .of_vchecks hst free hi ?_
  rintro ⟨-, -, legal, -⟩
  exact absurd (legal (by rw [sat]; rfl)) nofun

end

section
variable (o : VBin) (u : VUn) (s : State)

theorem exec_vand : exec (.vand o) s = s.vbits o isX (fun _ a b _ => a &&& b) := rfl
theorem exec_vor : exec (.vor o) s = s.vbits o isX (fun _ a b _ => a ||| b) := rfl
theorem exec_vxor : exec (.vxor o) s = s.vbits o isX (fun _ a b _ => a ^^^ b) := rfl
theorem exec_vshl : exec (.vshl o) s = s.vbits o isI (fun t a b _ => a * 2 ^ (b % t.width) % 2 ^ t.width) := rfl
theorem exec_vshr : exec (.vshr o) s = s.vbits o isI (fun t a b _ => a / 2 ^ (b % t.width)) := rfl
theorem exec_vsra : exec (.vsra o) s = s.vbits o isI (fun t a b _ => (t.asInt a / 2 ^ (b % t.width) % 2 ^ t.width).toNat) := rfl
theorem exec_vbext : exec (.vbext o) s = s.vbits o isI (fun t a b _ => a / 2 ^ (b % t.width) % 2 ^ (b / t.width % t.width + 1)) := rfl
theorem exec_vfsh : exec (.vfsh o) s =
    s.vbits o isI (fun t a b c => (a * 2 ^ t.width + b) * 2 ^ (c % t.width) / 2 ^ t.width % 2 ^ t.width) := rfl
theorem exec_vpopc : exec (.vpopc u) s = s.vbits (unBin u) isI (fun t a _ _ => onesCount t.width a) := rfl
theorem exec_vclz : exec (.vclz u) s = s.vbits (unBin u) isI (fun t a _ _ => leadZeros t.width a) := rfl

end

/-- Settles O20: each word is `State.vbits` of its operation on patterns; the counts are those of `onesCount_eq_length` and `leadZeros_spec`. -/
theorem vectorBits : Obligations.VectorBits := by
  unfold Obligations.VectorBits
  intro s o u t hst free w a b c x gives legal
  refine ⟨fun ok => ?_, fun ok int => ?_, fun typed file noSat => ?_, fun sat => ?_, fun sat => ?_⟩
  · obtain ⟨typed, fileA, fileB, noSat⟩ := ok
    exact ⟨.of_vbits hst free (exec_vand o s) typed fileA fileB noSat, .of_vbits hst free (exec_vor o s) typed fileA fileB noSat,
      .of_vbits hst free (exec_vxor o s) typed fileA fileB noSat⟩
  · obtain ⟨typed, fileA, fileB, noSat⟩ := ok
    have typed : s.Typed o.t isI o.rm t := typed.mono int
    exact ⟨.of_vbits hst free (exec_vshl o s) typed fileA fileB noSat, .of_vbits hst free (exec_vshr o s) typed fileA fileB noSat,
      .of_vbits hst free (exec_vsra o s) typed fileA fileB noSat, .of_vbits hst free (exec_vbext o s) typed fileA fileB noSat,
      .of_vbits hst free (exec_vfsh o s) typed fileA fileB noSat⟩
  · exact ⟨⟨_, .of_vbits (o := unBin u) hst free (exec_vpopc u s) typed file inFile_zero noSat, fun e => onesCount_eq_length w (x e)⟩,
      _, .of_vbits (o := unBin u) hst free (exec_vclz u s) typed file inFile_zero noSat,
      fun e => leadZeros_spec (s.rawSrc_lt u.ka u.a typed.class_ e)⟩
  · exact List.forall_iff_forall_mem.mp ⟨.of_vbits hst free (exec_vand o s) sat, .of_vbits hst free (exec_vor o s) sat,
      .of_vbits hst free (exec_vxor o s) sat, .of_vbits hst free (exec_vshl o s) sat, .of_vbits hst free (exec_vshr o s) sat,
      .of_vbits hst free (exec_vsra o s) sat, .of_vbits hst free (exec_vbext o s) sat, .of_vbits hst free (exec_vfsh o s) sat⟩
  · exact List.forall_iff_forall_mem.mp ⟨.of_vbits (o := unBin u) hst free (exec_vpopc u s) sat,
      .of_vbits (o := unBin u) hst free (exec_vclz u s) sat⟩

/-! ## The moves -/

theorem beq_one_eq_false {b : BitVec 1} (h : b = 0) : (b == 1) = false := by
  rw [h]; rfl

theorem State.indexBad_eq_false_iff {s : State} {f : BitVec 3} {ka kb : BitVec 2} {b : BitVec 8} : s.indexBad f ka kb b = false ↔
    ka = 0 ∧ (kb = 1 ∨ kb = 3) ∧ InFile kb b ∧ s.vindex kb b < (s.vt f).count := by
  simp only [State.indexBad, Bool.or_eq_false_iff, Bool.and_eq_false_iff, bne_eq_false_iff_eq, srcBad_eq_false_iff, decide_eq_false_iff_not, not_le,
    and_assoc]

/-- The index operand of a kind that the moves take names a scalar register or holds the index itself. -/
theorem inFile_of_index {k : BitVec 2} {b : BitVec 8} (h : (k = 1 ∧ b.toNat < 64) ∨ k = 3) : (k = 1 ∨ k = 3) ∧ InFile k b := by
  rcases h with ⟨rfl, file⟩ | rfl
  · exact ⟨.inl rfl, fun _ => file⟩
  · exact ⟨.inr rfl, fun reg => absurd reg (by decide)⟩

theorem inFile_of_reg {k : BitVec 2} {a : BitVec 8} (reg : k = 0) (h : InFile k a) : a.toNat < 64 := h (by rw [reg]; decide)

/-- The result of a word that moves elements, at its landing: its copies of containers whose residue does not match. -/
theorem moved_of_vdone {i : Instr} {s : State} {v : Verdict} {eff : State → State} {lat occ : Nat} {b : Bool} {e : Eff} {sp : List Nat}
    (hst : s.cur.st = .vector) (hi : exec i s = s.perform v eff) (hv : v = .ok) (he : eff s = s.vdone lat occ b [e] sp) :
    ∃ r f, exec i s = .next r ∧ f ∈ r.me.flights ∧ f.eff = e ∧ f.spoilt = sp := by
  refine ⟨_, { s.flight lat e with checked := b, spoilt := sp }, by rw [hi, State.perform_ok hv, he], ?_, rfl, rfl⟩
  rw [State.me_vdone hst ⟨rfl, fun _ => rfl, rfl, rfl, rfl, rfl⟩]
  simp

section
variable (o : VBin) (u : VUn) (x : VExtrOp) (s : State)

theorem exec_vmov : exec (.vmov u) s = execVmov u s := rfl
theorem exec_vsel : exec (.vsel o) s = execVsel o s := rfl
theorem exec_vbcast : exec (.vbcast o) s = execVbcast o s := rfl
theorem exec_viota : exec (.viota u) s =
    s.perform (.and s.occupied (s.vchecks u.t isI (srcBad u.ka u.a) u.rm (u.sat == 1) true (u.ka != 1 && u.ka != 3))) fun s =>
      s.vdone 2 1 false [velems u.vd (s.vt u.t).width ((s.governed u.msk (s.vt u.t).count).map fun e =>
        (e, (s.vt u.t).narrow (u.sat == 1) ((s.vt u.t).asInt (s.rawSrc u.ka u.a (s.vt u.t) e) + e)))] := rfl
theorem exec_vperm : exec (.vperm o) s = execVperm o s := rfl
theorem exec_vextr : exec (.vextr x) s =
    s.perform (verdicts [s.occupied, s.freeQ x.qd,
      s.vchecks x.t isX (srcBad x.ka x.a) x.rm (x.sat == 1) false (s.indexBad x.t x.ka x.kb x.b || x.msk != 0)]) fun s =>
      let v := elemAt (s.vr (x.a.setWidth 6)) (s.vt x.t).width (s.vindex x.kb x.b)
      s.vdone 2 1 false [.q x.qd (if (s.vt x.t).isInt then BitVec.ofInt 64 ((s.vt x.t).asInt v) else BitVec.ofNat 64 v)] := rfl

end

section
variable {s : State} {t : ElemType} (hst : s.cur.st = .vector) (free : s.me.vbusy ≤ s.cyc)
include free

section
variable {u : VUn}

theorem vmov_ok (typed : s.Typed u.t isX u.rm t) (file : InFile u.ka u.a) (noSat : u.sat = 0) :
    Verdict.and s.occupied (s.vchecks u.t isX (srcBad u.ka u.a) u.rm (u.sat == 1) false false) = .ok := by
  rw [Verdict.and_ok_iff, State.vchecks_ok_iff, beq_one_eq_false noSat, srcBad_eq_false_iff]
  exact ⟨State.occupied_ok_of_le free, ⟨t, typed⟩, file, nofun, rfl⟩

include hst

theorem elementwise_vmov (typed : s.Typed u.t isX u.rm t) (file : InFile u.ka u.a) (noSat : u.sat = 0) (clean : s.me.vBad = []) :
    Elementwise (.vmov u) s u.vd t u.msk 2 1 (s.rawSrc u.ka u.a t) :=
  .of_vdone hst (exec_vmov u s) (vmov_ok free typed file noSat) ⟨false, by simp only [State.vt_of_vtype typed.resolves, State.spoilt_of_clean clean]⟩

/-- VMOV copies the mismatch of a container that it reads (13 R389). -/
theorem vmov_spoils (typed : s.Typed u.t isX u.rm t) (file : InFile u.ka u.a) (noSat : u.sat = 0) (reg : u.ka = 0) :
    ∃ r f, exec (.vmov u) s = .next r ∧ f ∈ r.me.flights ∧
      f.eff = velems u.vd t.width ((s.governed u.msk t.count).map fun e => (e, s.rawSrc u.ka u.a t e)) ∧
      ∀ e ∈ s.governed u.msk t.count, (∃ i ∈ containersOf t.width e, 128 * u.a.toNat + i ∈ s.me.vBad) →
        ∀ i ∈ containersOf t.width e, i ∈ f.spoilt := by
  obtain ⟨r, f, runs, flies, eff, spoilt⟩ := moved_of_vdone hst (exec_vmov u s) (vmov_ok free typed file noSat) rfl
  rw [State.vt_of_vtype typed.resolves] at eff spoilt
  refine ⟨r, f, runs, flies, eff, fun e he hit i hi => ?_⟩
  have read : s.badIn u.ka u.a t.width [e] = true := reg ▸ State.badIn_of_mem (inFile_of_reg reg file) (by simpa using hit)
  rw [spoilt, State.spoilt, List.mem_flatMap]
  exact ⟨_, List.mem_filter.mpr ⟨List.mem_map_of_mem he, read⟩, hi⟩

theorem elementwise_viota (typed : s.Typed u.t isI u.rm t) (file : InFile u.ka u.a) (kind : u.ka = 1 ∨ u.ka = 3) :
    Elementwise (.viota u) s u.vd t u.msk 2 1 fun e => t.narrow (u.sat == 1) (t.asInt (s.rawSrc u.ka u.a t e) + e) := by
  refine .of_vdone hst (exec_viota u s) ?_ ⟨false, by simp only [State.vt_of_vtype typed.resolves]⟩
  rw [Verdict.and_ok_iff, State.vchecks_ok_iff, srcBad_eq_false_iff]
  exact ⟨State.occupied_ok_of_le free, ⟨t, typed⟩, file, fun _ => rfl, by rcases kind with h | h <;> rw [h] <;> rfl⟩

theorem traps_viota (kind : u.ka = 0 ∨ u.ka = 2) : Traps (.viota u) s (cause 0 1 2) := by
  refine .of_vchecks hst free (exec_viota u s) ?_
  rintro ⟨-, -, -, own⟩
  rcases kind with h | h <;> rw [h] at own <;> exact absurd own (by decide)

end

section
variable {o : VBin}

theorem runs_vsel (hst : s.cur.st = .vector) (typed : s.Typed o.t isX o.rm t) (fileA : InFile o.ka o.a) (fileB : InFile o.kb o.b) (noSat : o.sat = 0)
    (clean : s.me.vBad = []) : ∃ r, exec (.vsel o) s = .next r ∧ r.me.vbusy = s.cyc + 1 ∧ s.Issued r [(2, velems o.vd t.width
      ((List.range t.count).map fun e => (e, if governs (s.mask o.msk) t.count e then s.rawSrc o.ka o.a t e else s.rawSrc o.kb o.b t e)))] := by
  refine runs_of_vdone (lat := 2) (effs := [_]) hst (exec_vsel o s) ?_ ⟨false, by simp only [State.vt_of_vtype typed.resolves, State.spoilt_of_clean clean]⟩
  rw [Verdict.and_ok_iff, State.vchecks_ok_iff, beq_one_eq_false noSat, srcBad_eq_false_iff.mpr fileA, srcBad_eq_false_iff.mpr fileB]
  exact ⟨State.occupied_ok_of_le free, ⟨t, typed⟩, rfl, nofun, rfl⟩

include hst

theorem elementwise_vbcast (typed : s.Typed o.t isX o.rm t) (noSat : o.sat = 0) (clean : s.me.vBad = []) (reg : o.ka = 0)
    (file : o.a.toNat < 64) (index : (o.kb = 1 ∧ o.b.toNat < 64) ∨ o.kb = 3) (inside : s.vindex o.kb o.b < t.count) :
    Elementwise (.vbcast o) s o.vd t o.msk 2 1 fun _ => elemAt (s.vr (o.a.setWidth 6)) t.width (s.vindex o.kb o.b) := by
  have count : s.vt o.t = t := State.vt_of_vtype typed.resolves
  obtain ⟨kind, fileB⟩ := inFile_of_index index
  refine .of_vdone hst (exec_vbcast o s) ?_ ⟨false, by simp only [count, State.spoilt_of_clean clean]⟩
  rw [Verdict.and_ok_iff, State.vchecks_ok_iff, beq_one_eq_false noSat, srcBad_eq_false_iff, State.indexBad_eq_false_iff, count]
  exact ⟨State.occupied_ok_of_le free, ⟨t, typed⟩, fun _ => file, nofun, reg, kind, fileB, inside⟩

/-- A VBCAST whose index operand is none that the word has, or lies past the elements. -/
theorem traps_vbcast (bad : ¬ (o.ka = 0 ∧ (o.kb = 1 ∨ o.kb = 3) ∧ s.vindex o.kb o.b < (s.vt o.t).count)) : Traps (.vbcast o) s (cause 0 1 2) := by
  refine .of_vchecks hst free (exec_vbcast o s) ?_
  rintro ⟨-, -, -, own⟩
  obtain ⟨reg, kind, -, inside⟩ := State.indexBad_eq_false_iff.mp own
  exact bad ⟨reg, kind, inside⟩

theorem runs_vperm (typed : s.Typed o.t isX o.rm t) (noSat : o.sat = 0) (clean : s.me.vBad = []) (regA : o.ka = 0) (fileA : o.a.toNat < 64)
    (regB : o.kb = 0) (fileB : o.b.toNat < 64) : let w := if t.width = 64 then 64 else 32
    ∃ r, exec (.vperm o) s = .next r ∧ r.me.vbusy = s.cyc + 1 ∧ s.Issued r [(4, velems o.vd w ((s.governed o.msk (4096 / w)).map fun e =>
      (e, elemAt (s.vr (o.a.setWidth 6)) w (elemAt (s.vr (o.b.setWidth 6)) w e % (4096 / w)))))] := by
  refine runs_of_vdone (lat := 4) (effs := [_]) hst (exec_vperm o s) ?_
    ⟨false, by simp only [State.vt_of_vtype typed.resolves, State.spoilt_of_clean clean]⟩
  rw [Verdict.and_ok_iff, State.vchecks_ok_iff, beq_one_eq_false noSat, Bool.or_eq_false_iff, srcBad_eq_false_iff, srcBad_eq_false_iff]
  exact ⟨State.occupied_ok_of_le free, ⟨t, typed⟩, ⟨fun _ => fileA, fun _ => fileB⟩, nofun, by simp [regA, regB]⟩

theorem traps_vperm (bad : o.ka ≠ 0 ∨ o.kb ≠ 0) : Traps (.vperm o) s (cause 0 1 2) := by
  refine .of_vchecks hst free (exec_vperm o s) ?_
  rintro ⟨-, -, -, own⟩
  simp only [Bool.or_eq_false_iff, bne_eq_false_iff_eq] at own
  exact bad.elim (· own.1) (· own.2)

end

section
variable {x : VExtrOp}
include hst

theorem traps_vextr (target : s.me.qIsEmpty x.qd = true) (bad : x.ka ≠ 0 ∨ x.kb = 0 ∨ x.kb = 2 ∨ x.msk ≠ 0) : Traps (.vextr x) s (cause 0 1 2) := by
  have checks := State.vchecks_fault (f := x.t) (cls := isX) (regs := srcBad x.ka x.a) (rm := x.rm) (sat := x.sat == 1) (satOk := false)
    (own := s.indexBad x.t x.ka x.kb x.b || x.msk != 0) hst <| by
    rw [Ne, State.vchecks_ok_iff, Bool.or_eq_false_iff, State.indexBad_eq_false_iff, bne_eq_false_iff_eq]
    rintro ⟨-, -, -, ⟨reg, kind, -⟩, mask⟩
    rcases bad with h | h | h | h
    · exact h reg
    · exact absurd (h ▸ kind) (by decide)
    · exact absurd (h ▸ kind) (by decide)
    · exact h mask
  refine .of_perform (s.ne_crossing_of_vector hst) (exec_vextr x s) ?_
  simp only [verdicts_cons, State.occupied_ok_of_le free, Verdict.and_ok, State.freeQ, target, need_true, checks]
  rfl

theorem gives_vextr (typed : s.Typed x.t isX x.rm t) (file : x.a.toNat < 64) (noSat : x.sat = 0) (reg : x.ka = 0)
    (index : (x.kb = 1 ∧ x.b.toNat < 64) ∨ x.kb = 3) (mask : x.msk = 0) (inside : s.vindex x.kb x.b < t.count)
    (target : s.me.qIsEmpty x.qd = true) : let v := elemAt (s.vr (x.a.setWidth 6)) t.width (s.vindex x.kb x.b)
    Gives (.vextr x) s [(2, .q x.qd (if t.isInt then BitVec.ofInt 64 (t.asInt v) else BitVec.ofNat 64 v))] := by
  have count : s.vt x.t = t := State.vt_of_vtype typed.resolves
  obtain ⟨kind, fileB⟩ := inFile_of_index index
  refine .of_vdone (lat := 2) (occ := 1) (effs := [_]) hst (exec_vextr x s) ?_ ⟨false, by simp only [count]⟩
  simp only [verdicts_cons, verdicts_nil, Verdict.and_ok_iff, State.freeQ, need_ok_iff, and_true]
  rw [State.vchecks_ok_iff, beq_one_eq_false noSat, srcBad_eq_false_iff, Bool.or_eq_false_iff, State.indexBad_eq_false_iff, bne_eq_false_iff_eq, count]
  exact ⟨State.occupied_ok_of_le free, target, ⟨t, typed⟩, fun _ => file, nofun, ⟨reg, kind, fileB, inside⟩, mask⟩

theorem stalls_vextr (target : s.me.qIsEmpty x.qd = false) : Stalls (.vextr x) s (cause 2 1 2) := by
  refine .of_perform (s.ne_crossing_of_vector hst) (exec_vextr x s) ?_
  simp only [verdicts_cons, State.occupied_ok_of_le free, Verdict.and_ok, State.freeQ, target, need_false, hst]
  rfl

end

end

/-- Settles O21: the checks and the result of each move. -/
theorem vectorMoves : Obligations.VectorMoves := by
  unfold Obligations.VectorMoves
  intro s o u x t hst free bin un w index
  refine ⟨fun typed file noSat clean => elementwise_vmov hst free typed file noSat clean,
    fun typed file noSat reg => vmov_spoils hst free typed file noSat reg, fun bad => traps_vperm hst free bad,
    fun bad => traps_vbcast hst free ?_, fun target bad => traps_vextr hst free target bad,
    fun typed file kind => elementwise_viota hst free typed file kind, fun _ _ kind => traps_viota hst free kind,
    fun ok fileB => ?_, fun ok reg kind => ?_, fun ok regA regB fileB => ?_, fun typed file noSat reg kind mask inside => ?_⟩
  · rintro ⟨reg, kind, -⟩
    rcases bad with h | h | h
    · exact h reg
    · exact absurd (h ▸ kind) (by decide)
    · exact absurd (h ▸ kind) (by decide)
  · obtain ⟨typed, fileA, noSat, clean⟩ := ok
    exact runs_vsel free hst typed fileA fileB noSat clean
  · obtain ⟨typed, fileA, noSat, clean⟩ := ok
    refine ⟨fun inside => elementwise_vbcast hst free typed noSat clean reg (inFile_of_reg reg fileA) kind inside,
      fun outside => traps_vbcast hst free fun legal => ?_⟩
    rw [State.vt_of_vtype typed.resolves] at legal
    exact absurd legal.2.2 (not_lt.mpr outside)
  · obtain ⟨typed, fileA, noSat, clean⟩ := ok
    exact runs_vperm hst free typed noSat clean regA (inFile_of_reg regA fileA) regB fileB
  · exact ⟨gives_vextr hst free typed file noSat reg kind mask inside, stalls_vextr hst free⟩

end Sys2Proof.Machine
end

section
/-! PROOF. Compares and the partition of the vector stream (06 R179, R184, R186; O22). -/

namespace Sys2Proof.Machine

/-! ## The order of values (06 R184) -/

/-- The order of the model is that of the numbers, the two zeros being equal. -/
theorem Num.lt_iff_below (x y : Num) : x.lt y = true ↔ x.Below y := by
  cases x with
  | nan => simp [Num.lt, Num.lt0, Num.Below]
  | inf a => cases y <;> simp [Num.lt, Num.lt0, Num.Below]
  | fin a m e p =>
    cases y with
    | nan => simp [Num.lt, Num.lt0, Num.Below]
    | inf b => simp [Num.lt, Num.lt0, Num.Below]
    | fin b n f q =>
      have pos : (0 : Rat) < 2 ^ Min.min e f := by positivity
      have below : (Num.fin a m e p).Below (.fin b n f q) ↔
          ((if a then -1 else 1) * (m * 2 ^ (e - Min.min e f).toNat : Nat) : Int) < (if b then -1 else 1) * (n * 2 ^ (f - Min.min e f).toNat : Nat) := by
        change finRat a m e < finRat b n f ↔ _
        rw [finRat_eq_scaled a m (min_le_left e f), finRat_eq_scaled b n (min_le_right e f), mul_lt_mul_iff_left₀ pos, Int.cast_lt]
      rw [below, Num.lt]
      split
      · next zeros => simp [zeros]
      · next other =>
        simp only [Num.lt0, Bool.or_eq_true, Bool.and_eq_true, decide_eq_true_eq]
        refine or_iff_left fun ⟨⟨⟨same, zero⟩, _⟩, _⟩ => other ⟨zero, ?_⟩
        have : n * 2 ^ (f - Min.min e f).toNat = 0 := by
          rw [zero, Nat.zero_mul, Nat.cast_zero, mul_zero] at same
          split at same <;> omega
        exact (Nat.mul_eq_zero.mp this).resolve_right (Nat.two_pow_pos _).ne'

theorem Num.Below.not_nan {x y : Num} (h : x.Below y) : ¬ (x = .nan ∨ y = .nan) := by
  rintro (rfl | rfl)
  · exact h
  · cases x <;> exact h

theorem Num.Below.asymm {x y : Num} (h : x.Below y) : ¬ y.Below x := by
  cases x <;> cases y <;> simp only [Num.Below] at h ⊢ <;> first | exact not_lt_of_gt h | simp_all

theorem Num.eq_iff (x y : Num) : x.eq y = true ↔ ¬ (x = .nan ∨ y = .nan) ∧ ¬ x.Below y ∧ ¬ y.Below x := by
  rw [← Num.lt_iff_below, ← Num.lt_iff_below]
  cases x <;> cases y <;> simp [Num.eq]

theorem Num.eq_comm_iff {x y : Num} : y.eq x = true ↔ x.eq y = true := by
  rw [Num.eq_iff, Num.eq_iff, or_comm, and_comm (a := ¬ y.Below x)]

theorem Num.real_iff (x y : Num) : (!(x == .nan || y == .nan)) = true ↔ ¬ (x = .nan ∨ y = .nan) := by simp

/-- A NaN stands in no order. -/
theorem Num.lt_and_iff (x y : Num) : (!(x == .nan || y == .nan) && x.lt y) = true ↔ x.Below y := by
  rw [Bool.and_eq_true, Num.real_iff, Num.lt_iff_below]
  exact and_iff_right_of_imp Num.Below.not_nan

theorem Num.le_and_iff (x y : Num) : (!(x == .nan || y == .nan) && !y.lt x) = true ↔ x.eq y = true ∨ x.Below y := by
  rw [Bool.and_eq_true, Num.real_iff, Bool.not_eq_true', Bool.eq_false_iff, Ne, Num.lt_iff_below, Num.eq_iff]
  refine ⟨fun ⟨real, above⟩ => ?_, fun h => h.elim (fun same => ⟨same.1, same.2.2⟩) fun below => ⟨below.not_nan, below.asymm⟩⟩
  by_cases below : x.Below y
  · exact .inr below
  · exact .inl ⟨real, below, above⟩

/-! ## The condition of an element (06 R184) -/

theorem vcond_iff_floatHolds {t : ElemType} (float : t.isInt = false) (cc a b : Nat) :
    vcond t cc a b = true ↔ floatHolds cc (t.value a) (t.value b) := by
  simp only [vcond, float, Bool.false_eq_true, if_false]
  generalize t.value a = x
  generalize t.value b = y
  have same := Num.eq_iff x y
  have swap : (x == .nan || y == .nan) = (y == .nan || x == .nan) := Bool.or_comm ..
  match cc with
  | 0 => exact same
  | 1 => exact Bool.not_eq_true' _ ▸ (Bool.eq_false_iff.trans (not_congr same))
  | 2 => exact Num.lt_and_iff x y
  | 3 => exact (Num.le_and_iff x y).trans (or_congr_left same)
  | 4 => exact swap ▸ Num.lt_and_iff y x
  | 5 => exact swap ▸ (Num.le_and_iff y x).trans (or_congr_left (Num.eq_comm_iff.trans same))
  | 6 => simp [floatHolds]
  | 7 => simp [floatHolds]
  | n + 8 => exact iff_of_false nofun id

/-- The patterns of an integer type are those of its integers. -/
theorem ElemType.asInt_inj {t : ElemType} {a b : Nat} (ha : a < 2 ^ t.width) (hb : b < 2 ^ t.width) : t.asInt a = t.asInt b ↔ a = b := by
  refine ⟨fun h => ?_, fun h => h ▸ rfl⟩
  unfold ElemType.asInt at h
  split at h
  · next byte =>
    subst byte
    simp only [ElemType.width] at ha hb
    omega
  · have := congrArg BitVec.toNat (BitVec.toInt_inj.mp h)
    rwa [BitVec.toNat_ofNat, BitVec.toNat_ofNat, Nat.mod_eq_of_lt ha, Nat.mod_eq_of_lt hb] at this

theorem vcond_iff_intHolds {t : ElemType} (int : t.isInt = true) (cc : Nat) {a b : Nat} (ha : a < 2 ^ t.width) (hb : b < 2 ^ t.width) :
    vcond t cc a b = true ↔ intHolds cc (t.asInt a) (t.asInt b) a b := by
  simp only [vcond, int, if_true]
  unfold intHolds
  split <;> simp [ElemType.asInt_inj ha hb]

/-! ## The mask of a compare (06 R184) -/

theorem condMask_getLsbD (k : BitVec 128) (n : Nat) (f : Nat → Bool) {i : Nat} (hi : i < 128) : (condMask k n f).getLsbD i =
    (governs k n (i * n / 128) && (List.range (max 1 (n / 128))).all fun j => f (i * n / 128 + j)) := by
  rw [condMask, BitVec.getLsbD_setWidth, BitVec.getLsbD_ofBoolListLE]
  simp [hi]

/-- One bit for each lane of a type whose elements fill a lane or more. -/
theorem condMask_iff_of_le {n : Nat} (hn : n ≤ 128) (k : BitVec 128) (f : Nat → Bool) {i : Nat} (hi : i < 128) :
    (condMask k n f).getLsbD i = true ↔ governs k n (i * n / 128) = true ∧ f (i * n / 128) = true := by
  rw [condMask_getLsbD k n f hi, show max 1 (n / 128) = 1 by omega]
  simp [List.range_one]

/-- One bit for each lane of `c` elements. -/
theorem condMask_iff_of_mul {c : Nat} (hc : 0 < c) (k : BitVec 128) (f : Nat → Bool) {i : Nat} (hi : i < 128) :
    (condMask k (128 * c) f).getLsbD i = true ↔ k.getLsbD i = true ∧ ∀ j, j < c → f (i * c + j) = true := by
  have first : i * (128 * c) / 128 = i * c := by rw [Nat.mul_left_comm, Nat.mul_div_cancel_left _ (by omega)]
  have lane : i * c * 128 / (128 * c) = i := by rw [Nat.mul_assoc, Nat.mul_comm c, Nat.mul_div_cancel _ (by omega)]
  rw [condMask_getLsbD k _ f hi, Nat.mul_div_cancel_left _ (by omega), max_eq_right hc, first, governs, lane]
  simp

theorem ElemType.count_eq_mul {t : ElemType} (h : 128 < t.count) : t.count = 128 * (t.count / 128) := by
  cases t <;> first | rfl | exact absurd h (by decide)

theorem exec_vcmp (o : VCmpOp) (s : State) : exec (.vcmp o) s =
    s.perform (.and s.occupied (s.vchecks o.t isFI (srcBad o.ka o.a || srcBad o.kb o.b) 0 false true
      (o.kd == 0 || decide ((if (s.vt o.t).isInt then 10 else 8) ≤ o.cc.toNat)))) fun s =>
      let t := s.vt o.t
      let es := s.governed o.msk t.count
      (s.mismatch (t.isInt && (s.badIn o.ka o.a t.width es || s.badIn o.kb o.b t.width es))).vdone 2 1 t.isInt
        [.k o.kd (condMask (s.mask o.msk) t.count fun e =>
          vcond t o.cc.toNat (s.src (s.flushes o.t t) o.ka o.a t e) (s.src (s.flushes o.t t) o.kb o.b t e))] := rfl

section
variable {s : State} {o : VCmpOp} {t : ElemType} (hst : s.cur.st = .vector) (free : s.me.vbusy ≤ s.cyc) (typed : s.Typed o.t isFI 0 t)
  (fileA : InFile o.ka o.a) (fileB : InFile o.kb o.b)
include hst free typed

include fileA fileB in
theorem gives_vcmp (clean : s.me.vBad = []) (target : o.kd ≠ 0) (code : o.cc.toNat ≤ if t.isInt then 9 else 7) :
    Gives (.vcmp o) s [(2, .k o.kd (condMask (s.mask o.msk) t.count fun e =>
      vcond t o.cc.toNat (s.src (s.flushes o.t t) o.ka o.a t e) (s.src (s.flushes o.t t) o.kb o.b t e)))] := by
  have vt : s.vt o.t = t := State.vt_of_vtype typed.resolves
  refine .of_vdone (lat := 2) (occ := 1) (effs := [_]) hst (exec_vcmp o s) ?_
    ⟨t.isInt, by simp only [vt, State.badIn_of_clean clean, Bool.or_false, Bool.and_false, State.mismatch_false]⟩
  rw [Verdict.and_ok_iff, State.vchecks_ok_iff, srcBad_eq_false_iff.mpr fileA, srcBad_eq_false_iff.mpr fileB, vt]
  refine ⟨State.occupied_ok_of_le free, ⟨t, typed⟩, rfl, nofun, ?_⟩
  rw [beq_eq_false_iff_ne.mpr target, Bool.false_or, decide_eq_false_iff_not]
  split <;> simp_all <;> omega

theorem traps_vcmp (bad : o.kd = 0 ∨ (if t.isInt then 9 else 7) < o.cc.toNat) : Traps (.vcmp o) s (cause 0 1 2) := by
  refine .of_vchecks hst free (exec_vcmp o s) ?_
  rintro ⟨-, -, -, own⟩
  rw [State.vt_of_vtype typed.resolves, Bool.or_eq_false_iff, beq_eq_false_iff_ne, decide_eq_false_iff_not] at own
  refine bad.elim own.1 fun past => own.2 ?_
  split <;> simp_all <;> omega

end

/-! ## The partition (06 R186) -/

section
variable (lanes : List Nat) (code : Nat → Nat)

theorem length_filter_lt_succ (c : Nat) : (lanes.filter fun e => decide (code e < c + 1)).length =
    (lanes.filter fun e => decide (code e < c)).length + (lanes.filter fun e => code e == c).length := by
  induction lanes with
  | nil => rfl
  | cons e l ih =>
    simp only [List.filter_cons, decide_eq_true_eq, beq_iff_eq]
    rcases lt_trichotomy (code e) c with h | h | h
    · rw [if_pos (Nat.lt_succ_of_lt h), if_pos h, if_neg h.ne, List.length_cons, List.length_cons, ih]; omega
    · rw [if_pos (by omega), if_neg (by omega), if_pos h, List.length_cons, List.length_cons, ih]; omega
    · rw [if_neg (by omega), if_neg (by omega), if_neg h.ne', ih]

/-- The lengths of the arms below an outcome count the lanes whose code is below it. -/
theorem sum_arms_eq (n j : Nat) : ((List.range j).map fun c => if c < n then (lanes.filter fun e => code e == c).length else 0).foldl (· + ·) 0 =
    (lanes.filter fun e => decide (code e < min j n)).length := by
  induction j with
  | zero => simp
  | succ j ih =>
    rw [List.range_succ, List.map_append, List.foldl_append, ih]
    by_cases h : j < n
    · rw [min_eq_left h.le, min_eq_left h, length_filter_lt_succ]
      simp [h]
    · rw [min_eq_right (not_lt.mp h), min_eq_right (by omega)]
      simp [h]

end

/-- An entry of a list that numbers its entries. -/
theorem getElem?_numbered {α : Type} (f : Nat → α) {n j : Nat} (hj : j < n) : ((List.range n).map fun j => (j, f j))[j]? = some (j, f j) := by
  simp [hj]

/-- The two results of a partition into `n` arms: the lanes in the order of their arms, and the arms' sizes and starts and the strays. -/
def State.partition (s : State) (o : VBin) (n : Nat) : List Eff :=
  let code := elemAt (s.vr (o.a.setWidth 6)) 32
  let lanes := s.governed o.msk 128
  let arm := fun c => lanes.filter fun e => code e == c
  let size := fun c => if c < n then (arm c).length else 0
  [velems o.vd 32 ((List.range 128).map fun j => (j, (((List.range n).flatMap arm)[j]?).getD (2 ^ 32 - 1))),
    velems (o.vd + 1) 32 ((List.range 128).map fun j =>
      (j, if j < 16 then size j else if j < 32 then ((List.range (j - 16)).map size).foldl (· + ·) 0
        else if j = 32 then (lanes.filter fun e => !decide (code e < n)).length else 0))]

theorem exec_vpart (o : VBin) (s : State) : exec (.vpart o) s =
    s.perform (.and s.occupied (s.vchecks o.t (fun t => t == .int32) (srcBad o.ka o.a) o.rm (o.sat == 1) false
      (o.t != 4 || o.ka != 0 || o.kb != 3 || decide (o.b.toNat = 0 ∨ 16 < o.b.toNat ∨ 63 ≤ o.vd.toNat)))) fun s =>
        s.vdone 6 2 false (s.partition o o.b.toNat) := rfl

theorem vpart_ok {s : State} {o : VBin} (free : s.me.vbusy ≤ s.cyc) (type : o.t = 4) (reg : o.ka = 0) (file : o.a.toNat < 64) (kind : o.kb = 3)
    (any : 1 ≤ o.b.toNat) (few : o.b.toNat ≤ 16) (target : o.vd.toNat < 63) (mode : o.rm = 0) (noSat : o.sat = 0) :
    Verdict.and s.occupied (s.vchecks o.t (fun t => t == .int32) (srcBad o.ka o.a) o.rm (o.sat == 1) false
      (o.t != 4 || o.ka != 0 || o.kb != 3 || decide (o.b.toNat = 0 ∨ 16 < o.b.toNat ∨ 63 ≤ o.vd.toNat))) = .ok := by
  have typed : s.Typed o.t (fun t => t == .int32) o.rm .int32 := by
    rw [type, mode]
    exact ⟨rfl, rfl, by decide, fun _ => rfl⟩
  have small : decide (o.b.toNat = 0 ∨ 16 < o.b.toNat ∨ 63 ≤ o.vd.toNat) = false := decide_eq_false (by omega)
  rw [Verdict.and_ok_iff, State.vchecks_ok_iff, srcBad_eq_false_iff, beq_one_eq_false noSat, small, reg, kind]
  exact ⟨State.occupied_ok_of_le free, ⟨_, typed⟩, fun _ => file, nofun, by simp [type]⟩

/-- Settles O22: a compare's mask holds the conditions of `vcond_iff_intHolds` and `vcond_iff_floatHolds`, and the partition's counts are those of
`sum_arms_eq`. -/
theorem compareAndPart : Obligations.CompareAndPart := by
  unfold Obligations.CompareAndPart
  intro s o p t hst free a b holds legal last
  refine ⟨fun ok target code => ?_, fun ok bad => ?_, ?_⟩
  · obtain ⟨typed, fileA, fileB, clean⟩ := ok
    have cond (e : Nat) : vcond t o.cc.toNat (a e) (b e) = true ↔ holds e := by
      cases int : t.isInt with
      | true =>
        have raw (k : BitVec 2) (r : BitVec 8) : s.src (s.flushes o.t t) k r t e < 2 ^ t.width := by
          rw [State.flushes_of_isInt s o.t int]
          exact s.rawSrc_lt k r int e
        simpa only [holds, int, if_true] using vcond_iff_intHolds int o.cc.toNat (raw o.ka o.a) (raw o.kb o.b)
      | false => simpa only [holds, int, Bool.false_eq_true, if_false] using vcond_iff_floatHolds int o.cc.toNat (a e) (b e)
    refine ⟨_, gives_vcmp hst free typed fileA fileB clean target code, fun i hi few => ?_, fun i hi many => ?_⟩
    · rw [condMask_iff_of_le few _ _ hi, cond]
    · obtain ⟨c, hc⟩ : ∃ c, c = t.count / 128 := ⟨_, rfl⟩
      rw [t.count_eq_mul many, ← hc, Nat.mul_div_cancel_left _ (by omega), condMask_iff_of_mul (by omega) _ _ hi]
      exact and_congr_right fun _ => forall₂_congr fun j _ => cond _
  · exact traps_vcmp hst free ok.1 bad
  · intro n code lanes arm sorted before type reg file kind any few target mode noSat
    refine ⟨_, _, .of_vdone (lat := 6) (effs := [_, _]) hst (exec_vpart p s)
        (vpart_ok free type reg file kind any few target mode noSat) ⟨false, rfl⟩,
      fun j hj => getElem?_numbered _ hj, by simp, by simp, fun j hj => ⟨?_, ?_⟩, ?_, fun j hj few => ?_⟩
    · rw [getElem?_numbered _ (by omega), if_pos hj]
    · rw [getElem?_numbered _ (by omega), if_neg (by omega), if_pos (by omega), Nat.add_sub_cancel_left, sum_arms_eq]
    · rw [getElem?_numbered _ (by omega)]
      exact congrArg some (congrArg (Prod.mk 32) (congrArg List.length (List.filter_congr fun e _ => (decide_not ..).symm.trans (decide_eq_decide.mpr not_lt))))
    · rw [getElem?_numbered _ few, if_neg (by omega), if_neg (by omega), if_neg (by omega)]

end Sys2Proof.Machine
end

section
/-! PROOF. The conversions of the vector stream between the types that are not block types (06 R179, R187, R188; O23). -/

namespace Sys2Proof.Machine

theorem convFields_eq_false_iff {o : VCvOp} : convFields o = false ↔ o.ka = 0 ∧ o.kb = 3 ∧ o.a.toNat < 64 := by
  simp [convFields, and_assoc]

theorem not_isBlock_of_isX {t : ElemType} (h : isX t = true) : t.isBlock = false := by
  cases t <;> first | rfl | cases h

/-- The elements that a conversion from `x` to `t` lands: a part of its target, or its whole target from a part of its source (06 R187). -/
def State.converted (s : State) (o : VCvOp) (x t : ElemType) : List (Nat × Nat) :=
  let elem := elemAt (s.vr (o.a.setWidth 6)) x.width
  if t.width ≤ x.width then (s.governed o.msk x.count).map fun e => (x.count * o.p.toNat + e, s.conv o x t (x.count * o.p.toNat + e) (elem e))
  else (s.governed o.msk t.count).map fun e => (e, s.conv o x t e (elem (t.count * o.p.toNat + e)))

section
variable {s : State} {o : VCvOp} {x t : ElemType} {rule : Nat → Nat → Bool}

/-- A conversion word as one check and its result, its types being `x` and `t`. -/
theorem State.vconvert_eq (source : ElemType.ofCode o.s.toNat = some x) (target : s.vtype o.t = some t) : s.vconvert o rule =
    s.perform (verdicts [s.occupied, s.bad0 ((x.isBlock || !isX t || convFields o || !rule x.width t.width
      || decide (max x.width t.width / min x.width t.width ≤ o.p.toNat)) || rmBad o.rm (bothInt x t)) rangeC]) fun s =>
        s.vdone 4 (if x.width = 64 ∨ t.width = 64 then 2 else 1) false [velems o.vd t.width (s.converted o x t)] := by
  simp only [State.vconvert, source, target, Option.getD_some]
  rfl

variable {i : Instr} (hst : s.cur.st = .vector) (free : s.me.vbusy ≤ s.cyc) (source : ElemType.ofCode o.s.toNat = some x)
  (target : s.vtype o.t = some t) (hi : exec i s = s.vconvert o rule)
include hst free source target hi

theorem runs_of_vconvert (plain : x.isBlock = false) (class_ : isX t = true) (fields : convFields o = false) (mode : rmBad o.rm (bothInt x t) = false)
    (fits : rule x.width t.width = true) (part : o.p.toNat < max x.width t.width / min x.width t.width) :
    ∃ u, exec i s = .next u ∧ u.me.vbusy = s.cyc + (if x.width = 64 ∨ t.width = 64 then 2 else 1) ∧
      s.Issued u [(4, velems o.vd t.width (s.converted o x t))] := by
  refine runs_of_vdone (lat := 4) (effs := [_]) hst (hi.trans (State.vconvert_eq source target)) ?_ ⟨false, rfl⟩
  rw [verdicts_cons, State.occupied_ok_of_le free, plain, class_, fields, fits, mode, decide_eq_false (not_le.mpr part)]
  rfl

theorem traps_of_vconvert (bad : rule x.width t.width = false ∨ max x.width t.width / min x.width t.width ≤ o.p.toNat) : Traps i s (cause 0 1 2) := by
  refine .of_perform (s.ne_crossing_of_vector hst) (hi.trans (State.vconvert_eq source target)) ?_
  rw [verdicts_cons, State.occupied_ok_of_le free, State.bad0_vector hst]
  · rfl
  · rcases bad with h | h <;> simp [h]

end

section
variable (o : VCvOp) (s : State)

theorem exec_vpack : exec (.vpack o) s = s.vconvert o fun x t => decide (x ≤ 32 ∧ (x = 2 * t ∨ x = 4 * t)) := rfl
theorem exec_vunpack : exec (.vunpack o) s = s.vconvert o fun x t => decide (t ≤ 32 ∧ (t = 2 * x ∨ t = 4 * x)) := rfl

theorem exec_vcvt_plain (h : (s.vt o.t).isBlock = false) : exec (.vcvt o) s =
    s.vconvert o fun x t => decide (x = t ∨ (x = 64 ∧ t = 32) ∨ (x = 32 ∧ t = 64)) := by
  show execVcvt o s = _
  rw [execVcvt, h]
  rfl

end

/-- Settles O23: each word is `State.vconvert` under its rule of widths. -/
theorem conversions : Obligations.Conversions := by
  unfold Obligations.Conversions
  intro s o x t hst free source target plain class_ reg kind file mode intMode p elem conv lat down up rules
  have fields : convFields o = false := convFields_eq_false_iff.mpr ⟨reg, kind, file⟩
  have mode : rmBad o.rm (bothInt x t) = false := rmBad_eq_false_iff.mpr ⟨mode, fun both => by
    obtain ⟨hx, ht⟩ := Bool.and_eq_true_iff.mp both
    exact intMode hx ht⟩
  have each {i : Instr} {rule : Nat → Nat → Prop} [∀ a b, Decidable (rule a b)]
      (hi : exec i s = s.vconvert o fun a b => decide (rule a b)) :
      (rule x.width t.width → p < max x.width t.width / min x.width t.width → ∃ u, exec i s = .next u ∧ u.me.vbusy = s.cyc + lat ∧
        s.Issued u [(4, velems o.vd t.width (if t.width ≤ x.width then down else up))]) ∧
      (rule x.width t.width → max x.width t.width / min x.width t.width ≤ p → Traps i s (cause 0 1 2)) ∧
      (¬ rule x.width t.width → Traps i s (cause 0 1 2)) :=
    ⟨fun fits part => runs_of_vconvert hst free source target hi plain class_ fields mode (decide_eq_true fits) part,
      fun _ past => traps_of_vconvert hst free source target hi (.inr past),
      fun unfit => traps_of_vconvert hst free source target hi (.inl (decide_eq_false unfit))⟩
  have vt : (s.vt o.t).isBlock = false := by
    rw [State.vt_of_vtype target]
    exact not_isBlock_of_isX class_
  exact List.forall_iff_forall_mem.mp ⟨each (rule := fun x t => x = t ∨ (x = 64 ∧ t = 32) ∨ (x = 32 ∧ t = 64)) (exec_vcvt_plain o s vt),
    each (rule := fun x t => x ≤ 32 ∧ (x = 2 * t ∨ x = 4 * t)) (exec_vpack o s),
    each (rule := fun x t => t ≤ 32 ∧ (t = 2 * x ∨ t = 4 * x)) (exec_vunpack o s)⟩

end Sys2Proof.Machine
end

section
/-! PROOF. Block images: VDEQ, VCVT of a block type, and the values of VQUANT (04 R108, R111, 06 R189-R191; O24). -/

namespace Sys2Proof.Machine

/-! ## Decoding an image (06 R191) -/

section
variable {i : Instr} {s : State} {o : VCvOp} {x t : ElemType} {lat : Nat}

/-- The elements of part P of an image, decoded. -/
def State.deblocked (s : State) (o : VCvOp) (x t : ElemType) : List (Nat × Nat) :=
  (List.range t.count).map fun e =>
    (e, t.encodeF (s.rmode o.rm e) (o.sat == 1) (imageVal x (s.vr (o.a.setWidth 6)) (t.count * o.p.toNat + e)))

theorem runs_of_deblock (hst : s.cur.st = .vector) (hi : exec i s = .next (s.deblock o x t lat)) :
    ∃ u, exec i s = .next u ∧ u.me.vbusy = s.cyc + 1 ∧ s.Issued u [(lat, velems o.vd t.width (s.deblocked o x t))] :=
  runs_of_vdone (lat := lat) (effs := [_]) (v := .ok) (eff := fun s => s.deblock o x t lat) hst hi rfl ⟨false, rfl⟩

variable (hst : s.cur.st = .vector) (free : s.me.vbusy ≤ s.cyc) (block : x.isBlock = true) (fields : convFields o = false) (mask : o.msk = 0)
  (mode : o.rm.toNat < 6) (part : o.p.toNat < imageCount x / t.count)
include hst free block fields mask mode part

theorem runs_vdeq (source : ElemType.ofCode o.s.toNat = some x) (target : s.vtype o.t = some t) (float : t = .fp32 ∨ t = .bf16) :
    ∃ u, exec (.vdeq o) s = .next u ∧ u.me.vbusy = s.cyc + 1 ∧ s.Issued u [(6, velems o.vd t.width (s.deblocked o x t))] := by
  have rm : rmBad o.rm false = false := rmBad_eq_false_iff.mpr ⟨mode, nofun⟩
  have legal : (t != .fp32 && t != .bf16) = false := by rcases float with h | h <;> rw [h] <;> rfl
  refine runs_of_deblock hst (show execVdeq o s = _ from ?_)
  simp only [execVdeq, source, target, Option.getD_some]
  exact State.perform_ok (by simp [State.occupied_ok_of_le free, block, fields, mask, rm, part, legal]) _

theorem runs_vcvt_block (source : s.vtype o.t = some x) (target : ElemType.ofCode o.s.toNat = some t) (plain : t.isBlock = false)
    (width : t.width = 16 ∨ t.width = 32) :
    ∃ u, exec (.vcvt o) s = .next u ∧ u.me.vbusy = s.cyc + 1 ∧ s.Issued u [(4, velems o.vd t.width (s.deblocked o x t))] := by
  have rm : rmBad o.rm false = false := rmBad_eq_false_iff.mpr ⟨mode, nofun⟩
  have legal : (t.width != 16 && t.width != 32) = false := by rcases width with h | h <;> rw [h] <;> rfl
  refine runs_of_deblock hst (show execVcvt o s = _ from ?_)
  simp only [execVcvt, State.vt_of_vtype source, block, target, Option.getD_some, if_true]
  exact State.perform_ok (by simp [State.occupied_ok_of_le free, plain, fields, mask, rm, part, legal]) _

end

end Sys2Proof.Machine
end

section
/-! PROOF. The largest magnitude, the scales and the bands of VQUANT as numbers (04 R106-R108, R111, 06 R190; O24). -/

namespace Sys2Proof.Machine

/-! ## Finite values -/

theorem Num.is_zero : (Num.fin false 0 0 false).Is 0 := (Num.is_fin false 0 0).of_eq (by simp [finRat])

theorem Num.Is.unique {x : Num} {p q : Rat} (hp : x.Is p) (hq : x.Is q) : p = q := by
  obtain ⟨_, _, _, rfl, rfl⟩ := hp
  obtain ⟨_, _, _, same, rfl⟩ := hq
  cases same
  rfl

theorem Num.Is.abs {x : Num} {p : Rat} (h : x.Is p) : x.abs.Is |p| := by
  obtain ⟨neg, m, e, rfl, rfl⟩ := h
  refine (Num.is_fin false m e).of_eq ?_
  change _ = |finRat neg m e|
  rw [abs_finRat]
  simp [finRat]

theorem Num.Is.lt_iff {x y : Num} {p q : Rat} (hx : x.Is p) (hy : y.Is q) : x.lt y = true ↔ p < q := by
  obtain ⟨_, _, _, rfl, rfl⟩ := hx
  obtain ⟨_, _, _, rfl, rfl⟩ := hy
  exact Num.lt_iff_below ..

theorem Num.Is.isZero_iff {x : Num} {p : Rat} (h : x.Is p) : x.isZero = true ↔ p = 0 := by
  obtain ⟨neg, m, e, rfl, rfl⟩ := h
  have unit : (2 : Rat) ^ e ≠ 0 := by positivity
  change (m == 0) = true ↔ finRat neg m e = 0
  rw [← abs_eq_zero, abs_finRat]
  simp [unit]

theorem Num.Is.mul {x y : Num} {p q : Rat} (hx : x.Is p) (hy : y.Is q) : (x.mul y).Is (p * q) := by
  obtain ⟨_, _, _, rfl, rfl⟩ := hx
  obtain ⟨_, _, _, rfl, rfl⟩ := hy
  exact (Num.is_fin _ _ _).of_eq (finRat_xor_mul ..)

/-- A magnitude that is zero, as the model holds it. -/
theorem Num.Is.abs_of_zero {x : Num} {p : Rat} (h : x.Is p) (zero : p = 0) : ∃ e, x.abs = .fin false 0 e false := by
  obtain ⟨neg, m, e, rfl, rfl⟩ := h
  have : m = 0 := by
    have unit : (2 : Rat) ^ e ≠ 0 := by positivity
    have := abs_finRat neg m e
    rw [show finRat neg m e = 0 from zero, abs_zero] at this
    exact_mod_cast (mul_eq_zero.mp this.symm).resolve_right unit
  exact ⟨e, by rw [Num.abs, this]⟩

theorem Num.Is.special {x : Num} {p : Rat} (h : x.Is p) : x.special = false := by
  obtain ⟨_, _, _, rfl, rfl⟩ := h
  rfl

theorem Num.special_iff {x : Num} : x.special = true ↔ x = .nan ∨ ∃ neg, x = .inf neg := by
  cases x <;> simp [Num.special]

/-- `Num.ilog2` is the exponent of a finite value. -/
theorem Num.Is.ilog2_eq {x : Num} {p : Rat} {j : Int} (h : x.Is p) (low : 2 ^ j ≤ |p|) (high : |p| < 2 ^ (j + 1)) : x.ilog2 = j := by
  obtain ⟨neg, m, e, rfl, rfl⟩ := h
  change 2 ^ j ≤ |finRat neg m e| at low
  change |finRat neg m e| < _ at high
  rw [abs_finRat] at low high
  have unit : (0 : Rat) < 2 ^ e := by positivity
  have hm : m ≠ 0 := by
    rintro rfl
    rw [Nat.cast_zero, zero_mul] at low
    exact absurd low (not_le.mpr (by positivity))
  have below : (2 : Rat) ^ (e + Nat.log2 m) ≤ m * 2 ^ e := by
    rw [add_comm, zpow_add₀ two_ne_zero, zpow_natCast]
    exact mul_le_mul_of_nonneg_right (by exact_mod_cast Nat.log2_self_le hm) unit.le
  have above : (m : Rat) * 2 ^ e < 2 ^ (e + Nat.log2 m + 1) := by
    rw [add_assoc, add_comm, zpow_add₀ two_ne_zero]
    refine mul_lt_mul_of_pos_right ?_ unit
    exact_mod_cast Nat.lt_log2_self (n := m)
  have lt1 := (zpow_lt_zpow_iff_right₀ (one_lt_two (α := Rat))).mp (low.trans_lt above)
  have lt2 := (zpow_lt_zpow_iff_right₀ (one_lt_two (α := Rat))).mp (below.trans_lt high)
  change e + (Nat.log2 m : Int) = j
  omega

/-! ## The largest magnitude of a list of finite values -/

theorem foldl_max_spec (l : List Num) (h : ∀ y ∈ l, ∃ r, y.Is r) : ∀ {m : Num} {b : Rat}, m.Is b →
    let top := l.foldl (fun m x => if m.lt x.abs then x.abs else m) m
    ∃ c, top.Is c ∧ b ≤ c ∧ (∀ y ∈ l, ∀ r, y.Is r → |r| ≤ c) ∧ (top = m ∨ ∃ y ∈ l, top = y.abs) := by
  induction l with
  | nil => exact fun hm => ⟨_, hm, le_rfl, nofun, .inl rfl⟩
  | cons x l ih =>
    intro m b hm
    obtain ⟨⟨p, hp⟩, rest⟩ := List.forall_mem_cons.mp h
    have less := hm.lt_iff hp.abs
    rw [List.foldl_cons]
    split
    · next lt =>
      obtain ⟨c, hc, le, bound, from_⟩ := ih rest hp.abs
      refine ⟨c, hc, (less.mp lt).le.trans le, List.forall_mem_cons.mpr ⟨fun r hr => hr.unique hp ▸ le, bound⟩, .inr ?_⟩
      rcases from_ with same | ⟨y, hy, same⟩
      · exact ⟨x, List.mem_cons_self, same⟩
      · exact ⟨y, List.mem_cons_of_mem _ hy, same⟩
    · next ge =>
      obtain ⟨c, hc, le, bound, from_⟩ := ih rest hm
      refine ⟨c, hc, le, List.forall_mem_cons.mpr ⟨fun r hr => hr.unique hp ▸ (not_lt.mp (mt less.mpr ge)).trans le, bound⟩, ?_⟩
      exact from_.imp_right fun ⟨y, hy, same⟩ => ⟨y, List.mem_cons_of_mem _ hy, same⟩

/-- `maxMag` is the largest magnitude: zero, or that of one of the values. -/
theorem maxMag_spec {l : List Num} (h : ∀ y ∈ l, ∃ r, y.Is r) : ∃ c, (maxMag l).Is c ∧ 0 ≤ c ∧ (∀ y ∈ l, ∀ r, y.Is r → |r| ≤ c) ∧
    (maxMag l = .fin false 0 0 false ∨ ∃ y ∈ l, maxMag l = y.abs) :=
  foldl_max_spec l h Num.is_zero

/-- The largest magnitude is zero, or that of one of the values. -/
theorem maxMag_cases {l : List Num} {c : Rat} (h : ∀ y ∈ l, ∃ r, y.Is r) (hc : (maxMag l).Is c) : c = 0 ∨ ∃ y ∈ l, ∃ r, y.Is r ∧ |r| = c := by
  obtain ⟨_, -, -, -, zero | ⟨y, hy, same⟩⟩ := maxMag_spec h
  · exact .inl (hc.unique (zero ▸ Num.is_zero))
  · obtain ⟨r, hr⟩ := h y hy
    exact .inr ⟨y, hy, r, hr, (hc.unique (same ▸ hr.abs)).symm⟩

/-! ## The band of an FB4 image (06 R190) -/

/-- The least exponent in range whose band reaches a magnitude, or the largest where none does. -/
theorem bandExp_eq {x : Num} {p : Rat} {k : Int} (hx : x.Is p) (low : -133 ≤ k) (high : k ≤ 127) (reach : k = 127 ∨ p ≤ 189 * 2 ^ k)
    (least : k = -133 ∨ 189 * 2 ^ (k - 1) < p) : bandExp x = k := by
  have ok (j : Int) : (!(Num.fin false 189 j false).lt x) = true ↔ p ≤ 189 * 2 ^ j := by
    have value : (Num.fin false 189 j false).Is (189 * 2 ^ j) := (Num.is_fin _ _ _).of_eq (by simp [finRat])
    rw [Bool.not_eq_true', Bool.eq_false_iff, Ne, value.lt_iff hx, not_lt]
  have short {j : Int} (floor : -133 ≤ j) (h : j < k) : ¬ p ≤ 189 * 2 ^ j := by
    have le : (2 : Rat) ^ j ≤ 2 ^ (k - 1) := zpow_le_zpow_right₀ one_le_two (by omega)
    exact not_le.mpr (lt_of_le_of_lt (by linarith) (least.resolve_left (by omega)))
  by_cases reached : p ≤ 189 * 2 ^ k
  · have found : ((List.range 261).find? fun (i : Nat) => !(Num.fin false 189 ((i : Int) - 133) false).lt x) = some (k + 133).toNat := by
      refine List.find?_range_eq_some.mpr ⟨?_, List.mem_range.mpr (by omega), fun j hj => ?_⟩
      · rw [ok, show ((k + 133).toNat : Int) - 133 = k by omega]
        exact reached
      · rw [Bool.not_eq_true', Bool.eq_false_iff, Ne, ok]
        exact short (by omega) (by omega)
    rw [bandExp, found]
    simp only
    omega
  · have top : k = 127 := reach.resolve_right reached
    have none_ : ((List.range 261).find? fun (i : Nat) => !(Num.fin false 189 ((i : Int) - 133) false).lt x) = none := by
      refine List.find?_eq_none.mpr fun j hj => ?_
      have := List.mem_range.mp hj
      rw [ok]
      rcases (show (j : Int) - 133 ≤ k by omega).lt_or_eq with lt | eq
      · exact short (by omega) lt
      · exact eq ▸ reached
    rw [bandExp, none_, top]

/-! ## Rounding to a block scale of FB4 (04 R107) -/

/-- A rounded magnitude has at most one place more than the format's mantissa with its leading one. -/
theorem roundUnit_le (f : FFmt) (mode : RMode) (neg : Bool) (m : Nat) (e : Int) (x : Bool) : roundUnit mode neg m e (f.unit m e) x ≤ 2 ^ (f.man + 1) := by
  have lt_of (q : Nat) (rem sh : Nat) (hq : q < 2 ^ (f.man + 1)) : (if roundsUp mode neg q rem sh x then q + 1 else q) ≤ 2 ^ (f.man + 1) := by
    split <;> omega
  by_cases zero : m = 0
  · subst zero
    unfold roundUnit
    split <;> exact lt_of _ _ _ (by simp)
  have below : m < 2 ^ (Nat.log2 m + 1) := Nat.lt_log2_self
  have place : e + Nat.log2 m - f.man ≤ f.unit m e := by
    rw [FFmt.unit, if_neg zero]
    exact le_max_right _ _
  unfold roundUnit
  split
  · next le =>
    refine lt_of _ _ _ ?_
    calc m * 2 ^ (e - f.unit m e).toNat < 2 ^ (Nat.log2 m + 1) * 2 ^ (e - f.unit m e).toNat := Nat.mul_lt_mul_of_pos_right below (Nat.two_pow_pos _)
      _ = 2 ^ (Nat.log2 m + 1 + (e - f.unit m e).toNat) := (pow_add ..).symm
      _ ≤ 2 ^ (f.man + 1) := Nat.pow_le_pow_right two_pos (by omega)
  · next lt =>
    refine lt_of _ _ _ (Nat.div_lt_of_lt_mul ?_)
    calc m < 2 ^ (Nat.log2 m + 1) := below
      _ ≤ 2 ^ ((f.unit m e - e).toNat + (f.man + 1)) := Nat.pow_le_pow_right two_pos (by omega)
      _ = _ := pow_add ..

theorem e3m5_pack_eq (neg : Bool) (q : Nat) (u : Int) :
    e3m5F.pack neg q u = if q = 64 then (u + 9).toNat * 32 else if q < 32 then q else (u + 8).toNat * 32 + (q - 32) := by
  by_cases carry : q = 64
  · simp [FFmt.pack, FFmt.sign, e3m5F, carry, add_assoc]
  · simp [FFmt.pack, FFmt.sign, e3m5F, carry, add_assoc]

theorem e3m5_pack_lt {q : Nat} {u : Int} (neg : Bool) (small : q ≤ 64) (fits : e3m5F.tooBig q u = false) : e3m5F.pack neg q u < 256 := by
  have place : 32 ≤ q → u ≤ -1 ∧ (q = 64 → u ≤ -2) := by
    intro normal
    by_cases high : -1 ≤ u
    · have bound : q * 2 ^ (u + 1).toNat ≤ 63 := by simpa [FFmt.tooBig, e3m5F, high] using fits
      rcases hd : (u + 1).toNat with _ | d
      · rw [hd] at bound
        omega
      · rw [hd, pow_succ] at bound
        nlinarith [Nat.one_le_two_pow (n := d)]
    · omega
  rw [e3m5_pack_eq]
  split_ifs <;> omega

/-- A block scale is one byte. -/
theorem e3m5_round_lt (mode : RMode) (sat : Bool) (v : Num) : e3m5F.round mode sat v < 256 := by
  have top (neg : Bool) : e3m5F.maxFin neg < 256 := by cases neg <;> decide
  cases v with
  | nan => exact show 0 < 256 by decide
  | inf neg => exact top neg
  | fin neg m e x =>
    simp only [FFmt.round]
    split
    · exact top neg
    · next fits => exact e3m5_pack_lt neg (roundUnit_le ..) (Bool.eq_false_iff.mpr fits)

theorem e3m5_decode_isZero_iff {b : Nat} (hb : b < 256) : (e3m5F.decode b).isZero = true ↔ b = 0 := by
  have decode : e3m5F.decode b = if b / 32 % 8 = 0 then .fin false (b % 32) (-7) false
      else .fin false (32 + b % 32) ((b / 32 % 8 : Nat) - 3 - 5) false := by
    simp [FFmt.decode, e3m5F, Nat.shiftRight_eq_div_pow]
  rw [decode]
  split <;> simp only [Num.isZero, beq_iff_eq] <;> omega

/-- The scale of a block of zeros. -/
theorem e3m5_round_zero (e : Int) {d : Num} {r : Rat} (hd : d.Is r) (pos : r ≠ 0) : e3m5F.round .rup false ((Num.fin false 0 e false).div d) = 0 := by
  obtain ⟨neg, n, f, rfl, rfl⟩ := hd
  have hn : n ≠ 0 := finRat_ne_zero pos
  have round (g : Int) : e3m5F.round .rup false (.fin neg 0 g false) = 0 := by
    have unit : roundUnit .rup neg 0 g (e3m5F.unit 0 g) false = 0 := by simp [roundUnit]
    simp only [FFmt.round, unit]
    rw [show e3m5F.unit 0 g = -7 from rfl]
    cases neg <;> rfl
  simpa [Num.div, hn] using round _

/-! ## The blocks of VQUANT (06 R190) -/

/-- The exponent of an MX element type's largest binade. -/
def mxTop (t : ElemType) : Int := if t = .mxfp4 then 2 else if t = .mxfp8 then 8 else 15

section
variable {t : ElemType} {mode : Nat → RMode} {xs : List Num}

theorem quantMx_eq : quantMx t mode xs =
    if xs.any Num.special then ⟨255, xs.map fun _ => 0⟩
    else if (maxMag xs).isZero then ⟨0, xs.map fun _ => 0⟩
    else
      let h := max (-127) (min 127 ((maxMag xs).ilog2 - mxTop t))
      ⟨(h + 127).toNat, xs.zipIdx.map fun x => t.ffmt.round (mode x.2) true (x.1.mul (.fin false 1 (-h) false))⟩ := by
  cases t <;> rfl

theorem quantMx_of_special (h : ∃ y ∈ xs, y = .nan ∨ ∃ neg, y = .inf neg) : quantMx t mode xs = ⟨255, xs.map fun _ => 0⟩ := by
  have : xs.any Num.special = true := List.any_eq_true.mpr (h.imp fun y hy => hy.imp_right Num.special_iff.mpr)
  rw [quantMx_eq, if_pos this]

theorem any_special_of_finite (h : ∀ y ∈ xs, ∃ r, y.Is r) : xs.any Num.special = false :=
  List.any_eq_false.mpr fun y hy => by
    obtain ⟨r, hr⟩ := h y hy
    simp [hr.special]

theorem quantMx_of_zero (h : ∀ y ∈ xs, y.Is 0) : quantMx t mode xs = ⟨0, xs.map fun _ => 0⟩ := by
  have finite : ∀ y ∈ xs, ∃ r, y.Is r := fun y hy => ⟨0, h y hy⟩
  obtain ⟨c, hc, -⟩ := maxMag_spec finite
  have zero : c = 0 := (maxMag_cases finite hc).elim id fun ⟨y, hy, r, hr, same⟩ => by
    rw [← same, hr.unique (h y hy), abs_zero]
  rw [quantMx_eq, any_special_of_finite finite, hc.isZero_iff.mpr zero]
  rfl

theorem quantMx_of_scale {j : Int} (bound : ∀ y ∈ xs, ∃ r, y.Is r ∧ |r| < 2 ^ (j + 1)) (reach : ∃ y ∈ xs, ∃ r, y.Is r ∧ 2 ^ j ≤ |r|) :
    let h := max (-127) (min 127 (j - mxTop t))
    quantMx t mode xs = ⟨(h + 127).toNat, xs.zipIdx.map fun x => t.ffmt.round (mode x.2) true (x.1.mul (.fin false 1 (-h) false))⟩ := by
  have finite : ∀ y ∈ xs, ∃ r, y.Is r := fun y hy => (bound y hy).imp fun _ => And.left
  obtain ⟨c, hc, nonneg, le, -⟩ := maxMag_spec finite
  obtain ⟨y, hy, r, hr, low⟩ := reach
  have low : (2 : Rat) ^ j ≤ c := low.trans (le y hy r hr)
  have pos : (0 : Rat) < 2 ^ j := by positivity
  have high : c < 2 ^ (j + 1) := by
    rcases maxMag_cases finite hc with zero | ⟨z, hz, p, hp, same⟩
    · rw [zero]; positivity
    · obtain ⟨p', hp', lt⟩ := bound z hz
      rwa [hp.unique hp', ← same] at *
  have exponent : (maxMag xs).ilog2 = j := hc.ilog2_eq (by rwa [abs_of_nonneg nonneg]) (by rwa [abs_of_nonneg nonneg])
  have nonzero : (maxMag xs).isZero = false := Bool.eq_false_iff.mpr (mt hc.isZero_iff.mp (pos.trans_le low).ne')
  simp only [quantMx_eq, any_special_of_finite finite, nonzero, exponent, Bool.false_eq_true, if_false]

end

section
variable {band : Num} {any : Nat} {mode : Nat → RMode} {xs : List Num} {r : Rat} (hb : band.Is r) (pos : 0 < r)
include hb pos

/-- A block of FB4 under a positive band. -/
theorem quantFb4_of_pos : quantFb4 band any mode xs =
    let scale := e3m5F.round .rup false ((maxMag xs).div ((Num.ofInt 6).mul band))
    ⟨scale, xs.zipIdx.map fun x => if scale = 0 then 0 else fp4F.round (mode x.2) false (x.1.div (band.mul (e3m5F.decode scale)))⟩ := by
  obtain ⟨neg, m, e, rfl, rfl⟩ := hb
  obtain ⟨rfl, -⟩ := finRat_pos pos
  simp only [quantFb4, Bool.false_and, Bool.false_eq_true, if_false, e3m5_decode_isZero_iff (e3m5_round_lt ..)]

/-- The scale of a block is that of its largest magnitude over 6 bands. -/
theorem fb4_scale_of_max (finite : ∀ y ∈ xs, ∃ r, y.Is r) (some_ : xs ≠ []) : ∃ y ∈ xs, ∃ p, y.Is p ∧ (∀ z ∈ xs, ∃ q, z.Is q ∧ |q| ≤ |p|) ∧
    e3m5F.round .rup false ((maxMag xs).div ((Num.ofInt 6).mul band)) = e3m5F.round .rup false (y.abs.div ((Num.ofInt 6).mul band)) := by
  obtain ⟨c, hc, nonneg, bound, from_⟩ := maxMag_spec finite
  have le {z : Num} (hz : z ∈ xs) : ∃ q, z.Is q ∧ |q| ≤ c := (finite z hz).imp fun q hq => ⟨hq, bound z hz q hq⟩
  rcases from_ with zero | ⟨y, hy, same⟩
  · obtain ⟨y, hy⟩ := List.exists_mem_of_ne_nil xs some_
    obtain ⟨p, hp, small⟩ := le hy
    have none_ : c = 0 := hc.unique (zero ▸ Num.is_zero)
    have flat : |p| = 0 := le_antisymm (none_ ▸ small) (abs_nonneg p)
    refine ⟨y, hy, p, hp, fun z hz => (none_.trans flat.symm) ▸ le hz, ?_⟩
    have six : ((Num.ofInt 6).mul band).Is (6 * r) := ((Num.is_ofInt 6).mul hb).of_eq (by norm_num)
    obtain ⟨e, he⟩ := hp.abs_of_zero (abs_eq_zero.mp flat)
    rw [zero, he, e3m5_round_zero _ six (by positivity), e3m5_round_zero _ six (by positivity)]
  · obtain ⟨p, hp, -⟩ := le hy
    have top : |p| = c := hp.abs.unique (same ▸ hc)
    exact ⟨y, hy, p, hp, fun z hz => top ▸ le hz, by rw [same]⟩

end

end Sys2Proof.Machine
end

section
/-! PROOF. VQUANT as a word: its checks, its parts and its blocks (06 R189, R190; O24). -/

namespace Sys2Proof.Machine

/-! ## Numbered lists and blocks -/

theorem zipIdx_map_range {α : Type} (n : Nat) (f : Nat → α) : ((List.range n).map f).zipIdx = (List.range n).map fun i => (f i, i) := by
  refine List.ext_getElem (by simp) fun i hi _ => ?_
  simp

theorem chunksOf_eq {α : Type} (n : Nat) : ∀ (k : Nat) (l : List α), chunksOf n k l = (List.range k).map fun b => (l.drop (n * b)).take n
  | 0, _ => rfl
  | k + 1, l => by
    rw [chunksOf, chunksOf_eq n k, List.range_succ_eq_map, List.map_cons, List.map_map]
    refine congrArg₂ _ rfl (List.map_congr_left fun b _ => ?_)
    rw [Function.comp_apply, List.drop_drop, Nat.mul_succ, Nat.add_comm n]

/-- The entries of blocks of one length, one block after the other. -/
theorem flatMap_blocks {α : Type} {n : Nat} (blocks : Nat → List α) (d : α) : ∀ {k : Nat}, (∀ b < k, (blocks b).length = n) →
    (List.range k).flatMap blocks = (List.range (n * k)).map fun e => ((blocks (e / n))[e % n]?).getD d
  | 0, _ => by simp
  | k + 1, len => by
    have last : (blocks k).length = n := len k (by omega)
    have rest := flatMap_blocks blocks d (k := k) fun b hb => len b (by omega)
    rw [List.range_succ, List.flatMap_append, rest, Nat.mul_succ, List.range_add, List.map_append, List.map_map, List.flatMap_singleton]
    refine congrArg _ (List.ext_getElem (by simp [last]) fun i hi _ => ?_)
    have small : i < n := last ▸ hi
    simp [Nat.mul_add_div (by omega : 0 < n), Nat.mod_eq_of_lt small, Nat.div_eq_of_lt small, hi]

/-- A block of a list whose length is a number of blocks is whole. -/
theorem length_block {α : Type} {l : List α} {n k b : Nat} (len : l.length = n * k) (hb : b < k) : ((l.drop (n * b)).take n).length = n := by
  have : n * b + n ≤ n * k := by rw [← Nat.mul_succ]; exact Nat.mul_le_mul_left n hb
  rw [List.length_take, List.length_drop, len]
  omega

/-! ## The checks -/

section
variable (s : State) (o : VCvOp) (x t : ElemType)

/-- The values that VQUANT reads. -/
def State.quantSrc : List Num := (List.range x.count).map fun e => x.value (elemAt (s.vr (o.a.setWidth 6)) x.width e)

/-- The rounding of the element of a number in the part that a VQUANT writes. -/
def State.quantMode (e : Nat) : RMode := s.rmode o.rm (x.count * o.p.toNat + e)

/-- The band that the image has before VQUANT. -/
def State.bandOld : Num := bf16F.decode (elemAt (s.vr o.vd) 16 160)

/-- The band under which VQUANT encodes: part 0 of an FB4 image chooses it, another part finds it there (06 R190). -/
def State.quantBand : Num :=
  if t = .fb4 ∧ o.p.toNat = 0 then
    if (maxMag (s.quantSrc o x)).isZero then .fin false 1 0 false else .fin false 1 (bandExp (maxMag (s.quantSrc o x))) false
  else s.bandOld o

/-- What VQUANT makes of block `b` of its source. -/
def State.quantBlock (b : Nat) : QBlock :=
  let block := ((s.quantSrc o x).drop (blockLen t * b)).take (blockLen t)
  let mode := fun e => s.quantMode o x (blockLen t * b + e)
  if t = .fb4 then quantFb4 (s.quantBand o x t) (Config.pick (s.freeCtr + b)) mode block else quantMx t mode block

/-- VQUANT turns its source or its old band away (06 R190). -/
def State.quantTraps : Bool :=
  t == .fb4 && ((s.quantSrc o x).any Num.special || (o.p.toNat != 0 && ((s.bandOld o).special || (s.bandOld o).isZero)))

/-- What VQUANT to a block type puts in flight. -/
def State.quantized : List Eff :=
  let per := x.count / blockLen t
  [velems o.vd t.width (((List.range per).flatMap fun b => (s.quantBlock o x t b).elems).zipIdx.map fun y => (x.count * o.p.toNat + y.2, y.1)),
    velems o.vd 8 (((List.range per).map fun b => (s.quantBlock o x t b).scale).zipIdx.map fun y =>
      (256 + x.count * o.p.toNat / blockLen t + y.2, y.1)),
    velems o.vd 8 (zeroBytes t)]
  ++ if t = .fb4 ∧ o.p.toNat = 0 then [velems o.vd 16 [(160, bf16F.round .rne false (s.quantBand o x t))]] else []

end

section
variable {s : State} {o : VCvOp} {x t : ElemType} (free : s.me.vbusy ≤ s.cyc) (fields : convFields o = false) (mask : o.msk = 0)
  (mode : o.rm.toNat < 6) (table : o.t = 7) (target : s.vtype 7 = some t) (source : ElemType.ofCode o.s.toNat = some x) (float : isF3 x = true)
include free fields mask mode table target source float

/-- VQUANT to an 8-bit format. -/
theorem exec_vquant_plain (plain : t = .e4m3 ∨ t = .e5m2) (part : o.p.toNat < 512 / x.count) : exec (.vquant o) s =
    .next (s.vdone 8 2 false [velems o.vd 8 ((List.range x.count).map fun e => (x.count * o.p.toNat + e,
      t.ffmt.round (s.quantMode o x e) (o.sat == 1) (x.value (elemAt (s.vr (o.a.setWidth 6)) x.width e))))]) := by
  have vt : s.vt o.t = t := by rw [table]; exact State.vt_of_vtype target
  have rm : rmBad o.rm false = false := rmBad_eq_false_iff.mpr ⟨mode, nofun⟩
  have is_ : (t == .e4m3 || t == .e5m2) = true := by rcases plain with rfl | rfl <;> rfl
  have band : (t == .fb4) = false := by rcases plain with rfl | rfl <;> rfl
  show execVquant o s = _
  simp only [execVquant, vt, source, Option.getD_some, is_, if_true, zipIdx_map_range, List.map_map]
  exact State.perform_ok (by simp [State.occupied_ok_of_le free, table, float, fields, mask, part, rm, band]) _

section
variable (block : t.isBlock = true) (part : o.p.toNat < imageCount t / x.count)
include block part

omit target source in
/-- What stands between VQUANT to a block type and its result: the source or the old band alone. -/
theorem vquant_checks : verdicts [s.occupied, s.bad0 (o.t != 7 || !(false || t.isBlock) || !isF3 x || (some x).isNone || convFields o || o.msk != 0
    || decide (imageCount t / x.count ≤ o.p.toNat) || rmBad o.rm false) rangeC, s.bad0 (s.quantTraps o x t) arithC] =
    s.bad0 (s.quantTraps o x t) arithC := by
  have rm : rmBad o.rm false = false := rmBad_eq_false_iff.mpr ⟨mode, nofun⟩
  rw [State.occupied_ok_of_le free, table, float, fields, mask, rm, block, decide_eq_false (not_le.mpr part)]
  cases s.quantTraps o x t <;> rfl

theorem exec_vquant_block : ∃ eff, exec (.vquant o) s = s.perform (s.bad0 (s.quantTraps o x t) arithC) eff ∧
    eff s = { s with freeCtr := s.freeCtr + 64 }.vdone 8 2 false (s.quantized o x t) := by
  have vt : s.vt o.t = t := by rw [table]; exact State.vt_of_vtype target
  have plain : (t == .e4m3 || t == .e5m2) = false := by cases t <;> first | rfl | cases block
  show ∃ eff, execVquant o s = _ ∧ _
  simp only [execVquant, vt, source, Option.getD_some, plain, Bool.false_eq_true, if_false, chunksOf_eq, zipIdx_map_range]
  refine ⟨_, congrArg (fun v => s.perform v _) (vquant_checks free fields mask mode table float block part), ?_⟩
  simp only [List.map_map, List.flatMap_map]
  rfl

end

end

/-! ## The results block by block -/

section
variable {s : State} {o : VCvOp} {x t : ElemType}

/-- The types that VQUANT reads fill whole blocks. -/
theorem count_eq_blocks (float : isF3 x = true) (t : ElemType) : x.count = blockLen t * (x.count / blockLen t) := by
  cases x <;> first | exact absurd float (by decide) | (cases t <;> rfl)

theorem length_quantBlock (float : isF3 x = true) {b : Nat} (hb : b < x.count / blockLen t) : (s.quantBlock o x t b).elems.length = blockLen t := by
  have len : (s.quantSrc o x).length = blockLen t * (x.count / blockLen t) := by
    rw [State.quantSrc, List.length_map, List.length_range]
    exact count_eq_blocks float t
  have block := length_block len hb
  unfold State.quantBlock
  dsimp only
  split
  · simpa [quantFb4] using block
  · rw [quantMx_eq]
    split_ifs <;> simpa using block

/-- Element `e` of a VQUANT's part. -/
def State.quantElem (s : State) (o : VCvOp) (x t : ElemType) (e : Nat) : Nat := ((s.quantBlock o x t (e / blockLen t)).elems[e % blockLen t]?).getD 0

theorem quantized_eq (float : isF3 x = true) : s.quantized o x t =
    [velems o.vd t.width ((List.range x.count).map fun e => (x.count * o.p.toNat + e, s.quantElem o x t e)),
      velems o.vd 8 ((List.range (x.count / blockLen t)).map fun b =>
        (256 + x.count * o.p.toNat / blockLen t + b, (s.quantBlock o x t b).scale)),
      velems o.vd 8 (zeroBytes t)]
    ++ if t = .fb4 ∧ o.p.toNat = 0 then [velems o.vd 16 [(160, bf16F.round .rne false (s.quantBand o x t))]] else [] := by
  have elems : ((List.range (x.count / blockLen t)).flatMap fun b => (s.quantBlock o x t b).elems) =
      (List.range x.count).map (s.quantElem o x t) := by
    rw [flatMap_blocks _ 0 fun b hb => length_quantBlock float hb, ← count_eq_blocks float t]
    rfl
  rw [State.quantized, elems, zipIdx_map_range, zipIdx_map_range, List.map_map, List.map_map]
  rfl

/-- An element of a VQUANT's part by its block. -/
theorem quantElem_block {i : Nat} (hi : i < blockLen t) (b : Nat) :
    s.quantElem o x t (blockLen t * b + i) = ((s.quantBlock o x t b).elems[i]?).getD 0 := by
  rw [State.quantElem, Nat.mul_add_div (by omega), Nat.mul_add_mod, Nat.div_eq_of_lt hi, Nat.mod_eq_of_lt hi, Nat.add_zero]

end

/-! ## The clauses of VQUANT -/

section
variable {s : State} {o : VCvOp} {x t : ElemType}

theorem getElem?_map_zipIdx {α β : Type} {l : List α} {i : Nat} {y : α} (f : α × Nat → β) (h : l[i]? = some y) :
    (l.zipIdx.map f)[i]? = some (f (y, i)) := by
  simp [h]

/-- The effect list of a VQUANT to a block type whose source and band it takes. -/
theorem gives_vquant (hst : s.cur.st = .vector) (hi : ∃ eff, exec (.vquant o) s = s.perform (s.bad0 (s.quantTraps o x t) arithC) eff ∧
      eff s = { s with freeCtr := s.freeCtr + 64 }.vdone 8 2 false (s.quantized o x t)) (good : s.quantTraps o x t = false) :
    Gives (.vquant o) s ((s.quantized o x t).map fun e => (8, e)) := by
  obtain ⟨eff, run, result⟩ := hi
  refine ⟨_, by rw [run, good, bad0_false, State.perform_ok rfl, result], ?_⟩
  exact State.issued_vdone_of (t := { s with freeCtr := s.freeCtr + 64 }) hst ⟨rfl, fun _ _ => rfl⟩ rfl rfl 8 2 false _

theorem traps_vquant (hst : s.cur.st = .vector) (hi : ∃ eff, exec (.vquant o) s = s.perform (s.bad0 (s.quantTraps o x t) arithC) eff ∧
      eff s = { s with freeCtr := s.freeCtr + 64 }.vdone 8 2 false (s.quantized o x t)) (bad : s.quantTraps o x t = true) :
    Traps (.vquant o) s (cause 0 1 7) :=
  let ⟨_, run, _⟩ := hi
  .of_perform (s.ne_crossing_of_vector hst) run (State.bad0_vector hst bad _)

/-- The scale and the elements of an MX block. -/
theorem quantBlock_mx (mx : t = .mxfp8 ∨ t = .mxfp4 ∨ t = .mxfp8e5) (b : Nat) :
    blockLen t = 32 ∧ s.quantBlock o x t b = quantMx t (fun e => s.quantMode o x (32 * b + e)) (((s.quantSrc o x).drop (32 * b)).take 32) := by
  rcases mx with rfl | rfl | rfl <;> exact ⟨rfl, rfl⟩

theorem quantBlock_mx_clauses (mx : t = .mxfp8 ∨ t = .mxfp4 ∨ t = .mxfp8e5) (b : Nat) :
    let block := ((s.quantSrc o x).drop (32 * b)).take 32
    let scale := (s.quantBlock o x t b).scale
    let elem := s.quantElem o x t
    ((∃ y ∈ block, y = .nan ∨ ∃ neg, y = .inf neg) → scale = 255 ∧ ∀ i, i < 32 → elem (32 * b + i) = 0) ∧
      ((∀ y ∈ block, y.Is 0) → scale = 0 ∧ ∀ i, i < 32 → elem (32 * b + i) = 0) ∧
      (∀ j : Int, (∀ y ∈ block, ∃ r, y.Is r ∧ |r| < 2 ^ (j + 1)) → (∃ y ∈ block, ∃ r, y.Is r ∧ 2 ^ j ≤ |r|) →
        let h := max (-127) (min 127 (j - mxTop t))
        scale = (h + 127).toNat ∧ ∀ i, i < 32 → ∀ y, block[i]? = some y →
          elem (32 * b + i) = t.ffmt.round (s.quantMode o x (32 * b + i)) true (y.mul (.fin false 1 (-h) false))) := by
  intro block scale elem
  obtain ⟨len, quant⟩ := quantBlock_mx (s := s) (o := o) (x := x) mx b
  have at_ {i : Nat} (hi : i < 32) : elem (32 * b + i) = ((s.quantBlock o x t b).elems[i]?).getD 0 := by
    have := quantElem_block (s := s) (o := o) (x := x) (len.symm ▸ hi) b
    rwa [len] at this
  have zeros (l : List Num) (i : Nat) : ((l.map fun _ => 0)[i]?).getD 0 = 0 := by
    rw [List.getElem?_map]
    cases l[i]? <;> rfl
  simp only [scale, quant] at at_ ⊢
  refine ⟨fun special => ?_, fun zero => ?_, fun j bound reach => ?_⟩
  · rw [quantMx_of_special special] at at_ ⊢
    exact ⟨rfl, fun i hi => (at_ hi).trans (zeros _ _)⟩
  · rw [quantMx_of_zero zero] at at_ ⊢
    exact ⟨rfl, fun i hi => (at_ hi).trans (zeros _ _)⟩
  · rw [quantMx_of_scale bound reach] at at_ ⊢
    refine ⟨rfl, fun i hi y hy => ?_⟩
    rw [at_ hi, getElem?_map_zipIdx _ hy]
    rfl

/-- The scale and the elements of an FB4 block under a positive band. -/
theorem quantBlock_fb4_clauses {band : Num} {r : Rat} (same : s.quantBand o x .fb4 = band) (hb : band.Is r) (pos : 0 < r)
    (finite : ∀ y ∈ s.quantSrc o x, ∃ r, y.Is r) (float : isF3 x = true) {b : Nat} (hn : b < x.count / 8) :
    let block := ((s.quantSrc o x).drop (8 * b)).take 8
    let scale := (s.quantBlock o x .fb4 b).scale
    (∃ y ∈ block, ∃ r, y.Is r ∧ (∀ z ∈ block, ∃ q, z.Is q ∧ |q| ≤ |r|) ∧
      scale = e3m5F.round .rup false (y.abs.div ((Num.ofInt 6).mul band))) ∧
    ∀ i, i < 8 → ∀ y, block[i]? = some y → s.quantElem o x .fb4 (8 * b + i) =
      if scale = 0 then 0 else fp4F.round (s.quantMode o x (8 * b + i)) false (y.div (band.mul (e3m5F.decode scale))) := by
  intro block scale
  have quant : s.quantBlock o x .fb4 b =
      quantFb4 band (Config.pick (s.freeCtr + b)) (fun e => s.quantMode o x (8 * b + e)) block := by
    rw [← same]
    rfl
  have len : block.length = 8 := length_block (by rw [State.quantSrc, List.length_map, List.length_range]; exact count_eq_blocks float .fb4) hn
  have real : ∀ y ∈ block, ∃ r, y.Is r := fun y hy => finite y (List.mem_of_mem_drop (List.mem_of_mem_take hy))
  rw [quantFb4_of_pos hb pos] at quant
  refine ⟨?_, fun i hi y hy => ?_⟩
  · rw [show scale = _ from congrArg QBlock.scale quant]
    exact fb4_scale_of_max hb pos real (List.ne_nil_of_length_pos (by omega))
  · rw [show s.quantElem o x .fb4 (8 * b + i) = _ from quantElem_block hi b, show scale = _ from congrArg QBlock.scale quant, quant]
    simp only [getElem?_map_zipIdx _ hy, Option.getD_some]

/-- The band of R190, as part 0 of an FB4 image chooses it and the other parts find it. -/
theorem quantBand_eq {band : Num} (finite : ∀ y ∈ s.quantSrc o x, ∃ r, y.Is r)
    (first : o.p.toNat = 0 → ((∀ y ∈ s.quantSrc o x, ∃ r, y.Is r ∧ |r| ≤ 0) ∧ band = .fin false 1 0 false) ∨
      ((∃ y ∈ s.quantSrc o x, ∃ r, y.Is r ∧ 0 < |r|) ∧ ∃ k : Int, band = .fin false 1 k false ∧ -133 ≤ k ∧ k ≤ 127 ∧
        (k = 127 ∨ ∀ y ∈ s.quantSrc o x, ∃ r, y.Is r ∧ |r| ≤ 189 * 2 ^ k) ∧
        (k = -133 ∨ ∃ y ∈ s.quantSrc o x, ∃ r, y.Is r ∧ 189 * 2 ^ (k - 1) < |r|)))
    (later : o.p.toNat ≠ 0 → band = s.bandOld o ∧ ∃ r, band.Is r ∧ 0 < r) : s.quantBand o x .fb4 = band ∧ ∃ r, band.Is r ∧ 0 < r := by
  obtain ⟨c, hc, nonneg, bound, -⟩ := maxMag_spec finite
  have le {b : Rat} (hb : 0 ≤ b) (most : ∀ y ∈ s.quantSrc o x, ∃ r, y.Is r ∧ |r| ≤ b) : c ≤ b := by
    rcases maxMag_cases finite hc with zero | ⟨y, hy, r, hr, same⟩
    · rwa [zero]
    · obtain ⟨q, hq, small⟩ := most y hy
      rwa [← same, hr.unique hq]
  have lt {b : Rat} (some_ : ∃ y ∈ s.quantSrc o x, ∃ r, y.Is r ∧ b < |r|) : b < c := by
    obtain ⟨y, hy, r, hr, big⟩ := some_
    exact big.trans_le (bound y hy r hr)
  have power (k : Int) : (Num.fin false 1 k false).Is (2 ^ k) := (Num.is_fin _ _ _).of_eq (by simp [finRat])
  unfold State.quantBand
  by_cases part : o.p.toNat = 0
  · rw [if_pos ⟨rfl, part⟩]
    rcases first part with ⟨most, rfl⟩ | ⟨some_, k, rfl, low, high, reach, least⟩
    · rw [if_pos (hc.isZero_iff.mpr (le_antisymm (le le_rfl most) nonneg))]
      exact ⟨rfl, _, power 0, by positivity⟩
    · rw [if_neg (mt hc.isZero_iff.mp (lt some_).ne'), bandExp_eq hc low high (reach.imp_right (le (by positivity))) (least.imp_right lt)]
      exact ⟨rfl, _, power k, by positivity⟩
  · rw [if_neg fun h => part h.2]
    obtain ⟨same, positive⟩ := later part
    exact ⟨same.symm, positive⟩

end

/-- Settles O24: VDEQ and VCVT decode by `State.deblocked`, VQUANT writes `State.quantized`, whose blocks are those of `quantBlock_mx_clauses` and
`quantBlock_fb4_clauses`. -/
theorem blockConversions : Obligations.BlockConversions := by
  unfold Obligations.BlockConversions
  intro s o x t hst free reg kind file mode mask p v image total zeros
  have fields : convFields o = false := convFields_eq_false_iff.mpr ⟨reg, kind, file⟩
  refine ⟨fun source target block float part => runs_vdeq hst free block fields mask mode part source target float,
    fun source block target plain width part => runs_vcvt_block hst free block fields mask mode part source target plain width,
    fun table target source float => ?_⟩
  intro n xs quant finite most some_ bandOld
  have word (block : t.isBlock = true) (part : p < imageCount t / n) := exec_vquant_block free fields mask mode table target source float block part
  refine ⟨fun plain part => ?_, fun mx part => ?_, fun fb4 part special => ?_, fun fb4 part later real band => ?_, fun band fb4 part real first later => ?_⟩
  · exact .of_vdone (lat := 8) (occ := 2) (effs := [_]) (v := .ok) (eff := fun _ => _) hst
      (exec_vquant_plain free fields mask mode table target source float plain part) rfl ⟨false, rfl⟩
  · have block : t.isBlock = true := by rcases mx with rfl | rfl | rfl <;> rfl
    have good : s.quantTraps o x t = false := by rcases mx with rfl | rfl | rfl <;> rfl
    have gives := gives_vquant hst (word block part) good
    rw [quantized_eq float] at gives
    refine ⟨fun b => (s.quantBlock o x t b).scale, s.quantElem o x t, ?_, fun b _ => quantBlock_mx_clauses mx b⟩
    rcases mx with rfl | rfl | rfl <;> exact gives
  · subst fb4
    refine traps_vquant hst (word rfl part) ?_
    have : xs.any Num.special = true := List.any_eq_true.mpr (special.imp fun y hy => hy.imp_right Num.special_iff.mpr)
    exact Bool.or_eq_true_iff.mpr (.inl this)
  · subst fb4
    refine traps_vquant hst (word rfl part) (Bool.or_eq_true_iff.mpr (.inr ?_))
    refine Bool.and_eq_true_iff.mpr ⟨bne_iff_ne.mpr later, Bool.or_eq_true_iff.mpr ?_⟩
    rcases band with nan | zero | inf
    · exact .inl (Num.special_iff.mpr (.inl nan))
    · exact .inr (zero.isZero_iff.mpr rfl)
    · exact .inl (Num.special_iff.mpr (.inr inf))
  · subst fb4
    obtain ⟨same, r, hb, pos⟩ := quantBand_eq real first later
    have good : s.quantTraps o x .fb4 = false := by
      refine Bool.or_eq_false_iff.mpr ⟨any_special_of_finite real, Bool.and_eq_false_imp.mpr fun part => ?_⟩
      rw [show s.bandOld o = band from (later (bne_iff_ne.mp part)).1.symm, hb.special, Bool.false_or, Bool.eq_false_iff]
      exact mt hb.isZero_iff.mp pos.ne'
    have gives := gives_vquant hst (word rfl part) good
    rw [quantized_eq float, same] at gives
    refine ⟨fun b => (s.quantBlock o x .fb4 b).scale, s.quantElem o x .fb4, ?_, fun b hn => quantBlock_fb4_clauses same hb pos real float hn⟩
    by_cases first : p = 0
    · rw [if_pos ⟨rfl, first⟩] at gives
      rw [if_pos first]
      exact gives
    · rw [if_neg fun h => first h.2] at gives
      rw [if_neg first]
      exact gives

end Sys2Proof.Machine
end

section
/-! PROOF. What a vector result writes at its landing (06 R174, R176; O29). -/

namespace Sys2Proof.Machine

/-! ## The bits of a list of elements -/

/-- The elements of a type fill a register. -/
theorem ElemType.count_mul_width (t : ElemType) : t.count * t.width = 4096 := by
  cases t <;> rfl

/-- Numbers of `w` bits are equal when their bits are. -/
theorem eq_of_testBit_lt {w a b : Nat} (ha : a < 2 ^ w) (hb : b < 2 ^ w) (h : ∀ j < w, a.testBit j = b.testBit j) : a = b := by
  refine Nat.eq_of_testBit_eq fun j => ?_
  rcases lt_or_ge j w with small | large
  · exact h j small
  · have high {n : Nat} (hn : n < 2 ^ w) : n.testBit j = false := Nat.testBit_lt_two_pow (hn.trans_le (Nat.pow_le_pow_right two_pos large))
    rw [high ha, high hb]

/-- Bit `j` of element `e` of a register. -/
theorem testBit_elemAt {n : Nat} (v : BitVec n) {w j : Nat} (hj : j < w) (e : Nat) : (elemAt v w e).testBit j = v.getLsbD (w * e + j) := by
  rw [elemAt, Nat.testBit_mod_two_pow, decide_eq_true hj, Bool.true_and, Nat.testBit_shiftRight]
  rfl

/-- A bit of the fields `f` of the elements of a list, each put in its place. -/
theorem testBit_foldl_or {w : Nat} (f : Nat × Nat → Nat) (l : List (Nat × Nat)) (acc i : Nat) :
    (l.foldl (fun acc x => acc ||| f x <<< (w * x.1)) acc).testBit i = (acc.testBit i || l.any fun x => (f x <<< (w * x.1)).testBit i) := by
  induction l generalizing acc with
  | nil => simp
  | cons x l ih => rw [List.foldl_cons, ih, Nat.testBit_or, List.any_cons, Bool.or_assoc]

/-- A field of `w` bits in the place of element `k` holds bits of that element alone. -/
theorem testBit_field {w j : Nat} (hj : j < w) {v : Nat} (hv : v < 2 ^ w) (k e : Nat) :
    (v <<< (w * k)).testBit (w * e + j) = (decide (k = e) && v.testBit j) := by
  rw [Nat.testBit_shiftLeft]
  rcases lt_trichotomy k e with h | rfl | h
  · have : w * k + w ≤ w * e := by rw [← Nat.mul_succ]; exact Nat.mul_le_mul_left w h
    have high : v.testBit (w * e + j - w * k) = false :=
      Nat.testBit_lt_two_pow (hv.trans_le (Nat.pow_le_pow_right two_pos (by omega)))
    simp [high, h.ne]
  · simp
  · have : w * e + w ≤ w * k := by rw [← Nat.mul_succ]; exact Nat.mul_le_mul_left w h
    simp [h.ne', show ¬ w * k ≤ w * e + j by omega]

section
variable {w e j : Nat} (hj : j < w) (inside : w * e + j < 4096) (l : List (Nat × Nat))
include hj inside

theorem packElems_getLsbD : (packElems w l).getLsbD (w * e + j) = l.any fun x => decide (x.1 = e) && (x.2 % 2 ^ w).testBit j := by
  rw [packElems, BitVec.getLsbD_ofNat, decide_eq_true inside, Bool.true_and, testBit_foldl_or fun x => x.2 % 2 ^ w, Nat.zero_testBit, Bool.false_or]
  simp only [testBit_field hj (Nat.mod_lt _ (Nat.two_pow_pos w))]

theorem coverElems_getLsbD : (coverElems w l).getLsbD (w * e + j) = l.any fun x => decide (x.1 = e) := by
  rw [coverElems, BitVec.getLsbD_ofNat, decide_eq_true inside, Bool.true_and, testBit_foldl_or fun _ => 2 ^ w - 1, Nat.zero_testBit, Bool.false_or]
  simp only [testBit_field hj (Nat.sub_lt (Nat.two_pow_pos w) one_pos), Nat.testBit_two_pow_sub_one, decide_eq_true hj, Bool.and_true]

end

/-! ## The landing -/

section
variable (k : Core) (vd : BitVec 6) (w : Nat) (l : List (Nat × Nat))

/-- A landing of elements writes one register, and nothing else of the core. -/
theorem Core.land_velems : k.land (velems vd w l) = { k with
    vregs := vSet vd ((vGet vd k.vregs &&& ~~~coverElems w l) ||| (packElems w l &&& coverElems w l)) k.vregs } := rfl

theorem Core.land_velems_same :
    vGet vd (k.land (velems vd w l)).vregs = (vGet vd k.vregs &&& ~~~coverElems w l) ||| (packElems w l &&& coverElems w l) := by
  rw [Core.land_velems]
  exact vGet_vSet_same ..

theorem Core.land_velems_other {r : BitVec 6} (h : r ≠ vd) : vGet r (k.land (velems vd w l)).vregs = vGet r k.vregs := by
  rw [Core.land_velems]
  exact vGet_vSet_other _ _ _ _ h

end

section
variable {k : Core} {vd : BitVec 6} {t : ElemType} {l : List (Nat × Nat)} {e : Nat} (inside : e < t.count)
include inside

/-- A bit of an element after a landing. -/
theorem testBit_land {j : Nat} (hj : j < t.width) : (elemAt (vGet vd (k.land (velems vd t.width l)).vregs) t.width e).testBit j =
    if l.any fun x => decide (x.1 = e) then l.any fun x => decide (x.1 = e) && (x.2 % 2 ^ t.width).testBit j
    else (elemAt (vGet vd k.vregs) t.width e).testBit j := by
  have room : t.width * e + j < 4096 := by
    have : t.width * e + t.width ≤ t.width * t.count := by rw [← Nat.mul_succ]; exact Nat.mul_le_mul_left _ inside
    rw [Nat.mul_comm t.width t.count, t.count_mul_width] at this
    omega
  rw [testBit_elemAt _ hj, testBit_elemAt _ hj, Core.land_velems_same, BitVec.getLsbD_or, BitVec.getLsbD_and, BitVec.getLsbD_and, BitVec.getLsbD_not,
    packElems_getLsbD hj room, coverElems_getLsbD hj room, decide_eq_true room]
  cases l.any fun x => decide (x.1 = e) <;> simp

theorem elemAt_land_of_notMem (out : ∀ v, (e, v) ∉ l) :
    elemAt (vGet vd (k.land (velems vd t.width l)).vregs) t.width e = elemAt (vGet vd k.vregs) t.width e := by
  have none_ : (l.any fun x => decide (x.1 = e)) = false := by
    refine List.any_eq_false.mpr fun x hx same => out x.2 ?_
    rw [← of_decide_eq_true same]
    exact hx
  refine eq_of_testBit_lt (elemAt_lt _ _ _) (elemAt_lt _ _ _) fun j hj => ?_
  rw [testBit_land inside hj, none_]
  rfl

theorem elemAt_land_of_mem (distinct : (l.map (·.1)).Nodup) {v : Nat} (small : v < 2 ^ t.width) (hv : (e, v) ∈ l) :
    elemAt (vGet vd (k.land (velems vd t.width l)).vregs) t.width e = v := by
  have some_ : (l.any fun x => decide (x.1 = e)) = true := List.any_eq_true.mpr ⟨_, hv, decide_eq_true rfl⟩
  have only {x : Nat × Nat} (hx : x ∈ l) (same : x.1 = e) : x = (e, v) := List.inj_on_of_nodup_map distinct hx hv same
  refine eq_of_testBit_lt (elemAt_lt _ _ _) small fun j hj => ?_
  rw [testBit_land inside hj, some_, if_pos rfl, Bool.eq_iff_iff, List.any_eq_true]
  constructor
  · rintro ⟨x, hx, bit⟩
    rw [Bool.and_eq_true, decide_eq_true_eq] at bit
    obtain ⟨same, bit⟩ := bit
    rwa [only hx same, Nat.mod_eq_of_lt small] at bit
  · intro bit
    exact ⟨_, hv, by rw [Nat.mod_eq_of_lt small, bit, decide_eq_true rfl]; rfl⟩

end

/-- Settles O29: a landing writes each element of its list (`elemAt_land_of_mem`) and keeps every other (`elemAt_land_of_notMem`). -/
theorem elementsLand : Obligations.ElementsLand := by
  unfold Obligations.ElementsLand
  intro k vd r t l e distinct legal inside k'
  exact ⟨fun v hv => elemAt_land_of_mem inside distinct (legal _ hv).2 hv, elemAt_land_of_notMem inside, Core.land_velems_other k vd t.width l,
    rfl, rfl, rfl⟩

end Sys2Proof.Machine
end

section
/-! PROOF. The vector loads (06 R179, R192, R193, 07 R209, 13 R390; O27), and how the vector memory words address the local store. -/

namespace Sys2Proof.Machine

/-! ## Addresses (06 R192) -/

theorem inStore_iff {a : Int} {n : Nat} : inStore a n = true ↔ 0 ≤ a ∧ a + n ≤ 0x400000 := decide_eq_true_iff

section
variable {s : State} (hst : s.cur.st = .vector) (t : ElemType) (sb : SReg)
include hst

theorem State.lsBase_eq : s.lsBase sb = ((s.me.sreg .vector sb).toNat % 2 ^ 48 : Nat) := by
  rw [State.lsBase, hst, bits, Nat.shiftRight_zero]

theorem State.contiguous_at (off : BitVec 14) (e : Nat) : (s.contiguous t sb off).at_ e =
    ((s.me.sreg .vector sb).toNat % 2 ^ 48 : Nat) + 64 * off.toInt + (t.width / 8 : Nat) * e := by
  simp only [State.contiguous, State.lsBase_eq hst, Nat.cast_mul]

theorem State.strided_at (sx : BitVec 6) (e : Nat) : (s.strided t sb sx).at_ e =
    ((s.me.sreg .vector sb).toNat % 2 ^ 48 : Nat) + (t.width / 8 * e / 64 : Nat) * (s.me.sreg .vector sx).toInt + (t.width / 8 * e % 64 : Nat) := by
  rw [State.strided, State.lsBase_eq hst]

theorem State.indexed_at (sx : BitVec 6) (mk : BitVec 4) (e : Nat) : (s.indexed t sb sx mk).at_ e =
    ((s.me.sreg .vector sb).toNat % 2 ^ 48 : Nat) + (t.width / 8 : Nat) * (BitVec.ofNat 32 (elemAt (s.vr sx) 32 e)).toInt := by
  rw [State.indexed, State.lsBase_eq hst]

theorem State.contiguous_misaligned_iff (off : BitVec 14) : (s.contiguous t sb off).misaligned = true ↔
    (((s.me.sreg .vector sb).toNat % 2 ^ 48 : Nat) + 64 * off.toInt) % 64 ≠ 0 := by
  rw [State.contiguous, State.lsBase_eq hst, decide_eq_true_iff]

theorem State.contiguous_outside_iff (off : BitVec 14) : (s.contiguous t sb off).outside = true ↔
    ¬ (0 ≤ ((s.me.sreg .vector sb).toNat % 2 ^ 48 : Nat) + 64 * off.toInt ∧
      ((s.me.sreg .vector sb).toNat % 2 ^ 48 : Nat) + 64 * off.toInt + (512 : Nat) ≤ 0x400000) := by
  rw [State.contiguous, State.lsBase_eq hst, Bool.not_eq_true', Bool.eq_false_iff, Ne, inStore_iff]

theorem State.strided_misaligned_iff (sx : BitVec 6) : (s.strided t sb sx).misaligned = true ↔
    (((s.me.sreg .vector sb).toNat % 2 ^ 48 : Nat) : Int) % 64 ≠ 0 ∨ (s.me.sreg .vector sx).toInt % 64 ≠ 0 := by
  rw [State.strided, State.lsBase_eq hst, decide_eq_true_iff]

theorem State.strided_outside_iff (sx : BitVec 6) : (s.strided t sb sx).outside = true ↔
    ¬ ∀ i : Nat, i < 8 → 0 ≤ ((s.me.sreg .vector sb).toNat % 2 ^ 48 : Nat) + i * (s.me.sreg .vector sx).toInt ∧
      ((s.me.sreg .vector sb).toNat % 2 ^ 48 : Nat) + i * (s.me.sreg .vector sx).toInt + (64 : Nat) ≤ 0x400000 := by
  rw [State.strided, State.lsBase_eq hst, List.any_eq_true]
  simp only [List.mem_range, Bool.not_eq_true', Bool.eq_false_iff, Ne, inStore_iff]
  simp only [not_forall, exists_prop]

theorem State.indexed_misaligned_iff (sx : BitVec 6) (mk : BitVec 4) : (s.indexed t sb sx mk).misaligned = true ↔
    (((s.me.sreg .vector sb).toNat % 2 ^ 48 : Nat) : Int) % (t.width / 8 : Nat) ≠ 0 := by
  rw [State.indexed, State.lsBase_eq hst, decide_eq_true_iff]

omit hst in
theorem State.indexed_outside_iff (sx : BitVec 6) (mk : BitVec 4) : (s.indexed t sb sx mk).outside = true ↔
    ∃ e ∈ s.governed mk t.count, ¬ (0 ≤ (s.indexed t sb sx mk).at_ e ∧ (s.indexed t sb sx mk).at_ e + (t.width / 8 : Nat) ≤ 0x400000) := by
  rw [State.indexed, List.any_eq_true]
  simp only [Bool.not_eq_true', Bool.eq_false_iff, Ne, inStore_iff]

end

/-! ## The checks of type, alignment and range (06 R178, R192) -/

/-- The checks that the vector memory words share, in their order. -/
def State.memChecks (s : State) (ok : Bool) (x : Access1) : Verdict :=
  verdicts [s.bad0 (!ok) rangeC, s.bad0 x.misaligned alignC, s.bad0 x.outside rangeC]

section
variable {s : State} {x : Access1}

theorem State.memChecks_ok (aligned : ¬ x.misaligned = true) (inside : ¬ x.outside = true) : s.memChecks true x = .ok := by
  rw [State.memChecks, Bool.eq_false_iff.mpr aligned, Bool.eq_false_iff.mpr inside]
  rfl

variable (hst : s.cur.st = .vector)
include hst

theorem State.memChecks_class : s.memChecks false x = .fault (cause 0 1 2) := by
  rw [State.memChecks, verdicts_cons, State.bad0_vector (bad := !false) hst rfl]
  rfl

theorem State.memChecks_misaligned (misaligned : x.misaligned = true) : s.memChecks true x = .fault (cause 0 1 3) := by
  rw [State.memChecks, misaligned, verdicts_cons, verdicts_cons, State.bad0_vector hst rfl]
  rfl

theorem State.memChecks_outside (aligned : ¬ x.misaligned = true) (outside : x.outside = true) : s.memChecks true x = .fault (cause 0 1 2) := by
  rw [State.memChecks, Bool.eq_false_iff.mpr aligned, outside, verdicts_cons, verdicts_cons, verdicts_cons, State.bad0_vector hst rfl]
  rfl

end

/-! ## Tags (06 R192, 13 R390) -/

theorem mem_slotsOf {l : List Nat} {n : Nat} : n ∈ slotsOf l ↔ ∃ a ∈ l, a / 1024 = n := by
  have general (l : List Nat) (acc : List Nat) :
      n ∈ l.foldl (fun acc a => addOnce acc (a / 1024)) acc ↔ n ∈ acc ∨ ∃ a ∈ l, a / 1024 = n := by
    induction l generalizing acc with
    | nil => simp
    | cons a l ih =>
      rw [List.foldl_cons, ih, mem_addOnce]
      simp only [List.mem_cons, exists_eq_or_imp, eq_comm (a := n)]
      tauto
  exact (general l []).trans (by simp)

theorem State.tagsMatch_iff {s : State} (hst : s.cur.st = .vector) (phase : s.me.phase = none) (x : Access1) (sb : SReg) (es : List Nat) :
    s.tagsMatch x sb es = true ↔ ∀ e ∈ es,
      (tabGet s.me.slotTags ((x.at_ e).toNat / 1024)).getD 0 = (s.me.sreg .vector sb).extractLsb' 48 16 := by
  rw [State.tagsMatch, List.all_eq_true]
  simp only [mem_slotsOf, List.mem_map, forall_exists_index, and_imp, forall_apply_eq_imp_iff₂, Core.tagOk, phase, State.lsTag, hst,
    Bool.not_false, Bool.and_true, beq_iff_eq]

/-! ## A load by its checks -/

section
variable {s : State} {tg : BitVec 1} {ok : Bool} {x : Access1} {sb : SReg} {w : Nat} {es : List Nat} (free : s.me.vbusy ≤ s.cyc)
include free

theorem State.loadChecks_fault {row7 : Verdict} {code : Nat} (bad : s.memChecks ok x = .fault code) :
    s.loadChecks tg ok x sb w es row7 = .fault code := by
  rw [State.memChecks] at bad
  unfold State.loadChecks
  simp only [bad]
  split
  · rfl
  · rw [verdicts_cons, State.occupied_ok_of_le free]
    rfl

variable (clean : s.me.lsPoison = []) (good : s.memChecks ok x = .ok)
include good

include clean in
theorem State.loadChecks_ok (tags : tg = 0 ∨ s.tagsMatch x sb es = true) : s.loadChecks tg ok x sb w es .ok = .ok := by
  have poison : s.readsPoison x w es = false := by simp [State.readsPoison, clean]
  rw [State.memChecks] at good
  unfold State.loadChecks
  simp only [good, poison, State.occupied_ok_of_le free]
  split
  · next tagged =>
    have tags : s.tagsMatch x sb es = true := tags.resolve_left (by rw [tagged]; decide)
    rw [tags]
    rfl
  · rfl

theorem State.loadChecks_wait {row7 : Verdict} (tagged : tg = 1) (wrong : ¬ s.tagsMatch x sb es = true) :
    s.loadChecks tg ok x sb w es row7 = .wait (cause 2 1 1) := by
  rw [State.memChecks] at good
  unfold State.loadChecks
  simp only [good, if_pos tagged, Bool.eq_false_iff.mpr wrong, State.occupied_ok_of_le free]
  rfl

end

section
variable {i : Instr} {s : State} {tf : BitVec 3} {cls : ElemType → Bool} {tg : BitVec 1} {sb : SReg} {vd : BitVec 6} {mk : BitVec 4}
  {acc : ElemType → Access1} {t : ElemType}

theorem State.vloadWord_eq (type : s.vtype tf = some t) : s.vloadWord tf cls tg sb vd mk acc =
    s.perform (s.loadChecks tg (cls t) (acc t) sb (t.width / 8) (s.governed mk t.count) .ok) fun u =>
      u.vload vd t (acc t) (s.governed mk t.count) := by
  simp only [State.vloadWord, State.vt_of_vtype type, type]

variable (hst : s.cur.st = .vector) (free : s.me.vbusy ≤ s.cyc) (type : s.vtype tf = some t) (hi : exec i s = s.vloadWord tf cls tg sb vd mk acc)
include hst free type hi

theorem Gives.of_vloadWord (clean : s.me.lsPoison = []) (good : s.memChecks (cls t) (acc t) = .ok)
    (tags : tg = 0 ∨ s.tagsMatch (acc t) sb (s.governed mk t.count) = true) {lat : Nat} (hlat : (acc t).lat = lat) {at_ : Nat → Int}
    (hat : ∀ e, (acc t).at_ e = at_ e) :
    Gives i s [(lat, velems vd t.width ((s.governed mk t.count).map fun e => (e, memRead s.me.ls (at_ e).toNat (t.width / 8))))] := by
  refine .of_vdone (lat := lat) (occ := (acc t).occ) (effs := [_]) hst (hi.trans (State.vloadWord_eq type))
    (State.loadChecks_ok free clean good tags) ⟨false, ?_⟩
  simp only [State.vload, hlat, hat]

theorem Traps.of_vloadWord {code : Nat} (bad : s.memChecks (cls t) (acc t) = .fault code) : Traps i s code :=
  .of_perform (s.ne_crossing_of_vector hst) (hi.trans (State.vloadWord_eq type)) (State.loadChecks_fault free bad)

theorem Stalls.of_vloadWord (good : s.memChecks (cls t) (acc t) = .ok) (tagged : tg = 1)
    (wrong : ¬ s.tagsMatch (acc t) sb (s.governed mk t.count) = true) : Stalls i s (cause 2 1 1) :=
  .of_perform (s.ne_crossing_of_vector hst) (hi.trans (State.vloadWord_eq type)) (State.loadChecks_wait free good tagged wrong)

end

/-! ## The words -/

theorem exec_vld (o : VLdOp) (s : State) :
    exec (.vld o) s = s.vloadWord o.t isX o.tg o.sb o.vd o.msk fun f => s.contiguous f o.sb o.off := rfl

theorem exec_vlds (o : VLdxOp) (s : State) :
    exec (.vlds o) s = s.vloadWord o.t isX o.tg o.sb o.vd o.msk fun f => s.strided f o.sb o.sx := rfl

theorem exec_vgath (o : VLdxOp) (s : State) :
    exec (.vgath o) s = s.vloadWord o.t isWide o.tg o.sb o.vd o.msk fun f => s.indexed f o.sb o.sx o.msk := rfl

theorem exec_vldr (o : VLdrOp) (s : State) : exec (.vldr o) s =
    s.perform (verdicts [s.loaded o.zs.toNat, if o.tg = 1 then .ok else s.occupied,
      s.loadChecks o.tg (match s.vtype o.t with | some f => isX f | none => false) (s.contiguous (s.vt o.t) o.sb o.off) o.sb ((s.vt o.t).width / 8)
        (s.presentRows ((s.me.shape? o.zs.toNat).getD (({} : ShapeBuf).shape)) o.zs.toNat o.msk (s.vt o.t).count)
        (bar (((s.me.shape? o.zs.toNat).getD (({} : ShapeBuf).shape)).fault &&
          ((s.me.shape? o.zs.toNat).getD (({} : ShapeBuf).shape)).straddles s.mine.vc.toNat (s.origin o.zs.toNat) (s.vt o.t).count)
          (cause2 .vector straddleC))]) fun u =>
      (u.bindWord o.zs.toNat).vload o.vd (s.vt o.t) (s.contiguous (s.vt o.t) o.sb o.off)
        (s.presentRows ((s.me.shape? o.zs.toNat).getD (({} : ShapeBuf).shape)) o.zs.toNat o.msk (s.vt o.t).count) := rfl

theorem isWide_of_isX {t : ElemType} (class_ : isX t = true) (wide : 32 ≤ t.width) : isWide t = true := by
  rw [isWide, class_, decide_eq_true wide]
  rfl

theorem isWide_eq_false {t : ElemType} (narrow : t.width < 32) : isWide t = false := by
  rw [isWide, decide_eq_false (not_le.mpr narrow), Bool.and_false]

/-- Binding the issuing word to a slot touches the core's shape slots alone. -/
theorem State.bindWord_sameStreams (s : State) (z : Nat) : s.SameStreams (s.bindWord z) := by
  refine ⟨rfl, fun st => ?_, ?_, ?_, ?_, ?_⟩ <;> rw [State.bindWord, State.me_modMe]
  · cases st <;> rfl
  all_goals rfl

@[simp] theorem State.flights_bindWord (s : State) (z : Nat) : (s.bindWord z).me.flights = s.me.flights := by
  rw [State.bindWord, State.me_modMe]
  rfl

@[simp] theorem State.ls_bindWord (s : State) (z : Nat) : (s.bindWord z).me.ls = s.me.ls := by
  rw [State.bindWord, State.me_modMe]
  rfl

/-- Under MODE CLIP the present rows are the governed elements that the window's rule keeps. -/
theorem State.presentRows_clip {s : State} {g : Shape} (clip : g.fault = false) (z : Nat) (mk : BitVec 4) (n : Nat) :
    s.presentRows g z mk n = (s.governed mk n).filter fun e => g.validClip s.mine.vc.toNat (s.origin z) n e := by
  simp [State.presentRows, clip]

/-- A row load under MODE CLIP that passes its checks is bound to the slot and lands what its window keeps. -/
theorem vldr_next {s : State} {r : VLdrOp} {t : ElemType} {g : Shape} (free : s.me.vbusy ≤ s.cyc) (type : s.vtype r.t = some t)
    (class_ : isX t = true) (untagged : r.tg = 0) (shape : s.me.shape? r.zs.toNat = some g) (clip : g.fault = false) (clean : s.me.lsPoison = [])
    (aligned : ¬ (s.contiguous t r.sb r.off).misaligned = true) (inside : ¬ (s.contiguous t r.sb r.off).outside = true) : exec (.vldr r) s =
      .next ((s.bindWord r.zs.toNat).vload r.vd t (s.contiguous t r.sb r.off)
        ((s.governed r.msk t.count).filter fun e => g.validClip s.mine.vc.toNat (s.origin r.zs.toNat) t.count e)) := by
  have slot : s.loaded r.zs.toNat = .ok := by rw [State.loaded, shape]; rfl
  have checks := State.loadChecks_ok (x := s.contiguous t r.sb r.off) (sb := r.sb) (w := t.width / 8)
    (es := (s.governed r.msk t.count).filter fun e => g.validClip s.mine.vc.toNat (s.origin r.zs.toNat) t.count e)
    free clean (State.memChecks_ok aligned inside) (.inl untagged)
  rw [exec_vldr, shape]
  simp only [State.vt_of_vtype type, type, class_, Option.getD_some, State.presentRows_clip clip, clip, Bool.false_and]
  refine State.perform_ok ?_ _
  rw [slot, if_neg (by rw [untagged]; decide), State.occupied_ok_of_le free, show bar false (cause2 .vector straddleC) = .ok from rfl, checks]
  rfl

theorem traps_vldr_unloaded {s : State} {r : VLdrOp} (hst : s.cur.st = .vector) (unloaded : s.me.shape? r.zs.toNat = none) : Traps (.vldr r) s (cause 0 1 2) := by
  refine .of_perform (s.ne_crossing_of_vector hst) (exec_vldr r s) ?_
  rw [verdicts_cons, State.loaded, State.bad0_vector hst (by rw [unloaded]; rfl)]
  rfl

/-- Settles O27: the addresses and checks of each load, and what each reads. -/
theorem vectorLoads : Obligations.VectorLoads := by
  unfold Obligations.VectorLoads
  intro s o x r t hst free clean w base inside lands a tagged
  refine ⟨fun type class_ phase => ?_, fun type class_ untagged => ?_, fun g type class_ untagged shape clip => ?_, traps_vldr_unloaded hst⟩
  · intro es at_
    have place (e : Nat) : (s.contiguous t o.sb o.off).at_ e = at_ e := State.contiguous_at hst t o.sb o.off e
    have misaligned := State.contiguous_misaligned_iff hst t o.sb o.off
    have outside := State.contiguous_outside_iff hst t o.sb o.off
    have tags : s.tagsMatch (s.contiguous t o.sb o.off) o.sb es = true ↔ tagged o.sb es at_ := by
      rw [State.tagsMatch_iff hst phase]
      simp only [place]
      rfl
    have checks (aligned : a % 64 = 0) (fits : inside a 512) : s.memChecks (isX t) (s.contiguous t o.sb o.off) = .ok := by
      rw [class_]
      exact State.memChecks_ok (fun h => misaligned.mp h aligned) (fun h => outside.mp h fits)
    refine ⟨fun odd => ?_, fun aligned out => ?_, fun aligned fits matching => ?_, fun aligned fits tag wrong => ?_⟩
    · exact .of_vloadWord hst free type (exec_vld o s) (class_ ▸ State.memChecks_misaligned hst (misaligned.mpr odd))
    · exact .of_vloadWord hst free type (exec_vld o s) (class_ ▸ State.memChecks_outside hst (fun h => misaligned.mp h aligned) (outside.mpr out))
    · exact .of_vloadWord hst free type (exec_vld o s) clean (checks aligned fits) (matching.imp_right tags.mpr) rfl place
    · exact .of_vloadWord hst free type (exec_vld o s) (checks aligned fits) tag (mt tags.mp wrong)
  · intro es st row idx
    have strideOdd := State.strided_misaligned_iff hst t x.sb x.sx
    have indexOdd := State.indexed_misaligned_iff hst t x.sb x.sx x.msk
    have indexOut : (s.indexed t x.sb x.sx x.msk).outside = true ↔ ∃ e ∈ es, ¬ inside (idx e) w := by
      rw [State.indexed_outside_iff]
      simp only [State.indexed_at hst]
      rfl
    refine ⟨fun aligned step fits => ?_, fun odd => ?_, fun wide aligned fits => ?_, fun wide odd => ?_, fun wide aligned out => ?_,
      fun narrow => ?_⟩
    · refine .of_vloadWord hst free type (exec_vlds x s) clean ?_ (.inl untagged) rfl (State.strided_at hst t x.sb x.sx)
      rw [class_]
      exact State.memChecks_ok (fun h => (strideOdd.mp h).elim (· aligned) (· step))
        (fun h => (State.strided_outside_iff hst t x.sb x.sx).mp h fits)
    · exact .of_vloadWord hst free type (exec_vlds x s) (class_ ▸ State.memChecks_misaligned hst (strideOdd.mpr odd))
    · refine .of_vloadWord hst free type (exec_vgath x s) clean ?_ (.inl untagged) rfl (State.indexed_at hst t x.sb x.sx x.msk)
      rw [isWide_of_isX class_ wide]
      exact State.memChecks_ok (fun h => indexOdd.mp h aligned) (fun h => let ⟨e, he, out⟩ := indexOut.mp h; out (fits e he))
    · exact .of_vloadWord hst free type (exec_vgath x s) (isWide_of_isX class_ wide ▸ State.memChecks_misaligned hst (indexOdd.mpr odd))
    · exact .of_vloadWord hst free type (exec_vgath x s)
        (isWide_of_isX class_ wide ▸ State.memChecks_outside hst (fun h => indexOdd.mp h aligned) (indexOut.mpr out))
    · exact .of_vloadWord hst free type (exec_vgath x s) (isWide_eq_false narrow ▸ State.memChecks_class hst)
  · intro b org es aligned fits
    have bound := s.bindWord_sameStreams r.zs.toNat
    refine ⟨_, vldr_next free type class_ untagged shape clip clean
      (fun h => (State.contiguous_misaligned_iff hst t r.sb r.off).mp h aligned) (fun h => (State.contiguous_outside_iff hst t r.sb r.off).mp h fits),
      State.alone_vdone hst bound _ _ _ _ _ (.modMe' s _), State.passed_vdone hst bound _ _ _ _ _, ?_⟩
    rw [State.vload, State.me_vdone hst bound, State.flights_bindWord, State.ls_bindWord]
    simp only [State.contiguous_at hst]
    rfl

end Sys2Proof.Machine
end

section
/-! PROOF. The vector stores (06 R179, R192, R193; O28): what a list of writes leaves of a memory, and each store by its checks. -/

namespace Sys2Proof.Machine

/-! ## A run of bytes (00 R7) -/

theorem memWrite_append (m : Memory) (a : Nat) (x y : List Byte) : memWrite m a (x ++ y) = memWrite (memWrite m a x) (a + x.length) y := by
  induction x generalizing m a with
  | nil => rfl
  | cons b x ih => rw [List.cons_append, memWrite, ih, memWrite, List.length_cons, Nat.add_assoc, Nat.add_comm 1]

theorem memGet_memWrite_inside (b : List Byte) (m : Memory) (a j : Nat) (h : Memory.wf m = true) (hj : j < b.length) :
    memGet (memWrite m a b) (a + j) = b[j] := by
  induction b generalizing m a j with
  | nil => exact absurd hj (Nat.not_lt_zero _)
  | cons x t ih =>
    cases j with
    | zero => exact (memGet_memWrite_outside t _ _ _ (.inl (by omega))).trans (memGet_memSet_same m a x h)
    | succ j =>
      have later := ih (memSet m a x) (a + 1) j (memSet_wf m a x h) (Nat.lt_of_succ_lt_succ hj)
      rwa [show a + 1 + j = a + (j + 1) by omega] at later

theorem getElem_toBytes (n v j : Nat) (hj : j < (toBytes n v).length) : (toBytes n v)[j] = BitVec.ofNat 8 (v / 2 ^ (8 * j)) := by
  induction n generalizing v j with
  | zero => exact absurd hj (Nat.not_lt_zero _)
  | succ n ih =>
    cases j with
    | zero => simp [toBytes]
    | succ j =>
      have lower : v / 256 / 2 ^ (8 * j) = v / 2 ^ (8 * (j + 1)) := by
        rw [Nat.div_div_eq_div_mul, Nat.mul_succ, Nat.pow_add, Nat.mul_comm]
      simp only [toBytes, List.getElem_cons_succ, ih, lower]

/-! ## A list of writes, the later over the earlier (06 R193) -/

/-- Writes of runs of bytes in order. -/
def memWrites (m : Memory) (l : List (Nat × List Byte)) : Memory := l.foldl (fun m r => memWrite m r.1 r.2) m

theorem memWrites_cons (m : Memory) (r : Nat × List Byte) (l : List (Nat × List Byte)) :
    memWrites m (r :: l) = memWrites (memWrite m r.1 r.2) l := rfl

theorem memWrites_wf {m : Memory} (l : List (Nat × List Byte)) (h : Memory.wf m = true) : Memory.wf (memWrites m l) = true := by
  induction l generalizing m with
  | nil => exact h
  | cons r l ih => exact ih (memWrite_wf _ _ _ h)

/-- Joining the runs that follow one another changes nothing of what they write. -/
theorem memWrites_joinRuns (m : Memory) (l : List (Nat × List Byte)) : memWrites m (joinRuns l) = memWrites m l := by
  induction l generalizing m with
  | nil => rfl
  | cons r l ih =>
    obtain ⟨a, x⟩ := r
    rw [memWrites_cons, ← ih, joinRuns]
    split
    · next b y u joined =>
      rw [joined]
      split_ifs with follows
      · rw [memWrites_cons, memWrites_cons, memWrite_append, follows]
      · rfl
    · next joined => rw [joined]; rfl

theorem memGet_memWrites_outside (m : Memory) (l : List (Nat × List Byte)) (i : Nat) (h : ∀ r ∈ l, i < r.1 ∨ r.1 + r.2.length ≤ i) :
    memGet (memWrites m l) i = memGet m i := by
  induction l generalizing m with
  | nil => rfl
  | cons r l ih =>
    obtain ⟨here, rest⟩ := List.forall_mem_cons.mp h
    rw [memWrites_cons, ih _ rest, memGet_memWrite_outside _ _ _ _ here]

/-- A byte of a run that no later run of the list touches. -/
theorem memGet_memWrites_last {m : Memory} (l k : List (Nat × List Byte)) (a j : Nat) (b : List Byte) (h : Memory.wf m = true) (hj : j < b.length)
    (later : ∀ r ∈ k, a + j < r.1 ∨ r.1 + r.2.length ≤ a + j) : memGet (memWrites m (l ++ (a, b) :: k)) (a + j) = b[j] := by
  rw [memWrites, List.foldl_append, ← memWrites, ← memWrites, memWrites_cons, memGet_memWrites_outside _ _ _ later]
  exact memGet_memWrite_inside b _ a j (memWrites_wf l h) hj

/-- The effects of writes of runs, those that follow one another joined. -/
def storeEffs (l : List (Nat × List Byte)) : List Eff := (joinRuns l).map fun r => .bytes r.1 r.2

/-- The effects of a store, landed in order, are its writes. -/
theorem ls_foldl_storeEffs (c : Core) (l : List (Nat × List Byte)) : ((storeEffs l).foldl Core.land c).ls = memWrites c.ls l := by
  have each (k : List (Nat × List Byte)) (c : Core) : ((k.map fun r => Eff.bytes r.1 r.2).foldl Core.land c).ls = memWrites c.ls k := by
    induction k generalizing c with
    | nil => rfl
    | cons r k ih => exact ih _
  rw [storeEffs, each, memWrites_joinRuns]

/-! ## The elements of a store -/

section
variable (m : Memory) (es : List Nat) (p : Nat → Nat) (w : Nat) (v : Nat → Nat)

/-- What elements `es` write, each `w` bytes at its place. -/
def elementWrites : List (Nat × List Byte) := es.map fun e => (p e, toBytes w (v e))

theorem mem_elementWrites {r : Nat × List Byte} (h : r ∈ elementWrites es p w v) : ∃ e ∈ es, r.1 = p e ∧ r.2.length = w := by
  obtain ⟨e, he, rfl⟩ := List.mem_map.mp h
  exact ⟨e, he, rfl, toBytes_length _ _⟩

theorem memGet_elementWrites_outside {a : Nat} (h : ∀ e ∈ es, ¬ (p e ≤ a ∧ a < p e + w)) :
    memGet (memWrites m (elementWrites es p w v)) a = memGet m a := by
  refine memGet_memWrites_outside m _ a fun r hr => ?_
  obtain ⟨e, he, place, length⟩ := mem_elementWrites es p w v hr
  have := h e he
  omega

/-- Of elements in ascending order the highest of those at one byte stands. -/
theorem memGet_elementWrites {e j : Nat} (wf : Memory.wf m = true) (sorted : es.Pairwise (· < ·)) (he : e ∈ es) (hj : j < w)
    (h : ∀ f ∈ es, e < f → ¬ (p f ≤ p e + j ∧ p e + j < p f + w)) :
    memGet (memWrites m (elementWrites es p w v)) (p e + j) = BitVec.ofNat 8 (v e / 2 ^ (8 * j)) := by
  obtain ⟨l, k, rfl⟩ := List.append_of_mem he
  have above : ∀ f ∈ k, e < f := (List.pairwise_cons.mp (List.pairwise_append.mp sorted).2.1).1
  have length : j < (toBytes w (v e)).length := by rwa [toBytes_length]
  rw [← getElem_toBytes w (v e) j length, elementWrites, List.map_append, List.map_cons]
  refine memGet_memWrites_last _ _ (p e) j _ wf length fun r hr => ?_
  obtain ⟨f, hf, place, size⟩ := mem_elementWrites k p w v hr
  have := h f (List.mem_append_right _ (List.mem_cons_of_mem _ hf)) (above f hf)
  omega

end

theorem State.vstore_eq (s : State) (vd : BitVec 6) (t : ElemType) (x : Access1) (es : List Nat) : s.vstore vd t x es =
    s.vdone x.occ x.occ false (storeEffs (elementWrites es (fun e => (x.at_ e).toNat) (t.width / 8) (elemAt (s.vr vd) t.width))) := rfl

theorem State.governed_sorted (s : State) (mk : BitVec 4) (n : Nat) : (s.governed mk n).Pairwise (· < ·) :=
  List.pairwise_lt_range.filter _

/-! ## A store by its checks -/

section
variable {i : Instr} {s : State} {tf : BitVec 3} {cls : ElemType → Bool} {vd : BitVec 6} {mk : BitVec 4} {acc : ElemType → Access1} {t : ElemType}

theorem State.vstoreWord_eq (type : s.vtype tf = some t) : s.vstoreWord tf cls vd mk acc =
    s.perform (.and s.occupied (s.memChecks (cls t) (acc t))) fun u => u.vstore vd t (acc t) (u.governed mk t.count) := by
  simp only [State.vstoreWord, State.vt_of_vtype type, type, State.memChecks, verdicts_cons]

variable (hst : s.cur.st = .vector) (free : s.me.vbusy ≤ s.cyc) (type : s.vtype tf = some t) (hi : exec i s = s.vstoreWord tf cls vd mk acc)
include hst free type hi

theorem Traps.of_vstoreWord {code : Nat} (bad : s.memChecks (cls t) (acc t) = .fault code) : Traps i s code := by
  refine .of_perform (s.ne_crossing_of_vector hst) (hi.trans (State.vstoreWord_eq type)) ?_
  rw [State.occupied_ok_of_le free, Verdict.and_ok, bad]

/-- A store that passes its checks leaves each byte of a governed element that no higher one covers, and every other byte as it was. -/
theorem Gives.of_vstoreWord (wf : s.me.ls.wf = true) (good : s.memChecks (cls t) (acc t) = .ok) {occ : Nat} (hocc : (acc t).occ = occ)
    {at_ : Nat → Int} (hat : ∀ e, (acc t).at_ e = at_ e) :
    ∃ effs : List Eff, Gives i s (effs.map fun e => (occ, e)) ∧
      (∀ e ∈ s.governed mk t.count, ∀ j, j < t.width / 8 →
        (∀ f ∈ s.governed mk t.count, e < f → ¬ ((at_ f).toNat ≤ (at_ e).toNat + j ∧ (at_ e).toNat + j < (at_ f).toNat + t.width / 8)) →
        memGet (effs.foldl Core.land s.me).ls ((at_ e).toNat + j) = BitVec.ofNat 8 (elemAt (s.vr vd) t.width e / 2 ^ (8 * j))) ∧
      ∀ a, (∀ e ∈ s.governed mk t.count, ¬ ((at_ e).toNat ≤ a ∧ a < (at_ e).toNat + t.width / 8)) →
        memGet (effs.foldl Core.land s.me).ls a = memGet s.me.ls a := by
  refine ⟨storeEffs (elementWrites (s.governed mk t.count) (fun e => (at_ e).toNat) (t.width / 8) (elemAt (s.vr vd) t.width)), ?_,
    fun e he j hj last => ?_, fun a out => ?_⟩
  · refine .of_vdone (lat := occ) (occ := occ) hst (hi.trans (State.vstoreWord_eq type)) ?_ ⟨false, ?_⟩
    · rw [State.occupied_ok_of_le free, good]
      rfl
    · simp only [State.vstore_eq, hocc, hat]
  · rw [ls_foldl_storeEffs]
    exact memGet_elementWrites _ _ (fun e => (at_ e).toNat) _ _ wf (s.governed_sorted mk t.count) he hj last
  · rw [ls_foldl_storeEffs]
    exact memGet_elementWrites_outside _ _ (fun e => (at_ e).toNat) _ _ out

end

/-! ## The words -/

theorem exec_vst (o : VStOp) (s : State) : exec (.vst o) s = s.vstoreWord o.t isX o.vd o.msk fun f => s.contiguous f o.sb o.off := rfl

theorem exec_vsts (o : VStxOp) (s : State) : exec (.vsts o) s = s.vstoreWord o.t isX o.vd o.msk fun f => s.strided f o.sb o.sx := rfl

theorem exec_vscat (o : VStxOp) (s : State) : exec (.vscat o) s = s.vstoreWord o.t isWide o.vd o.msk fun f => s.indexed f o.sb o.sx o.msk := rfl

/-- Settles O28: the addresses and checks of each store, and what each leaves. -/
theorem vectorStores : Obligations.VectorStores := by
  unfold Obligations.VectorStores
  intro s o x t hst free wf w base inside stores a
  refine ⟨fun type class_ => ?_, fun type class_ => ?_⟩
  · have misaligned := State.contiguous_misaligned_iff hst t o.sb o.off
    have outside := State.contiguous_outside_iff hst t o.sb o.off
    refine ⟨fun odd => ?_, fun aligned out => ?_, fun aligned fits => ?_⟩
    · exact .of_vstoreWord hst free type (exec_vst o s) (class_ ▸ State.memChecks_misaligned hst (misaligned.mpr odd))
    · exact .of_vstoreWord hst free type (exec_vst o s) (class_ ▸ State.memChecks_outside hst (fun h => misaligned.mp h aligned) (outside.mpr out))
    · refine Gives.of_vstoreWord hst free type (exec_vst o s) wf ?_ rfl (State.contiguous_at hst t o.sb o.off)
      rw [class_]
      exact State.memChecks_ok (fun h => misaligned.mp h aligned) (fun h => outside.mp h fits)
  · intro es st row idx
    have strideOdd := State.strided_misaligned_iff hst t x.sb x.sx
    have indexOdd := State.indexed_misaligned_iff hst t x.sb x.sx x.msk
    have indexOut : (s.indexed t x.sb x.sx x.msk).outside = true ↔ ∃ e ∈ es, ¬ inside (idx e) w := by
      rw [State.indexed_outside_iff]
      simp only [State.indexed_at hst]
      rfl
    refine ⟨fun aligned step fits => ?_, fun odd => ?_, fun wide aligned fits => ?_, fun wide aligned out => ?_, fun narrow => ?_⟩
    · refine Gives.of_vstoreWord hst free type (exec_vsts x s) wf ?_ rfl (State.strided_at hst t x.sb x.sx)
      rw [class_]
      exact State.memChecks_ok (fun h => (strideOdd.mp h).elim (· aligned) (· step))
        (fun h => (State.strided_outside_iff hst t x.sb x.sx).mp h fits)
    · exact .of_vstoreWord hst free type (exec_vsts x s) (class_ ▸ State.memChecks_misaligned hst (strideOdd.mpr odd))
    · refine Gives.of_vstoreWord hst free type (exec_vscat x s) wf ?_ rfl (State.indexed_at hst t x.sb x.sx x.msk)
      rw [isWide_of_isX class_ wide]
      exact State.memChecks_ok (fun h => indexOdd.mp h aligned) (fun h => let ⟨e, he, out⟩ := indexOut.mp h; out (fits e he))
    · exact .of_vstoreWord hst free type (exec_vscat x s)
        (isWide_of_isX class_ wide ▸ State.memChecks_outside hst (fun h => indexOdd.mp h aligned) (indexOut.mpr out))
    · exact .of_vstoreWord hst free type (exec_vscat x s) (isWide_eq_false narrow ▸ State.memChecks_class hst)

end Sys2Proof.Machine
end

section
/-! PROOF. SHLD and SHINV at issue (07 R197-R201, 13 R395; O11). -/

namespace Sys2Proof.Machine

/-! ## The buffers of a slot (07 R198) -/

theorem ShapeSlot.inState_isNone_iff {sl : ShapeSlot} {st : BufState} : (sl.inState st).isNone = true ↔ ¬ (sl.b0.st = st ∨ sl.b1.st = st) := by
  unfold ShapeSlot.inState
  split_ifs <;> simp_all

/-- A load takes buffer 0 of its slot when that is free, and otherwise buffer 1. -/
theorem ShapeSlot.mod_free {sl : ShapeSlot} (has : sl.b0.st = .free ∨ sl.b1.st = .free) (f : ShapeBuf → ShapeBuf) :
    sl.mod .free f = if sl.b0.st = .free then { sl with b0 := f sl.b0 } else { sl with b1 := f sl.b1 } := by
  unfold ShapeSlot.mod
  split
  · rfl
  · next other => rw [if_pos (has.resolve_left other)]

@[simp] theorem Core.slot_modSlot_same (c : Core) (z : Nat) (f : ShapeSlot → ShapeSlot) : (c.modSlot z f).slot z = f (c.slot z) :=
  vAt_vPut_same ..

theorem Core.slot_modSlot_other (c : Core) {z m : Nat} (hz : z < 8) (hm : m < 8) (h : m ≠ z) (f : ShapeSlot → ShapeSlot) :
    (c.modSlot z f).slot m = c.slot m :=
  vAt_vPut_other _ _ _ _ (by omega)

theorem State.modSlot_sameStreams (s : State) (z : Nat) (f : ShapeSlot → ShapeSlot) : s.SameStreams (s.modMe fun c => c.modSlot z f) := by
  refine ⟨rfl, fun st => ?_, ?_, ?_, ?_, ?_⟩ <;> rw [State.me_modMe]
  · cases st <;> rfl
  all_goals rfl

/-! ## A helm word that writes after a change of its core -/

section
variable {s t : State} (hst : s.cur.st = .helm) (same : s.SameStreams t) (lat : Nat) (effs : List Eff)
include hst same

/-- A helm word's results and its pipe as one change of the issuing core, `t` being the state that the word has reached before. -/
theorem State.write_eq_of_helm : t.write lat effs = t.modMe fun _ => { t.me with
    flights := t.me.flights ++ effs.map (s.flight lat), helm := s.nextStream, helmSt := s.nextPipe } := by
  have hx : s.cur.st ≠ .crossing := by simp [hst]
  have hf : t.flight lat = s.flight lat := funext (same.flight hx lat)
  rw [State.write, (same.emit lat effs).advance hx, State.emit, State.modMe_modMe]
  refine t.modMe_congr _ _ ?_
  rw [State.me_modMe, State.passCore, hst, hf]

theorem State.me_write_of_helm : (t.write lat effs).me = { t.me with
    flights := t.me.flights ++ effs.map (s.flight lat), helm := s.nextStream, helmSt := s.nextPipe } := by
  rw [State.write_eq_of_helm hst same, State.me_modMe]

theorem State.slot_write_of_helm (n : Nat) : (t.write lat effs).me.slot n = t.me.slot n := by
  rw [State.me_write_of_helm hst same]
  rfl

theorem State.alone_write_of_helm (alone : s.Alone t) : s.Alone (t.write lat effs) := by
  rw [State.write_eq_of_helm hst same]
  exact alone.modMe same.cur _

theorem State.passed_write_of_helm : s.Passed (t.write lat effs) :=
  (same.emit lat effs).passed (by simp [hst])

end

/-! ## SHLD -/

section
variable (s : State) (z ra : SReg)

/-- The bytes of the boundary table of a record that are checked for poison, where the table is of a legal length. -/
def tableBytes (r : List Byte) : Nat := if field r 16 4 ≤ 4096 then 4 * (field r 16 4 + 1) else 0

/-- The checks of SHLD, in order (07 R199, R200, 13 R390, R395). -/
def State.shldChecks : Verdict :=
  let a := (s.sr ra).toNat
  let r := memBytes s.me.ls a 64
  verdicts [s.slotField z, need (!((s.me.slot z.toNat).inState .free).isNone) (cause2 .helm fullC), s.noPhase,
    s.bad0 (decide (a % 64 ≠ 0)) alignC, s.bad0 (decide (0x3FFFC0 ≤ a)) rangeC,
    bar (s.me.poisoned a 64 || s.me.poisoned (Machine.field r 20 4) (tableBytes r)) (cause 5 0 1)]

/-- What SHLD puts into the buffer that it takes: the record and the table as they stand at its issue. -/
def State.shapeRead : ShapeBuf :=
  let r := memBytes s.me.ls (s.sr ra).toNat 64
  { st := .loading, record := r, bounds := readBounds s.me.ls r }

/-- The core with the buffer that SHLD takes loading. -/
def State.shapeLoading : State := s.modMe fun c => c.modSlot z.toNat fun sl => sl.mod .free fun _ => s.shapeRead ra

theorem exec_shld : exec (.shld z ra) s = s.perform (s.shldChecks z ra) fun t =>
    (t.modMe fun c => c.modSlot z.toNat fun sl => sl.mod .free fun _ =>
      { s.shapeRead ra with bounds := readBounds c.ls (s.shapeRead ra).record }).write 264 [.shape (z.toNat + 16 * (t.me.slot z.toNat).freeBuf)] := rfl

theorem exec_shinv : exec (.shinv z) s = s.perform (verdicts [s.slotField z, s.noPhase]) fun s => s.write 1 [.shape (8 + z.toNat)] := rfl

end

section
variable {s : State} {z ra : SReg} (hst : s.cur.st = .helm)
include hst

theorem State.slotField_fault (far : 8 ≤ z.toNat) : s.slotField z = .fault (cause 0 0 2) := State.bad0_helm hst (decide_eq_true far) _

omit hst in
theorem State.slotField_ok (near : z.toNat < 8) : s.slotField z = .ok := (bad0_ok_iff ..).mpr (decide_eq_false (not_le.mpr near))

variable (near : z.toNat < 8)
include near

omit hst in
/-- Past the field, a load waits for a free buffer. -/
theorem State.shldChecks_wait (busy : ¬ ((s.me.slot z.toNat).b0.st = .free ∨ (s.me.slot z.toNat).b1.st = .free)) :
    s.shldChecks z ra = .wait (cause 2 0 2) := by
  rw [State.shldChecks, verdicts_cons, State.slotField_ok near, verdicts_cons, ShapeSlot.inState_isNone_iff.mpr busy]
  rfl

variable (room : (s.me.slot z.toNat).b0.st = .free ∨ (s.me.slot z.toNat).b1.st = .free)
include room

omit hst in
/-- With a free buffer the checks are those of the phase, the address and the poison. -/
theorem State.shldChecks_eq : s.shldChecks z ra =
    verdicts [s.noPhase, s.bad0 (decide ((s.sr ra).toNat % 64 ≠ 0)) alignC, s.bad0 (decide (0x3FFFC0 ≤ (s.sr ra).toNat)) rangeC,
      bar (s.me.poisoned (s.sr ra).toNat 64 || s.me.poisoned (Machine.field (memBytes s.me.ls (s.sr ra).toNat 64) 20 4)
        (tableBytes (memBytes s.me.ls (s.sr ra).toNat 64))) (cause 5 0 1)] := by
  have free : ((s.me.slot z.toNat).inState .free).isNone = false := Bool.eq_false_iff.mpr fun h => ShapeSlot.inState_isNone_iff.mp h room
  rw [State.shldChecks, verdicts_cons, State.slotField_ok near, verdicts_cons, free]
  rfl

theorem State.shldChecks_phase (phase : s.me.inPhase = true) : s.shldChecks z ra = .fault (cause 0 0 2) := by
  rw [State.shldChecks_eq near room, verdicts_cons, State.noPhase_fault hst phase]
  rfl

variable (phase : s.me.inPhase = false)
include phase

theorem State.shldChecks_misaligned (odd : (s.sr ra).toNat % 64 ≠ 0) : s.shldChecks z ra = .fault (cause 0 0 3) := by
  rw [State.shldChecks_eq near room, verdicts_cons, State.noPhase_ok phase, verdicts_cons, State.bad0_helm hst (decide_eq_true odd)]
  rfl

variable (aligned : (s.sr ra).toNat % 64 = 0)
include aligned

theorem State.shldChecks_outside (far : 0x3FFFC0 ≤ (s.sr ra).toNat) : s.shldChecks z ra = .fault (cause 0 0 2) := by
  rw [State.shldChecks_eq near room, verdicts_cons, State.noPhase_ok phase, verdicts_cons, verdicts_cons, State.bad0_helm hst (decide_eq_true far)]
  simp [aligned]
  rfl

omit hst in
theorem State.shldChecks_ok (inside : (s.sr ra).toNat < 0x3FFFC0) (clean : s.me.lsPoison = []) : s.shldChecks z ra = .ok := by
  rw [State.shldChecks_eq near room]
  simp [State.noPhase_ok phase, aligned, inside, Core.poisoned, clean]

end

/-- The landing of a load names its slot and the buffer that it took. -/
theorem ShapeSlot.landing_number (sl : ShapeSlot) (n : Nat) : n + 16 * sl.freeBuf = if sl.b0.st = .free then n else n + 16 := by
  unfold ShapeSlot.freeBuf
  split <;> rfl

/-- Settles O11: SHLD's checks in their order (`State.shldChecks`), the buffer that it takes (`ShapeSlot.mod_free`), and SHINV's. -/
theorem shapeWords : Obligations.ShapeWords := by
  unfold Obligations.ShapeWords
  intro s z ra hst a n r slot has
  have hx : s.cur.st ≠ .crossing := by simp [hst]
  have runs := exec_shld s z ra
  refine ⟨fun far => ⟨?_, ?_⟩, fun near busy => ?_, fun near phase => ⟨fun room => ?_, ?_⟩, fun near phase => ?_, fun near room phase => ⟨fun odd => ?_,
    fun aligned far => ?_, fun aligned inside clean => ?_⟩⟩
  · refine .of_perform hx runs ?_
    rw [State.shldChecks, verdicts_cons, State.slotField_fault hst far]
    rfl
  · refine .of_perform hx (exec_shinv s z) ?_
    rw [verdicts_cons, State.slotField_fault hst far]
    rfl
  · exact .of_perform hx runs (State.shldChecks_wait near busy)
  · exact .of_perform hx runs (State.shldChecks_phase hst near room phase)
  · refine .of_perform hx (exec_shinv s z) ?_
    rw [verdicts_cons, State.slotField_ok near, verdicts_cons, State.noPhase_fault hst phase]
    rfl
  · refine .of_perform (effs := [_]) hx (exec_shinv s z) ?_ rfl
    rw [verdicts_cons, State.slotField_ok near, verdicts_cons, State.noPhase_ok phase]
    rfl
  · exact .of_perform hx runs (State.shldChecks_misaligned hst near room phase odd)
  · exact .of_perform hx runs (State.shldChecks_outside hst near room phase aligned far)
  · have same : s.SameStreams (s.shapeLoading z ra) := s.modSlot_sameStreams _ _
    have me := State.me_write_of_helm hst same 264 [.shape (z.toNat + 16 * (s.me.slot z.toNat).freeBuf)]
    have loaded : (s.shapeLoading z ra).me = s.me.modSlot z.toNat fun sl => sl.mod .free fun _ => s.shapeRead ra := s.me_modMe _
    refine ⟨_, by rw [runs, State.perform_ok (State.shldChecks_ok near room phase aligned inside clean)], ?_⟩
    rw [show (s.modMe _) = s.shapeLoading z ra from s.modMe_congr _ _ rfl]
    refine ⟨State.alone_write_of_helm hst same _ _ (.modMe' s _), State.passed_write_of_helm hst same _ _, ?_, ?_, fun m hm other => ?_⟩
    · rw [me, loaded, ShapeSlot.landing_number]
      rfl
    · rw [State.slot_write_of_helm hst same, loaded, Core.slot_modSlot_same]
      exact ShapeSlot.mod_free room _
    · rw [State.slot_write_of_helm hst same, loaded]
      exact s.me.slot_modSlot_other near hm other _

end Sys2Proof.Machine
end

section
/-! PROOF. Elements packed into a register of any width (06 R174, 07 R218), and the size of the encodings of a type (04 R101, R112-R117); O31, O32. -/

namespace Sys2Proof.Machine

/-! ## Packed elements -/

theorem packNat_digit (w : Nat) : ∀ {l : List Nat} {k : Nat} (hk : k < l.length), packNat w l / 2 ^ (w * k) % 2 ^ w = l[k] % 2 ^ w
  | x :: t, 0, _ => by simp [packNat]
  | x :: t, k + 1, hk => by
    have rest : packNat w (x :: t) / 2 ^ w = packNat w t := by
      rw [packNat, Nat.add_mul_div_left _ _ (Nat.two_pow_pos w), Nat.div_eq_of_lt (Nat.mod_lt _ (Nat.two_pow_pos w)), Nat.zero_add]
    rw [Nat.mul_succ, Nat.add_comm, pow_add, ← Nat.div_div_eq_div_mul, rest, packNat_digit w (Nat.lt_of_succ_lt_succ hk)]
    rfl

theorem elemAt_packNat {N w k : Nat} {l : List Nat} (hk : k < l.length) (room : w * l.length ≤ N) :
    elemAt (BitVec.ofNat N (packNat w l)) w k = l[k] % 2 ^ w := by
  have top : w * k + w ≤ N := by rw [← Nat.mul_succ]; exact (Nat.mul_le_mul_left w hk).trans room
  refine eq_of_testBit_lt (elemAt_lt _ _ _) (Nat.mod_lt _ (Nat.two_pow_pos w)) fun j hj => ?_
  rw [testBit_elemAt _ hj, BitVec.getLsbD_ofNat, decide_eq_true (by omega), Bool.true_and, ← packNat_digit w hk, Nat.testBit_mod_two_pow,
    Nat.testBit_div_two_pow, decide_eq_true hj, Bool.true_and, Nat.add_comm]

/-- Rows of elements, one row after the other. -/
theorem getElem?_rows {α : Type} {m n : Nat} (f : Nat → Nat → α) {i j : Nat} (hi : i < m) (hj : j < n) :
    ((List.range m).flatMap fun i => (List.range n).map (f i))[n * i + j]? = some (f i j) := by
  have inside : n * i + j < n * m := by
    have : n * i + n ≤ n * m := by rw [← Nat.mul_succ]; exact Nat.mul_le_mul_left n hi
    omega
  have row : (n * i + j) / n = i := by rw [Nat.mul_add_div (by omega), Nat.div_eq_of_lt hj, Nat.add_zero]
  have col : (n * i + j) % n = j := by rw [Nat.mul_add_mod, Nat.mod_eq_of_lt hj]
  rw [flatMap_blocks (n := n) _ (f i j) fun b _ => by rw [List.length_map, List.length_range], List.getElem?_map, List.getElem?_range inside,
    Option.map_some, row, col, List.getElem?_map, List.getElem?_range hj]
  rfl

/-- The element of row `i` and column `j` of a register packed row by row. -/
theorem elemAt_rows {N w m n : Nat} (f : Nat → Nat → Nat) (room : w * (n * m) ≤ N) {i j : Nat} (hi : i < m) (hj : j < n) :
    elemAt (BitVec.ofNat N (packNat w ((List.range m).flatMap fun i => (List.range n).map (f i)))) w (n * i + j) = f i j % 2 ^ w := by
  obtain ⟨inside, same⟩ := List.getElem?_eq_some_iff.mp (getElem?_rows f hi hj)
  rw [elemAt_packNat inside, same]
  rwa [flatMap_blocks (n := n) _ (f i j) fun b _ => by rw [List.length_map, List.length_range], List.length_map, List.length_range]

/-! ## The size of an encoding -/

/-- A format whose largest finite value and NaN have a code. -/
structure FFmt.Coded (f : FFmt) : Prop where
  mant : f.maxM < 2 ^ (f.man + 1)
  exp : f.maxE + f.man + f.bias < 2 ^ f.ebits
  nan : f.nan < 2 ^ (1 + f.ebits + f.man)

theorem FFmt.coded_of_mem {f : FFmt} (h : f ∈ [fp32F, fp64F, bf16F, fp16F, e4m3F, e5m2F]) : f.Coded := by
  simp only [List.mem_cons, List.not_mem_nil, or_false] at h
  rcases h with rfl | rfl | rfl | rfl | rfl | rfl <;> exact ⟨by decide, by decide, by decide⟩

section
variable {f : FFmt}

theorem FFmt.sign_add_lt (neg : Bool) {c : Nat} (h : c < 2 ^ (f.ebits + f.man)) : f.sign neg + c < 2 ^ (1 + f.ebits + f.man) := by
  have half : 2 ^ (1 + f.ebits + f.man) = 2 ^ (f.man + f.ebits) + 2 ^ (f.ebits + f.man) := by
    rw [Nat.add_assoc, pow_add, pow_one, Nat.add_comm f.man, two_mul]
  rw [half]
  refine Nat.add_lt_add_of_le_of_lt ?_ h
  unfold FFmt.sign
  split
  · exact le_rfl
  · exact Nat.zero_le _

theorem FFmt.inf_lt (f : FFmt) (neg : Bool) : f.inf neg < 2 ^ (1 + f.ebits + f.man) := by
  refine FFmt.sign_add_lt neg ?_
  rw [pow_add]
  exact Nat.mul_lt_mul_of_pos_right (Nat.sub_lt (Nat.two_pow_pos _) one_pos) (Nat.two_pow_pos _)

/-- An exponent field in range and a mantissa make a code. -/
theorem code_lt {ebits man E : Nat} {q : Nat} (hE : E < 2 ^ ebits) (hq : q < 2 ^ man) : E * 2 ^ man + q < 2 ^ (ebits + man) :=
  calc E * 2 ^ man + q < (E + 1) * 2 ^ man := by rw [Nat.succ_mul]; omega
    _ ≤ 2 ^ ebits * 2 ^ man := Nat.mul_le_mul_right _ hE
    _ = 2 ^ (ebits + man) := (pow_add ..).symm

/-- A normal magnitude that is not too large stands at the largest exponent at most, and below it when rounding has carried. -/
theorem FFmt.Coded.place_le (hf : f.Coded) {q : Nat} {u : Int} (normal : 2 ^ f.man ≤ q) (fits : f.tooBig q u = false) :
    u ≤ f.maxE ∧ (q = 2 ^ (f.man + 1) → u < f.maxE) := by
  by_cases high : f.maxE ≤ u
  · have bound : q * 2 ^ (u - f.maxE).toNat ≤ f.maxM := by simpa [FFmt.tooBig, high] using fits
    have mant := hf.mant
    rcases hd : (u - f.maxE).toNat with _ | d
    · rw [hd, pow_zero, Nat.mul_one] at bound
      exact ⟨by omega, fun carry => by omega⟩
    · rw [hd, pow_succ] at bound
      have := Nat.one_le_two_pow (n := d)
      have : q * 2 ≤ q * (2 ^ d * 2) := Nat.mul_le_mul_left q (by omega)
      rw [pow_succ] at mant
      omega
  · exact ⟨by omega, fun _ => by omega⟩

theorem FFmt.Coded.pack_lt (hf : f.Coded) (neg : Bool) {q : Nat} {u : Int} (hq : q ≤ 2 ^ (f.man + 1)) (fits : f.tooBig q u = false) :
    f.pack neg q u < 2 ^ (1 + f.ebits + f.man) := by
  have exp := hf.exp
  have double : 2 ^ (f.man + 1) = 2 ^ f.man * 2 := pow_succ ..
  have pos : 0 < 2 ^ f.man := Nat.two_pow_pos _
  have toNat_lt {E : Int} (h : E ≤ f.maxE + f.man + f.bias) : E.toNat < 2 ^ f.ebits := by
    have : ((2 ^ f.ebits : Nat) : Int) = 2 ^ f.ebits := by push_cast; rfl
    have : 0 < 2 ^ f.ebits := Nat.two_pow_pos _
    omega
  unfold FFmt.pack
  by_cases carry : q = 2 ^ (f.man + 1)
  · obtain ⟨-, below⟩ := hf.place_le (by omega) fits
    have := below carry
    rw [if_pos carry]
    simp only [lt_irrefl, if_false, Nat.sub_self]
    exact FFmt.sign_add_lt neg (code_lt (toNat_lt (by omega)) pos)
  · rw [if_neg carry]
    simp only
    split
    · next sub => exact FFmt.sign_add_lt neg (sub.trans_le (Nat.pow_le_pow_right two_pos (by omega)))
    · next normal =>
      obtain ⟨le, -⟩ := hf.place_le (by omega) fits
      exact FFmt.sign_add_lt neg (code_lt (toNat_lt (by omega)) (by omega))

theorem FFmt.Coded.maxFin_lt (hf : f.Coded) (neg : Bool) : f.maxFin neg < 2 ^ (1 + f.ebits + f.man) :=
  hf.pack_lt neg hf.mant.le (by simp [FFmt.tooBig])

theorem FFmt.Coded.overflow_lt (hf : f.Coded) (mode : RMode) (sat neg : Bool) : f.overflow mode sat neg < 2 ^ (1 + f.ebits + f.man) := by
  have fin := hf.maxFin_lt neg
  have inf := f.inf_lt neg
  have nan := hf.nan
  have either {a b : Nat} {c : Bool} (ha : a < 2 ^ (1 + f.ebits + f.man)) (hb : b < 2 ^ (1 + f.ebits + f.man)) :
      (if c then a else b) < 2 ^ (1 + f.ebits + f.man) := by split <;> assumption
  unfold FFmt.overflow
  refine either (either fin ?_) ?_
  · cases mode with
    | rup => exact either fin inf
    | rdn => exact either inf fin
    | rtz => exact fin
    | _ => exact inf
  · split
    · exact fin
    · exact either fin nan

/-- RoundTo gives a code of its format. -/
theorem FFmt.Coded.round_lt (hf : f.Coded) (mode : RMode) (sat : Bool) (v : Num) : f.round mode sat v < 2 ^ (1 + f.ebits + f.man) := by
  cases v with
  | nan => exact hf.nan
  | inf neg =>
    have fin := hf.maxFin_lt neg
    have inf := f.inf_lt neg
    have nan := hf.nan
    simp only [FFmt.round]
    split_ifs <;> assumption
  | fin neg m e x =>
    simp only [FFmt.round]
    split
    · exact hf.overflow_lt mode sat neg
    · next fits => exact hf.pack_lt neg (roundUnit_le ..) (Bool.eq_false_iff.mpr fits)

end

theorem fp32_round_lt (mode : RMode) (sat : Bool) (v : Num) : fp32F.round mode sat v < 2 ^ 32 :=
  (FFmt.coded_of_mem (f := fp32F) (by decide)).round_lt mode sat v

theorem ElemType.narrow_lt (t : ElemType) (sat : Bool) (i : Int) : t.narrow sat i < 2 ^ t.width := by
  have pos : (0 : Int) < 2 ^ t.width := by positivity
  have := Int.emod_lt_of_pos (if sat then max t.intRange.1 (min t.intRange.2 i) else i) pos
  have := Int.emod_nonneg (if sat then max t.intRange.1 (min t.intRange.2 i) else i) pos.ne'
  have cast : ((2 ^ t.width : Nat) : Int) = 2 ^ t.width := by push_cast; rfl
  change (_ % _ : Int).toNat < _
  omega

/-- A conversion gives a code of its target type. -/
theorem convert_lt {t : ElemType} (plain : t.isBlock = false) (src : ElemType) (mode : RMode) (sat : Bool) (b : Nat) :
    convert src t mode sat b < 2 ^ t.width := by
  unfold convert
  split
  · exact t.narrow_lt _ _
  unfold ElemType.encodeF
  split
  · split
    · exact Nat.two_pow_pos _
    all_goals exact t.narrow_lt _ _
  · next float =>
    have size : t.ffmt ∈ [fp32F, fp64F, bf16F, fp16F, e4m3F, e5m2F] ∧ t.width = 1 + t.ffmt.ebits + t.ffmt.man := by
      cases t <;> first | exact absurd rfl float | exact absurd plain (by decide) | exact ⟨by decide, rfl⟩
    rw [size.2]
    exact (FFmt.coded_of_mem size.1).round_lt mode sat _

end Sys2Proof.Machine
end

section
/-! PROOF. A matrix word at issue: its checks, and what its results leave (07 R221-R223; O31, O32). -/

namespace Sys2Proof.Machine

/-! ## Checks (07 R221-R223) -/

theorem State.bad0_matrix {s : State} {bad : Bool} (hst : s.cur.st = .matrix) (h : bad = true) (b : Nat) : s.bad0 bad b = .fault (cause 0 2 b) := by
  rw [h, bad0_true, hst]
  rfl

theorem Verdict.and_assoc (u v w : Verdict) : (u.and v).and w = u.and (v.and w) := by cases u <;> rfl

@[simp] theorem Verdict.and_ok_right (v : Verdict) : v.and .ok = v := by cases v <;> rfl

section
variable {s : State}

theorem State.tClean_ok (h : s.me.tBad = []) (l : List (BitVec 4)) : s.tClean l = .ok := by simp [State.tClean, h]

theorem State.aClean_ok (h : s.me.aBad = []) (r : BitVec 2) : s.aClean r = .ok := by simp [State.aClean, h]

theorem State.unitFree_ok {u : Nat} (h : vAt s.me.mbusy u ≤ s.cyc) : s.unitFree u = .ok := (need_ok_iff ..).mpr (decide_eq_true h)

theorem State.needT_ok {r : BitVec 4} (h : s.me.tIsFull r = true) : s.needT r = .ok := (need_ok_iff ..).mpr h

theorem State.takeT_ok {r : BitVec 4} (h : s.me.tCanTake r = true) : s.takeT r = .ok := (need_ok_iff ..).mpr h

theorem State.freeT_ok {r : BitVec 4} (h : s.me.tIsEmpty r = true) : s.freeT r = .ok := (need_ok_iff ..).mpr h

theorem State.takeA_ok {r : BitVec 2} (h : s.me.aCanTake r = true) : s.takeA r = .ok := (need_ok_iff ..).mpr h

theorem State.freeA_ok {r : BitVec 2} (h : s.me.aIsEmpty r = true) : s.freeA r = .ok := (need_ok_iff ..).mpr h

theorem State.freeQ_ok {r : BitVec 5} (h : s.me.qIsEmpty r = true) : s.freeQ r = .ok := (need_ok_iff ..).mpr h

variable (hst : s.cur.st = .matrix)
include hst

theorem State.needT_wait {r : BitVec 4} (h : s.me.tIsFull r = false) : s.needT r = .wait (cause 2 2 0) := by
  rw [State.needT, h, hst]
  rfl

theorem State.freeT_wait {r : BitVec 4} (h : s.me.tIsEmpty r = false) : s.freeT r = .wait (cause 2 2 2) := by
  rw [State.freeT, h, hst]
  rfl

theorem State.takeA_wait {r : BitVec 2} (h : s.me.aCanTake r = false) : s.takeA r = .wait (cause 2 2 0) := by
  rw [State.takeA, h, hst]
  rfl

theorem State.freeQ_wait {r : BitVec 5} (h : s.me.qIsEmpty r = false) : s.freeQ r = .wait (cause 2 2 2) := by
  rw [State.freeQ, h, hst]
  rfl

theorem State.maddr_eq (sb : SReg) (off : BitVec 14) :
    s.maddr sb off = ((s.me.sreg .matrix sb).toNat % 2 ^ 48 : Nat) + 64 * off.toInt := by
  rw [State.maddr, State.lsBase, hst]
  rfl

end

/-! ## The checks of an MMEM word that is not tagged (07 R223, 06 R192) -/

section
variable {s : State} {sb : SReg} {off : BitVec 14} {tg : BitVec 1} {reads : Bool} {n : Nat} {states : Verdict}
  (untagged : tg = 0) (free : vAt s.me.mbusy memoryU ≤ s.cyc)
include untagged free

theorem State.mmemChecks_eq : s.mmemChecks sb off tg reads n states =
    verdicts [states, s.bad0 (decide (s.maddr sb off % 64 ≠ 0)) alignC, s.bad0 (!inStore (s.maddr sb off) n) rangeC,
      bar (reads && s.me.poisoned (s.maddr sb off).toNat n) (cause 5 0 1)] := by
  subst untagged
  simp only [State.mmemChecks, verdicts_cons, verdicts_nil, State.unitFree_ok free, Verdict.and_ok, Verdict.and_ok_right, Verdict.and_assoc]
  rfl

theorem State.mmemChecks_wait {code : Nat} (h : states = .wait code) : s.mmemChecks sb off tg reads n states = .wait code := by
  rw [State.mmemChecks_eq untagged free, h]
  rfl

variable (ready : states = .ok)
include ready

theorem State.mmemChecks_ok (aligned : s.maddr sb off % 64 = 0) (inside : 0 ≤ s.maddr sb off ∧ s.maddr sb off + n ≤ 0x400000)
    (clean : s.me.lsPoison = []) : s.mmemChecks sb off tg reads n states = .ok := by
  rw [State.mmemChecks_eq untagged free, ready]
  simp [aligned, inStore_iff.mpr inside, Core.poisoned, clean]

variable (hst : s.cur.st = .matrix)
include hst

theorem State.mmemChecks_misaligned (odd : s.maddr sb off % 64 ≠ 0) : s.mmemChecks sb off tg reads n states = .fault (cause 0 2 3) := by
  rw [State.mmemChecks_eq untagged free, ready, verdicts_cons, Verdict.and_ok, verdicts_cons, State.bad0_matrix hst (decide_eq_true odd)]
  rfl

theorem State.mmemChecks_outside (aligned : s.maddr sb off % 64 = 0) (out : ¬ (0 ≤ s.maddr sb off ∧ s.maddr sb off + n ≤ 0x400000)) :
    s.mmemChecks sb off tg reads n states = .fault (cause 0 2 2) := by
  have far : (!inStore (s.maddr sb off) n) = true := by rw [Bool.not_eq_true', Bool.eq_false_iff, Ne, inStore_iff]; exact out
  rw [State.mmemChecks_eq untagged free, ready, verdicts_cons, Verdict.and_ok, verdicts_cons, verdicts_cons, State.bad0_matrix hst far, aligned]
  rfl

end

/-! ## Results in flight and the occupancy of a unit (07 R222) -/

theorem State.bindWord_alone {s t : State} (alone : s.Alone t) (cur : t.cur = s.cur) (z : Nat) : s.Alone (t.bindWord z) := alone.modMe cur _

section
variable {s t : State} (hst : s.cur.st = .matrix) (same : s.SameStreams t) (u occ : Nat) (effs : List (Nat × List Eff))
include hst same

/-- A matrix word's results and its occupancy as one change of the issuing core, `t` being the state that the word has reached before. -/
theorem State.mdone_eq : t.mdone u occ effs = t.modMe fun _ => { t.me with
    flights := t.me.flights ++ effs.flatMap (fun e => e.2.map (s.flight e.1)) ++ s.loopEffs.map (s.flight 1)
    mat := s.nextStream, mbusy := vPut t.me.mbusy u (s.cyc + occ) } := by
  have hx : s.cur.st ≠ .crossing := by simp [hst]
  have hc : t.cyc = s.cyc := by rw [s.cyc_eq hx, t.cyc_eq (by rwa [same.cur]), same.time]
  have inner : s.SameStreams (t.modMe fun c => { c with
      flights := c.flights ++ effs.flatMap (fun e => e.2.map (s.flight e.1)), mbusy := vPut c.mbusy u (s.cyc + occ) }) := by
    refine ⟨same.cur, fun st => ?_, ?_, ?_, ?_, ?_⟩ <;> rw [State.me_modMe]
    · rw [← same.streams]; cases st <;> rfl
    · exact same.pipe
    · exact same.cyc
    · exact same.htime
    · exact same.handler
  rw [State.mdone, s.emitAll_modMe t effs _ same hx, hc, inner.advance hx, State.modMe_modMe]
  refine t.modMe_congr _ _ ?_
  rw [State.me_modMe, State.passCore, hst]
  rfl

theorem State.me_mdone : (t.mdone u occ effs).me = { t.me with
    flights := t.me.flights ++ effs.flatMap (fun e => e.2.map (s.flight e.1)) ++ s.loopEffs.map (s.flight 1)
    mat := s.nextStream, mbusy := vPut t.me.mbusy u (s.cyc + occ) } := by
  rw [State.mdone_eq hst same, State.me_modMe]

theorem State.alone_mdone (alone : s.Alone t) : s.Alone (t.mdone u occ effs) := by
  rw [State.mdone_eq hst same]
  exact alone.modMe same.cur _

theorem State.passed_mdone : s.Passed (t.mdone u occ effs) := by
  have hx : s.cur.st ≠ .crossing := by simp [hst]
  have me := State.me_mdone hst same u occ effs
  have cur : (t.mdone u occ effs).cur = s.cur := by rw [State.mdone_eq hst same]; exact same.cur
  refine ⟨?_, ?_, fun st other => ?_⟩
  · rw [State.mine_eq _ (by rwa [cur]), me, cur, hst]; rfl
  · rw [me, State.nextPipe, hst]; exact same.pipe
  · rw [me, ← same.streams]
    rw [hst] at other
    cases st <;> first | exact absurd rfl other | rfl

end

/-- A matrix word whose whole effect is its results. -/
theorem MatrixWord.of_mdone {i : Instr} {s : State} {v : Verdict} {eff : State → State} {u occ : Nat} {effs : List (Nat × List Eff)} {l : List (Nat × Eff)}
    (hst : s.cur.st = .matrix) (hi : exec i s = s.perform v eff) (hv : v = .ok) (he : eff s = s.mdone u occ effs)
    (hl : (effs.flatMap fun e => e.2.map fun x => (e.1, x)) = l) (hu : u < 3) : MatrixWord i s u occ l := by
  have hx : s.cur.st ≠ .crossing := by simp [hst]
  refine ⟨_, by rw [hi, State.perform_ok hv, he], hl ▸ s.issued_mdone u occ effs hx, fun k hk => ?_⟩
  rw [State.me_mdone hst ⟨rfl, fun _ => rfl, rfl, rfl, rfl, rfl⟩]
  change vAt (vPut s.me.mbusy u (s.cyc + occ)) k = _
  rw [vAt_vPut]
  exact if_congr (by omega) rfl rfl

end Sys2Proof.Machine
end

section
/-! PROOF. The matrix words that load, store, move, clear and transpose (07 R219, R221, R223-R225, R229; O31). -/

namespace Sys2Proof.Machine

/-! ## The words -/

section
variable (o : MLdOp) (m : MStOp) (ad : BitVec 2) (ta tb : BitVec 4) (s : State)

theorem exec_mldt : exec (.mldt o) s = s.perform (s.mmemChecks o.sb o.off o.tg true 4096 (s.freeT o.d)) fun s =>
    s.mdone memoryU 8 [(12, [.t o.d { data := s.lsBits (s.maddr o.sb o.off).toNat 4096 32768 }])] := rfl

theorem exec_mstt : exec (.mstt m) s = s.perform (.and (s.mmemChecks m.sb m.off 0 false 4096 (s.needT m.d)) (s.tClean [m.d])) fun s =>
    s.mdone memoryU 8 [(8, [.bytes (s.maddr m.sb m.off).toNat (toBytes 4096 (s.tile4 m.d).data.toNat)])] := rfl

theorem exec_mlds : exec (.mlds o) s = s.perform (s.mmemChecks o.sb o.off o.tg true 1024 (s.freeT o.d)) fun s =>
    s.mdone memoryU 2 [(6, [.tSide o.d (s.lsBits (s.maddr o.sb o.off).toNat 1024 8192)])] := rfl

theorem exec_mlda : exec (.mlda o) s =
    s.perform (.and (s.accField o.d) (s.mmemChecks o.sb o.off o.tg true 8192 (s.freeA (o.d.setWidth 2)))) fun s =>
      s.mdone memoryU 16 [(20, [.a (o.d.setWidth 2) { data := s.lsBits (s.maddr o.sb o.off).toNat 8192 65536, int := some s.entryInt }])] := rfl

theorem exec_msta : exec (.msta m) s =
    s.perform (verdicts [s.accField m.d, s.mmemChecks m.sb m.off 0 false 8192 (s.takeA (m.d.setWidth 2)), s.aClean (m.d.setWidth 2)]) fun s =>
      s.mdone memoryU 16 [(1, [.aEmpty (m.d.setWidth 2)]),
        (16, [.bytes (s.maddr m.sb m.off).toNat (toBytes 8192 (vGet (m.d.setWidth 2) s.me.aregs).data.toNat)])] := rfl

theorem exec_mzero : exec (.mzero ad ta tb) s = s.perform (verdicts [s.bad0 (tb != 0) rangeC, s.freeA ad, s.unitFree outputU]) fun s =>
    s.mdone outputU 1 [(2, [.a ad { data := 0, int := some s.entryInt }])] := rfl

theorem exec_mzeroRelease : exec (.mzeroRelease ta) s = s.perform (verdicts [s.takeT ta, s.unitFree outputU]) fun s =>
    s.mdone outputU 1 [(1, [.tEmpty ta])] := rfl

theorem exec_mband : exec (.mband ta tb) s =
    s.perform (verdicts [s.bad0 (ta == tb) rangeC, s.needT tb, s.freeT ta, s.unitFree outputU, s.tClean [tb]]) fun s =>
      s.mdone outputU 1 [(2, [.tBand ta ((s.tile4 tb).data.setWidth 16)])] := rfl

/-- The element type of the current entry is one that MTRN takes: 8 or 16 bits wide, and no block type (07 R229). -/
def State.transposes : Bool :=
  let t := (entryType s.entry).getD .fp32
  !t.isBlock && (t.width == 8 || t.width == 16)

theorem exec_mtrn : exec (.mtrn ta tb) s =
    s.perform (verdicts [s.bad0 (ta == tb) rangeC, s.takeT ta, s.freeT tb, s.unitFree arrayU, s.bad0 (!s.transposes) rangeC, s.tClean [ta]]) fun t =>
      t.mdone arrayU 8 [(1, [.tEmpty ta]), (12, [.t tb { data := (t.tile4 ta).transpose ((entryType s.entry).getD .fp32).width }])] := rfl

end

section
variable {s : State} (hst : s.cur.st = .matrix) (free : ∀ u, u < 3 → vAt s.me.mbusy u ≤ s.cyc)
include hst

theorem State.accField_fault {d : BitVec 4} (far : 4 ≤ d.toNat) : s.accField d = .fault (cause 0 2 2) := State.bad0_matrix hst (decide_eq_true far) _

omit hst in
theorem State.accField_ok {d : BitVec 4} (near : d.toNat < 4) : s.accField d = .ok := (bad0_ok_iff ..).mpr (decide_eq_false (not_le.mpr near))

include free

/-- MLDT and MLDS: a load into a tile register, or its sidecar, that is empty. -/
theorem tileLoad_clauses {i : Instr} {o : MLdOp} {n occ lat : Nat} {eff : State → State} {e : Eff} (untagged : o.tg = 0) (clean : s.me.lsPoison = [])
    (hi : exec i s = s.perform (s.mmemChecks o.sb o.off o.tg true n (s.freeT o.d)) eff) (he : eff s = s.mdone memoryU occ [(lat, [e])]) :
    (s.me.tIsEmpty o.d = true →
      (s.maddr o.sb o.off % 64 = 0 ∧ 0 ≤ s.maddr o.sb o.off ∧ s.maddr o.sb o.off + n ≤ 0x400000 → MatrixWord i s 0 occ [(lat, e)]) ∧
      (s.maddr o.sb o.off % 64 ≠ 0 → Traps i s (cause 0 2 3)) ∧
      (s.maddr o.sb o.off % 64 = 0 → ¬ (0 ≤ s.maddr o.sb o.off ∧ s.maddr o.sb o.off + n ≤ 0x400000) → Traps i s (cause 0 2 2))) ∧
    (s.me.tIsEmpty o.d = false → Stalls i s (cause 2 2 2)) := by
  have hx : s.cur.st ≠ .crossing := by simp [hst]
  have unit := free memoryU (by decide)
  refine ⟨fun empty => ⟨fun ⟨aligned, inside⟩ => ?_, fun odd => ?_, fun aligned out => ?_⟩, fun full => ?_⟩
  · exact .of_mdone hst hi (State.mmemChecks_ok untagged unit (State.freeT_ok empty) aligned inside clean) he rfl (by decide)
  · exact .of_perform hx hi (State.mmemChecks_misaligned untagged unit (State.freeT_ok empty) hst odd)
  · exact .of_perform hx hi (State.mmemChecks_outside untagged unit (State.freeT_ok empty) hst aligned out)
  · exact .of_perform hx hi (State.mmemChecks_wait untagged unit (State.freeT_wait hst full))

end

/-! ## The transposed tile (07 R229) -/

theorem elemAt_transpose (x : Tile) {w : Nat} (hw : w = 8 ∨ w = 16) {m c : Nat} (hm : m < 64) (hc : c < 512 / w) :
    elemAt (x.transpose w) w (512 / w * m + c) = elemAt x.data w (512 / w * (m / (512 / w) * (512 / w) + c) + m % (512 / w)) := by
  have room : w * (512 / w * 64) ≤ 32768 := by rcases hw with rfl | rfl <;> decide
  rw [Tile.transpose, elemAt_rows (fun m c => x.elem w (m / (512 / w) * (512 / w) + c) (m % (512 / w))) room hm hc]
  exact Nat.mod_eq_of_lt (elemAt_lt ..)

/-- A landing in a tile register leaves its sidecar and its band as they are, and the register full (07 R219). -/
theorem Core.land_tile (k : Core) (r : BitVec 4) (x : Tile) : vGet r (k.land (.t r x)).tregs =
    { x with side := (vGet r k.tregs).side, band := (vGet r k.tregs).band } ∧ vGet r (k.land (.t r x)).tfull = true :=
  ⟨vGet_vSet_same .., vGet_vSet_same ..⟩

end Sys2Proof.Machine
end

section
/-! PROOF. MOUT and MOUTQ (07 R218, R221, R223, R228, 04 R115-R118; O31), and the matrix words that move bytes. -/

namespace Sys2Proof.Machine

/-! ## What an output word writes -/

section
variable (s : State) (o : MOutOp) (t : ElemType) (int : Bool)

/-- Element `n` of the accumulator that an output word names. -/
def State.outElem (n : Nat) : Nat := elemAt (vGet o.ad s.me.aregs).data 32 n

/-- Element (`i`, `j`) of it, converted (07 R228). -/
def State.outConv (i j : Nat) : Nat :=
  convert (if int then .int32 else .fp32) t (s.rmode o.rm (64 * i + j)) (o.sat == 1) (s.outElem o (64 * i + j))

/-- The tile registers that an output word fills (07 R218). -/
def outDsts : List (BitVec 4) := if t.width == 32 then [o.ta, o.ta + 1] else [o.ta]

/-- The number of elements that overflowed or clamped. -/
def State.outClamped : List Nat := (List.range 2048).filter fun i => clampedOut int t (s.rmode o.rm i) (o.sat == 1) (s.outElem o i)

/-- The magnitude that MOUTQ reports. -/
def State.outTop : Nat := maxOut int ((List.range 2048).map (s.outElem o))

/-- What the word gives its handoff register, where it has one. -/
def State.outReport (qd : Option (BitVec 5)) : List Eff :=
  (qd.map fun q => Eff.q q (BitVec.ofNat 64 (s.outTop o int + 2 ^ 32 * (s.outClamped o t int).length))).toList

/-- The checks of an output word, in order (07 R221, R223). -/
def State.outChecks (qd : Option (BitVec 5)) : Verdict :=
  verdicts [s.bad0 (!isMout t || (t.width == 32 && o.ta.toNat % 2 == 1)) rangeC, s.takeA o.ad, verdicts ((outDsts o t).map s.freeT),
    (qd.map s.freeQ).getD .ok, s.unitFree outputU, s.bad0 (rmBad o.rm (int && t.isInt)) rangeC, s.aClean o.ad]

/-- The data of the tile whose columns begin at `col`, its 64 rows of elements by element (i, j) (07 R228). -/
def outTile (f : Nat → Nat → Nat) (col : Nat) : BitVec 32768 :=
  BitVec.ofNat 32768 (packNat t.width ((List.range 64).flatMap fun m => (List.range (512 / t.width)).map fun c =>
    if t.width = 8 then (if m < 32 then f m c else 0) else f (m % 32) (col + 512 / t.width * (m / 32) + c)))

theorem outTiles_eq (f : Nat → Nat → Nat) :
    outTiles t f = if t.width = 32 then [outTile t f 0, outTile t f 32] else [outTile t f 0] := rfl

end

section
variable {s : State} {o : MOutOp} {t : ElemType} {int : Bool}

theorem State.mout_eq (type : ElemType.ofCode o.tb.toNat = some t) (kind : ((vGet o.ad s.me.aregs).int).getD false = int) (qd : Option (BitVec 5)) :
    ∃ eff, s.mout o qd = s.perform (s.outChecks o t int qd) eff ∧ eff s = s.mdone outputU (if t.width == 32 then 8 else 4) [(1, [.aEmpty o.ad]),
      (12, (((outDsts o t).zip (outTiles t (s.outConv o t int))).map fun x => Eff.t x.1 { data := x.2 }) ++ s.outReport o t int qd)] := by
  subst kind
  simp only [State.mout, type, Option.getD_some]
  cases qd <;> exact ⟨_, rfl, rfl⟩

/-- An element of a tile that an output word writes. -/
theorem elemAt_outTile (legal : isMout t = true) {f : Nat → Nat → Nat} (small : ∀ i j, f i j < 2 ^ t.width) (col : Nat) {r c : Nat} (hr : r < 64)
    (hc : c < 512 / t.width) : elemAt (outTile t f col) t.width (512 / t.width * r + c) =
      if t.width = 8 then (if r < 32 then f r c else 0) else f (r % 32) (col + 512 / t.width * (r / 32) + c) := by
  have room : t.width * (512 / t.width * 64) ≤ 32768 := by cases t <;> decide
  rw [outTile, elemAt_rows (fun m c => if t.width = 8 then (if m < 32 then f m c else 0) else f (m % 32) (col + 512 / t.width * (m / 32) + c)) room hr hc]
  refine Nat.mod_eq_of_lt ?_
  split_ifs
  · exact small _ _
  · exact Nat.two_pow_pos _
  · exact small _ _

/-! ## The largest magnitude and the count of R228 -/

theorem le_foldl_max (l : List Nat) : (∀ b ∈ l, b ≤ l.foldl max 0) ∧ (l ≠ [] → l.foldl max 0 ∈ l) := by
  have top : (0 :: l).max? = some (l.foldl max 0) := List.max?_cons'
  obtain ⟨mem, bound⟩ := List.max?_eq_some_iff.mp top
  refine ⟨fun b hb => bound b (List.mem_cons_of_mem _ hb), fun some_ => ?_⟩
  rcases List.mem_cons.mp mem with zero | mem
  · obtain ⟨b, hb⟩ := List.exists_mem_of_ne_nil l some_
    have := bound b (List.mem_cons_of_mem _ hb)
    rw [zero] at this ⊢
    rwa [← Nat.le_zero.mp this]
  · exact mem

/-- The largest of a quantity over a list that is not empty. -/
theorem foldl_max_map {l : List Nat} (f : Nat → Nat) (some_ : l ≠ []) :
    (∀ b ∈ l, f b ≤ (l.map f).foldl max 0) ∧ ∃ b ∈ l, f b = (l.map f).foldl max 0 := by
  obtain ⟨bound, mem⟩ := le_foldl_max (l.map f)
  exact ⟨fun b hb => bound _ (List.mem_map_of_mem hb), List.mem_map.mp (mem (by simpa using some_))⟩

theorem maxOut_int {l : List Nat} (some_ : l ≠ []) :
    (∀ b ∈ l, (ElemType.int32.asInt b).natAbs ≤ maxOut true l) ∧ ∃ b ∈ l, (ElemType.int32.asInt b).natAbs = maxOut true l :=
  foldl_max_map _ some_

theorem maxOut_nan {l : List Nat} (nan : ∃ b ∈ l, fp32F.decode b = .nan) : maxOut false l = 0x7FC00000 := by
  have : (l.any fun b => fp32F.decode b == .nan) = true := by simpa using nan
  simp [maxOut, this]

theorem maxOut_float {l : List Nat} (some_ : l ≠ []) (real : ∀ b ∈ l, fp32F.decode b ≠ .nan) :
    (∀ b ∈ l, b % 2 ^ 31 ≤ maxOut false l) ∧ ∃ b ∈ l, b % 2 ^ 31 = maxOut false l := by
  have none_ : (l.any fun b => fp32F.decode b == .nan) = false := by simpa using real
  have run : maxOut false l = (l.map fun b => b % 2 ^ 31).foldl max 0 := by simp [maxOut, none_]
  rw [run]
  exact foldl_max_map _ some_

/-- `FFmt.tooBig` compares with the largest finite value. -/
theorem FFmt.tooBig_iff (f : FFmt) (q : Nat) (u : Int) : f.tooBig q u = true ↔ (f.maxM : Rat) * 2 ^ f.maxE < q * 2 ^ u := by
  have place {a b : Int} (h : a ≤ b) : (2 : Rat) ^ b = 2 ^ (b - a).toNat * 2 ^ a := by
    rw [← zpow_natCast, ← zpow_add₀ two_ne_zero, Int.toNat_of_nonneg (by omega), sub_add_cancel]
  unfold FFmt.tooBig
  split
  · next le =>
    have pos : (0 : Rat) < 2 ^ f.maxE := by positivity
    rw [place le, ← mul_assoc, mul_lt_mul_iff_left₀ pos, decide_eq_true_eq]
    norm_cast
  · next lt =>
    have pos : (0 : Rat) < 2 ^ u := by positivity
    rw [place (not_le.mp lt).le, ← mul_assoc, mul_lt_mul_iff_left₀ pos, decide_eq_true_eq]
    norm_cast

end

/-- The exact value of an accumulator element. -/
def outValue (int : Bool) (b : Nat) : Num := if int then Num.ofInt (ElemType.int32.asInt b) else fp32F.decode b

section
variable {int : Bool} {t : ElemType} {mode : RMode} {sat : Bool} {b : Nat}

theorem clampedOut_nan (h : outValue int b = .nan) : clampedOut int t mode sat b = false := by
  rw [outValue] at h
  simp only [clampedOut, h]

theorem clampedOut_inf {neg : Bool} (h : outValue int b = .inf neg) : clampedOut int t mode sat b = (t.isInt || sat) := by
  rw [outValue] at h
  simp only [clampedOut, h]

theorem clampedOut_fin_int {neg : Bool} {m : Nat} {e : Int} {x : Bool} (h : outValue int b = .fin neg m e x) (ht : t.isInt = true) :
    clampedOut int t mode sat b = true ↔
      let k : Int := if int then ElemType.int32.asInt b else (if neg then -1 else 1) * (roundUnit mode neg m e 0 x : Int)
      k < t.intRange.1 ∨ t.intRange.2 < k := by
  rw [outValue] at h
  simp only [clampedOut, h, ht, if_true, Num.toInt, decide_eq_true_eq]

theorem clampedOut_fin_float {neg : Bool} {m : Nat} {e : Int} {x : Bool} (h : outValue int b = .fin neg m e x) (ht : t.isInt = false) :
    clampedOut int t mode sat b = true ↔ (t.ffmt.maxM : Rat) * 2 ^ t.ffmt.maxE <
      (roundUnit mode neg m e (t.ffmt.unit m e) x : Rat) * 2 ^ t.ffmt.unit m e := by
  rw [outValue] at h
  simp only [clampedOut, h, ht, Bool.false_eq_true, if_false, FFmt.tooBig_iff]

end

/-! ## The checks -/

theorem isMout_iff {t : ElemType} : isMout t = true ↔ t ∈ [ElemType.fp32, .bf16, .fp16, .e4m3, .e5m2, .int8, .int32] := by
  cases t <;> decide

theorem isBlock_of_isMout {t : ElemType} (h : isMout t = true) : t.isBlock = false := by
  cases t <;> first | rfl | exact absurd h (by decide)

section
variable {s : State} {o : MOutOp} {t : ElemType} {int : Bool} {qd : Option (BitVec 5)}

theorem State.outChecks_first : (!isMout t || (t.width == 32 && o.ta.toNat % 2 == 1)) = false ↔
    t ∈ [ElemType.fp32, .bf16, .fp16, .e4m3, .e5m2, .int8, .int32] ∧ (t.width = 32 → o.ta.toNat % 2 = 0) := by
  rw [← isMout_iff, Bool.or_eq_false_iff, Bool.not_eq_false', Bool.and_eq_false_imp, beq_iff_eq]
  simp

theorem State.outChecks_illegal (hst : s.cur.st = .matrix) (h : ¬ (t ∈ [ElemType.fp32, .bf16, .fp16, .e4m3, .e5m2, .int8, .int32] ∧
    (t.width = 32 → o.ta.toNat % 2 = 0))) : s.outChecks o t int qd = .fault (cause 0 2 2) := by
  rw [State.outChecks, verdicts_cons, State.bad0_matrix hst (Bool.not_eq_false _ ▸ mt State.outChecks_first.mp h)]
  rfl

variable (legal : t ∈ [ElemType.fp32, .bf16, .fp16, .e4m3, .e5m2, .int8, .int32] ∧ (t.width = 32 → o.ta.toNat % 2 = 0))
include legal

theorem State.outChecks_empty (hst : s.cur.st = .matrix) (h : s.me.aCanTake o.ad = false) : s.outChecks o t int qd = .wait (cause 2 2 0) := by
  rw [State.outChecks, State.outChecks_first.mpr legal, verdicts_cons, bad0_false, Verdict.and_ok, verdicts_cons, State.takeA_wait hst h]
  rfl

variable (full : s.me.aCanTake o.ad = true) (first : s.me.tIsEmpty o.ta = true) (second : t.width = 32 → s.me.tIsEmpty (o.ta + 1) = true)
include full first second

theorem State.outChecks_eq : s.outChecks o t int qd =
    verdicts [(qd.map s.freeQ).getD .ok, s.unitFree outputU, s.bad0 (rmBad o.rm (int && t.isInt)) rangeC, s.aClean o.ad] := by
  have dsts : verdicts ((outDsts o t).map s.freeT) = .ok := by
    unfold outDsts
    by_cases two : t.width = 32
    · simpa [two, State.freeT_ok first] using State.freeT_ok (second two)
    · simp [two, State.freeT_ok first]
  rw [State.outChecks, State.outChecks_first.mpr legal, verdicts_cons, bad0_false, Verdict.and_ok, verdicts_cons, State.takeA_ok full, verdicts_cons, dsts]
  rfl

theorem State.outChecks_ok (room : ∀ q, qd = some q → s.me.qIsEmpty q = true) (free : vAt s.me.mbusy outputU ≤ s.cyc) (clean : s.me.aBad = [])
    (mode : o.rm.toNat < 6) (plain : int = true → t.isInt = true → o.rm = 0) : s.outChecks o t int qd = .ok := by
  have rm : rmBad o.rm (int && t.isInt) = false :=
    rmBad_eq_false_iff.mpr ⟨mode, fun h => plain (Bool.and_eq_true_iff.mp h).1 (Bool.and_eq_true_iff.mp h).2⟩
  have queue : (qd.map s.freeQ).getD .ok = .ok := by
    cases qd with
    | none => rfl
    | some q => exact State.freeQ_ok (room q rfl)
  rw [State.outChecks_eq legal full first second]
  simp [queue, State.unitFree_ok free, rm, State.aClean_ok clean]

theorem State.outChecks_full (hst : s.cur.st = .matrix) {q : BitVec 5} (h : s.me.qIsEmpty q = false) :
    s.outChecks o t int (some q) = .wait (cause 2 2 2) := by
  rw [State.outChecks_eq legal full first second, verdicts_cons, Option.map_some, Option.getD_some, State.freeQ_wait hst h]
  rfl

end

end Sys2Proof.Machine
end

section
/-! PROOF. The matrix words that move bytes, and those that output a tile, as the manual states them (07 R218-R229; O31). -/

namespace Sys2Proof.Machine

section
variable {s : State} (hst : s.cur.st = .matrix) (free : ∀ u, u < 3 → vAt s.me.mbusy u ≤ s.cyc)
include hst free

theorem matrixWord_mlda {o : MLdOp} (clean : s.me.lsPoison = []) (untagged : o.tg = 0) (near : o.d.toNat < 4) (empty : s.me.aIsEmpty (o.d.setWidth 2) = true)
    (aligned : s.maddr o.sb o.off % 64 = 0) (inside : 0 ≤ s.maddr o.sb o.off ∧ s.maddr o.sb o.off + (8192 : Nat) ≤ 0x400000) :
    MatrixWord (.mlda o) s 0 16 [(20, .a (o.d.setWidth 2)
      { data := s.lsBits (s.maddr o.sb o.off).toNat 8192 65536, int := some s.entryInt })] := by
  refine .of_mdone hst (exec_mlda o s) ?_ rfl rfl (by decide)
  rw [State.accField_ok near, Verdict.and_ok]
  exact State.mmemChecks_ok untagged (free memoryU (by decide)) (State.freeA_ok empty) aligned inside clean

omit free in
theorem traps_mlda {o : MLdOp} (far : 4 ≤ o.d.toNat) : Traps (.mlda o) s (cause 0 2 2) := by
  refine .of_perform (by simp [hst]) (exec_mlda o s) ?_
  rw [State.accField_fault hst far]
  rfl

theorem matrixWord_mstt {m : MStOp} (tiles : s.me.tBad = []) (clean : s.me.lsPoison = []) (full : s.me.tIsFull m.d = true)
    (aligned : s.maddr m.sb m.off % 64 = 0)
    (inside : 0 ≤ s.maddr m.sb m.off ∧ s.maddr m.sb m.off + (4096 : Nat) ≤ 0x400000) :
    MatrixWord (.mstt m) s 0 8 [(8, .bytes (s.maddr m.sb m.off).toNat (toBytes 4096 (s.tile4 m.d).data.toNat))] := by
  refine .of_mdone hst (exec_mstt m s) ?_ rfl rfl (by decide)
  rw [State.mmemChecks_ok rfl (free memoryU (by decide)) (State.needT_ok full) aligned inside clean, State.tClean_ok tiles]
  rfl

theorem stalls_mstt {m : MStOp} (empty : s.me.tIsFull m.d = false) : Stalls (.mstt m) s (cause 2 2 0) := by
  refine .of_perform (by simp [hst]) (exec_mstt m s) ?_
  rw [State.mmemChecks_wait rfl (free memoryU (by decide)) (State.needT_wait hst empty)]
  rfl

theorem matrixWord_msta {m : MStOp} (accs : s.me.aBad = []) (clean : s.me.lsPoison = []) (near : m.d.toNat < 4) (full : s.me.aCanTake (m.d.setWidth 2) = true)
    (aligned : s.maddr m.sb m.off % 64 = 0) (inside : 0 ≤ s.maddr m.sb m.off ∧ s.maddr m.sb m.off + (8192 : Nat) ≤ 0x400000) :
    MatrixWord (.msta m) s 0 16 [(1, .aEmpty (m.d.setWidth 2)),
      (16, .bytes (s.maddr m.sb m.off).toNat (toBytes 8192 (vGet (m.d.setWidth 2) s.me.aregs).data.toNat))] := by
  refine .of_mdone hst (exec_msta m s) ?_ rfl rfl (by decide)
  rw [verdicts_cons, State.accField_ok near, verdicts_cons,
    State.mmemChecks_ok rfl (free memoryU (by decide)) (State.takeA_ok full) aligned inside clean, verdicts_cons, State.aClean_ok accs]
  rfl

theorem matrixWord_mzero {ad : BitVec 2} {ta tb : BitVec 4} (empty : s.me.aIsEmpty ad = true) (plain : tb = 0) :
    MatrixWord (.mzero ad ta tb) s 2 1 [(2, .a ad { data := 0, int := some s.entryInt })] := by
  refine .of_mdone hst (exec_mzero ad ta tb s) ?_ rfl rfl (by decide)
  simp [plain, State.freeA_ok empty, State.unitFree_ok (free outputU (by decide))]

omit free in
theorem traps_mzero {ad : BitVec 2} {ta tb : BitVec 4} (used : tb ≠ 0) : Traps (.mzero ad ta tb) s (cause 0 2 2) := by
  refine .of_perform (by simp [hst]) (exec_mzero ad ta tb s) ?_
  rw [verdicts_cons, State.bad0_matrix hst (bne_iff_ne.mpr used)]
  rfl

theorem matrixWord_mzeroRelease {ta : BitVec 4} (full : s.me.tCanTake ta = true) : MatrixWord (.mzeroRelease ta) s 2 1 [(1, .tEmpty ta)] := by
  refine .of_mdone hst (exec_mzeroRelease ta s) ?_ rfl rfl (by decide)
  simp [State.takeT_ok full, State.unitFree_ok (free outputU (by decide))]

omit free in
/-- MBAND and MTRN whose two registers are one. -/
theorem traps_same_tile (ta : BitVec 4) : Traps (.mband ta ta) s (cause 0 2 2) ∧ Traps (.mtrn ta ta) s (cause 0 2 2) := by
  have same : s.bad0 (ta == ta) rangeC = .fault (cause 0 2 2) := State.bad0_matrix hst (beq_self_eq_true ta) _
  constructor
  · refine .of_perform (by simp [hst]) (exec_mband ta ta s) ?_
    rw [verdicts_cons, same]
    rfl
  · refine .of_perform (by simp [hst]) (exec_mtrn ta ta s) ?_
    rw [verdicts_cons, same]
    rfl

variable (tiles : s.me.tBad = [])
include tiles

theorem matrixWord_mband {ta tb : BitVec 4} (other : ta ≠ tb) (full : s.me.tIsFull tb = true) (empty : s.me.tIsEmpty ta = true) :
    MatrixWord (.mband ta tb) s 2 1 [(2, .tBand ta ((vGet tb s.me.tregs).data.extractLsb' 0 16))] := by
  rw [← BitVec.setWidth_eq_extractLsb' (by decide)]
  refine .of_mdone hst (exec_mband ta tb s) ?_ rfl rfl (by decide)
  simp [other, State.needT_ok full, State.freeT_ok empty, State.unitFree_ok (free outputU (by decide)), State.tClean_ok tiles]

/-- MTRN empties its source and lands the transposed tile, whole or half by half (07 R229). -/
theorem matrixWord_mtrn {ta tb : BitVec 4} {t : ElemType} (type : entryType s.entry = some t) (plain : t.isBlock = false)
    (width : t.width = 8 ∨ t.width = 16) (other : ta ≠ tb) (full : s.me.tCanTake ta = true) (empty : s.me.tIsEmpty tb = true) :
    MatrixWord (.mtrn ta tb) s 1 8 [(1, .tEmpty ta), (12, .t tb { data := (vGet ta s.me.tregs).transpose t.width })] := by
  have takes : s.transposes = true := by rcases width with w | w <;> simp [State.transposes, type, plain, w]
  refine .of_mdone hst (exec_mtrn ta tb s) ?_ (by rw [type]; rfl) rfl (by decide)
  simp [other, State.takeT_ok full, State.freeT_ok empty, State.unitFree_ok (free arrayU (by decide)), takes, State.tClean_ok tiles]

end

/-! ## Output words -/

section
variable {s : State} {o : MOutOp} {t : ElemType} {int : Bool}

/-- An output word empties its accumulator and lands one tile, or two of a 32-bit type, and what it reports. -/
theorem matrixWord_mout {i : Instr} {qd : Option (BitVec 5)} {l : List (Nat × Eff)} (hst : s.cur.st = .matrix) (hi : exec i s = s.mout o qd)
    (type : ElemType.ofCode o.tb.toNat = some t) (kind : (vGet o.ad s.me.aregs).int = some int) (ok : s.outChecks o t int qd = .ok)
    (report : (s.outReport o t int qd).map (fun e => (12, e)) = l) :
    if t.width = 32 then MatrixWord i s 2 8 ([(1, .aEmpty o.ad), (12, .t o.ta { data := outTile t (s.outConv o t int) 0 }),
      (12, .t (o.ta + 1) { data := outTile t (s.outConv o t int) 32 })] ++ l)
    else MatrixWord i s 2 4 ([(1, .aEmpty o.ad), (12, .t o.ta { data := outTile t (s.outConv o t int) 0 })] ++ l) := by
  obtain ⟨eff, runs, effect⟩ := State.mout_eq (int := int) type (by rw [kind]; rfl) qd
  subst report
  rw [outTiles_eq, outDsts] at effect
  by_cases two : t.width = 32
  · rw [if_pos two]
    rw [if_pos (beq_iff_eq.mpr two), if_pos (beq_iff_eq.mpr two), if_pos two] at effect
    exact .of_mdone hst (hi.trans runs) ok effect (by simp) (by decide)
  · rw [if_neg two]
    rw [if_neg (mt beq_iff_eq.mp two), if_neg (mt beq_iff_eq.mp two), if_neg two] at effect
    exact .of_mdone hst (hi.trans runs) ok effect (by simp) (by decide)

end

theorem exec_mout (o : MOutOp) (s : State) : exec (.mout o) s = s.mout o none := rfl

theorem exec_moutq (o : MOutOp) (qd : BitVec 5) (s : State) : exec (.moutq o qd) s = s.mout o (some qd) := rfl

/-- Settles O31: each word by its checks and its results; the elements of a transposed tile are `elemAt_transpose`, those of an output tile
`elemAt_outTile`, and the count of MOUTQ is that of the elements of which `clampedOut` holds. -/
theorem matrixMoves : Obligations.MatrixMoves := by
  unfold Obligations.MatrixMoves
  refine ⟨fun s o m ad ta tb hst tiles accs clean free => ?_, fun s o qd t int hst accs free type => ?_⟩
  · intro addr a b inside fits tile ac mc
    have at_ : s.maddr o.sb o.off = a := State.maddr_eq hst _ _
    have bt : s.maddr m.sb m.off = b := State.maddr_eq hst _ _
    refine ⟨fun untagged => ?_, traps_mlda hst, fun full fit => ?_, stalls_mstt hst free, fun near full fit => ?_, matrixWord_mzero hst free,
      traps_mzero hst, matrixWord_mzeroRelease hst free, ?_, matrixWord_mband hst free tiles, fun t type plain width other full empty => ?_,
      Core.land_tile⟩
    · obtain ⟨loadT, fullT⟩ := tileLoad_clauses hst free untagged clean (exec_mldt o s) rfl
      obtain ⟨loadS, fullS⟩ := tileLoad_clauses hst free untagged clean (exec_mlds o s) rfl
      rw [at_] at loadT loadS
      refine ⟨fun empty => ?_, fun full => ⟨fullT full, fullS full⟩, fun near empty fit => ?_⟩
      · obtain ⟨runT, oddT, outT⟩ := loadT empty
        obtain ⟨runS, oddS, outS⟩ := loadS empty
        exact ⟨runT, runS, fun odd => ⟨oddT odd, oddS odd⟩, outT, outS⟩
      · obtain ⟨aligned, within⟩ := fit
        rw [← at_] at aligned within ⊢
        exact matrixWord_mlda hst free clean untagged near empty aligned within
    · obtain ⟨aligned, within⟩ := fit
      rw [← bt] at aligned within ⊢
      exact matrixWord_mstt hst free tiles clean full aligned within
    · obtain ⟨aligned, within⟩ := fit
      rw [← bt] at aligned within ⊢
      exact matrixWord_msta hst free accs clean near full aligned within
    · rintro rfl
      exact traps_same_tile hst ta
    · refine ⟨_, matrixWord_mtrn hst free tiles type plain width other full empty, fun w r c hr hc => ?_, fun w h r c hh hr hc => ?_⟩
      · have := elemAt_transpose (vGet ta s.me.tregs) (w := 8) (.inl rfl) hr hc
        rw [w, this, show r / (512 / 8) * (512 / 8) + c = c by omega, show r % (512 / 8) = r by omega]
      · have := elemAt_transpose (vGet ta s.me.tregs) (w := 16) (.inr rfl) (m := h + r) (by omega) hc
        rw [w, this, show (h + r) / (512 / 16) * (512 / 16) = h by omega, show (h + r) % (512 / 16) = r by omega]
  · intro w e two legal acc el conv occ isTile lands all counts
    have hx : s.cur.st ≠ .crossing := by simp [hst]
    refine ⟨fun legal kind mode plain full first second => ?_, fun illegal => ?_, fun legal empty => ?_⟩
    · have out := isMout_iff.mpr legal.1
      have small (i j : Nat) : s.outConv o t int i j < 2 ^ t.width := convert_lt (isBlock_of_isMout out) ..
      have written (n : Nat) : isTile n { data := outTile t (s.outConv o t int) (32 * n) } := fun r c hr hc => elemAt_outTile out small (32 * n) hr hc
      have ok (qd : Option (BitVec 5)) (room : ∀ q, qd = some q → s.me.qIsEmpty q = true) : s.outChecks o t int qd = .ok :=
        State.outChecks_ok legal full first second room free accs mode plain
      have runs {i : Instr} {qd : Option (BitVec 5)} (hi : exec i s = s.mout o qd) (room : ∀ q, qd = some q → s.me.qIsEmpty q = true) :
          lands i ((s.outReport o t int qd).map fun e => (12, e)) := by
        have word := matrixWord_mout hst hi type kind (ok qd room) rfl
        simp only [lands, two, occ, w]
        by_cases two : t.width = 32
        · rw [if_pos two, if_pos two] at *
          exact ⟨_, _, word, written 0, written 1⟩
        · rw [if_neg two, if_neg two] at *
          exact ⟨_, word, written 0⟩
      refine ⟨runs (exec_mout o s) nofun, fun room => ⟨s.outTop o int, (s.outClamped o t int).length, ?_, ?_, ?_⟩, fun busy => ?_⟩
      · exact runs (exec_moutq o qd s) (by rintro q ⟨⟩; exact room)
      · refine ⟨s.outClamped o t int, List.nodup_range.filter _, fun i => ?_, rfl⟩
        rw [State.outClamped, List.mem_filter, List.mem_range]
        refine and_congr_right fun _ => ?_
        change clampedOut int t (s.rmode o.rm i) (o.sat == 1) (el i) = true ↔ counts i
        simp only [counts]
        split
        · next nan => simp [clampedOut_nan nan]
        · next neg inf => simp [clampedOut_inf inf]
        · next neg m e x fin =>
          by_cases whole : t.isInt = true
          · rw [if_pos whole, clampedOut_fin_int fin whole]
          · rw [if_neg whole, clampedOut_fin_float fin (Bool.eq_false_iff.mpr whole)]
      · have some_ : all ≠ [] := by simp [all]
        exact ⟨by rintro rfl; exact maxOut_int some_, by rintro rfl; exact maxOut_nan, by rintro rfl; exact maxOut_float some_⟩
      · obtain ⟨eff, run, -⟩ := State.mout_eq (int := int) type (by rw [kind]; rfl) (some qd)
        exact .of_perform hx ((exec_moutq o qd s).trans run) (State.outChecks_full legal full first second hst busy)
    · have trap {i : Instr} {qd : Option (BitVec 5)} (hi : exec i s = s.mout o qd) : Traps i s (cause 0 2 2) := by
        obtain ⟨eff, run, -⟩ := State.mout_eq type rfl qd
        exact .of_perform hx (hi.trans run) (State.outChecks_illegal hst illegal)
      exact ⟨trap (exec_mout o s), trap (exec_moutq o qd s)⟩
    · obtain ⟨eff, run, -⟩ := State.mout_eq type rfl none
      exact .of_perform hx ((exec_mout o s).trans run) (State.outChecks_empty legal hst empty)

end Sys2Proof.Machine
end

section
/-! PROOF. The values of the elements of a block as numbers (04 R106-R108, R111; O32). An infinity under a scale of 0xFF is a NaN by the model's choice
(notes/assumptions/38.md). -/

namespace Sys2Proof.Machine

/-- An FP4 code is its sign and its magnitude (04 R106). -/
theorem fp4_decode_is {el : Nat} (h : el < 16) : (fp4F.decode el).Is ((if el < 8 then 1 else -1) * fp4Mag el) := by
  interval_cases el <;> exact ⟨_, _, _, rfl, by norm_num [fp4Mag, fp4F, Nat.testBit, Nat.shiftRight_eq_div_pow]⟩

/-- An E3M5 code: its low values are multiples of 1/128, the others have an exponent and five bits of mantissa (04 R107). -/
theorem e3m5_decode_is {sc : Nat} (h : sc < 256) :
    (e3m5F.decode sc).Is (if sc < 32 then (sc : Rat) / 128 else 2 ^ ((sc / 32 : Nat) : Int) / 8 * (1 + (sc % 32 : Nat) / 32)) := by
  have decode : e3m5F.decode sc = if sc / 32 % 8 = 0 then .fin false (sc % 32) (-7) false
      else .fin false (32 + sc % 32) ((sc / 32 % 8 : Nat) - 3 - 5) false := by
    simp [FFmt.decode, e3m5F, Nat.shiftRight_eq_div_pow]
  have field : sc / 32 % 8 = sc / 32 := by omega
  rw [decode, field]
  by_cases low : sc < 32
  · rw [if_pos low, if_pos (by omega)]
    refine (Num.is_fin _ _ _).of_eq ?_
    rw [Nat.mod_eq_of_lt low]
    norm_num [finRat]
    ring
  · rw [if_neg low, if_neg (by omega)]
    refine (Num.is_fin _ _ _).of_eq ?_
    rw [finRat, zpow_sub₀ two_ne_zero, zpow_sub₀ two_ne_zero]
    push_cast
    norm_num
    ring

/-- An E8M0 scale that is no NaN is a power of two (04 R111). -/
theorem e8m0_eq {sc : Nat} (h : sc < 255) : e8m0 sc = .fin false 1 ((sc : Int) - 127) false := if_neg h.ne

theorem e8m0_is {sc : Nat} (h : sc < 255) : (e8m0 sc).Is (2 ^ ((sc : Int) - 127)) := by
  rw [e8m0_eq h]
  exact (Num.is_fin _ _ _).of_eq (by simp [finRat])

theorem blockVal_mx {t : ElemType} (mx : t ≠ .fb4) (band : Num) (sc el : Nat) : blockVal t band sc el = (e8m0 sc).mul (t.ffmt.decode el) := if_neg mx

/-- The clauses of `BlockValues`, type by type. -/
theorem blockValues : BlockValues := by
  refine ⟨fun band b sc el hb hs he => ?_, fun band sc el hs he => ?_, fun band x t sc el mx hs hx => ?_, fun band t el mx => ?_⟩
  · rw [blockVal, if_pos rfl]
    exact (hb.mul (e3m5_decode_is hs)).mul (fp4_decode_is he)
  · rw [blockVal_mx (by decide)]
    exact (e8m0_is hs).mul (fp4_decode_is he)
  · rw [blockVal_mx (by rcases mx with rfl | rfl <;> decide), ← hx]
    refine ⟨fun r hr => (e8m0_is hs).mul hr, fun nan => ?_, fun neg inf => ?_⟩
    · rw [nan, e8m0_eq hs]
      rfl
    · rw [inf, e8m0_eq hs]
      cases neg <;> rfl
  · rw [blockVal_mx (by rcases mx with rfl | rfl | rfl <;> decide)]
    rfl

end Sys2Proof.Machine
end

section
/-! PROOF. The groups of 32 products of a row and a column (07 R219, R226, 04 R108, R109, R123-R125; O32). -/

namespace Sys2Proof.Machine

/-! ## Lists given by their numbers -/

theorem map_range_append {α : Type} (n m : Nat) (f g : Nat → α) :
    (List.range n).map f ++ (List.range m).map g = (List.range (n + m)).map fun k => if k < n then f k else g (k - n) := by
  rw [List.range_add, List.map_append, List.map_map]
  refine congrArg₂ _ (List.map_congr_left fun k hk => (if_pos (List.mem_range.mp hk)).symm) (List.map_congr_left fun k _ => ?_)
  simp

theorem chunksOf_map_range {α : Type} (n k : Nat) (f : Nat → α) :
    chunksOf n k ((List.range (n * k)).map f) = (List.range k).map fun g => ((List.range n).map (n * g + ·)).map f := by
  rw [chunksOf_eq]
  refine List.map_congr_left fun g hg => ?_
  have inside : n * g + n ≤ n * k := by rw [← Nat.mul_succ]; exact Nat.mul_le_mul_left n (List.mem_range.mp hg)
  refine List.ext_getElem (by simp; omega) fun i hi _ => ?_
  simp

/-! ## The sums of groups (04 R123-R125) -/

/-- The numbers of the products of group `g`. -/
def groupOf (g : Nat) : List Nat := (List.range 32).map (32 * g + ·)

section
variable (sat : Bool) (acc n : Nat)

theorem addGroups_range (a b : Nat → Num) :
    addGroups sat acc ((List.range (32 * n)).map a) ((List.range (32 * n)).map b) = (List.range n).foldl (fun acc g =>
      fp32F.round .rne sat ((fp32F.decode acc).add false (fp32F.decode (fp32F.round .rne sat
        ((groupOf g).foldl (fun x k => x.add false ((a k).mul (b k))) (.fin false 0 0 false)))))) acc := by
  have groups : (List.range (32 * n)).length / 32 = n := by rw [List.length_range, Nat.mul_div_cancel_left _ (by decide)]
  simp only [addGroups, List.length_map, groups, chunksOf_map_range, List.zip_map', List.foldl_map, groupSum, List.zipWith_map, List.zipWith_self]
  rfl

theorem addGroupsI_range (a b : Nat → Int) :
    addGroupsI sat acc ((List.range (32 * n)).map a) ((List.range (32 * n)).map b) = (List.range n).foldl (fun acc g =>
      ElemType.int32.narrow sat (ElemType.int32.asInt acc + ((groupOf g).map fun k => a k * b k).sum)) acc := by
  have groups : (List.range (32 * n)).length / 32 = n := by rw [List.length_range, Nat.mul_div_cancel_left _ (by decide)]
  simp only [addGroupsI, List.length_map, groups, chunksOf_map_range, List.zip_map', List.foldl_map, List.zipWith_map, List.zipWith_self,
    List.sum_eq_foldl]
  rfl

end

theorem foldl_lt {α : Type} {N : Nat} {f : Nat → α → Nat} (h : ∀ acc x, f acc x < N) (l : List α) {acc : Nat} (start : acc < N) : l.foldl f acc < N :=
  List.foldlRecOn (motive := (· < N)) l f start fun _ _ _ _ => h _ _

/-! ## Tile rows (07 R219) -/

section
variable (x y : Tile) (t : ElemType)

/-- The exact value of element `c` of a tile row (04 R108, R111). -/
def Tile.val (row c : Nat) : Num :=
  if t.isBlock then blockVal t (bf16F.decode (x.band.getD 0).toNat) (x.scale t row c) (x.elem t.width row c) else t.value (x.elem t.width row c)

/-- The integer of element `c` of a tile row. -/
def Tile.int (row c : Nat) : Int := t.asInt (x.elem t.width row c)

/-- Where the scale of an element stands in its tile's sidecar (04 R109). -/
theorem Tile.scale_eq (row c : Nat) : x.scale t row c =
    elemAt (x.side.getD 0) 8 (if t = .fb4 then 16 * row + c / 8 else if t = .mxfp4 then 4 * row + c / 32 else 2 * row + c / 32) := by
  cases t <;> rfl

/-- Two rows, the second after the first, element by element. -/
def rowPair {α : Type} (e : Nat) (f g : Nat → α) (k : Nat) : α := if k < e then f k else g (k - e)

theorem rowVals_append (i j : Nat) : x.rowVals t i ++ y.rowVals t j =
    (List.range (512 / t.width + 512 / t.width)).map (rowPair (512 / t.width) (x.val t i) (y.val t j)) := map_range_append ..

theorem rowInts_append (i j : Nat) : x.rowInts t i ++ y.rowInts t j =
    (List.range (512 / t.width + 512 / t.width)).map (rowPair (512 / t.width) (x.int t i) (y.int t j)) := map_range_append ..

/-- The pair of rows of an MMA type is a number of whole groups. -/
theorem row_groups {t : ElemType} (h : isMma t = true) : 512 / t.width + 512 / t.width = 32 * (2 * (512 / t.width) / 32) := by
  cases t <;> first | rfl | exact absurd h (by decide)

end

/-- The element of row `i` and column `j` after its groups of products, `x` being the tile of the rows, and `y` and `z` those of the columns. -/
def rowProduct (t : ElemType) (x y z : Tile) (sat : Bool) (i j acc : Nat) : Nat :=
  if t.isInt then addGroupsI sat acc (x.rowInts t i ++ x.rowInts t (32 + i)) (y.rowInts t j ++ z.rowInts t j)
  else addGroups sat acc (x.rowVals t i ++ x.rowVals t (32 + i)) (y.rowVals t j ++ z.rowVals t j)

/-- Every element takes its groups of 32 products in increasing order: a floating group is summed exactly, rounded to FP32 and added, an integer group
added exactly and brought to INT32 (04 R123-R125). -/
theorem rowProduct_eq {t : ElemType} (h : isMma t = true) (x y z : Tile) (sat : Bool) (i j acc : Nat) : rowProduct t x y z sat i j acc =
    (List.range (2 * (512 / t.width) / 32)).foldl (fun acc g =>
      if t.isInt then ElemType.int32.narrow sat (ElemType.int32.asInt acc + ((groupOf g).map fun k =>
        rowPair (512 / t.width) (x.int t i) (x.int t (32 + i)) k * rowPair (512 / t.width) (y.int t j) (z.int t j) k).sum)
      else fp32F.round .rne sat ((fp32F.decode acc).add false (fp32F.decode (fp32F.round .rne sat ((groupOf g).foldl (fun v k => v.add false
        ((rowPair (512 / t.width) (x.val t i) (x.val t (32 + i)) k).mul (rowPair (512 / t.width) (y.val t j) (z.val t j) k)))
        (.fin false 0 0 false)))))) acc := by
  unfold rowProduct
  split
  · rw [rowInts_append, rowInts_append, row_groups h, addGroupsI_range]
  · rw [rowVals_append, rowVals_append, row_groups h, addGroups_range]

theorem rowProduct_lt {t : ElemType} (h : isMma t = true) (x y z : Tile) (sat : Bool) (i j : Nat) {acc : Nat} (start : acc < 2 ^ 32) :
    rowProduct t x y z sat i j acc < 2 ^ 32 := by
  rw [rowProduct_eq h]
  refine foldl_lt (fun acc g => ?_) _ start
  split
  · exact ElemType.narrow_lt .int32 _ _
  · exact fp32_round_lt _ _ _

end Sys2Proof.Machine
end

section
/-! PROOF. MMA and MMAR at issue (07 R220-R223, R226, R227; O32). -/

namespace Sys2Proof.Machine

/-! ## The elements after the word -/

/-- What becomes of an element: unchanged, set to a value, or computed. -/
def elemAfter (old : Nat) (go : Nat → Nat) : Option (Option Nat) → Nat
  | none => old
  | some (some v) => v
  | some none => go old

/-- Element `n` of what an update accumulates into (07 R221). -/
def State.oldElem (s : State) (ad : BitVec 2) (n : Nat) : Nat := elemAt (((s.me.accNow ad).map (·.data)).getD 0) 32 n

theorem elemAt_mmaResult {s : State} {t : ElemType} (type : entryType s.entry = some t) (ad : BitVec 2) (ta tb : BitVec 4) (sat : Bool)
    (f : Nat → Nat → Option (Option Nat)) {i j : Nat} (hi : i < 32) (hj : j < 64) :
    elemAt (s.mmaResult ad ta tb sat f).data 32 (64 * i + j) =
      elemAfter (s.oldElem ad (64 * i + j)) (rowProduct t (s.tile4 ta) (s.tile4 tb) (s.tile4 (tb + 1)) sat i j) (f i j) % 2 ^ 32 := by
  have data : (s.mmaResult ad ta tb sat f).data = BitVec.ofNat 65536 (packNat 32 ((List.range 32).flatMap fun i => (List.range 64).map fun j =>
      elemAfter (s.oldElem ad (64 * i + j)) (rowProduct t (s.tile4 ta) (s.tile4 tb) (s.tile4 (tb + 1)) sat i j) (f i j))) := by
    unfold rowProduct
    simp only [State.mmaResult, type, Option.getD_some]
    cases t.isInt <;> rfl
  rw [data, elemAt_rows (fun i j =>
    elemAfter (s.oldElem ad (64 * i + j)) (rowProduct t (s.tile4 ta) (s.tile4 tb) (s.tile4 (tb + 1)) sat i j) (f i j)) (by decide) hi hj]

/-! ## The checks (07 R221-R223) -/

/-- What an update finds in its accumulator: empty, full, or pending from words of the latency of MMA and MMAR alone, of the entry's interpretation. -/
structure State.Accumulates (s : State) (ad : BitVec 2) : Prop where
  pending : ∀ f ∈ s.me.flights, f.eff.writesA ad = true → f.due + 1 = f.issued + 72
  reading : ∀ x, s.me.accNow ad = some x → x.int = some s.entryInt

section
variable {s : State} {ad : BitVec 2} {ta tb : BitVec 4} {rm : BitVec 3} {early late : Verdict}

theorem State.updA_ok (h : ∀ f ∈ s.me.flights, f.eff.writesA ad = true → f.due + 1 = f.issued + 72) : s.updA ad = .ok := by
  have none_ : (s.me.flights.any fun f => f.eff.writesA ad && f.due + 1 != f.issued + 72) = false := by simpa using h
  rw [State.updA, none_]
  rfl

theorem State.held_eq (h : ∀ x, s.me.accNow ad = some x → x.int = some s.entryInt) :
    ((s.me.accNow ad).bind (·.int)).getD s.entryInt = s.entryInt := by
  cases now : s.me.accNow ad with
  | none => rfl
  | some x => rw [Option.bind_some, h x now, Option.getD_some]

theorem State.mmaChecks_ok {t : ElemType} (type : entryType s.entry = some t) (legal : isMma t = true) (tiles : s.me.tBad = []) (accs : s.me.aBad = [])
    (free : vAt s.me.mbusy arrayU ≤ s.cyc) (even : tb.toNat % 2 = 0) (mode : rm.toNat < 6) (row : s.me.tIsFull ta = true) (col : s.me.tIsFull tb = true)
    (next : s.me.tIsFull (tb + 1) = true) (acc : s.Accumulates ad) (hearly : early = .ok) (hlate : late = .ok) :
    s.mmaChecks ad ta tb rm early late = .ok := by
  have rmOk : rmBad rm false = false := rmBad_eq_false_iff.mpr ⟨mode, nofun⟩
  simp only [State.mmaChecks, type, Option.getD_some, State.held_eq acc.reading, State.needT_ok row, State.needT_ok col, State.needT_ok next,
    State.updA_ok acc.pending, State.unitFree_ok free, rmOk, legal, State.tClean_ok tiles, State.aClean_ok accs, hearly, hlate]
  simp [even]

variable (hst : s.cur.st = .matrix)
include hst

theorem State.mmaChecks_odd (odd : tb.toNat % 2 = 1) : s.mmaChecks ad ta tb rm early late = .fault (cause 0 2 2) := by
  rw [State.mmaChecks, verdicts_cons, State.bad0_matrix hst (beq_iff_eq.mpr odd)]
  rfl

variable (even : tb.toNat % 2 = 0)
include even

omit hst in
theorem State.mmaChecks_even : ∃ rest, s.mmaChecks ad ta tb rm .ok late =
    verdicts (s.needT ta :: s.needT tb :: s.needT (tb + 1) :: s.updA ad :: rest) := by
  have first : (tb.toNat % 2 == 1) = false := by rw [even]; rfl
  rw [State.mmaChecks, first]
  exact ⟨_, rfl⟩

theorem State.mmaChecks_empty (empty : s.me.tIsFull ta = false) : s.mmaChecks ad ta tb rm .ok late = .wait (cause 2 2 0) := by
  obtain ⟨rest, run⟩ := State.mmaChecks_even (s := s) (ad := ad) (ta := ta) (rm := rm) (late := late) even
  rw [run, verdicts_cons, State.needT_wait hst empty]
  rfl

omit hst in
theorem State.mmaChecks_pending (row : s.me.tIsFull ta = true) (col : s.me.tIsFull tb = true) (next : s.me.tIsFull (tb + 1) = true)
    (other : ∃ f ∈ s.me.flights, f.eff.writesA ad = true ∧ f.due + 1 ≠ f.issued + 72) : s.mmaChecks ad ta tb rm .ok late = .wait (cause 2 2 0) := by
  obtain ⟨rest, run⟩ := State.mmaChecks_even (s := s) (ad := ad) (ta := ta) (rm := rm) (late := late) even
  have some_ : (s.me.flights.any fun f => f.eff.writesA ad && f.due + 1 != f.issued + 72) = true := by simpa using other
  rw [run, verdicts_cons, State.needT_ok row, verdicts_cons, State.needT_ok col, verdicts_cons, State.needT_ok next, verdicts_cons, State.updA, some_]
  rfl

end

/-! ## The words -/

/-- What MMA does with an element: it computes those of the rows below the valid count (07 R226). -/
def State.mmaRule (s : State) (i _j : Nat) : Option (Option Nat) := if i < s.mine.vc.toNat then some none else none

/-- What MMAR does with an element under the shapes of its rows and its columns (07 R227). -/
def State.mmarRule (s : State) (o : MMarOp) (ga gb : Shape) (i j : Nat) : Option (Option Nat) :=
  if !ga.rowIn s.mine.vc.toNat (s.origin o.za.toNat + i) then none
  else if s.origin o.zb.toNat + j < gb.rows ∧ ga.segOf (s.origin o.za.toNat + i) = gb.segOf (s.origin o.zb.toNat + j) then some none
  else if o.mv = 0 then some (some 0xFF800000) else if o.mv = 1 then some (some 0) else none

theorem exec_mma (o : MMaOp) (s : State) : exec (.mma o) s = s.perform (s.mmaChecks o.ad o.ta o.tb o.rm .ok .ok) fun s =>
    s.mdone arrayU 64 [(72, [.a o.ad (s.mmaResult o.ad o.ta o.tb (o.sat == 1) s.mmaRule)])] := rfl

theorem exec_mmar (o : MMarOp) (s : State) : exec (.mmar o) s =
    s.perform (s.mmaChecks o.ad o.ta o.tb o.rm (verdicts [s.loaded o.za.toNat, s.loaded o.zb.toNat])
      (s.bad0 (o.mv == 3 || (o.mv == 0 && s.entryInt)) rangeC)) fun s =>
        ((s.bindWord o.za.toNat).bindWord o.zb.toNat).mdone arrayU 64 [(72, [.a o.ad (s.mmaResult o.ad o.ta o.tb (o.sat == 1)
          (s.mmarRule o ((s.me.shape? o.za.toNat).getD (({} : ShapeBuf).shape)) ((s.me.shape? o.zb.toNat).getD (({} : ShapeBuf).shape))))])] := rfl

theorem State.loaded_ok {s : State} {z : Nat} {g : Shape} (h : s.me.shape? z = some g) : s.loaded z = .ok := by
  rw [State.loaded, h]
  rfl

/-- A word bound to two slots still has its streams as they were. -/
theorem State.bindTwice_sameStreams (s : State) (y z : Nat) : s.SameStreams ((s.bindWord y).bindWord z) := by
  have first := s.bindWord_sameStreams y
  have second := (s.bindWord y).bindWord_sameStreams z
  exact ⟨second.cur.trans first.cur, fun st => (second.streams st).trans (first.streams st), second.pipe.trans first.pipe,
    second.cyc.trans first.cyc, second.htime.trans first.htime, second.handler.trans first.handler⟩

/-- MMAR runs, is bound to its two slots, and lands its elements. -/
theorem mmar_next {s : State} {o : MMarOp} {ga gb : Shape} (hst : s.cur.st = .matrix)
    (ok : s.mmaChecks o.ad o.ta o.tb o.rm (verdicts [s.loaded o.za.toNat, s.loaded o.zb.toNat])
      (s.bad0 (o.mv == 3 || (o.mv == 0 && s.entryInt)) rangeC) = .ok)
    (rows : s.me.shape? o.za.toNat = some ga) (cols : s.me.shape? o.zb.toNat = some gb) :
    ∃ u, exec (.mmar o) s = .next u ∧ s.Alone u ∧ s.Passed u ∧ vAt u.me.mbusy 1 = s.cyc + 64 ∧
      u.me.flights = s.me.flights ++ [s.flight 72 (.a o.ad (s.mmaResult o.ad o.ta o.tb (o.sat == 1) (s.mmarRule o ga gb)))]
        ++ s.loopEffs.map (s.flight 1) := by
  have same := s.bindTwice_sameStreams o.za.toNat o.zb.toNat
  have alone : s.Alone ((s.bindWord o.za.toNat).bindWord o.zb.toNat) := State.bindWord_alone (.modMe' s _) rfl _
  refine ⟨_, by rw [exec_mmar, State.perform_ok ok, rows, cols], State.alone_mdone hst same _ _ _ alone, State.passed_mdone hst same _ _ _, ?_, ?_⟩
  · rw [State.me_mdone hst same]
    exact vAt_vPut_same ..
  · rw [State.me_mdone hst same, State.flights_bindWord, State.flights_bindWord]
    rfl

/-- Settles O32: the checks that MMA and MMAR share, the elements of their result (`elemAt_mmaResult`), and the products of a row and a column
(`rowProduct_eq`); the values of the elements of a block are `blockValues`. -/
theorem matrixProducts : Obligations.MatrixProducts := by
  unfold Obligations.MatrixProducts
  refine ⟨blockValues, fun s o r t hst tiles accs free type legal => ?_⟩
  intro w e tile raw scale val old prod ready vc
  have hx : s.cur.st ≠ .crossing := by simp [hst]
  have computed (ta tb : BitVec 4) (sat : Bool) (i j acc : Nat) :
      rowProduct t (s.tile4 ta) (s.tile4 tb) (s.tile4 (tb + 1)) sat i j acc = prod ta tb sat i j acc := by
    have value (n : BitVec 4) (row : Nat) : (s.tile4 n).val t row = val (tile n) row := funext fun c => by rw [Tile.val, Tile.scale_eq]; rfl
    simp only [rowProduct_eq legal, value]
    rfl
  have small (ta tb : BitVec 4) (sat : Bool) (i j n : Nat) (ad : BitVec 2) :
      rowProduct t (s.tile4 ta) (s.tile4 tb) (s.tile4 (tb + 1)) sat i j (old ad n) < 2 ^ 32 := rowProduct_lt legal _ _ _ _ _ _ (elemAt_lt ..)
  refine ⟨fun hr => ?_, fun ga gb hr fill float rows cols => ?_, fun odd => ?_, fun even empty => ?_, fun even row col next other => ?_⟩
  · obtain ⟨even, mode, row, col, next, pending, reading⟩ := hr
    have ok := State.mmaChecks_ok type legal tiles accs free even mode row col next ⟨pending, reading⟩ (early := .ok) (late := .ok) rfl rfl
    refine ⟨(s.mmaResult o.ad o.ta o.tb (o.sat == 1) s.mmaRule).data, .of_mdone hst (exec_mma o s) ok rfl rfl (by decide), fun i j hi hj => ?_⟩
    rw [elemAt_mmaResult type _ _ _ _ _ hi hj, State.mmaRule]
    split
    · rw [← computed]
      exact Nat.mod_eq_of_lt (small ..)
    · exact Nat.mod_eq_of_lt (elemAt_lt ..)
  · obtain ⟨even, mode, row, col, next, pending, reading⟩ := hr
    have masks : (r.mv == 3 || (r.mv == 0 && s.entryInt)) = false := by
      rw [Bool.or_eq_false_iff, beq_eq_false_iff_ne, Bool.and_eq_false_imp, beq_iff_eq]
      exact ⟨fill, float⟩
    have ok := State.mmaChecks_ok type legal tiles accs free even mode row col next ⟨pending, reading⟩
      (early := verdicts [s.loaded r.za.toNat, s.loaded r.zb.toNat]) (late := s.bad0 (r.mv == 3 || (r.mv == 0 && s.entryInt)) rangeC)
      (by simp [State.loaded_ok rows, State.loaded_ok cols]) ((bad0_ok_iff ..).mpr masks)
    obtain ⟨u, run, alone, passed, busy, flights⟩ := mmar_next hst ok rows cols
    refine ⟨u, (s.mmaResult r.ad r.ta r.tb (r.sat == 1) (s.mmarRule r ga gb)).data, run, alone, passed, busy, flights, fun i j hi hj => ?_⟩
    intro oi oj was
    rw [elemAt_mmaResult type _ _ _ _ _ hi hj, State.mmarRule, Shape.rowIn, ← computed]
    by_cases valid : oi < ga.rows ∧ oi < vc
    · rw [decide_eq_true valid, if_neg (not_not.mpr valid), Bool.not_true, if_neg Bool.false_ne_true]
      split
      · exact Nat.mod_eq_of_lt (small ..)
      · split_ifs
        · rfl
        · rfl
        · exact Nat.mod_eq_of_lt (elemAt_lt ..)
    · rw [decide_eq_false valid, if_pos valid]
      exact Nat.mod_eq_of_lt (elemAt_lt ..)
  · exact .of_perform hx (exec_mma o s) (State.mmaChecks_odd hst odd)
  · exact .of_perform hx (exec_mma o s) (State.mmaChecks_empty hst even empty)
  · exact .of_perform hx (exec_mma o s) (State.mmaChecks_pending even row col next other)

end Sys2Proof.Machine
end

section
/-! PROOF. The combination of lanes by the tree (04 R126) and by running sums (07 R213); O25. -/

namespace Sys2Proof.Machine

/-! ## The tree (04 R126) -/

/-- What a node of the tree holds for the lanes below it: nothing where there are none, and otherwise a value of which `ok` holds. -/
def NodeOk {α : Type} (ok : List α → Nat → Prop) (l : List α) : Option Nat → Prop
  | none => l = []
  | some v => l ≠ [] ∧ ok l v

section
variable {α : Type} {ok : List α → Nat → Prop} {f : Comb}

/-- A property of values that a combination passes from two nodes to the node above them. -/
def Combines (ok : List α → Nat → Prop) (f : Comb) : Prop :=
  ∀ i l r a b, l ≠ [] → r ≠ [] → ok l a → ok r b → ok (l ++ r) (f i a b)

variable (hf : Combines ok f)
include hf

theorem NodeOk.join {l r : List α} {a b : Option Nat} (ha : NodeOk ok l a) (hb : NodeOk ok r b) (i : Nat) : NodeOk ok (l ++ r) (join f i a b) := by
  cases a with
  | none =>
    rw [show l = [] from ha]
    exact hb
  | some a =>
    obtain ⟨left, ha⟩ := ha
    cases b with
    | none =>
      rw [show r = [] from hb, List.append_nil]
      exact ⟨left, ha⟩
    | some b => exact ⟨by simp [left], hf i l r a b left hb.1 ha hb.2⟩

/-- One level of the tree halves the nodes and keeps the lanes below them. -/
theorem treeLevel_ok (lane lv : Nat) : ∀ (j : Nat) {x : List (Option Nat)} {ls : List (List α)}, List.Forall₂ (NodeOk ok) ls x →
    2 * (treeLevel f lane lv j x).length ≤ x.length + 1 ∧
      ∃ ms, List.Forall₂ (NodeOk ok) ms (treeLevel f lane lv j x) ∧ ms.flatten = ls.flatten
  | _, [], _, h => ⟨by simp [treeLevel], _, h, rfl⟩
  | _, [a], _, h => ⟨by simp [treeLevel], _, h, rfl⟩
  | j, a :: b :: x, _, .cons (a := l) ha (.cons (a := r) hb rest) => by
    obtain ⟨short, ms, nodes, same⟩ := treeLevel_ok lane lv (j + 1) rest
    refine ⟨by simp only [treeLevel, List.length_cons]; omega, _, .cons (ha.join hf hb _) nodes, ?_⟩
    simp [same]

/-- The root of a tree of enough levels holds all lanes. -/
theorem tree_ok (lane : Nat) : ∀ (n lv : Nat) {x : List (Option Nat)} {ls : List (List α)}, x.length ≤ 2 ^ n → List.Forall₂ (NodeOk ok) ls x →
    NodeOk ok ls.flatten (tree f lane n lv x)
  | 0, _, [], _, _, .nil => rfl
  | 0, _, [a], _, _, .cons ha .nil => by simpa [tree] using ha
  | 0, _, _ :: _ :: _, _, long, _ => by simp at long
  | n + 1, lv, x, ls, long, h => by
    obtain ⟨short, ms, nodes, same⟩ := treeLevel_ok hf lane lv 0 h
    rw [pow_succ] at long
    rw [tree, ← same]
    exact tree_ok lane n (lv + 1) (by omega) nodes

end

/-- The lanes of `n`, those of a list as values and the others as nothing. -/
def laneNodes (n : Nat) (lanes : List Nat) (x : Nat → Nat) : List (Option Nat) := (List.range n).map fun e => if e ∈ lanes then some (x e) else none

theorem flatten_filter (p : Nat → Prop) [DecidablePred p] (l : List Nat) : (l.map fun e => if p e then [e] else []).flatten = l.filter p := by
  induction l with
  | nil => rfl
  | cons e l ih => by_cases h : p e <;> simp [h, ih]

/-- The tree over the lanes of a list, each lane holding `ok` alone. -/
theorem tree_laneNodes {ok : List Nat → Nat → Prop} {f : Comb} (hf : Combines ok f) {n k : Nat} (room : n ≤ 2 ^ k) {lanes : List Nat}
    (sub : (List.range n).filter (· ∈ lanes) = lanes) {x : Nat → Nat} (one : ∀ e, ok [e] (x e)) (lane : Nat) :
    NodeOk ok lanes (tree f lane k 0 (laneNodes n lanes x)) := by
  have nodes : List.Forall₂ (NodeOk ok) ((List.range n).map fun e => if e ∈ lanes then [e] else []) (laneNodes n lanes x) := by
    rw [laneNodes, List.forall₂_map_left_iff, List.forall₂_map_right_iff, List.forall₂_same]
    intro e _
    split
    · exact ⟨List.cons_ne_nil _ _, one e⟩
    · rfl
  have root := tree_ok hf lane k 0 (by simpa [laneNodes] using room) nodes
  rwa [flatten_filter, sub] at root

/-- The tree over lanes is empty only where there are none. -/
theorem tree_laneNodes_isNone (f : Comb) {n k : Nat} (room : n ≤ 2 ^ k) {lanes : List Nat} (sub : (List.range n).filter (· ∈ lanes) = lanes)
    (x : Nat → Nat) (lane : Nat) : (tree f lane k 0 (laneNodes n lanes x)).isNone = lanes.isEmpty := by
  have root := tree_laneNodes (ok := fun _ _ => True) (f := f) (fun _ _ _ _ _ _ _ _ _ => trivial) room sub (x := x) (fun _ => trivial) lane
  cases h : tree f lane k 0 (laneNodes n lanes x) with
  | none =>
    rw [h] at root
    rw [show lanes = [] from root]
    rfl
  | some v =>
    rw [h] at root
    simp [root.1]

/-! ## Running sums (07 R213) -/

section
variable {f : Comb} {x : Nat → Nat}

theorem scanSeg_lanes : ∀ (acc : Option Nat) (ls : List Nat), (scanSeg f x acc ls).1.map (·.1) = ls
  | _, [] => rfl
  | _, e :: t => congrArg (e :: ·) (scanSeg_lanes _ t)

theorem scanSeg_head {acc : Option Nat} {ls : List Nat} {e v : Nat} (h : (scanSeg f x acc ls).1[0]? = some (e, v)) :
    some v = join f e acc (some (x e)) := by
  cases ls with
  | nil => exact absurd h (by simp [scanSeg])
  | cons a t =>
    simp only [scanSeg, List.getElem?_cons_zero, Option.some.injEq, Prod.mk.injEq] at h
    obtain ⟨rfl, rfl⟩ := h
    cases acc <;> rfl

/-- Each running sum after the first combines the one before it with its own lane. -/
theorem scanSeg_next {acc : Option Nat} {ls : List Nat} {i e v g y : Nat} (h : (scanSeg f x acc ls).1[i]? = some (e, v))
    (next : (scanSeg f x acc ls).1[i + 1]? = some (g, y)) : y = f g v (x g) := by
  induction ls generalizing acc i with
  | nil => exact absurd h (by simp [scanSeg])
  | cons a t ih =>
    simp only [scanSeg, List.getElem?_cons_succ] at h next
    cases i with
    | zero =>
      simp only [List.getElem?_cons_zero, Option.some.injEq, Prod.mk.injEq] at h
      obtain ⟨rfl, rfl⟩ := h
      exact Option.some.inj (scanSeg_head next)
    | succ i => exact ih h next

/-- Running sums of which the combination adds what `part` gives: each is the sum of its lane and of those before it. -/
theorem mem_scanSeg {sum : Int → Nat} {part : Nat → Int} (one : ∀ e, x e = sum (part e)) (add : ∀ i (a : Int) e, f i (sum a) (x e) = sum (a + part e)) :
    ∀ {acc : Option Nat} {before : Int} {ls : List Nat}, (acc = none ∧ before = 0 ∨ acc = some (sum before)) → ls.Pairwise (· < ·) →
      ∀ e ∈ ls, (e, sum (before + ((ls.filter (· ≤ e)).map part).sum)) ∈ (scanSeg f x acc ls).1
  | acc, before, a :: t, start, sorted, e, he => by
    obtain ⟨above, sorted⟩ := List.pairwise_cons.mp sorted
    have value : (join f a acc (some (x a))).getD 0 = sum (before + part a) := by
      rcases start with ⟨rfl, rfl⟩ | rfl
      · rw [zero_add]
        exact one a
      · exact add a before a
    rw [scanSeg, value]
    rcases List.mem_cons.mp he with rfl | he
    · have none_ : t.filter (· ≤ e) = [] := List.filter_eq_nil_iff.mpr fun y hy => by simpa using above y hy
      simp [none_]
    · have le : a ≤ e := (above e he).le
      refine List.mem_cons_of_mem _ ?_
      rw [List.filter_cons_of_pos (by simpa using le), List.map_cons, List.sum_cons, ← add_assoc]
      exact mem_scanSeg one add (.inr rfl) sorted e he

end

end Sys2Proof.Machine
end

section
/-! PROOF. Sums and extremes of integers in the sum type of a reduction (04 R112, R126; O25). -/

namespace Sys2Proof.Machine

/-! ## Integers brought to a type (04 R112) -/

theorem narrow_false (d : ElemType) (i : Int) : d.narrow false i = (i % (2 ^ d.width : Nat)).toNat := by
  push_cast
  rfl

theorem asInt_narrow {d : ElemType} (signed : d ≠ .uint8) (i : Int) : d.asInt (d.narrow false i) = i.bmod (2 ^ d.width) := by
  have word : BitVec.ofNat d.width (d.narrow false i) = BitVec.ofInt d.width i := by
    apply BitVec.eq_of_toNat_eq
    rw [BitVec.toNat_ofNat, Nat.mod_eq_of_lt (ElemType.narrow_lt d false i), narrow_false, BitVec.toNat_ofInt]
  rw [ElemType.asInt, if_neg signed, word, BitVec.toInt_ofInt]

/-- Sums of brought integers, brought again, are exact in the type. -/
theorem narrow_add_asInt {d : ElemType} (signed : d ≠ .uint8) (i j : Int) :
    d.narrow false (d.asInt (d.narrow false i) + d.asInt (d.narrow false j)) = d.narrow false (i + j) := by
  rw [asInt_narrow signed, asInt_narrow signed, narrow_false, narrow_false, Int.add_emod, Int.bmod_emod, Int.bmod_emod, ← Int.add_emod]

/-- An integer that lies in a type keeps its value. -/
theorem asInt_narrow_of_fits {d : ElemType} (signed : d ≠ .uint8) {i : Int} (low : -2 ^ (d.width - 1) ≤ i) (high : i < 2 ^ (d.width - 1)) :
    d.asInt (d.narrow false i) = i := by
  have double : ((2 ^ d.width : Nat) : Int) = 2 ^ (d.width - 1) * 2 := by
    have : 1 ≤ d.width := by cases d <;> decide
    push_cast
    rw [← pow_succ, Nat.sub_add_cancel this]
  rw [asInt_narrow signed]
  exact Int.bmod_eq_of_le_mul_two (by omega) (by omega)

/-! ## The sum type (07 R208) -/

theorem isInt_sumType (t : ElemType) : (sumType t).isInt = t.isInt := by cases t <;> rfl

theorem sumType_signed (t : ElemType) : sumType t ≠ .uint8 := by cases t <;> decide

/-- Every integer of a type lies in its sum type. -/
theorem asInt_fits {t : ElemType} (int : t.isInt = true) (b : Nat) :
    -2 ^ ((sumType t).width - 1) ≤ t.asInt b ∧ t.asInt b < 2 ^ ((sumType t).width - 1) := by
  have bounds {w v : Nat} (le : w ≤ v) (c : BitVec w) : (-2 ^ (v - 1) : Int) ≤ c.toInt ∧ c.toInt < 2 ^ (v - 1) := by
    have := c.le_toInt
    have := c.toInt_lt
    have : (2 : Int) ^ (w - 1) ≤ 2 ^ (v - 1) := pow_le_pow_right₀ (by decide) (by omega)
    omega
  cases t with
  | uint8 =>
    change (-2 ^ 31 : Int) ≤ (b : Int) % 256 ∧ (b : Int) % 256 < 2 ^ 31
    omega
  | int8 | int16 | int32 | int64 => exact bounds (by decide) (BitVec.ofNat _ b)
  | _ => exact absurd int (by decide)

/-- An element widened to the sum type of its integer type. -/
theorem widen_int {t : ElemType} (int : t.isInt = true) (b : Nat) : widen t (sumType t) b = (sumType t).narrow false (t.asInt b) := by
  rw [widen, convert, isInt_sumType, int]
  rfl

theorem asInt_widen {t : ElemType} (int : t.isInt = true) (b : Nat) : (sumType t).asInt (widen t (sumType t) b) = t.asInt b := by
  obtain ⟨low, high⟩ := asInt_fits int b
  rw [widen_int int, asInt_narrow_of_fits (sumType_signed t) low high]

/-! ## What the combinations keep -/

section
variable {t : ElemType} (int : t.isInt = true) (x : Nat → Nat)

/-- The value is the sum of the lanes, in the sum type. -/
def IsSum (t : ElemType) (x : Nat → Nat) (l : List Nat) (v : Nat) : Prop := v = (sumType t).narrow false (l.map fun e => t.asInt (x e)).sum

/-- The value is that of an extreme lane under the order `le`. -/
def IsExtreme (t : ElemType) (x : Nat → Nat) (le : Int → Int → Prop) (l : List Nat) (v : Nat) : Prop :=
  (∃ e ∈ l, (sumType t).asInt v = t.asInt (x e)) ∧ ∀ e ∈ l, le (t.asInt (x e)) ((sumType t).asInt v)

include int

theorem isSum_one (e : Nat) : IsSum t x [e] (widen t (sumType t) (x e)) := by
  rw [IsSum, widen_int int, List.map_singleton, List.sum_singleton]

theorem combSum_narrow {s : State} {o : VRed} (wrap : o.sat = 0) (i : Nat) (a b : Int) :
    s.combSum o (sumType t) i ((sumType t).narrow false a) ((sumType t).narrow false b) = (sumType t).narrow false (a + b) := by
  rw [State.combSum, isInt_sumType, int, wrap]
  exact narrow_add_asInt (sumType_signed t) _ _

theorem isSum_combSum {s : State} {o : VRed} (wrap : o.sat = 0) : Combines (IsSum t x) (s.combSum o (sumType t)) := by
  rintro i l r _ _ - - rfl rfl
  rw [IsSum, List.map_append, List.sum_append]
  exact combSum_narrow int wrap i _ _

theorem isExtreme_one {le : Int → Int → Prop} (refl : ∀ i, le i i) (e : Nat) : IsExtreme t x le [e] (widen t (sumType t) (x e)) := by
  rw [IsExtreme, asInt_widen int]
  exact ⟨⟨e, List.mem_singleton_self e, rfl⟩, fun d hd => List.mem_singleton.mp hd ▸ refl _⟩

/-- A combination that gives the one of two integers that lies beyond the other keeps the extreme. -/
theorem isExtreme_of_choice {le : Int → Int → Prop} (trans : ∀ {i j k}, le i j → le j k → le i k) {f : Comb} {pick : Int → Int → Int}
    (hf : ∀ i a b, f i a b = (sumType t).narrow false (pick ((sumType t).asInt a) ((sumType t).asInt b)))
    (choice : ∀ i j, (pick i j = i ∨ pick i j = j) ∧ le i (pick i j) ∧ le j (pick i j)) : Combines (IsExtreme t x le) f := by
  rintro i l r a b - - ⟨⟨d, hd, ha⟩, left⟩ ⟨⟨e, he, hb⟩, right⟩
  obtain ⟨one, beyondA, beyondB⟩ := choice ((sumType t).asInt a) ((sumType t).asInt b)
  have value : (sumType t).asInt (f i a b) = pick ((sumType t).asInt a) ((sumType t).asInt b) := by
    have fits : -2 ^ ((sumType t).width - 1) ≤ pick ((sumType t).asInt a) ((sumType t).asInt b) ∧
        pick ((sumType t).asInt a) ((sumType t).asInt b) < 2 ^ ((sumType t).width - 1) := by
      rcases one with same | same
      · rw [same, ha]
        exact asInt_fits int _
      · rw [same, hb]
        exact asInt_fits int _
    rw [hf, asInt_narrow_of_fits (sumType_signed t) fits.1 fits.2]
  rw [IsExtreme, value]
  refine ⟨?_, fun c hc => ?_⟩
  · rcases one with same | same
    · exact ⟨d, List.mem_append_left _ hd, same.trans ha⟩
    · exact ⟨e, List.mem_append_right _ he, same.trans hb⟩
  · rcases List.mem_append.mp hc with hc | hc
    · exact trans (left c hc) beyondA
    · exact trans (right c hc) beyondB

theorem isExtreme_max : Combines (IsExtreme t x (· ≤ ·)) (combExt true (sumType t)) :=
  isExtreme_of_choice int x (le := (· ≤ ·)) (fun h k => le_trans h k) (pick := max) (fun i a b => by simp [combExt, isInt_sumType, int])
    fun i j => ⟨max_choice i j, le_max_left i j, le_max_right i j⟩

theorem isExtreme_min : Combines (IsExtreme t x (· ≥ ·)) (combExt false (sumType t)) :=
  isExtreme_of_choice int x (le := (· ≥ ·)) (fun h k => ge_trans h k) (pick := min) (fun i a b => by simp [combExt, isInt_sumType, int])
    fun i j => ⟨min_choice i j, min_le_left i j, min_le_right i j⟩

end

/-- The value of a single lane is that lane's. -/
def IsSingle (x : Nat → Nat) (l : List Nat) (v : Nat) : Prop := ∀ e, l = [e] → v = x e

theorem isSingle_combines (x : Nat → Nat) (f : Comb) : Combines (IsSingle x) f := by
  rintro i l r a b left right - - e same
  have := congrArg List.length same
  have := List.length_pos_iff.mpr left
  have := List.length_pos_iff.mpr right
  simp at *
  omega

end Sys2Proof.Machine
end

section
/-! PROOF. A reduction word of a whole vector at issue: its lanes, its checks and its results (07 R208, R209, R211, R216; O25). -/

namespace Sys2Proof.Machine

/-! ## The one segment of a word with SG = 0 (07 R216) -/

/-- The lanes of a word with SG = 0: those that its mask governs below the valid count (07 R209). -/
def State.wholeLanes (s : State) (o : VRed) (n : Nat) : List Nat := (s.governed o.msk n).filter fun e => decide (e < s.mine.vc.toNat)

theorem State.wholeLanes_sorted (s : State) (o : VRed) (n : Nat) : (s.wholeLanes o n).Pairwise (· < ·) := (s.governed_sorted o.msk n).filter _

theorem State.filter_mem_wholeLanes (s : State) (o : VRed) (n : Nat) : (List.range n).filter (· ∈ s.wholeLanes o n) = s.wholeLanes o n := by
  conv_rhs => rw [State.wholeLanes, State.governed, List.filter_filter]
  refine List.filter_congr fun e he => ?_
  simp only [State.wholeLanes, State.governed, List.mem_filter, he, true_and, Bool.decide_and, Bool.decide_eq_true, Bool.and_comm]

theorem ElemType.count_le_levels (t : ElemType) : t.count ≤ 2 ^ levelsOf t.count := by cases t <;> decide

theorem ElemType.count_pos (t : ElemType) : 0 < t.count := by cases t <;> decide

section
variable {s : State} {o : VRed} (whole : o.sg = 0)
include whole

theorem State.redSegs_whole (op : Nat) (d : ElemType) (n : Nat) (carries : Bool) : s.redSegs op o d n carries = [⟨0, 0, s.wholeLanes o n, none⟩] := by
  simp [State.redSegs, State.redLanes, whole, State.wholeLanes]

theorem State.tooMany_whole (op : Nat) (d : ElemType) (n : Nat) : s.tooMany op o d n = false := by simp [State.tooMany, whole]

theorem State.cutSegment_whole (n : Nat) : s.cutSegment o n = false := by simp [State.cutSegment, whole]

theorem State.setCarry_whole (c : Carry) : s.setCarry o c = s := by simp [State.setCarry, whole]

theorem State.redDone_whole (lat occ : Nat) (effs : List Eff) : s.redDone o lat occ effs = s.vdone lat occ false effs := by
  simp [State.redDone, whole]

end

/-- The empty mask of the one segment (07 R211). -/
theorem maskEffs_whole (eq : BitVec 6) (wide empty : Bool) :
    maskEffs eq wide (if empty then [0] else []) = wholeMask eq wide empty := by
  have none_ : eq = 0 ↔ eq.toNat = 0 := by rw [← BitVec.toNat_inj]; rfl
  simp only [maskEffs, wholeMask, none_]
  split_ifs <;> rfl

/-! ## The tree over the lanes (04 R126) -/

theorem NodeOk.eq_none {ok : List Nat → Nat → Prop} {l : List Nat} {r : Option Nat} (h : NodeOk ok l r) (empty : l = []) : r = none := by
  cases r with
  | none => rfl
  | some v => exact absurd empty h.1

theorem NodeOk.getD {ok : List Nat → Nat → Prop} {l : List Nat} {r : Option Nat} (h : NodeOk ok l r) (some_ : l ≠ []) (v : Nat) : ok l (r.getD v) := by
  cases r with
  | none => exact absurd h some_
  | some v => exact h.2

/-- The tree of a word of a whole vector over its lanes, each widened (04 R126). -/
def State.wholeTree (s : State) (o : VRed) (t : ElemType) (comb : Comb) : Option Nat :=
  tree comb 0 (levelsOf t.count) 0 (laneNodes t.count (s.wholeLanes o t.count) fun e => widen t (sumType t) (s.redSrc o t e))

section
variable {s : State} {o : VRed} {t : ElemType}

theorem State.nodeOk_wholeTree {ok : List Nat → Nat → Prop} {comb : Comb} (hf : Combines ok comb) (one : ∀ e, ok [e] (widen t (sumType t) (s.redSrc o t e))) :
    NodeOk ok (s.wholeLanes o t.count) (s.wholeTree o t comb) :=
  tree_laneNodes hf t.count_le_levels (s.filter_mem_wholeLanes o _) one 0

theorem State.wholeTree_eq_none (comb : Comb) (empty : s.wholeLanes o t.count = []) : s.wholeTree o t comb = none :=
  (State.nodeOk_wholeTree (ok := fun _ _ => True) (fun _ _ _ _ _ _ _ _ _ => trivial) fun _ => trivial).eq_none empty

theorem State.isNone_wholeTree (comb : Comb) : (s.wholeTree o t comb).isNone = (s.wholeLanes o t.count).isEmpty :=
  tree_laneNodes_isNone comb t.count_le_levels (s.filter_mem_wholeLanes o _) _ 0

end

/-! ## The checks (07 R208) -/

/-- A word of a whole vector whose unit is free, whose operand is a register and whose empty mask has a place. -/
structure State.Whole (s : State) (o : VRed) (t : ElemType) : Prop where
  stream : s.cur.st = .vector
  free : s.me.vbusy ≤ s.cyc
  typed : s.Typed o.t isFI o.rm t
  reg : o.ka = 0
  file : o.a.toNat < 64
  whole : o.sg = 0
  ready : s.MaskReady o.eq

section
variable {s : State} {o : VRed} {t : ElemType} {cls : ElemType → Bool} {satOk straddle : Bool} {i : Instr} {eff : State → State}

/-- What is left to check of such a word: its type, RM and SAT. -/
theorem State.Whole.redChecks_eq (h : s.Whole o t) (apart : straddle = false) :
    s.redChecks o cls satOk straddle = (s.vchecks o.t cls false o.rm (o.sat == 1) satOk false).and .ok := by
  have inFile : (o.ka != 0 || decide (64 ≤ o.a.toNat)) = false := by simp [h.reg, h.file]
  have field : s.eqField o.eq = .ok := by
    rw [State.eqField, bad0_ok_iff, decide_eq_false_iff_not]
    rcases h.ready with low | ⟨high, -⟩ <;> omega
  have target : (if 32 ≤ o.eq.toNat then s.freeQ (o.eq.setWidth 5) else .ok) = .ok := by
    split
    · next high =>
      rw [State.freeQ, (h.ready.resolve_left (by omega)).2]
      rfl
    · rfl
  simp only [State.redChecks, verdicts_cons, verdicts_nil, field, target, State.occupied_ok_of_le h.free, h.whole, inFile, apart, bar_false,
    Verdict.and_ok, show ¬ (0 : BitVec 1) = 1 by decide, if_false]

theorem State.Whole.checked (h : s.Whole o t) (class_ : cls t = true) (apart : straddle = false) (sat : o.sat = 0 ∨ satOk = true) :
    s.redChecks o cls satOk straddle = .ok := by
  rw [h.redChecks_eq apart, Verdict.and_ok_iff, State.vchecks_ok_iff]
  refine ⟨⟨⟨t, h.typed.mono class_⟩, rfl, fun set => ?_, rfl⟩, rfl⟩
  exact sat.resolve_left fun clear => absurd set (by rw [beq_one_eq_false clear]; decide)

/-- Such a word of a type not its own, or with SAT where it is not legal. -/
theorem State.Whole.traps (h : s.Whole o t) (hi : exec i s = s.perform (s.redChecks o cls satOk straddle) eff) (apart : straddle = false)
    (bad : cls t = false ∨ o.sat = 1 ∧ satOk = false) : Traps i s (cause 0 1 2) := by
  refine .of_perform (s.ne_crossing_of_vector h.stream) hi ?_
  rw [h.redChecks_eq apart, State.vchecks_fault h.stream]
  · rfl
  · rw [Ne, State.vchecks_ok_iff]
    rintro ⟨⟨r, typed⟩, -, sat, -⟩
    obtain rfl : t = r := Option.some.inj (h.typed.resolves.symm.trans typed.resolves)
    rcases bad with other | ⟨set, no⟩
    · exact absurd typed.class_ (by simp [other])
    · exact absurd (sat (by simp [set])) (by simp [no])

/-- The results of such a word. -/
theorem State.Whole.gives (h : s.Whole o t) (hi : exec i s = s.perform (s.redChecks o cls satOk straddle) eff) (class_ : cls t = true)
    (apart : straddle = false) (sat : o.sat = 0 ∨ satOk = true) {lat occ w : Nat} {l : List (Nat × Nat)} {wide empty : Bool}
    (he : eff s = s.redDone o lat occ ([velems o.vd w l] ++ maskEffs o.eq wide (if empty then [0] else []))) :
    ∃ u, exec i s = .next u ∧ u.me.vbusy = s.cyc + occ ∧
      s.Issued u ((lat, velems o.vd w l) :: (wholeMask o.eq wide empty).map fun e => (lat, e)) := by
  rw [State.redDone_whole h.whole, maskEffs_whole] at he
  exact runs_of_vdone h.stream hi (h.checked class_ apart sat) ⟨false, he⟩

end

/-! ## The words -/

section
variable (s : State) (o : VRed)

theorem exec_vrsum : exec (.vrsum o) s = s.reduce 0 o (s.combSum o) := rfl

theorem exec_vrmax : exec (.vrmax o) s = s.reduce 1 o (combExt true) := rfl

theorem exec_vrmin : exec (.vrmin o) s = s.reduce 2 o (combExt false) := rfl

section
variable {t : ElemType} (type : s.vt o.t = t) (whole : o.sg = 0)
include type whole

/-- A word that reduces a whole vector by its checks and its result, that of the tree or the identity. -/
theorem State.reduce_whole (op : Nat) (comb : ElemType → Comb) : ∃ eff, s.reduce op o comb = s.perform (s.redChecks o isFI (op == 0) false) eff ∧
    eff s = s.redDone o (redTime t).1 (redTime t).2
      ([velems o.vd (sumType t).width [(0, (s.wholeTree o t (comb (sumType t))).getD (identity op (sumType t)))]] ++
        maskEffs o.eq ((sumType t).width == 64) (if (s.wholeLanes o t.count).isEmpty then [0] else [])) := by
  subst type
  refine ⟨_, by rw [State.reduce, State.tooMany_whole whole], ?_⟩
  simp only [State.redSegs_whole whole, State.setCarry_whole whole, List.map_cons, List.map_nil, List.contains_iff_mem]
  generalize ht : s.vt o.t = t
  have shown : decide (0 < (sumType t).count) = true := decide_eq_true (ElemType.count_pos _)
  have part : join (comb (sumType t)) (treeIndex 0 15 0) none (tree (comb (sumType t)) 0 (levelsOf t.count) 0 ((List.range t.count).map fun e =>
      if e ∈ s.wholeLanes o t.count then some (widen t (sumType t) (s.redSrc o t e)) else none)) = s.wholeTree o t (comb (sumType t)) := rfl
  rw [part, ← State.isNone_wholeTree (comb (sumType t))]
  cases s.wholeTree o t (comb (sumType t)) <;> simp [shown, whole]

/-- VSCAN of a whole vector by its checks and results. -/
theorem exec_vscan_whole : ∃ eff, exec (.vscan o) s = s.perform (s.redChecks o isScan true false) eff ∧
    eff s = s.redDone o (redTime t).1 (redTime t).2
      ([velems o.vd t.width (scanSeg (s.combSum o t) (fun e => widen t t (s.redSrc o t e)) none (s.wholeLanes o t.count)).1] ++
        maskEffs o.eq (t.width == 64) (if (s.wholeLanes o t.count).isEmpty then [0] else [])) := by
  subst type
  refine ⟨_, by rw [exec, execVscan, State.tooMany_whole whole], ?_⟩
  simp only [State.redSegs_whole whole, State.setCarry_whole whole]
  have shown : decide (0 < (s.vt o.t).count) = true := decide_eq_true (ElemType.count_pos _)
  cases empty : (s.wholeLanes o (s.vt o.t).count).isEmpty <;> simp [shown, empty]

/-- A word that normalises a whole vector by its checks and results. -/
theorem State.normalise_whole (op lat : Nat) (satOk : Bool) (f : Seg → List (Nat × Nat)) : ∃ eff,
    s.normalise o op lat satOk f = s.perform (s.redChecks o isF3 satOk false) eff ∧
      eff s = s.redDone o lat 4 ([velems o.vd t.width (f ⟨0, 0, s.wholeLanes o t.count, none⟩)] ++
        maskEffs o.eq false (if (s.wholeLanes o t.count).isEmpty then [0] else [])) := by
  subst type
  refine ⟨_, by rw [State.normalise, State.cutSegment_whole whole, State.tooMany_whole whole]; rfl, ?_⟩
  rw [State.redSegs_whole whole]
  have shown : decide (0 < (s.vt o.t).count) = true := decide_eq_true (ElemType.count_pos _)
  cases empty : (s.wholeLanes o (s.vt o.t).count).isEmpty <;> simp [shown, empty]

end

/-- VRNORM gives each lane its quotient by the sum of the lanes, and zeros where all lanes are (07 R215). -/
theorem exec_vrnorm : ∃ f, exec (.vrnorm o) s = s.normalise o 4 28 true f ∧ ∀ t (g : Seg), s.vt o.t = t →
    f g = g.lanes.map fun e => (e, if g.lanes.all fun e => (t.value (s.redSrc o t e)).isZero then 0 else
      t.ffmt.round (s.rmode o.rm e) (o.sat == 1) ((t.value (s.redSrc o t e)).div (fp32F.decode
        ((tree (s.combSum o .fp32) g.lane (levelsOf t.count) 0 (laneNodes t.count g.lanes fun e => widen t .fp32 (s.redSrc o t e))).getD 0)))) := by
  refine ⟨_, rfl, ?_⟩
  rintro t g rfl
  simp only [laneNodes, List.contains_iff_mem]

/-- VRSMAX gives each lane the exponential of its distance below the largest lane, where that is a number (07 R214). -/
theorem exec_vrsmax : ∃ f, exec (.vrsmax o) s = s.normalise o 5 20 false f ∧ ∀ g : Seg, (f g).map (·.1) = g.lanes ∧
    ∀ t neg m k, s.vt o.t = t → segMax t (s.redSrc o t) g.lanes = .fin neg m k false →
      f g = g.lanes.map fun e => (e, t.ffmt.approx false (Num.exp2 ((t.value (s.redSrc o t e)).add false (Num.fin neg m k false).neg))) := by
  refine ⟨_, rfl, fun g => ⟨by simp [Function.comp_def], ?_⟩⟩
  rintro t neg m k rfl top
  simp only [top]

/-- Every word of this kind makes the same checks, with its own types. -/
theorem exec_reductions (whole : o.sg = 0) : ∀ i ∈ [Instr.vrsum o, .vrmax o, .vrmin o, .vscan o, .vrnorm o, .vrsmax o],
    ∃ cls satOk straddle eff, exec i s = s.perform (s.redChecks o cls satOk straddle) eff := by
  obtain ⟨f, vrsmax, -⟩ := exec_vrsmax s o
  obtain ⟨_, smax, -⟩ := State.normalise_whole s o rfl whole 5 20 false f
  obtain ⟨_, vscan, -⟩ := exec_vscan_whole s o rfl whole
  obtain ⟨f', vrnorm, -⟩ := exec_vrnorm s o
  obtain ⟨_, norm, -⟩ := State.normalise_whole s o rfl whole 4 28 true f'
  have reduce (op : Nat) (comb : ElemType → Comb) : ∃ cls satOk straddle eff, s.reduce op o comb = s.perform (s.redChecks o cls satOk straddle) eff :=
    let ⟨eff, h, _⟩ := State.reduce_whole s o rfl whole op comb
    ⟨_, _, _, eff, h⟩
  simp only [List.forall_mem_cons]
  exact ⟨reduce 0 (s.combSum o), reduce 1 (combExt true), reduce 2 (combExt false), ⟨_, _, _, _, vscan⟩, ⟨_, _, _, _, vrnorm.trans norm⟩, ⟨_, _, _, _, vrsmax.trans smax⟩, nofun⟩

variable {s o} (hst : s.cur.st = .vector)
include hst

theorem traps_reserved_eq (whole : o.sg = 0) (low : 16 ≤ o.eq.toNat) (high : o.eq.toNat < 32) :
    ∀ i ∈ [Instr.vrsum o, .vrmax o, .vrmin o, .vscan o, .vrnorm o, .vrsmax o], Traps i s (cause 0 1 1) := by
  intro i hi
  obtain ⟨cls, satOk, straddle, eff, hi⟩ := exec_reductions s o whole i hi
  refine .of_perform (s.ne_crossing_of_vector hst) hi ?_
  rw [State.redChecks, verdicts_cons, State.eqField, State.bad0_vector hst (decide_eq_true ⟨low, high⟩)]
  rfl

theorem stalls_full_eq (whole : o.sg = 0) (free : s.me.vbusy ≤ s.cyc) (high : 32 ≤ o.eq.toNat) (full : s.me.qIsEmpty (o.eq.setWidth 5) = false) :
    ∀ i ∈ [Instr.vrsum o, .vrmax o, .vrmin o, .vscan o, .vrnorm o, .vrsmax o], Stalls i s (cause 2 1 2) := by
  intro i hi
  obtain ⟨cls, satOk, straddle, eff, hi⟩ := exec_reductions s o whole i hi
  have field : s.eqField o.eq = .ok := (bad0_ok_iff ..).mpr (decide_eq_false (by omega))
  refine .of_perform (s.ne_crossing_of_vector hst) hi ?_
  simp only [State.redChecks, verdicts_cons, field, State.occupied_ok_of_le free, whole, high, State.freeQ, full, need_false, hst, Verdict.and_ok,
    show ¬ (0 : BitVec 1) = 1 by decide, if_false, if_true]
  rfl

end

end Sys2Proof.Machine
end

section
/-! PROOF. VRSUM, VRMAX, VRMIN and VSCAN of a whole vector (07 R208-R213, 04 R126; O25). -/

namespace Sys2Proof.Machine

section
variable {s : State} {o : VRed} {t : ElemType}

/-! ## VRSUM, VRMAX and VRMIN -/

theorem identity_max (t : ElemType) : identity 1 (sumType t) =
    if t.isInt then (sumType t).narrow false (sumType t).intRange.1 else (sumType t).ffmt.inf true := by
  rw [← isInt_sumType]
  rfl

theorem identity_min (t : ElemType) : identity 2 (sumType t) =
    if t.isInt then (sumType t).narrow false (sumType t).intRange.2 else (sumType t).ffmt.inf false := by
  rw [← isInt_sumType]
  rfl

theorem redTime_eq (t : ElemType) : redTime t = (if t.width = 64 then 16 else 12, if t.width = 64 then 4 else 2) := by
  rw [redTime]
  split <;> rfl

/-- The result of a word that reduces a whole vector is its tree's, or the identity. -/
theorem State.Whole.gives_reduce (h : s.Whole o t) {op : Nat} {comb : ElemType → Comb} {i : Instr} (hi : exec i s = s.reduce op o comb)
    (sat : o.sat = 0 ∨ (op == 0) = true) : ∃ u, exec i s = .next u ∧ u.me.vbusy = s.cyc + (if t.width = 64 then 4 else 2) ∧
      s.Issued u ((if t.width = 64 then 16 else 12,
          velems o.vd (sumType t).width [(0, (s.wholeTree o t (comb (sumType t))).getD (identity op (sumType t)))]) ::
        (wholeMask o.eq ((sumType t).width == 64) (s.wholeLanes o t.count).isEmpty).map fun e => (if t.width = 64 then 16 else 12, e)) := by
  obtain ⟨eff, reduce, he⟩ := State.reduce_whole s o (State.vt_of_vtype h.typed.resolves) h.whole op comb
  rw [redTime_eq] at he
  exact h.gives (hi.trans reduce) h.typed.class_ rfl sat he

/-- VRMAX and VRMIN take no SAT (07 R208). -/
theorem State.Whole.traps_reduce (h : s.Whole o t) {op : Nat} {comb : ElemType → Comb} {i : Instr} (hi : exec i s = s.reduce op o comb)
    (ext : (op == 0) = false) (set : o.sat = 1) : Traps i s (cause 0 1 2) :=
  let ⟨_, reduce, _⟩ := State.reduce_whole s o rfl h.whole op comb
  h.traps (hi.trans reduce) rfl (.inr ⟨set, ext⟩)

end

end Sys2Proof.Machine
end

section
/-! PROOF. The largest of a list of finite values (04 R122; O25). -/

namespace Sys2Proof.Machine

/-- The place of a finite value in the order in which -0 lies below +0. -/
def Num.rank : Num → Rat ×ₗ Bool
  | .fin neg m e _ => toLex (finRat neg m e, !(decide (m = 0) && neg))
  | _ => toLex (0, true)

/-- A finite value, exactly held. -/
def Num.Finite (x : Num) : Prop := ∃ neg m e, x = .fin neg m e false

theorem Num.lt0_iff_rank {x y : Num} (hx : x.Finite) (hy : y.Finite) : x.lt0 y = true ↔ x.rank < y.rank := by
  obtain ⟨a, m, e, rfl⟩ := hx
  obtain ⟨b, n, f, rfl⟩ := hy
  have pos : (0 : Rat) < 2 ^ Min.min e f := by positivity
  rw [Num.rank, Num.rank, Prod.Lex.toLex_lt_toLex, finRat_eq_scaled a m (min_le_left e f), finRat_eq_scaled b n (min_le_right e f),
    mul_lt_mul_iff_left₀ pos, Int.cast_lt, mul_left_inj' pos.ne', Int.cast_inj, Num.lt0]
  generalize hi : ((if a then -1 else 1) * (m * 2 ^ (e - Min.min e f).toNat : Nat) : Int) = i
  generalize hj : ((if b then -1 else 1) * (n * 2 ^ (f - Min.min e f).toNat : Nat) : Int) = j
  have zero : i = j → (m = 0 ↔ n = 0) := by
    rintro rfl
    have mul {c : Bool} {k d : Nat} {r : Int} (h : ((if c then -1 else 1) * (k * 2 ^ d : Nat) : Int) = r) : k = 0 ↔ r = 0 := by
      subst h
      cases c <;> simp
    rw [mul hi, mul hj]
  by_cases same : i = j
  · have both := zero same
    by_cases hm : m = 0
    · cases a <;> cases b <;> simp [same, hm, both.mp hm]
    · simp [same, hm, mt both.mpr hm]
  · simp [same]

theorem Num.max_of_finite {x y : Num} (hx : x.Finite) (hy : y.Finite) : x.max y = if x.lt0 y then y else x := by
  obtain ⟨_, _, _, rfl⟩ := hx
  obtain ⟨_, _, _, rfl⟩ := hy
  rfl

/-- The fold of `Num.max` gives a value of the largest rank. -/
theorem foldl_max_rank : ∀ {l : List Num} {y : Num}, (∀ z ∈ y :: l, z.Finite) →
    l.foldl Num.max y ∈ y :: l ∧ ∀ z ∈ y :: l, z.rank ≤ (l.foldl Num.max y).rank
  | [], _, _ => by simp
  | x :: l, y, finite => by
    obtain ⟨hy, rest⟩ := List.forall_mem_cons.mp finite
    obtain ⟨hx, rest⟩ := List.forall_mem_cons.mp rest
    have larger : y.max x ∈ [y, x] ∧ y.rank ≤ (y.max x).rank ∧ x.rank ≤ (y.max x).rank := by
      rw [Num.max_of_finite hy hx]
      split
      · next less => simp [((Num.lt0_iff_rank hy hx).mp less).le]
      · next least => simp [not_lt.mp (mt (Num.lt0_iff_rank hy hx).mpr least)]
    obtain ⟨one, overY, overX⟩ := larger
    have held : (y.max x).Finite := by
      rcases List.mem_pair.mp one with same | same <;> rwa [same]
    obtain ⟨from_, above⟩ := foldl_max_rank (List.forall_mem_cons.mpr ⟨held, rest⟩)
    obtain ⟨overMax, overRest⟩ := List.forall_mem_cons.mp above
    refine ⟨?_, List.forall_mem_cons.mpr ⟨overY.trans overMax, List.forall_mem_cons.mpr ⟨overX.trans overMax, overRest⟩⟩⟩
    rcases List.mem_cons.mp from_ with same | inside
    · rw [List.foldl_cons, same]
      rcases List.mem_pair.mp one with same | same <;> simp [same]
    · exact List.mem_cons_of_mem _ (List.mem_cons_of_mem _ inside)

/-- The largest of some lanes is that of a lane. -/
theorem segMax_spec {t : ElemType} {x : Nat → Nat} {l : List Nat} (some_ : l ≠ []) (finite : ∀ e ∈ l, (t.value (x e)).Finite) :
    (∃ e ∈ l, t.value (x e) = segMax t x l) ∧ ∀ e ∈ l, (t.value (x e)).rank ≤ (segMax t x l).rank := by
  cases l with
  | nil => exact absurd rfl some_
  | cons a l =>
    have finite' : ∀ z ∈ (a :: l).map fun e => t.value (x e), z.Finite := List.forall_mem_map.mpr finite
    obtain ⟨from_, above⟩ := foldl_max_rank finite'
    rw [← List.map_cons (f := fun e => t.value (x e))] at from_ above
    exact ⟨List.mem_map.mp from_, List.forall_mem_map.mp above⟩

/-! ## A value of a format by its rank -/

theorem finRat_neg_iff {neg : Bool} {m : Nat} (hm : m ≠ 0) (e : Int) : finRat neg m e < 0 ↔ neg = true := by
  have pos : (0 : Rat) < m * 2 ^ e := mul_pos (by exact_mod_cast Nat.pos_of_ne_zero hm) (by positivity)
  cases neg with
  | false => simp [finRat, pos.le]
  | true => simpa [finRat] using pos

/-- Of finite values that a format holds each at its own last place, those of one rank are the same. -/
theorem FFmt.fin_eq_of_rank {f : FFmt} {a b : Bool} {m n : Nat} {e k : Int} (he : f.unit m e = e) (hk : f.unit n k = k)
    (rank : (Num.fin a m e false).rank = (Num.fin b n k false).rank) : Num.fin a m e false = .fin b n k false := by
  obtain ⟨value, sign⟩ := Prod.ext_iff.mp (toLex_inj.mp rank)
  simp only at value sign
  have mags : (m : Rat) * 2 ^ e = n * 2 ^ k := by rw [← abs_finRat a, ← abs_finRat b, value]
  have unit (j : Int) : (2 : Rat) ^ j ≠ 0 := by positivity
  have zero : m = 0 ↔ n = 0 := by
    have := congrArg (· = 0) mags
    simpa [unit] using this
  by_cases hm : m = 0
  · obtain rfl := hm
    obtain rfl := zero.mp rfl
    have places : e = k := he.symm.trans hk
    have signs : a = b := by simpa using sign
    rw [places, signs]
  · have hn := mt zero.mpr hm
    have log : e + Nat.log2 m = k + Nat.log2 n := by
      have pos : 0 < |finRat a m e| := by
        rw [abs_finRat]
        have : (0 : Rat) < m := by exact_mod_cast Nat.pos_of_ne_zero hm
        positivity
      obtain ⟨j, low, high⟩ := exists_mem_Ico_zpow (y := (2 : Rat)) pos one_lt_two
      have left := (Num.is_fin a m e).ilog2_eq low high
      rw [value] at low high
      exact left.trans ((Num.is_fin b n k).ilog2_eq low high).symm
    have places : e = k := by
      rw [FFmt.unit, if_neg hm] at he
      rw [FFmt.unit, if_neg hn] at hk
      omega
    obtain rfl := places
    have mants : m = n := by exact_mod_cast mul_right_cancel₀ (unit e) mags
    obtain rfl := mants
    have signs : a = b := Bool.eq_iff_iff.mpr ((finRat_neg_iff hm e).symm.trans (value ▸ finRat_neg_iff hm e))
    rw [signs]

theorem FFmt.Regular.decode_eq_of_rank {f : FFmt} (hf : f.Regular) {b c : Nat} (hb : b < 2 ^ (1 + f.ebits + f.man)) (hc : c < 2 ^ (1 + f.ebits + f.man))
    (left : (f.decode b).Finite) (right : (f.decode c).Finite) (rank : (f.decode b).rank = (f.decode c).rank) : f.decode b = f.decode c := by
  have place {d : Nat} (hd : d < 2 ^ (1 + f.ebits + f.man)) {neg m e} (fin : f.decode d = .fin neg m e false) : f.unit m e = e := by
    rcases hf.decode_cases hd with nan | ⟨_, -, inf, -⟩ | ⟨_, _, _, fin', unit, -⟩
    · simp [nan] at fin
    · simp [inf] at fin
    · rw [fin'] at fin
      simp only [Num.fin.injEq, and_true] at fin
      obtain ⟨-, rfl, rfl⟩ := fin
      exact unit
  obtain ⟨_, _, _, left⟩ := left
  obtain ⟨_, _, _, right⟩ := right
  rw [left, right] at rank ⊢
  exact FFmt.fin_eq_of_rank (place hb left) (place hc right) rank

end Sys2Proof.Machine
end

section
/-! PROOF. The values of the reductions, VSCAN, VRSMAX and VRNORM of a whole vector (07 R210-R216; O25). -/

namespace Sys2Proof.Machine

section
variable {s : State} {o : VRed} {t : ElemType}

/-! ## Sums and extremes -/

theorem State.wholeTree_single {comb : Comb} {e : Nat} (one : s.wholeLanes o t.count = [e]) (v : Nat) :
    (s.wholeTree o t comb).getD v = widen t (sumType t) (s.redSrc o t e) := by
  have root := State.nodeOk_wholeTree (s := s) (o := o) (t := t) (isSingle_combines (fun e => widen t (sumType t) (s.redSrc o t e)) comb)
    fun e d same => congrArg (fun e => widen t (sumType t) (s.redSrc o t e)) (List.singleton_inj.mp same)
  exact root.getD (by simp [one]) v e one

theorem State.wholeTree_sum (int : t.isInt = true) (wrap : o.sat = 0) : (s.wholeTree o t (s.combSum o (sumType t))).getD 0 =
    (sumType t).narrow false ((s.wholeLanes o t.count).map fun e => t.asInt (s.redSrc o t e)).sum := by
  by_cases empty : s.wholeLanes o t.count = []
  · rw [State.wholeTree_eq_none _ empty, empty, narrow_false]
    simp
  · exact (State.nodeOk_wholeTree (isSum_combSum int (s.redSrc o t) wrap) (isSum_one int _)).getD empty 0

theorem State.wholeTree_max (int : t.isInt = true) (some_ : s.wholeLanes o t.count ≠ []) (v : Nat) :
    IsExtreme t (s.redSrc o t) (· ≤ ·) (s.wholeLanes o t.count) ((s.wholeTree o t (combExt true (sumType t))).getD v) :=
  (State.nodeOk_wholeTree (isExtreme_max int _) (isExtreme_one int _ le_refl)).getD some_ v

theorem State.wholeTree_min (int : t.isInt = true) (some_ : s.wholeLanes o t.count ≠ []) (v : Nat) :
    IsExtreme t (s.redSrc o t) (· ≥ ·) (s.wholeLanes o t.count) ((s.wholeTree o t (combExt false (sumType t))).getD v) :=
  (State.nodeOk_wholeTree (isExtreme_min int _) (isExtreme_one int _ le_refl)).getD some_ v

/-! ## VSCAN -/

theorem isScan_iff : isScan t = true ↔ t = .fp32 ∨ t = .fp64 ∨ t = .int32 ∨ t = .int64 := by cases t <;> simp [isScan]

theorem sumType_of_isScan (scan : isScan t = true) : sumType t = t := by
  rcases isScan_iff.mp scan with rfl | rfl | rfl | rfl <;> rfl

/-- The running sums of a whole vector (07 R213). -/
def State.wholeScan (s : State) (o : VRed) (t : ElemType) : List (Nat × Nat) :=
  (scanSeg (s.combSum o (sumType t)) (fun e => widen t (sumType t) (s.redSrc o t e)) none (s.wholeLanes o t.count)).1

theorem State.Whole.gives_vscan (h : s.Whole o t) (scan : isScan t = true) :
    ∃ u, exec (.vscan o) s = .next u ∧ u.me.vbusy = s.cyc + (if t.width = 64 then 4 else 2) ∧
      s.Issued u ((if t.width = 64 then 16 else 12, velems o.vd t.width (s.wholeScan o t)) ::
        (wholeMask o.eq (t.width == 64) (s.wholeLanes o t.count).isEmpty).map fun e => (if t.width = 64 then 16 else 12, e)) := by
  obtain ⟨eff, hi, he⟩ := exec_vscan_whole s o (State.vt_of_vtype h.typed.resolves) h.whole
  refine h.gives hi scan rfl (.inr rfl) ?_
  rw [State.wholeScan, sumType_of_isScan scan, he, redTime_eq]

theorem State.Whole.traps_vscan (h : s.Whole o t) (other : isScan t = false) : Traps (.vscan o) s (cause 0 1 2) :=
  let ⟨_, hi, _⟩ := exec_vscan_whole s o (State.vt_of_vtype h.typed.resolves) h.whole
  h.traps hi rfl (.inl other)

theorem State.mem_wholeScan (scan : isScan t = true) (int : t.isInt = true) (wrap : o.sat = 0) : ∀ e ∈ s.wholeLanes o t.count,
    (e, t.narrow false (((s.wholeLanes o t.count).filter (· ≤ e)).map fun e => t.asInt (s.redSrc o t e)).sum) ∈ s.wholeScan o t := by
  intro e he
  have sums := mem_scanSeg (f := s.combSum o (sumType t)) (sum := (sumType t).narrow false) (fun e => widen_int int (s.redSrc o t e))
    (fun i a e => by rw [widen_int int]; exact combSum_narrow int wrap i a _) (.inl ⟨rfl, rfl⟩) (s.wholeLanes_sorted o t.count) e he
  rwa [zero_add, congrArg (ElemType.narrow · false) (sumType_of_isScan scan)] at sums

/-! ## VRSMAX and VRNORM -/

/-- An element of a source that is a register lies within its width, flushed or not. -/
theorem State.redSrc_lt (s : State) (o : VRed) (t : ElemType) (e : Nat) : s.redSrc o t e < 2 ^ t.width := by
  have raw : s.rawSrc 0 o.a t e < 2 ^ t.width := elemAt_lt _ _ _
  rw [State.redSrc, State.src]
  split
  · refine lt_of_le_of_lt ?_ raw
    rw [flushElem]
    split
    · exact Nat.div_mul_le_self _ _
    · exact le_rfl
  · exact raw

/-- What the types of VRSMAX and VRNORM have in common. -/
theorem isF3_format {t : ElemType} (float : isF3 t = true) : t.isInt = false ∧ t.ffmt.Regular ∧ t.width = 1 + t.ffmt.ebits + t.ffmt.man ∧ isFI t = true := by
  match t, float with
  | .fp32, _ | .bf16, _ | .fp16, _ => exact ⟨rfl, FFmt.regular_of_mem (by decide), rfl, rfl⟩

/-- A lane's value that is of the largest rank is what `segMax` gives. -/
theorem State.segMax_redSrc (float : isF3 t = true) {l : List Nat} {m : Num} (finite : ∀ e ∈ l, (t.value (s.redSrc o t e)).Finite)
    (from_ : ∃ e ∈ l, t.value (s.redSrc o t e) = m) (top : ∀ e ∈ l, m.lt0 (t.value (s.redSrc o t e)) = false) : segMax t (s.redSrc o t) l = m := by
  obtain ⟨plain, regular, width, -⟩ := isF3_format float
  obtain ⟨e, he, rfl⟩ := from_
  obtain ⟨⟨d, hd, same⟩, above⟩ := segMax_spec (List.ne_nil_of_mem he) finite
  rw [← same] at above ⊢
  have rank := le_antisymm (not_lt.mp (mt (Num.lt0_iff_rank (finite e he) (finite d hd)).mpr (by simp [top d hd]))) (above e he)
  have decoded (c : Nat) : t.value c = t.ffmt.decode c := by rw [ElemType.value, plain]; rfl
  have inside (c : Nat) : s.redSrc o t c < 2 ^ (1 + t.ffmt.ebits + t.ffmt.man) := width ▸ s.redSrc_lt o t c
  have held := finite
  simp only [decoded] at held rank ⊢
  exact regular.decode_eq_of_rank (inside d) (inside e) (held d hd) (held e he) rank

/-- The quotients of VRNORM of a whole vector (07 R215). -/
def State.wholeNorm (s : State) (o : VRed) (t : ElemType) : List (Nat × Nat) :=
  let lanes := s.wholeLanes o t.count
  lanes.map fun e => (e, if lanes.all fun e => (t.value (s.redSrc o t e)).isZero then 0 else
    t.ffmt.round (s.rmode o.rm e) (o.sat == 1) ((t.value (s.redSrc o t e)).div (fp32F.decode
      ((tree (s.combSum o .fp32) 0 (levelsOf t.count) 0 (laneNodes t.count lanes fun e => widen t .fp32 (s.redSrc o t e))).getD 0))))

theorem State.wholeNorm_lanes : (s.wholeNorm o t).map (·.1) = s.wholeLanes o t.count := by simp [State.wholeNorm, Function.comp_def]

theorem State.wholeNorm_zero (zero : ∀ e ∈ s.wholeLanes o t.count, ∃ neg k, t.value (s.redSrc o t e) = .fin neg 0 k false) :
    ∀ p ∈ s.wholeNorm o t, p.2 = 0 := by
  have all : (s.wholeLanes o t.count).all (fun e => (t.value (s.redSrc o t e)).isZero) = true := List.all_eq_true.mpr fun e he => by
    obtain ⟨_, _, value⟩ := zero e he
    rw [value]
    rfl
  simp [State.wholeNorm, all]

section
variable (h : s.Whole o t) (float : isF3 t = true)
include h float

theorem State.Whole.gives_normalise {op lat : Nat} {satOk : Bool} {f : Seg → List (Nat × Nat)} {i : Instr}
    (hi : exec i s = s.normalise o op lat satOk f) (sat : o.sat = 0 ∨ satOk = true) : ∃ u, exec i s = .next u ∧ u.me.vbusy = s.cyc + 4 ∧
      s.Issued u ((lat, velems o.vd t.width (f ⟨0, 0, s.wholeLanes o t.count, none⟩)) ::
        (wholeMask o.eq false (s.wholeLanes o t.count).isEmpty).map fun e => (lat, e)) :=
  let ⟨_, normalise, he⟩ := State.normalise_whole s o (State.vt_of_vtype h.typed.resolves) h.whole op lat satOk f
  h.gives (hi.trans normalise) float rfl sat he

theorem State.Whole.gives_vrnorm : ∃ u, exec (.vrnorm o) s = .next u ∧ u.me.vbusy = s.cyc + 4 ∧
    s.Issued u ((28, velems o.vd t.width (s.wholeNorm o t)) :: (wholeMask o.eq false (s.wholeLanes o t.count).isEmpty).map fun e => (28, e)) := by
  obtain ⟨f, hi, values⟩ := exec_vrnorm s o
  have gives := h.gives_normalise float hi (.inr rfl)
  rwa [values t _ (State.vt_of_vtype h.typed.resolves)] at gives

theorem State.Whole.gives_vrsmax (plain : o.sat = 0) : ∃ l, (∃ u, exec (.vrsmax o) s = .next u ∧ u.me.vbusy = s.cyc + 4 ∧
      s.Issued u ((20, velems o.vd t.width l) :: (wholeMask o.eq false (s.wholeLanes o t.count).isEmpty).map fun e => (20, e))) ∧
    l.map (·.1) = s.wholeLanes o t.count ∧
    ∀ m, (∀ e ∈ s.wholeLanes o t.count, (t.value (s.redSrc o t e)).Finite) → (∃ e ∈ s.wholeLanes o t.count, t.value (s.redSrc o t e) = m) →
      (∀ e ∈ s.wholeLanes o t.count, m.lt0 (t.value (s.redSrc o t e)) = false) →
        ∀ e ∈ s.wholeLanes o t.count, (e, t.ffmt.approx false (Num.exp2 ((t.value (s.redSrc o t e)).add false m.neg))) ∈ l := by
  obtain ⟨f, hi, spec⟩ := exec_vrsmax s o
  obtain ⟨lanes, values⟩ := spec ⟨0, 0, s.wholeLanes o t.count, none⟩
  refine ⟨_, h.gives_normalise float hi (.inl plain), lanes, fun m finite from_ top e he => ?_⟩
  have largest := State.segMax_redSrc float finite from_ top
  obtain ⟨d, hd, rfl⟩ := from_
  obtain ⟨neg, n, k, fin⟩ := finite d hd
  rw [fin] at largest ⊢
  rw [values t neg n k (State.vt_of_vtype h.typed.resolves) largest]
  exact List.mem_map_of_mem he

end

theorem State.Whole.traps_vrsmax (h : s.Whole o t) (set : o.sat = 1) : Traps (.vrsmax o) s (cause 0 1 2) :=
  let ⟨f, hi, _⟩ := exec_vrsmax s o
  let ⟨_, normalise, _⟩ := State.normalise_whole s o rfl h.whole 5 20 false f
  h.traps (hi.trans normalise) rfl (.inr ⟨set, rfl⟩)

end

/-- Settles O25: the tree keeps what its combinations keep (`tree_ok`), the running sums add lane by lane (`mem_scanSeg`), and the largest lane is the one
that the statement names because a format holds one value of each rank (`FFmt.Regular.decode_eq_of_rank`). -/
theorem reductions : Obligations.Reductions := by
  refine ⟨fun s o t hst free typed reg file whole ready => ?_, fun s o t hst free typed reg file whole ready => ?_, fun s o hst whole => ?_⟩
  · have h : s.Whole o t := ⟨hst, free, typed, reg, file, whole, ready⟩
    intro d vc lanes lat occ src int wide gives lands sum top low total
    refine ⟨⟨_, h.gives_reduce (exec_vrsum s o) (.inr rfl), rfl, fun empty => ?_, State.wholeTree_sum, fun e one => State.wholeTree_single one 0⟩,
      fun plain => ⟨_, h.gives_reduce (exec_vrmax s o) (.inl plain), ?_, fun int some_ => State.wholeTree_max int some_ _, fun float empty => ?_⟩,
      fun plain => ⟨_, h.gives_reduce (exec_vrmin s o) (.inl plain), ?_, fun int some_ => State.wholeTree_min int some_ _, fun float empty => ?_⟩,
      fun scan => ⟨_, h.gives_vscan (isScan_iff.mpr scan), scanSeg_lanes _ _, fun e v first => Option.some.inj (scanSeg_head first),
        fun i e v f x at_ next => scanSeg_next at_ next, State.mem_wholeScan (isScan_iff.mpr scan)⟩,
      fun n1 n2 n3 n4 => h.traps_vscan (by simp [← Bool.not_eq_true, isScan_iff, n1, n2, n3, n4]), fun set => ?_⟩
    · rw [State.wholeTree_eq_none _ empty]
      rfl
    · rw [identity_max]
      rfl
    · rw [State.wholeTree_eq_none _ empty, identity_max, float]
      rfl
    · rw [identity_min]
      rfl
    · rw [State.wholeTree_eq_none _ empty, identity_min, float]
      rfl
    · simp only [List.forall_mem_cons]
      exact ⟨h.traps_reduce (exec_vrmax s o) rfl set, h.traps_reduce (exec_vrmin s o) rfl set, nofun⟩
  · obtain ⟨-, -, -, class_⟩ := isF3_format typed.class_
    have h : s.Whole o t := ⟨hst, free, typed.mono class_, reg, file, whole, ready⟩
    intro vc lanes src x gives total
    refine ⟨h.gives_vrsmax typed.class_, ⟨_, h.gives_vrnorm typed.class_, State.wholeNorm_lanes, State.wholeNorm_zero, fun ⟨d, hd, some_⟩ e he => ?_⟩,
      h.traps_vrsmax⟩
    have all : (s.wholeLanes o t.count).all (fun e => (t.value (s.redSrc o t e)).isZero) = false :=
      List.all_eq_false.mpr ⟨d, hd, Bool.not_eq_true _ ▸ some_⟩
    refine List.mem_map.mpr ⟨e, he, ?_⟩
    rw [all]
    rfl
  · exact ⟨traps_reserved_eq hst whole, stalls_full_eq hst whole⟩

end Sys2Proof.Machine
end

section
/-! PROOF. What the operations of the state do to package memory: which leave it alone, and which keep its canonical form (08 R232; O59). -/

namespace Sys2Proof.Machine

/-! ## Folds -/

@[simp] theorem foldl_mem {β : Type} {f : State → β → State} (h : ∀ s x, (f s x).mem = s.mem) (l : List β) (s : State) :
    (l.foldl f s).mem = s.mem :=
  foldl_keeps State.mem h l s

theorem foldl_wf {β : Type} {f : State → β → State} (h : ∀ s x, s.mem.wf = true → (f s x).mem.wf = true) (l : List β) (s : State)
    (hs : s.mem.wf = true) : (l.foldl f s).mem.wf = true :=
  List.foldlRecOn (motive := fun u : State => u.mem.wf = true) l f hs fun u hu x _ => h u x hu

/-! ## Streams, faults and traps -/

@[simp] theorem State.modXing_mem (s : State) (lid : Nat) (f : Xing → Xing) : (s.modXing lid f).mem = s.mem := rfl

@[simp] theorem State.emitLoop_mem (s : State) : (s.emitLoop).mem = s.mem := by
  unfold State.emitLoop
  split <;> rfl

@[simp] theorem State.leave_mem (s : State) : (s.leave).mem = s.mem := by
  unfold State.leave
  split <;> rfl

@[simp] theorem State.advance_mem (s : State) : (s.advance).mem = s.mem := by
  unfold State.advance
  simp

@[simp] theorem State.branchTo_mem (s : State) (target : Word) : (s.branchTo target).mem = s.mem := rfl

@[simp] theorem State.modMine_mem (s : State) (f : StreamSt → StreamSt) : (s.modMine f).mem = s.mem := by
  unfold State.modMine
  split <;> rfl

@[simp] theorem State.raiseAt_mem (s : State) (c : Nat) (t : TrapInfo) : (s.raiseAt c t).mem = s.mem := rfl

@[simp] theorem State.faultWith_mem (s : State) (t : TrapInfo) : (s.faultWith t).mem = s.mem := by
  unfold State.faultWith
  dsimp only
  (repeat' split) <;> simp

@[simp] theorem State.fault_mem (s : State) (code : Nat) : (s.fault code).mem = s.mem := by
  unfold State.fault
  simp

@[simp] theorem State.owe_mem (s : State) (c : Nat) (t : TrapInfo) : (s.owe c t).mem = s.mem := rfl

theorem State.takeTrap_wf (s : State) (c : Nat) (t : TrapInfo) (h : s.mem.wf = true) : (s.takeTrap c t).mem.wf = true := by
  unfold State.takeTrap
  extract_lets k timed tile esc inH r old stop u k' x k'' helm helmSt enter esc' v
  have hu : u.mem.wf = true := by
    unfold u
    split <;> simpa using h
  have hv : v.mem.wf = true := by simpa [v] using State.writeHome_wf u _ _ hu
  split
  · simpa using State.writeHome_wf _ _ _ (State.writeHome_wf _ _ _ hu)
  split
  · simpa using hu
  split
  · simpa using hu
  split <;> simpa using hv

@[simp] theorem State.resumeXing_mem (s : State) (c : Nat) (r : List Byte) : (s.resumeXing c r).mem = s.mem := by
  unfold State.resumeXing
  split <;> rfl

@[simp] theorem State.returnTrap_mem (s : State) (c : Nat) (r : List Byte) : (s.returnTrap c r).mem = s.mem := by
  unfold State.returnTrap
  dsimp only
  (repeat' split) <;> simp

@[simp] theorem State.write_mem (s : State) (lat : Nat) (effs : List Eff) : (s.write lat effs).mem = s.mem := by
  unfold State.write
  simp

@[simp] theorem State.annul_mem (s : State) : (s.annul).mem = s.mem := by
  unfold State.annul
  simp

@[simp] theorem State.post_mem (s : State) (ring code place stat : Nat) : (s.post ring code place stat).mem = s.mem := rfl

@[simp] theorem State.postSup_mem (s : State) (code place stat : Nat) : (s.postSup code place stat).mem = s.mem := rfl

@[simp] theorem State.replaceRequested_mem (s : State) (code place : Nat) : (s.replaceRequested code place).mem = s.mem := rfl

/-! ## Translation, waits and the issue of words -/

theorem State.setEpoch_wf (s : State) (ctx va : Nat) (l : Leaf) (k : BitVec 8) (h : s.mem.wf = true) :
    (s.setEpoch ctx va l k).mem.wf = true :=
  State.writeHome_wf _ _ _ h

@[simp] theorem State.walkEffects_mem (s : State) (tile ctx va : Nat) : (s.walkEffects tile ctx va).mem = s.mem := by
  unfold State.walkEffects
  dsimp only
  split
  · rfl
  · exact foldl_mem (fun s a => s.readEffects_mem _ _) _ _

@[simp] theorem State.cacheLeaf_mem (s : State) (tile ctx va : Nat) (l : Leaf) : (s.cacheLeaf tile ctx va l).mem = s.mem := by
  unfold State.cacheLeaf
  simp

@[simp] theorem State.endWait_mem (s : State) (w : Wait) : (s.endWait w).mem = s.mem := by
  unfold State.endWait
  simp

@[simp] theorem State.slipFlights_mem (s : State) (k : WaitKind) : (s.slipFlights k).mem = s.mem := by
  unfold State.slipFlights
  split <;> rfl

@[simp] theorem State.beginWait_mem (s : State) (k : WaitKind) (d : Nat) (holds : Bool) : (s.beginWait k d holds).mem = s.mem := by
  unfold State.beginWait
  simp [apply_ite State.mem]

@[simp] theorem State.finishWait_mem (s : State) (w : Wait) : (s.finishWait w).mem = s.mem := by
  unfold State.finishWait
  split <;> simp

@[simp] theorem State.arrive_mem (s : State) (l : Launch) (t : Nat × Nat × Nat × Nat) (sync : Bool) (dl : Nat) :
    (s.arrive l t sync dl).1.mem = s.mem := by
  unfold State.arrive
  dsimp only
  split <;> simp

@[simp] theorem State.issueCopy_mem (s : State) (o : CRecOp) (k : CopyCmd) : (s.issueCopy o k).mem = s.mem := by
  unfold State.issueCopy
  simp

@[simp] theorem State.mismatch_mem (s : State) (hit : Bool) : (s.mismatch hit).mem = s.mem := by
  unfold State.mismatch
  split <;> rfl

@[simp] theorem State.emitChecked_mem (s : State) (lat : Nat) (covered : Bool) (effs : List Eff) (sp : List Nat) :
    (s.emitChecked lat covered effs sp).mem = s.mem :=
    rfl

@[simp] theorem State.vdone_mem (s : State) (lat occ : Nat) (covered : Bool) (effs : List Eff) (sp : List Nat) :
    (s.vdone lat occ covered effs sp).mem = s.mem :=
  State.advance_mem _

@[simp] theorem State.bindWord_mem (s : State) (z : Nat) : (s.bindWord z).mem = s.mem := rfl

@[simp] theorem State.cancelPhase_mem (s : State) (c : Nat) (t : TrapInfo) : (s.cancelPhase c t).mem = s.mem := by
  unfold State.cancelPhase
  dsimp only
  split <;> simp

@[simp] theorem State.rerunPhase_mem (s : State) (c : Nat) : (s.rerunPhase c).mem = s.mem := by
  unfold State.rerunPhase
  dsimp only
  split
  · rfl
  · exact foldl_mem (fun s x => by split <;> rfl) _ _

/-! ## Stacks -/

@[simp] theorem State.measure_mem (s : State) (st pin m : Nat) : (s.measure st pin m).mem = s.mem := by
  unfold State.measure
  simp [apply_ite State.mem]

@[simp] theorem State.mapOut_mem (s : State) (st pc : Nat) : (s.mapOut st pc).mem = s.mem := by
  unfold State.mapOut
  split <;> rfl

@[simp] theorem State.readEye_mem (s : State) (st : Nat) : (s.readEye st).mem = s.mem := rfl

@[simp] theorem State.stackWrite_mem (s : State) (st off : Nat) (v : Word) : (s.stackWrite st off v).mem = s.mem := by
  unfold State.stackWrite
  dsimp only
  (repeat' split) <;> simp

/-! ## Handles and landings -/

@[simp] theorem State.countAnew_mem (s : State) (sl : Nat) (dls : List Nat) : (s.countAnew sl dls).mem = s.mem := foldl_mem (by intros; rfl) _ _

@[simp] theorem State.establish_mem (s : State) (h sl : Nat) (dls : List Nat) : (s.establish h sl dls).mem = s.mem := s.countAnew_mem sl dls

@[simp] theorem State.freeHandle_mem (s : State) (h : Nat) : (s.freeHandle h).mem = s.mem := foldl_mem (by intros; rfl) _ _

@[simp] theorem State.xgo_mem (s : State) (target : Word) (loops : List Loop) : (s.xgo target loops).mem = s.mem := by
  unfold State.xgo
  simp

@[simp] theorem State.enterStage_mem (s : State) (l k : Nat) : (s.enterStage l k).mem = s.mem := by
  unfold State.enterStage
  simp [apply_ite State.mem]

@[simp] theorem State.bringUp_mem (s : State) (l : Nat) : (s.bringUp l).mem = s.mem := by
  unfold State.bringUp
  simp

@[simp] theorem State.rerunOn_mem (s : State) (x : Handle) : (s.rerunOn x).mem = s.mem := by
  unfold State.rerunOn
  split
  · exact foldl_mem (by intros; rfl) _ _
  · rfl

@[simp] theorem State.loseHandle_mem (s : State) (h : Nat) : (s.loseHandle h).mem = s.mem := by
  unfold State.loseHandle
  extract_lets x all u v
  have hu : u.mem = s.mem := (foldl_mem (by intros; rfl) _ _).trans (s.rerunOn_mem x)
  exact (foldl_mem (fun s l => s.bringUp_mem l) _ _).trans hu

/-! ## Snapshots and the page gate -/

@[simp] theorem State.sncmdBegin_mem (s : State) (ctx k : Nat) : (s.sncmdBegin ctx k).mem = s.mem := by
  unfold State.sncmdBegin
  simp [apply_ite State.mem]

@[simp] theorem State.regate_mem (s : State) (ctx : Nat) : (s.regate ctx).mem = s.mem := rfl

theorem State.copyRange_wf (s : State) (src dst len : Nat) (h : s.mem.wf = true) : (s.copyRange src dst len).mem.wf = true := by
  refine State.restoreCells_wf _ _ _ _ ?_
  rw [foldl_mem fun s g => s.readEffects_mem _ _]
  exact h

/-- The state that a gate leaves behind, whatever it says of the write. -/
def Gate.state : Gate → State
  | .go s | .wait s | .full s _ => s

theorem State.gate_wf (s : State) (ctx va : Nat) (l : Leaf) (op : Option (Nat × Nat × Bool)) (h : s.mem.wf = true) :
    (s.gate ctx va l op).state.mem.wf = true := by
  unfold State.gate
  extract_lets x l page first
  split
  · exact h
  split
  · exact h
  split
  · dsimp only [Gate.state]
    split
    · exact s.setEpoch_wf ctx va l _ h
    · exact h
  split
  · exact h
  split
  · exact h
  split
  · exact s.setEpoch_wf ctx va l _ h
  split
  · exact h
  · split <;> exact h

theorem State.commitSnapshot_wf (s : State) (ctx : Nat) (unverified : Bool) (h : s.mem.wf = true) :
    (s.commitSnapshot ctx unverified).mem.wf = true :=
  State.writeHome_wf _ _ _ (State.writeHome_wf _ _ _ h)

theorem State.sncmdCommit_wf (s : State) (ctx : Nat) (h : s.mem.wf = true) : (s.sncmdCommit ctx).mem.wf = true := by
  unfold State.sncmdCommit
  dsimp only
  split
  · exact s.commitSnapshot_wf ctx true h
  · exact h

@[simp] theorem State.sncmdRestore_mem (s : State) (ctx : Nat) : (s.sncmdRestore ctx).mem = s.mem := by
  unfold State.sncmdRestore
  split <;> rfl

theorem State.sncmd_wf (s : State) (ctx : Nat) (v : Word) (h : s.mem.wf = true) : (s.sncmd ctx v).mem.wf = true := by
  unfold State.sncmd
  split
  · simpa using h
  split
  · simpa using h
  split
  · exact s.sncmdCommit_wf ctx h
  · exact h

/-! ## Launches -/

@[simp] theorem State.holdLaunch_mem (s : State) (l : Launch) (until_ : Nat) : (s.holdLaunch l until_).mem = s.mem := foldl_mem (by intros; rfl) _ _

@[simp] theorem State.moveCoord_mem (s : State) (tile : Nat) : (s.moveCoord tile).mem = s.mem := by
  unfold State.moveCoord
  dsimp only
  split <;> simp

@[simp] theorem State.accept_mem (s : State) (l : Launch) : (s.accept l).mem = s.mem := rfl

theorem State.consume_wf (s : State) (n key : Nat) (h : s.mem.wf = true) :
    (s.consume n key).mem.wf = true :=
  State.writeHome_wf _ _ _ (State.writeHome_wf _ _ _ h)

@[simp] theorem State.performLaunch_mem (s : State) (c : Nat) (key : Nat) (joined : Bool) : (s.performLaunch c key joined).1.mem = s.mem := by
  unfold State.performLaunch
  dsimp only
  split <;> simp

@[simp] theorem State.submitChild_mem (s : State) (c ctx cid : Nat) (pool : Pool) : (s.submitChild c ctx cid pool).mem = s.mem := rfl

@[simp] theorem State.beginLoad_mem (s : State) (l : Launch) (o : Nat × Nat) : (s.beginLoad l o).mem = s.mem := by
  unfold State.beginLoad
  dsimp only
  split <;> simp

@[simp] theorem State.beginResume_mem (s : State) (l : Launch) : (s.beginResume l).mem = s.mem := rfl

@[simp] theorem State.start_mem (s : State) (l : Launch) (o : Nat × Nat) : (s.start l o).mem = s.mem := by
  unfold State.start
  simp [apply_ite State.mem]

@[simp] theorem State.release_mem (s : State) (l : Launch) : (s.release l).mem = s.mem := rfl

@[simp] theorem State.leaveCores_mem (s : State) (l : Launch) : (s.leaveCores l).mem = s.mem := by
  unfold State.leaveCores
  simp [apply_ite State.mem]

@[simp] theorem State.terminate_mem (s : State) (l : Launch) : (s.terminate l).mem = s.mem := by
  unfold State.terminate
  dsimp only
  split
  · exact (foldl_mem (by intros; rfl) _ _).trans (s.leaveCores_mem l)
  · rfl

theorem State.ringWrite_wf (s : State) (n : Nat) (r : List Byte) (h : s.mem.wf = true) : (s.ringWrite n r).mem.wf = true := by
  unfold State.ringWrite
  rw [State.modRing_mem]
  exact s.writeHome_wf _ _ h

theorem State.vput_wf (s : State) (tile ctx va : Nat) (b : List Byte) (h : s.mem.wf = true) : (s.vput tile ctx va b).mem.wf = true := by
  refine foldl_wf (fun s p hs => ?_) _ _ h
  dsimp only
  split
  · exact State.writeHome_wf _ _ _ hs
  · exact hs

theorem State.saveCore_wf (s : State) (ctx i : Nat) (c : Core) (h : s.mem.wf = true) : (s.saveCore ctx i c).mem.wf = true := by
  unfold State.saveCore
  extract_lets k u mine
  have hu : u.mem.wf = true :=
    State.restoreCells_wf _ _ _ _ (foldl_wf (fun s x hs => s.writeHome_wf _ _ hs) _ _ (s.restoreCells_wf _ _ _ h))
  exact hu

@[simp] theorem State.unjoin_mem (s : State) (l : Launch) : (s.unjoin l).mem = s.mem := foldl_mem (by intros; rfl) _ _

theorem State.saveLaunch_wf (s : State) (l : Launch) (h : s.mem.wf = true) : (s.saveLaunch l).mem.wf = true := by
  unfold State.saveLaunch
  extract_lets s1 kept imgs s2 s3 s4
  have h2 : s2.mem.wf = true := foldl_wf (fun s i hs => s.saveCore_wf _ _ _ hs) _ _ ((congrArg Memory.wf (s.unjoin_mem l)).trans h)
  have h4 : s4.mem.wf = true := State.writeHome_wf _ _ _ h2
  exact (congrArg Memory.wf (foldl_mem (by intros; rfl) _ _)).trans h4

theorem State.savePhase_wf (s : State) (l : Launch) (c : Nat) (h : s.mem.wf = true) : (s.savePhase l c).mem.wf = true := by
  unfold State.savePhase
  split
  · exact s.writeHome_wf _ _ h
  · exact h

@[simp] theorem State.resumeImage_mem (s : State) (l : Launch) (i : Image) : (s.resumeImage l i).mem = s.mem := rfl

@[simp] theorem State.rebind_mem (s : State) (c : Nat) : (s.rebind c).mem = s.mem := by
  unfold State.rebind
  simp [apply_ite State.mem]

@[simp] theorem State.resumeLaunch_mem (s : State) (l : Launch) : (s.resumeLaunch l).mem = s.mem := by
  unfold State.resumeLaunch
  extract_lets block s1 s2 s3
  have h1 : s1.mem = s.mem := foldl_mem (fun s i => s.resumeImage_mem l i) _ _
  have h2 : s2.mem = s1.mem := foldl_mem (fun s x => by dsimp only; split <;> simp) _ _
  have h3 : s3.mem = s2.mem := foldl_mem (fun s c => s.rebind_mem c) _ _
  exact h3.trans (h2.trans h1)

/-! ## The supervisor's controls -/

@[simp] theorem State.unitFault_mem (s : State) (c code : Nat) : (s.unitFault c code).mem = s.mem := rfl

@[simp] theorem State.purserFault_mem (s : State) (tile b : Nat) : (s.purserFault tile b).mem = s.mem := rfl

theorem State.grant_wf (s : State) (kind n ctx : Nat) (grant : Bool) (h : s.mem.wf = true) : (s.grant kind n ctx grant).mem.wf = true := by
  have quay : ∀ key b, (s.writeHome key b).mem.wf = true := fun key b => s.writeHome_wf key b h
  unfold State.grant
  (repeat' split) <;> first | exact h | exact quay _ _

theorem State.pgrant_wf (s : State) (tile kind n ctx : Nat) (grant : Bool) (h : s.mem.wf = true) : (s.pgrant tile kind n ctx grant).mem.wf = true := by
  unfold State.pgrant
  split
  · exact h
  · exact s.grant_wf kind n ctx grant h

@[simp] theorem State.ptermWrite_mem (s : State) (v : Word) : (s.ptermWrite v).mem = s.mem := by
  unfold State.ptermWrite
  split <;> simp

@[simp] theorem State.ppreWrite_mem (s : State) (v : Word) : (s.ppreWrite v).mem = s.mem := by
  unfold State.ppreWrite
  split
  · split <;> rfl
  · rfl

@[simp] theorem State.resumeCore_mem (s : State) (tile c : Nat) : (s.resumeCore tile c).mem = s.mem := by
  unfold State.resumeCore
  dsimp only
  (repeat' split) <;> simp

@[simp] theorem State.pintrWrite_mem (s : State) (tile : Nat) (v : Word) : (s.pintrWrite tile v).mem = s.mem := by
  unfold State.pintrWrite
  split <;> rfl

@[simp] theorem State.popTrap_mem (s : State) (tile : Nat) : (s.popTrap tile).mem = s.mem := rfl

@[simp] theorem State.dropRange_mem (s : State) (ctx va len : Nat) : (s.dropRange ctx va len).mem = s.mem := rfl

@[simp] theorem State.setRoot_mem (s : State) (ctx : Nat) (v : Word) : (s.setRoot ctx v).mem = s.mem := rfl

@[simp] theorem State.shoot_mem (s : State) (tile : Nat) (v : Word) : (s.shoot tile v).mem = s.mem := rfl

@[simp] theorem State.modAperture_mem (s : State) (n : Nat) (f : Aperture → Aperture) : (s.modAperture n f).mem = s.mem := rfl

theorem State.appendLog_wf (s : State) (ap : Nat) (rs : List (Nat × Nat)) (h : s.mem.wf = true) : (s.appendLog ap rs).mem.wf = true := by
  refine foldl_wf (fun s r hs => ?_) _ _ h
  exact State.writeHome_wf _ _ _ hs

@[simp] theorem State.replayDone_mem (s : State) (ap : Nat) : (s.replayDone ap).mem = s.mem := foldl_mem (by intros; rfl) _ _

@[simp] theorem State.purserWrite_mem (s : State) (tile n : Nat) (v : Word) : (s.purserWrite tile n v).mem = s.mem := by
  unfold State.purserWrite
  dsimp only
  split
  case h_3 => split <;> rfl
  all_goals rfl

theorem State.packageWrite_wf (s : State) (a : Nat) (v : Word) (h : s.mem.wf = true) : (s.packageWrite a v).mem.wf = true := by
  unfold State.packageWrite
  split
  · exact s.sncmd_wf _ v h
  · exact h
  · exact h
  · exact h
  · simpa using h
  · exact h

@[simp] theorem State.packageRead_mem (s : State) (a : Nat) : (s.packageRead a).2.mem = s.mem := by
  unfold State.packageRead
  split
  case h_5 => simp [apply_ite State.mem]
  all_goals rfl

theorem State.csrwPurser_wf (s : State) (n : Nat) (v : Word) (h : s.mem.wf = true) : (s.csrwPurser n v).mem.wf = true := by
  unfold State.csrwPurser
  dsimp only
  split
  case h_1 => exact s.grant_wf _ _ _ _ h
  all_goals simpa using h

/-! ## Accesses, and results that land -/

@[simp] theorem State.modAccess_mem (s : State) (c id : Nat) (f : Access → Access) : (s.modAccess c id f).mem = s.mem := rfl

@[simp] theorem State.dropAccess_mem (s : State) (c id : Nat) : (s.dropAccess c id).mem = s.mem := rfl

@[simp] theorem State.failAccess_mem (s : State) (c : Nat) (a : Access) (t : TrapInfo) (n : Nat) : (s.failAccess c a t n).mem = s.mem := by
  unfold State.failAccess
  split <;> rfl

@[simp] theorem State.reportFault_mem (s : State) (c : Nat) (a : Access) (t : TrapInfo) : (s.reportFault c a t).mem = s.mem := by
  unfold State.reportFault
  simp

theorem State.wakeTrap_wf (s : State) (c : Nat) (t : TrapInfo) (h : s.mem.wf = true) : (s.wakeTrap c t).mem.wf = true := by
  unfold State.wakeTrap
  split
  · exact h
  · rw [State.modTile_mem]
    exact State.writeHome_wf _ _ _ (by simpa using h)

@[simp] theorem State.performed_mem (s : State) (c : Nat) (a : Access) (v : Option Word) : (s.performed c a v).mem = s.mem := by
  unfold State.performed
  split <;> rfl

@[simp] theorem State.landOne_mem (s : State) (c : Nat) (f : Flight) : (s.landOne c f).mem = s.mem := by
  unfold State.landOne
  split
  · rfl
  · split
    case h_4 => split <;> rfl
    all_goals rfl

@[simp] theorem State.deblock_mem (s : State) (o : VCvOp) (x t : ElemType) (lat : Nat) :
    (s.deblock o x t lat).mem = s.mem :=
  State.vdone_mem _ _ _ _ _ _

@[simp] theorem State.vload_mem (s : State) (vd : BitVec 6) (t : ElemType) (x : Access1) (present : List Nat) :
    (s.vload vd t x present).mem = s.mem :=
  State.vdone_mem _ _ _ _ _ _

@[simp] theorem State.vstore_mem (s : State) (vd : BitVec 6) (t : ElemType) (x : Access1) (es : List Nat) :
    (s.vstore vd t x es).mem = s.mem :=
  State.vdone_mem _ _ _ _ _ _

/-! ## Copy commands -/

@[simp] theorem State.modCopy_mem (s : State) (c id : Nat) (f : CopyCmd → CopyCmd) : (s.modCopy c id f).mem = s.mem := rfl

@[simp] theorem State.rewindStream_mem (s : State) (c : Nat) (k : CopyCmd) (t : TrapInfo) : (s.rewindStream c k t).mem = s.mem := rfl

@[simp] theorem State.rewindCopy_mem (s : State) (c : Nat) (k : CopyCmd) (t : TrapInfo) : (s.rewindCopy c k t).mem = s.mem := by
  unfold State.rewindCopy
  split <;> rfl

@[simp] theorem State.schedule_mem (s : State) (c : Nat) (k : CopyCmd) : (s.schedule c k).mem = s.mem := by
  unfold State.schedule
  dsimp only
  (repeat' split) <;> simp

@[simp] theorem State.readPages_mem (s : State) (k : CopyCmd) (va n : Nat) : (s.readPages k va n).mem = s.mem := by
  unfold State.readPages
  simp

@[simp] theorem State.poisonDst_mem (s : State) (c : Nat) (k : CopyCmd) (a n : Nat) : (s.poisonDst c k a n).mem = s.mem := by
  unfold State.poisonDst
  simp [apply_ite State.mem]

theorem State.writeDst_wf (s : State) (c : Nat) (k : CopyCmd) (a : Nat) (b : List Byte) (h : s.mem.wf = true) : (s.writeDst c k a b).mem.wf = true := by
  unfold State.writeDst
  split
  · exact h
  split
  · exact h
  split
  · exact foldl_wf (fun s p hs => s.writeHome_wf _ _ hs) _ _ h
  · exact h

theorem State.moveSpan_wf (old s : State) (c : Nat) (k : CopyCmd) (x : Span) (h : s.mem.wf = true) :
    (State.moveSpan old s c k x).1.mem.wf = true := by
  unfold State.moveSpan
  refine (congrArg Memory.wf (foldl_mem (fun s p => s.poisonDst_mem c k _ _) _ _)).trans (State.writeDst_wf _ _ _ _ _ ?_)
  split
  · simpa using h
  · exact h

@[simp] theorem State.finishCopy_mem (s : State) (c id : Nat) : (s.finishCopy c id).mem = s.mem := rfl

@[simp] theorem State.setTags_mem (s : State) (c : Nat) (k : CopyCmd) (tile : BitVec 32768) : (s.setTags c k tile).mem = s.mem := by
  unfold State.setTags
  split
  · rfl
  split
  · rfl
  split
  · rfl
  split <;> rfl

@[simp] theorem State.spoil_mem (s : State) (c : Nat) (k : CopyCmd) : (s.spoil c k).mem = s.mem := by
  unfold State.spoil
  split <;> rfl

theorem State.moveCopy_wf (s : State) (c : Nat) (k : CopyCmd) (h : s.mem.wf = true) : (s.moveCopy c k).mem.wf = true := by
  unfold State.moveCopy
  extract_lets kept sp before tile r t u
  have hr : r.1.mem.wf = true := by
    refine List.foldlRecOn (motive := fun acc : State × Bool => acc.1.mem.wf = true) sp _ ?_ fun acc hacc x _ => State.moveSpan_wf _ _ c k x hacc
    dsimp only
    split <;> exact h
  have hu : u.mem.wf = true := by simpa [u, t] using hr
  split
  · simpa using hu
  · exact hu

theorem BinRun.open_wf (r : BinRun) (c : Nat) (k : CopyCmd) (va n : Nat) (h : r.s.mem.wf = true) : (r.open_ c k va n).s.mem.wf = true := by
  unfold BinRun.open_
  split
  · exact h
  · refine List.foldlRecOn (motive := fun r : BinRun => r.s.mem.wf = true) _ _ h fun r hr p _ => ?_
    split
    · exact hr
    split
    · exact hr
    split
    · exact hr
    · rename_i l _ _
      have hg := r.s.gate_wf (r.s.ctxOf c) p.1 l (some (c, k.id, true)) hr
      split <;> (rename_i e; rw [e] at hg; exact hg)

theorem BinRun.bump_wf (r : BinRun) (c : Nat) (k : CopyCmd) (e : BinEntry) (always : Bool) (h : r.s.mem.wf = true) :
    (r.bump c k e always).1.s.mem.wf = true := by
  unfold BinRun.bump
  have hr := r.open_wf c k e.ctr 8 h
  generalize r.open_ c k e.ctr 8 = r at hr
  dsimp only
  split
  · exact hr
  split
  · exact hr
  · next l _ _ =>
    rw [← State.readEffects_mem r.s (l.key e.ctr) 8] at hr
    split
    · exact hr
    split
    · exact State.writeHome_wf _ _ _ hr
    · exact hr

theorem BinRun.row_wf (r : BinRun) (c : Nat) (k : CopyCmd) (b : BinRec) (tab : Nat → Option BinEntry) (row : Nat) (i : Int)
    (h : r.s.mem.wf = true) : (r.row c k b tab row i).s.mem.wf = true := by
  have put (r : BinRun) (va n : Nat) (x : Span) (h : r.s.mem.wf = true) : (if (r.open_ c k va n).over then r.open_ c k va n
      else { r.open_ c k va n with rows := (r.open_ c k va n).rows ++ [x] }).s.mem.wf = true := by
    split <;> exact r.open_wf c k va n h
  have bump (r : BinRun) (e : BinEntry) (always : Bool) (h : r.s.mem.wf = true) := r.bump_wf c k e always h
  unfold BinRun.row
  dsimp only
  generalize (if i < 0 ∨ (b.nb : Int) ≤ i then b.nb else i.toNat) = n
  split
  · exact h
  split
  · exact bump _ _ _ h
  split
  · exact put _ _ _ _ (bump _ _ _ h)
  split
  · split
    · exact bump _ _ _ h
    split
    · exact bump _ _ _ (bump _ _ _ h)
    split
    · exact put _ _ _ _ (bump _ _ _ (bump _ _ _ h))
    · exact bump _ _ _ (bump _ _ _ h)
  · exact bump _ _ _ h

theorem State.takeBin_wf (s : State) (c : Nat) (k : CopyCmd) (h : s.mem.wf = true) : (s.takeBin c k).mem.wf = true := by
  have rows (l : List (Int × Nat)) (r0 : BinRun) (b : BinRec) (tab : Nat → Option BinEntry) (h0 : r0.s.mem.wf = true) :
      (l.foldl (fun (r : BinRun) x => if r.over then r else r.row c k b tab x.2 x.1) r0).s.mem.wf = true := by
    refine List.foldlRecOn (motive := fun r : BinRun => r.s.mem.wf = true) _ _ h0 fun r hr x _ => ?_
    split
    · exact hr
    · exact r.row_wf c k b tab _ _ hr
  unfold State.takeBin
  extract_lets b t entry tab junk r0 bad r
  have h0 : r0.s.mem.wf = true := by simpa [r0] using h
  have hr : r.s.mem.wf = true := by
    unfold r
    split
    · exact h0
    · exact rows _ _ _ _ h0
  split
  · exact h
  split
  · exact h
  · rw [State.modCopy_mem, foldl_mem fun s p => s.cacheLeaf_mem _ _ _ _]
    exact hr

theorem State.gates_wf (s : State) (c : Nat) (k : CopyCmd) (vas : List (Nat × Leaf)) (h : s.mem.wf = true) :
    (s.gates c k vas).state.mem.wf = true := by
  refine List.foldlRecOn (motive := fun g : Gate => g.state.mem.wf = true) _ _ h fun g hg p _ => ?_
  split
  · exact State.gate_wf _ _ _ _ _ hg
  · exact hg

theorem State.passGate_wf (s : State) (c : Nat) (k : CopyCmd) (h : s.mem.wf = true) : (s.passGate c k).mem.wf = true := by
  unfold State.passGate
  dsimp only
  split
  · exact h
  split
  · have hg := s.gates_wf c k (k.pages.filter fun p => k.writes.contains p.1) h
    split <;> (rename_i e; rw [e] at hg; exact hg)
  split
  · exact s.takeBin_wf c k h
  · exact h

theorem State.armCopies_wf (s : State) (c : Nat) (h : s.mem.wf = true) : (s.armCopies c).mem.wf = true := by
  have each_wf (f : State → Nat → CopyCmd → State) (hf : ∀ u c k, u.mem.wf = true → (f u c k).mem.wf = true) (u : State)
      (hu : u.mem.wf = true) : ((u.core c).copies.foldl (fun (s : State) k =>
        match (s.core c).copy? k.id with | some k => f s c k | none => s) u).mem.wf = true := by
    refine foldl_wf (fun s k hs => ?_) _ _ hu
    split
    · exact hf _ _ _ hs
    · exact hs
  have hp := each_wf State.passGate (fun u c k => u.passGate_wf c k) s h
  have hs := each_wf State.schedule (fun u c k hu => by simpa using hu) _ hp
  unfold State.armCopies
  dsimp only
  split
  · exact h
  · rw [State.modCore_mem]
    exact hs

theorem State.vwrite_wf (s : State) (c : Nat) (k : CopyCmd) (va : Nat) (b : List Byte) (h : s.mem.wf = true) : (s.vwrite c k va b).mem.wf = true := by
  unfold State.vwrite
  dsimp only
  split
  · exact h
  · refine foldl_wf (fun s p hs => ?_) _ _ (BinRun.open_wf _ c k va _ h)
    split
    · exact State.writeHome_wf _ _ _ hs
    · exact hs

@[simp] theorem State.zeroSend_mem (s : State) (c : Nat) (k : CopyCmd) : (s.zeroSend c k).mem = s.mem := by
  unfold State.zeroSend
  split <;> rfl

/-! ## Near-memory units, sends and arrivals -/

@[simp] theorem State.redDone_mem (s : State) (o : VRed) (lat occ : Nat) (effs : List Eff) : (s.redDone o lat occ effs).mem = s.mem := by
  unfold State.redDone
  split <;> simp

@[simp] theorem State.setCarry_mem (s : State) (o : VRed) (c : Carry) : (s.setCarry o c).mem = s.mem := by
  unfold State.setCarry
  split <;> rfl

@[simp] theorem State.nearReads_mem (s : State) (k : CopyCmd) (n : NearRec) : (s.nearReads k n).mem = s.mem := by
  unfold State.nearReads
  extract_lets es u
  have hu : u.mem = s.mem := foldl_mem (fun s e => by simp [apply_ite State.mem]) _ _
  split
  · exact (State.noteCorrected_mem _ _).trans hu
  · exact hu
  · split <;> exact hu
  · exact hu

theorem State.nearGranule_wf (s : State) (k : CopyCmd) (n : NearRec) (bad : Bool) (kept : Nat → Bool)
    (vals : List (Nat × Nat)) (h : s.mem.wf = true) : (s.nearGranule k n bad kept vals).mem.wf = true := by
  unfold State.nearGranule
  extract_lets va
  split
  · exact h
  split
  · exact h
  split
  · exact foldl_wf (fun s x hs => s.writeHome_wf _ _ hs) _ _ h
  · exact s.writeHome_wf _ _ h

theorem State.runChunk_wf (s : State) (c : Nat) (k : CopyCmd) (h : s.mem.wf = true) : (s.runChunk c k).mem.wf = true := by
  refine foldl_wf (fun s g hs => s.nearGranule_wf _ _ _ _ _ hs) _ _ ?_
  simpa using h

@[simp] theorem State.armSend_mem (s : State) (h : Nat) : (s.armSend h).mem = s.mem := by
  unfold State.armSend
  dsimp only
  (repeat' split) <;> simp

@[simp] theorem State.armSends_mem (s : State) : (s.armSends).mem = s.mem := foldl_mem (fun _ h => foldl_mem (fun s _ => s.armSend_mem h) _ _) _ _

@[simp] theorem State.noteBuffer_mem (s : State) (h : Nat) : (s.noteBuffer h).mem = s.mem := foldl_mem (by intros; rfl) _ _

@[simp] theorem State.noteBuffers_mem (s : State) : (s.noteBuffers).mem = s.mem := by
  unfold State.noteBuffers
  simp

theorem State.writeBinding_wf (s : State) (c : Nat) (k : CopyCmd) (v : RecvRec) (off : Nat) (b : List Byte) (h : s.mem.wf = true) :
    (s.writeBinding c k v off b).mem.wf = true := by
  unfold State.writeBinding
  split
  · exact h
  split
  · exact h
  · exact s.writeDst_wf c k _ b h

@[simp] theorem State.bindingComplete_mem (s : State) (h c : Nat) (k : CopyCmd) (v : RecvRec) : (s.bindingComplete h c k v).mem = s.mem := by
  unfold State.bindingComplete
  simp [apply_ite State.mem]

theorem State.deliverRuns_wf (s : State) (h c : Nat) (k : CopyCmd) (runs : List (Int × List Byte × Bool)) (tag : Option (BitVec 16))
    (wf : s.mem.wf = true) : (s.deliverRuns h c k runs tag).mem.wf = true := by
  unfold State.deliverRuns
  extract_lets v cut s1 wrote lost slots s2 s3 s4
  have h1 : s1.mem.wf = true := by
    refine foldl_wf (fun s r hs => ?_) _ _ wf
    have hw := s.writeBinding_wf c k v r.1.1 r.1.2.1 hs
    split
    · simpa using hw
    · exact hw
  have h2 : s2.mem.wf = true := by
    unfold s2
    split
    · split
      · exact h1
      · split <;> exact h1
    · exact h1
  have h3 : s3.mem.wf = true := by
    unfold s3
    split <;> exact h2
  split
  · simpa [s4] using h3
  · exact h3

@[simp] theorem State.bufferArrival_mem (s : State) (c : Nat) (k : CopyCmd) (dl : Nat) : (s.bufferArrival c k dl).mem = s.mem := by
  unfold State.bufferArrival
  simp [apply_ite State.mem]

@[simp] theorem State.flitsMoved_mem (s : State) (l n : Nat) : (s.flitsMoved l n).mem = s.mem := rfl

@[simp] theorem State.flitsCame_mem (s : State) (dl n : Nat) : (s.flitsCame dl n).mem = s.mem := rfl

@[simp] theorem State.leaveBy_mem (s : State) (dl : Nat) (p : Parcel) : (s.leaveBy dl p).mem = s.mem := rfl

theorem State.partArrival_wf (s : State) (h dl : Nat) (wf : s.mem.wf = true) : (s.partArrival h dl).mem.wf = true := by
  unfold State.partArrival
  split
  · exact wf
  split
  · exact wf
  split
  · exact wf
  · refine foldl_wf (fun s r hs => ?_) _ _ wf
    split
    · simpa using State.writeBinding_wf _ _ _ _ _ _ hs
    · exact State.writeBinding_wf _ _ _ _ _ _ hs

theorem State.breakHandle_wf (s : State) (h : Nat) (wf : s.mem.wf = true) : (s.breakHandle h).mem.wf = true :=
    (congrArg Memory.wf (State.loseHandle_mem _ h)).trans (foldl_wf (fun s d hs => s.partArrival_wf h d hs) _ _ wf)

/-! ## Landings, notes and groups -/

@[simp] theorem State.acceptFlit_mem (s : State) (l : Nat) (src : Option Nat) (flit : List Byte) : (s.acceptFlit l src flit).mem = s.mem := by
  unfold State.acceptFlit
  split <;> rfl

@[simp] theorem State.routeOverflow_mem (s : State) (l : Nat) : (s.routeOverflow l).mem = s.mem := by
  unfold State.routeOverflow
  split
  · split
    · exact foldl_mem (by intros; rfl) _ _
    · rfl
  · rfl

@[simp] theorem State.monitor_mem (s : State) (l rail b : Nat) : (s.monitor l rail b).mem = s.mem := by
  unfold State.monitor
  dsimp only
  split
  · split
    · exact foldl_mem (by intros; rfl) _ _
    · rfl
  · rfl

@[simp] theorem State.modColl_mem (s : State) (id : Nat) (f : Coll → Coll) : (s.modColl id f).mem = s.mem := rfl

@[simp] theorem State.tell_mem (s : State) (note : Note) : (s.tell note).mem = s.mem := rfl

@[simp] theorem State.tellColl_mem (s : State) (note : Note) (ctx : Nat) (team : Nat × Nat × Nat × Nat) (k : Nat) (f : Coll → Coll) :
    (s.tellColl note ctx team k f).mem = s.mem := by
  unfold State.tellColl
  split
  · rfl
  · split <;> rfl

@[simp] theorem State.dropPeer_mem (s : State) (peer : Nat) (ranges : List (Nat × Nat)) : (s.dropPeer peer ranges).mem = s.mem := rfl

@[simp] theorem State.send_mem (s : State) (ap : Nat) (note : Note) : (s.send ap note).mem = s.mem := rfl

@[simp] theorem State.relayOver_mem (s : State) (core cmd : Nat) : (s.relayOver core cmd).mem = s.mem := rfl

@[simp] theorem State.stopMember_mem (s : State) (g m : Nat) (code : Nat) (va : Nat) : (s.stopMember g m code va).mem = s.mem := by
  unfold State.stopMember
  dsimp only
  split <;> rfl

@[simp] theorem State.tellCount_mem (s : State) (g m n : Nat) : (s.tellCount g m n).mem = s.mem := by
  unfold State.tellCount
  split
  · split <;> rfl
  · rfl

@[simp] theorem State.noteGaps_mem (s : State) : (s.noteGaps).mem = s.mem := rfl

/-! ## Collectives -/

@[simp] theorem State.joinColl_mem (s : State) (c : Nat) (k : CopyCmd) : (s.joinColl c k).mem = s.mem := by
  unfold State.joinColl
  split
  · rfl
  dsimp only
  split
  · rfl
  · split <;> rfl

@[simp] theorem State.armColls_mem (s : State) (c : Nat) : (s.armColls c).mem = s.mem := by
  refine foldl_mem (fun s k => ?_) _ _
  split
  · split
    · exact s.joinColl_mem c _
    · rfl
  · rfl

theorem State.collWrite_wf (s t : State) (x : Coll) (y : Member) (top : Nat) (h : t.mem.wf = true) : (s.collWrite t x y top).mem.wf = true := by
  unfold State.collWrite
  dsimp only
  split
  · exact h
  · refine foldl_wf (fun t g ht => ?_) _ _ h
    split <;> split <;> first | exact State.writeHome_wf _ _ _ ht | exact foldl_wf (fun t v ht => t.writeHome_wf _ _ ht) _ _ ht

@[simp] theorem State.oweBad_mem (s t : State) (x : Coll) : (s.oweBad t x).mem = t.mem := by
  refine foldl_mem (fun t y => ?_) _ _
  split
  · split <;> rfl
  · rfl

@[simp] theorem State.readShards_mem (s : State) (x : Coll) : (s.readShards x).mem = s.mem := by
  refine foldl_mem (fun t y => ?_) _ _
  split
  · exact t.readPages_mem _ _ _
  · rfl

theorem State.runColl_wf (s : State) (x : Coll) (h : s.mem.wf = true) : (s.runColl x).mem.wf = true := by
  refine (congrArg Memory.wf (s.oweBad_mem _ x)).trans (foldl_wf (fun t y ht => s.collWrite_wf t x y _ ht) _ _ ?_)
  simpa using h

theorem State.writeKept_wf (s : State) (x : Coll) (y : Member) (k : CopyCmd) (h : s.mem.wf = true) : (s.writeKept x y k).mem.wf = true := by
  unfold State.writeKept
  split
  · exact h
  · refine State.vwrite_wf _ _ _ _ _ (foldl_wf (fun t e ht => ?_) _ _ h)
    dsimp only
    split <;> exact t.writeHome_wf _ _ ht

/-! ## Records, clocks and boot -/

theorem State.writeEvent_wf (s : State) (ring code place stat : Nat) (h : s.mem.wf = true) : (s.writeEvent ring code place stat).mem.wf = true := by
  unfold State.writeEvent
  dsimp only
  split
  · exact s.writeHome_wf _ _ h
  · split
    · exact s.ringWrite_wf ring _ h
    · simpa using h

@[simp] theorem State.decideClock_mem (s : State) (down : Bool) : (s.decideClock down).mem = s.mem := rfl

@[simp] theorem State.stepDown_mem (s : State) : (s.stepDown).mem = s.mem := by
  unfold State.stepDown
  split <;> rfl

@[simp] theorem State.bootLandings_mem (s : State) : (s.bootLandings).mem = s.mem := foldl_mem (fun s l => by split <;> simp) _ _

@[simp] theorem State.bootScans_mem (s : State) : (s.bootScans).mem = s.mem := rfl

@[simp] theorem State.bootPursers_mem (s : State) : (s.bootPursers).mem = s.mem := State.bootPursers_keeps State.mem (fun _ _ _ => rfl) s

@[simp] theorem State.trainStacks_mem (s : State) (full : Nat → Bool) (n : Nat) : (s.trainStacks full n).mem = s.mem := rfl

/-! ## Matrix words, loops and tags -/

@[simp] theorem State.mdone_mem (s : State) (u occ : Nat) (effs : List (Nat × List Eff)) : (s.mdone u occ effs).mem = s.mem := by
  refine (State.advance_mem _).trans (foldl_mem (by intros; rfl) _ _)

@[simp] theorem State.beginLoop_mem (s : State) (lv : BitVec 1) (len : Nat) (trips : Nat) (stages : Option (PReg × Nat × Nat)) (effs : List Eff) :
    (s.beginLoop lv len trips stages effs).mem = s.mem := by
  unfold State.beginLoop
  simp [apply_ite State.mem]

@[simp] theorem State.tagScrub_mem (s : State) : (s.tagScrub).mem = s.mem := foldl_mem (by intros; rfl) _ _

/-! ## The end of a tick -/

@[simp] theorem State.notePoint_mem (s : State) (c : Nat) : (s.notePoint c).mem = s.mem := by
  unfold State.notePoint
  simp [apply_ite State.mem]

@[simp] theorem State.notePoints_mem (s : State) : (s.notePoints).mem = s.mem := by
  refine (foldl_mem (fun s l => foldl_mem (by intros; rfl) _ _) _ _).trans (foldl_mem (fun s c => ?_) _ _)
  split
  · rfl
  · exact s.notePoint_mem c

@[simp] theorem State.freezeLaunch_mem (s : State) (l : Launch) (c : Nat) : (s.freezeLaunch l c).mem = s.mem := by
  unfold State.freezeLaunch
  simp [apply_ite State.mem]

@[simp] theorem State.stopCore_mem (s : State) (c : Nat) (t : TrapInfo) : (s.stopCore c t).mem = s.mem := by
  unfold State.stopCore
  dsimp only
  (repeat' split) <;> simp

@[simp] theorem State.takeFault_mem (s : State) (c : Nat) : (s.takeFault c).mem = s.mem := by
  unfold State.takeFault
  dsimp only
  (repeat' split) <;> simp

@[simp] theorem State.takeFaults_mem (s : State) : (s.takeFaults).mem = s.mem := by
  unfold State.takeFaults
  simp [apply_ite State.mem]

@[simp] theorem State.reachFreezes_mem (s : State) : (s.reachFreezes).mem = s.mem := rfl

theorem State.armAll_wf (s : State) (h : s.mem.wf = true) : (s.armAll).mem.wf = true := by
  unfold State.armAll
  extract_lets cs u
  have hu : u.mem.wf = true := foldl_wf (fun s c hs => s.armCopies_wf c hs) _ _ h
  rw [State.noteBuffers_mem, foldl_mem (fun s c => s.armColls_mem c), State.armSends_mem]
  exact hu

@[simp] theorem State.noteArrivals_mem (s : State) : (s.noteArrivals).mem = s.mem := rfl

@[simp] theorem State.ageHandles_mem (s : State) : (s.ageHandles).mem = s.mem := rfl

@[simp] theorem State.noteReady_mem (s : State) : (s.noteReady).mem = s.mem := rfl

@[simp] theorem State.advanceLaunches_mem (s : State) : (s.advanceLaunches).mem = s.mem := rfl

@[simp] theorem State.advanceCores_mem (s : State) : (s.advanceCores).mem = s.mem := rfl

@[simp] theorem State.thaw_mem (s : State) : (s.thaw).mem = s.mem := by
  refine foldl_mem (fun s l => ?_) _ _
  dsimp only
  split
  · exact foldl_mem (by intros; rfl) _ _
  · rfl

@[simp] theorem State.eachPeriod_mem (s : State) (before period : Nat) (i : Instr) : (s.eachPeriod before period i).mem = s.mem := by
  unfold State.eachPeriod
  split
  · rfl
  · exact foldl_mem (by intros; rfl) _ _

@[simp] theorem State.scrubs_mem (s : State) (before : Nat) : (s.scrubs before).mem = s.mem := by
  unfold State.scrubs
  extract_lets past u
  have hu : u.mem = s.mem := by
    unfold u
    split
    · exact foldl_mem (by intros; rfl) _ _
    · rfl
  split
  · exact (foldl_mem (by intros; rfl) _ _).trans ((foldl_mem (fun _ _ => foldl_mem (by intros; rfl) _ _) _ _).trans hu)
  · exact hu

@[simp] theorem State.advanceClocks_mem (s : State) : (s.advanceClocks).mem = s.mem := by
  unfold State.advanceClocks
  simp

@[simp] theorem State.latchWaits_mem (s : State) : (s.latchWaits).mem = s.mem := rfl

@[simp] theorem State.upset_mem (s : State) (e : Nat × Nat × Nat) : (s.upset e).mem = s.mem := by
  unfold State.upset
  split <;> rfl

@[simp] theorem State.upsets_mem (s : State) : (s.upsets).mem = s.mem := by
  unfold State.upsets
  simp

theorem State.edge_wf (s : State) (h : s.mem.wf = true) : (s.edge).mem.wf = true := by
  simpa [State.edge] using s.armAll_wf h

/-! ## A stream's slot -/

@[simp] theorem State.passAnnulled_mem (s : State) : (s.passAnnulled).mem = s.mem := by
  unfold State.passAnnulled
  simp

@[simp] theorem State.passGuarded_mem (s : State) (i : Instr) : (s.passGuarded i).mem = s.mem := by
  unfold State.passGuarded
  split <;> simp

@[simp] theorem State.noteProducer_mem (s : State) (before : StreamSt) : (s.noteProducer before).mem = s.mem := by
  unfold State.noteProducer
  dsimp only
  split <;> rfl

@[simp] theorem State.settled_mem (s : State) : (s.settled).mem = s.mem := by
  unfold State.settled
  split <;> rfl

@[simp] theorem State.raiseOwed_mem (s : State) (t : TrapInfo) : (s.raiseOwed t).mem = s.mem := rfl

@[simp] theorem State.fetchFault_mem (s : State) (code : Nat) : (s.fetchFault code).mem = s.mem := by
  unfold State.fetchFault
  split <;> simp

end Sys2Proof.Machine
end

section
/-! PROOF. The words of every stream keep the canonical form of package memory (08 R232; O59). -/

namespace Sys2Proof.Machine

@[simp] theorem State.startAccess_mem (s : State) (k : AccKind) (va : Word) (ac : BitVec 3) (rd : SReg) (v c : Word) (p : Pool) :
    (s.startAccess k va ac rd v c p).mem = s.mem := rfl

/-- Whatever an outcome leads to has its package memory in canonical form. -/
def Canonical (o : Host.Outcome State Fault Refusal) : Prop := ∀ t, o = .next t → t.mem.wf = true

@[simp] theorem canonical_next (t : State) : Canonical (.next t) ↔ t.mem.wf = true := by simp [Canonical]

@[simp] theorem canonical_fault (f : Fault) : Canonical (.fault f) := by simp [Canonical]

@[simp] theorem canonical_refused (r : Refusal) : Canonical (.refused r) := by simp [Canonical]

theorem canonical_perform {s : State} (h : s.mem.wf = true) {v : Verdict} {eff : State → State} (he : (eff s).mem.wf = true) :
    Canonical (s.perform v eff) := by
  unfold State.perform
  split
  · simpa using he
  · split <;> simpa using h
  · simpa using h

theorem canonical_performH {s : State} (h : s.mem.wf = true) {n : Nat} {v : Verdict} {eff : State → State} (he : (eff s).mem.wf = true) :
    Canonical (s.performH n v eff) := by
  unfold State.performH
  dsimp only
  split
  · simpa using he
  · split
    · simpa using h
    · split <;> simpa using h
  · split <;> simpa using h

theorem execExit_canonical (s : State) (h : s.mem.wf = true) : Canonical (execExit s) := by
  unfold execExit
  split
  · exact (canonical_next _).2 h
  · exact canonical_perform h (by simpa using h)

theorem execRetire_canonical (s : State) (h : s.mem.wf = true) : Canonical (execRetire s) := by
  unfold execRetire
  refine canonical_perform h ?_
  simpa using h

theorem execCfence_canonical (s : State) (h : s.mem.wf = true) : Canonical (execCfence s) := by
  exact canonical_perform h (by simpa using h)

theorem execXend_canonical (s : State) (h : s.mem.wf = true) : Canonical (execXend s) := by
  exact canonical_perform h (by simpa using h)

theorem execHret_canonical (s : State) (h : s.mem.wf = true) : Canonical (execHret s) := by
  refine canonical_perform h ?_
  split <;> simpa using h

theorem execHesc_canonical (s : State) (h : s.mem.wf = true) : Canonical (execHesc s) := by
  refine canonical_perform h ?_
  dsimp only
  rw [State.modMe_mem, State.modTile_mem]
  exact s.writeHome_wf _ _ h

theorem execEndStream_canonical (s : State) (h : s.mem.wf = true) : Canonical (execEndStream s) := by
  unfold execEndStream State.control
  refine canonical_perform h ?_
  simpa using h

section
variable {s : State} (h : s.mem.wf = true)
include h

/-- A checked word whose effect leaves the memory alone. -/
theorem canonical_same {v : Verdict} {eff : State → State} (he : (eff s).mem = s.mem) : Canonical (s.perform v eff) :=
  canonical_perform h (he.symm ▸ h)

theorem canonical_sameH {n : Nat} {v : Verdict} {eff : State → State} (he : (eff s).mem = s.mem) : Canonical (s.performH n v eff) :=
  canonical_performH h (he.symm ▸ h)

theorem canonical_setS (lat : Nat) (rd : SReg) (v : Word) : Canonical (s.setS lat rd v) := canonical_same h (State.write_mem s _ _)

theorem canonical_setP (v : Verdict) (pd : PReg) (b : Bool) : Canonical (s.setP v pd b) := canonical_same h (State.write_mem s _ _)

theorem execYieldptHold_canonical (ra : SReg) (n : BitVec 24) : Canonical (execYieldptHold ra n s) := by
  unfold execYieldptHold
  dsimp only
  split <;> exact canonical_same h (by simp)

theorem tbar_canonical (ra : SReg) (desc : BitVec 7) (dl : BitVec 1) (sync : Bool) : Canonical (s.tbar ra desc dl sync) := by
  unfold State.tbar
  refine canonical_same h ?_
  extract_lets d r k
  split <;> simp [r]

theorem execTstart_canonical (ra : SReg) : Canonical (execTstart ra s) := by
  have htstart (pa : Nat) : (s.tstart pa).1.mem = s.mem := by
    unfold State.tstart
    dsimp only
    split
    · rfl
    split
    · rfl
    split
    · split <;> simp
    split
    · rfl
    · split <;> simp
  unfold execTstart
  exact canonical_same h (by simp [htstart])

theorem execCsrw_canonical (csr : BitVec 12) (ra : SReg) : Canonical (execCsrw csr ra s) := by
  unfold execCsrw
  refine canonical_perform h ?_
  split
  · simpa using s.csrwPurser_wf _ _ h
  · (repeat' split) <;> simpa using h

variable {i : Instr}

theorem helmWord_canonical (hw : i.streams = [.helm]) : Canonical (exec i s) := by
  cases i with
  | add | sub | and | or | xor | andn | sll | srl | sra | mul | mulh | mulhu | addi | andi | ori | xori | ldi | seth | slt | sltu | slti | min
  | max | minu | maxu | clz | ctz | popc | brev => exact canonical_setS h _ _ _
  | cmpeq | cmpne | cmplt | cmpltu | cmple | cmpleu | pand | por | pxor | pnot | pset | pfrom =>
    dsimp only [exec, execCmpeq, execCmpne, execCmplt, execCmpltu, execCmple, execCmpleu, execPand, execPor, execPxor, execPnot, execPset,
      execPfrom]
    exact canonical_setP h _ _ _
  | div | divu | rem | remu | slli | srli | srai | bext | bexts | bins | fshl | fshr =>
    dsimp only [exec, execDiv, execDivu, execRem, execRemu, State.divide, execSlli, execSrli, execSrai, execBext, execBexts, execBins, execFshl,
      execFshr, State.shiftImm, State.field, State.funnel]
    exact canonical_same h (by simp)
  | pclr | ptos | ldc | qrecv | qpeek | bind | phasec | shinv | shld | phaseb | taglk =>
    dsimp only [exec, execPclr, execPtos, execLdc, execQrecv, execQpeek, execBind, execPhasec, execShinv, execShld, execPhaseb, execTaglk]
    exact canonical_same h (by simp)
  | brt | brf | brtn | brfn | rel | csrr =>
    dsimp only [exec, execBrt, execBrf, execBrtn, execBrfn, execRel, execCsrr]
    refine canonical_same h ?_
    split <;> simp
  | br | jmpr | call | callr | ret | trap | syscall | mwait =>
    dsimp only [exec, execBr, execJmpr, execCall, execCallr, execRet, execTrap, execSyscall, execMwait]
    exact canonical_same h (by simp)
  | exit => exact execExit_canonical s h
  | ld8 | ld8s | ld16 | ld16s | ld32 | ld32s | ld64 | st8 | st16 | st32 | st64 =>
    dsimp only [exec, execLd8, execLd8s, execLd16, execLd16s, execLd32, execLd32s, execLd64, execSt8, execSt16, execSt32, execSt64, State.load,
      State.store]
    exact canonical_same h (by simp)
  | aadd | aaddf | aswap | acas | amin | amax | abump | acq | mstore | launch | fence | qsend =>
    dsimp only [exec, execAadd, execAaddf, execAswap, execAcas, execAmin, execAmax, execAbump, execAcq, execMstore, execLaunch, State.atomic,
      execFence, execQsend]
    exact canonical_same h (by simp)
  | tagset | tagclr =>
    dsimp only [exec, execTagset, execTagclr]
    exact canonical_same h (by simp)
  | twait | waitid | waitidLaunch | waitq =>
    dsimp only [exec, execTwait, execWaitid, execWaitidLaunch, execWaitq]
    exact canonical_same h (by simp)
  | tbar | tbarSync => exact tbar_canonical h _ _ _ _
  | yieldpt =>
    dsimp only [exec, execYieldpt]
    refine canonical_same h ?_
    split <;> simp
  | yieldptHold => exact execYieldptHold_canonical h _ _
  | csrw => exact execCsrw_canonical h _ _
  | hret => exact execHret_canonical s h
  | hesc => exact execHesc_canonical s h
  | tstart => exact execTstart_canonical h _
  | _ => exact nomatch hw

theorem execVcvt_canonical (o : VCvOp) : Canonical (execVcvt o s) := by
  unfold execVcvt
  dsimp only
  split
  · exact canonical_same h (by simp)
  · unfold State.vconvert
    exact canonical_same h (by simp)

theorem execVquant_canonical (o : VCvOp) : Canonical (execVquant o s) := by
  unfold execVquant
  refine canonical_same h ?_
  dsimp only
  split <;> simp

theorem vectorWord_canonical (hw : i.streams = [.vector]) : Canonical (exec i s) := by
  cases i with
  | vadd | vsub | vmul | vfma | vfms | vfnma | vmin | vmax | vabs | vneg | vdiv | vsqrt | vcmp =>
    dsimp only [exec, execVadd, execVsub, execVmul, execVfma, execVfms, execVfnma, execVmin, execVmax, execVabs, execVneg, execVdiv, execVsqrt,
      execVcmp, State.varith]
    exact canonical_same h (by simp)
  | vrcp | vrsq | vexp2 | vlog2 | vand | vor | vxor | vshl | vshr | vsra | vbext | vfsh | vpopc | vclz =>
    dsimp only [exec, execVrcp, execVrsq, execVexp2, execVlog2, execVand, execVor, execVxor, execVshl, execVshr, execVsra, execVbext, execVfsh,
      execVpopc, execVclz, State.vapprox, State.vbits]
    exact canonical_same h (by simp)
  | vsel | vmov | vbcast | viota | vperm | vextr | vpart =>
    dsimp only [exec, execVsel, execVmov, execVbcast, execViota, execVperm, execVextr, execVpart]
    exact canonical_same h (by simp)
  | vcvt => exact execVcvt_canonical h _
  | vpack | vunpack | vdeq =>
    dsimp only [exec, execVpack, execVunpack, State.vconvert, execVdeq]
    exact canonical_same h (by simp)
  | vquant => exact execVquant_canonical h _
  | vrsum | vrmax | vrmin | vscan | vrnorm | vrsmax =>
    dsimp only [exec, execVrsum, execVrmax, execVrmin, execVscan, execVrnorm, execVrsmax, State.reduce, State.normalise]
    exact canonical_same h (by simp)
  | vldr | vld | vlds | vgath | vst | vsts | vscat =>
    dsimp only [exec, execVldr, execVld, execVlds, execVgath, execVst, execVsts, execVscat, State.vloadWord, State.vstoreWord]
    exact canonical_same h (by simp)
  | _ => exact nomatch hw

theorem matrixWord_canonical (hw : i.streams = [.matrix]) : Canonical (exec i s) := by
  cases i with
  | mldt | mstt | mlds | mlda | msta | mzero | mzeroRelease | mband | mtrn | mma | mmar | mout | moutq =>
    dsimp only [exec, execMldt, execMstt, execMlds, execMlda, execMsta, execMzero, execMzeroRelease, execMband, execMtrn, execMma, execMmar,
      execMout, execMoutq, State.mout]
    exact canonical_same h (by simp)
  | retire => exact execRetire_canonical s h
  | _ => exact nomatch hw

theorem copyWord_canonical (hw : i.streams = [.copy]) : Canonical (exec i s) := by
  cases i with
  | cpy | cpyr | cgath | cscat | cbin | cnmc | ccoll | cconst | cwait =>
    dsimp only [exec, execCpy, execCpyr, execCgath, execCscat, execCbin, execCnmc, execCcoll, execCconst, execCwait]
    exact canonical_same h (by simp)
  | csend | crecvb =>
    dsimp only [exec, execCsend, execCrecvb]
    exact canonical_sameH h (by simp)
  | cfence => exact execCfence_canonical s h
  | _ => exact nomatch hw

theorem execLoops_canonical (lv : BitVec 1) (n : Count) (len : BitVec 9) (stg : BitVec 3) (ps : PReg) : Canonical (execLoops lv n len stg ps s) := by
  unfold execLoops
  refine canonical_same h ?_
  split <;> simp

theorem sharedWord_canonical (hw : 1 < i.streams.length) : Canonical (exec i s) := by
  cases i with
  | nop | loop | setvc | fmtld | engineTwait | waitf =>
    dsimp only [exec, execNop, execLoop, execSetvc, execFmtld, execEngineTwait, execWaitf, State.control]
    exact canonical_same h (by simp)
  | loops => exact execLoops_canonical h _ _ _ _ _
  | endStream => exact execEndStream_canonical s h
  | _ => simp [Instr.streams] at hw

theorem execXdrop_canonical (n : BitVec 6) : Canonical (execXdrop n s) := by
  unfold execXdrop
  refine canonical_same h ?_
  dsimp only
  split <;> simp

theorem execXhour_canonical (hr : BitVec 4) : Canonical (execXhour hr s) := by
  unfold execXhour
  refine canonical_same h ?_
  split <;> simp

theorem execXgroup_canonical (g : BitVec 6) (pk : BitVec 8) : Canonical (execXgroup g pk s) := by
  unfold execXgroup
  refine canonical_same h ?_
  dsimp only
  split <;> simp

theorem crossingWord_canonical (hw : i.streams = [.crossing]) : Canonical (exec i s) := by
  cases i with
  | xest | xestm | xstep | xstepAt | xrelay | xwin | xloop | xjmp | xretrain =>
    dsimp only [exec, execXest, execXestm, execXstep, execXstepAt, execXrelay, execXwin, execXloop, execXjmp, execXretrain]
    exact canonical_same h (by simp)
  | xdrop => exact execXdrop_canonical h _
  | xhour => exact execXhour_canonical h _
  | xgroup => exact execXgroup_canonical h _ _
  | xend => exact execXend_canonical s h
  | _ => exact nomatch hw

end

end Sys2Proof.Machine
end

section
/-! PROOF. The events keep the canonical form of package memory, and so does every step (08 R232; O59). -/

namespace Sys2Proof.Machine

theorem State.copyToShadow_wf (s : State) (ctx va : Nat) (l : Leaf) (k : BitVec 8) (h : s.mem.wf = true) :
    ∀ t ∈ s.copyToShadow ctx va l k, t.mem.wf = true := by
  have put (src dst n : Nat) (f : Context → Context) : ((s.copyRange src dst n).modCtx ctx f).mem.wf = true := by
    simpa using s.copyRange_wf src dst n h
  unfold State.copyToShadow
  extract_lets x base page others put'
  intro t ht
  split at ht
  · obtain ⟨i, -, rfl⟩ := Option.mem_map.1 ht
    exact put _ _ _ _
  · obtain ⟨i, -, rfl⟩ := Option.mem_map.1 ht
    exact put _ _ _ _
  · cases Option.mem_some.1 ht
    split <;> exact put _ _ _ _

theorem State.cowDue_wf (s : State) (ctx va : Nat) (h : s.mem.wf = true) : ∀ t ∈ s.cowDue ctx va, t.mem.wf = true := by
  unfold State.cowDue
  intro t ht
  split at ht
  · cases ht
  · dsimp only at ht
    split at ht
    · obtain ⟨u, hu, rfl⟩ := Option.mem_map.1 ht
      simpa using u.setEpoch_wf _ _ _ _ (s.copyToShadow_wf _ _ _ _ h u hu)
    · cases ht

theorem State.drainFrom_wf (s : State) (ctx : Nat) (k : BitVec 8) (busy : Option Nat) (l : List (Nat × Leaf)) (h : s.mem.wf = true) :
    ∀ t ∈ s.drainFrom ctx k busy l, t.mem.wf = true := by
  induction l generalizing s busy with
  | nil =>
    intro t ht
    cases Option.mem_some.1 ht
    simpa using h
  | cons x rest ih =>
    unfold State.drainFrom
    intro t ht
    split at ht
    · split at ht
      · obtain ⟨u, hu, hr⟩ := Option.mem_bind_iff.1 ht
        exact ih _ _ (u.setEpoch_wf _ _ _ _ (s.copyToShadow_wf _ _ _ _ h u hu)) t hr
      · cases Option.mem_some.1 ht
        simpa using h
    · refine ih _ _ ?_ t ht
      split
      · exact h
      · exact s.setEpoch_wf _ _ _ _ h

theorem State.drained_wf (s : State) (ctx : Nat) (h : s.mem.wf = true) : ∀ t ∈ s.drained ctx, t.mem.wf = true := s.drainFrom_wf _ _ _ _ h

theorem State.atHome_wf (s : State) (c : Nat) (a : Access) (l : Leaf) (h : s.mem.wf = true) : ∀ t ∈ s.atHome c a l, t.mem.wf = true := by
  have gated (u : State) (hu : u.mem.wf = true) (k : State → State) (hk : ∀ u : State, u.mem.wf = true → (k u).mem.wf = true) :
      ∀ t ∈ (match u.gate (s.ctxOf c) a.va.toNat l (some (c, a.id, false)) with
        | .go s => some (k s)
        | .wait s' => if s' = u then none else some s'
        | .full s _ => some (s.reportFault c a (a.info (cause 1 a.kind.axis cowC)))), t.mem.wf = true := by
    have hg := u.gate_wf (s.ctxOf c) a.va.toNat l (some (c, a.id, false)) hu
    intro t ht
    split at ht <;> (rename_i e; rw [e] at hg)
    · cases Option.mem_some.1 ht
      exact hk _ hg
    · split at ht
      · cases ht
      · cases Option.mem_some.1 ht
        exact hg
    · cases Option.mem_some.1 ht
      simpa [Gate.state] using hg
  unfold State.atHome
  extract_lets va key n ctx poison gate r u old val
  intro t ht
  split at ht
  · split at ht
    · cases Option.mem_some.1 ht
      simpa using s.packageWrite_wf _ _ h
    · cases Option.mem_some.1 ht
      simpa [r] using h
  split at ht
  · split at ht <;> (cases Option.mem_some.1 ht; simpa [poison] using h)
  · split at ht <;> (cases Option.mem_some.1 ht; simpa [poison] using h)
  · exact gated s h _ (fun u hu => by simpa using u.writeHome_wf _ _ hu) t ht
  · split at ht
    · cases Option.mem_some.1 ht
      simpa [poison] using h
    · extract_lets q at ht
      split at ht <;> (cases Option.mem_some.1 ht; simpa [u, q] using h)
  · split at ht
    · cases Option.mem_some.1 ht
      simpa using h
    split at ht
    · cases Option.mem_some.1 ht
      simpa [poison] using h
    · split at ht
      · exact gated s h _ (fun u hu => by simpa using State.writeHome_wf _ _ _ ((u.readEffects_mem _ _).symm ▸ hu)) t ht
      · cases Option.mem_some.1 ht
        simpa using h

theorem State.nearEvent_canonical (s : State) (opc : Nat) (h : s.mem.wf = true) : Canonical (s.nearEvent opc) := by
  unfold State.nearEvent
  split
  · exact canonical_fault _
  · exact (canonical_next _).2 (s.runChunk_wf _ _ h)

theorem State.collEvent_canonical (s : State) (opc : Nat) (h : s.mem.wf = true) : Canonical (s.collEvent opc) := by
  unfold State.collEvent
  split
  · exact canonical_fault _
  · split
    · exact canonical_fault _
    · exact (canonical_next _).2 (s.runColl_wf _ h)

theorem State.outsideAt_wf (s : State) (key : Nat) (a : OutsideAccess) (h : s.mem.wf = true) : (s.outsideAt key a).mem.wf = true := by
  cases a with
  | read => simpa [State.outsideAt] using h
  | write => exact s.writeHome_wf _ _ h
  | fetchAdd => exact State.writeHome_wf _ _ _ ((s.readEffects_mem _ _).symm ▸ h)

@[simp] theorem State.outsideRefused_mem (s : State) (ctx : Nat) (a : OutsideAccess) : (s.outsideRefused ctx a).mem = s.mem := by
  cases a <;> rfl

theorem State.fromFibre_canonical (s : State) (h : s.mem.wf = true) : Canonical s.fromFibre := by
  unfold State.fromFibre
  dsimp only
  split
  · exact canonical_fault _
  split
  · simpa using h
  split
  · simpa using h
  split
  · simpa using h
  · exact (canonical_next _).2 (s.deliverRuns_wf _ _ _ _ _ h)



theorem execBarrierRelease_canonical (s : State) (h : s.mem.wf = true) : Canonical (execBarrierRelease s) := by
  unfold execBarrierRelease
  dsimp only
  split
  · exact canonical_fault _
  split
  · exact canonical_fault _
  split
  · rw [canonical_next, State.modLaunch_mem]
    refine foldl_wf (fun u c hu => ?_) _ _ h
    split
    · split
      · exact hu
      · simpa using hu
    · exact hu
  · rw [canonical_next, foldl_mem (by intros; rfl)]
    exact h




theorem execSnapshotCopyOnWrite_canonical (s : State) (h : s.mem.wf = true) : Canonical (execSnapshotCopyOnWrite s) := by
  unfold execSnapshotCopyOnWrite
  split
  · next t ht => exact (canonical_next _).2 (s.cowDue_wf _ _ h t ht)
  · exact canonical_fault _


theorem execSnapshotDrain_canonical (s : State) (h : s.mem.wf = true) : Canonical (execSnapshotDrain s) := by
  unfold execSnapshotDrain
  dsimp only
  split
  · exact canonical_fault _
  split
  · next t ht => exact (canonical_next _).2 (s.drained_wf _ h t ht)
  · exact canonical_fault _


theorem execSnapshotRestoreEnd_canonical (s : State) (h : s.mem.wf = true) : Canonical (execSnapshotRestoreEnd s) := by
  unfold execSnapshotRestoreEnd
  dsimp only
  split
  · exact canonical_fault _
  · rw [canonical_next, State.modCtx_mem]
    refine foldl_wf (fun u l hu => State.setEpoch_wf _ _ _ _ _ ?_) _ _ h
    split
    · exact u.copyRange_wf _ _ _ hu
    · exact hu


theorem execScanFail_canonical (s : State) (h : s.mem.wf = true) : Canonical (execScanFail s) := by
  unfold execScanFail
  dsimp only
  split
  · exact canonical_fault _
  · rw [canonical_next, foldl_mem fun u i => by split <;> simp]
    simpa using h


theorem execHeldCandidate_canonical (s : State) (h : s.mem.wf = true) : Canonical (execHeldCandidate s) := by
  unfold execHeldCandidate
  split
  · split
    · split
      · rw [canonical_next, foldl_mem (by intros; rfl)]
        exact h
      · exact canonical_fault _
    · exact canonical_fault _
  · exact canonical_fault _


theorem execStartBroadcast_canonical (s : State) (h : s.mem.wf = true) : Canonical (execStartBroadcast s) := by
  unfold execStartBroadcast
  dsimp only
  split
  · exact canonical_fault _
  split
  · exact canonical_fault _
  · rw [canonical_next, State.modLaunch_mem, foldl_mem (by intros; rfl), foldl_mem fun u r => u.readEffects_mem _ _]
    exact h


theorem execPreemptionStop_canonical (s : State) (h : s.mem.wf = true) : Canonical (execPreemptionStop s) := by
  unfold execPreemptionStop
  split
  · exact canonical_fault _
  split
  · rw [canonical_next, foldl_mem (by intros; rfl)]
    exact h
  split
  · exact (canonical_next _).2 (s.saveLaunch_wf _ h)
  · exact canonical_fault _


theorem execTrapResume_canonical (s : State) (h : s.mem.wf = true) : Canonical (execTrapResume s) := by
  unfold execTrapResume
  split
  · exact canonical_fault _
  split
  · exact canonical_fault _
  · rw [canonical_next, foldl_mem (by intros; rfl)]
    exact h


theorem execQuietDeadlock_canonical (s : State) (h : s.mem.wf = true) : Canonical (execQuietDeadlock s) := by
  unfold execQuietDeadlock
  split
  · exact canonical_fault _
  split
  · exact canonical_fault _
  · rw [canonical_next, foldl_mem (by intros; rfl)]
    exact h


theorem execPeerUnreachable_canonical (s : State) (h : s.mem.wf = true) : Canonical (execPeerUnreachable s) := by
  unfold execPeerUnreachable
  split
  · exact canonical_fault _
  dsimp only
  split
  · exact canonical_fault _
  · rw [canonical_next]
    refine State.appendLog_wf _ _ _ ?_
    rw [foldl_mem (by intros; rfl)]
    exact h


theorem execPendingInvalidationReplay_canonical (s : State) (h : s.mem.wf = true) : Canonical (execPendingInvalidationReplay s) := by
  unfold execPendingInvalidationReplay
  dsimp only
  split
  · exact canonical_fault _
  · rw [canonical_next, foldl_mem (by intros; rfl)]
    exact h


theorem execGroupTableWrite_canonical (s : State) (h : s.mem.wf = true) : Canonical (execGroupTableWrite s) := by
  unfold execGroupTableWrite
  dsimp only
  split
  · exact (canonical_next _).2 h
  split
  · exact (canonical_next _).2 h
  · rw [canonical_next, foldl_mem (by intros; rfl)]
    exact h




theorem execHelmAccessAtHome_canonical (s : State) (h : s.mem.wf = true) : Canonical (execHelmAccessAtHome s) := by
  unfold execHelmAccessAtHome
  dsimp only
  split
  · exact canonical_fault _
  next a _ =>
  split
  · split
    · next t ht =>
      obtain ⟨l, -, hl⟩ := Option.bind_eq_some_iff.1 ht
      split
      · split
        · exact (canonical_next _).2 (s.atHome_wf _ a l h t hl)
        · exact canonical_fault _
      · exact canonical_fault _
    · exact canonical_fault _
  split
  · exact canonical_fault _
  split
  · rw [canonical_next]
    split
    · split <;> exact h
    · exact h
  · split
    · next t ht => exact (canonical_next _).2 (s.atHome_wf _ _ _ h t ht)
    · exact canonical_fault _
  · exact canonical_fault _


theorem execRelIncrement_canonical (s : State) (h : s.mem.wf = true) : Canonical (execRelIncrement s) := by
  unfold execRelIncrement
  dsimp only
  split
  · exact canonical_fault _
  next a _ =>
  split
  · next l _ _ =>
    have hg := s.gate_wf (s.ctxOf s.on.a) a.va.toNat l (some (s.on.a, a.id, false)) h
    split
    · simpa using h
    split <;> (rename_i e; rw [e] at hg)
    · simpa using State.writeHome_wf _ _ _ ((State.readEffects_mem _ _ _).symm ▸ hg)
    · split
      · exact canonical_fault _
      · exact (canonical_next _).2 hg
    · simpa using h
  · exact canonical_fault _


theorem execResultLanding_canonical (s : State) (h : s.mem.wf = true) : Canonical (execResultLanding s) := by
  unfold execResultLanding
  dsimp only
  split
  · exact canonical_fault _
  · rw [canonical_next, State.modCore_mem]
    split
    · rw [State.modCore_mem, foldl_mem fun u f => u.landOne_mem _ _, foldl_mem fun u a => by rw [State.landOne_mem]; split <;> rfl]
      exact h
    · rw [foldl_mem fun u f => u.landOne_mem _ _, foldl_mem fun u a => by rw [State.landOne_mem]; split <;> rfl]
      exact h


theorem execCsendDelivery_canonical (s : State) (h : s.mem.wf = true) : Canonical (execCsendDelivery s) := by
  unfold execCsendDelivery
  dsimp only
  split
  · exact s.fromFibre_canonical h
  split
  · exact canonical_fault _
  next k _ =>
  split
  · exact canonical_fault _
  have hread : (if k.sk = 2 then k.spans.foldl (fun (s : State) x => s.readPages k x.src x.len) s else s).mem = s.mem := by
    split
    · exact foldl_mem (fun u x => u.readPages_mem _ _ _) _ _
    · rfl
  generalize (if k.sk = 2 then k.spans.foldl (fun (s : State) x => s.readPages k x.src x.len) s else s) = r at hread
  split
  · rw [canonical_next]
    split <;> simpa [hread] using h
  split
  · split
    · exact canonical_fault _
    · simpa using h
  · split
    · exact (canonical_next _).2 h
    · rw [canonical_next, State.modCopy_mem, State.modCopy_mem, State.flitsCame_mem]
      exact r.deliverRuns_wf _ _ _ _ _ (hread.symm ▸ h)


theorem execReplayRequest_canonical (s : State) (h : s.mem.wf = true) : Canonical (execReplayRequest s) := by
  unfold execReplayRequest
  rw [canonical_next, foldl_mem (by intros; rfl)]
  exact h


theorem execBackpressureLimit_canonical (s : State) (h : s.mem.wf = true) : Canonical (execBackpressureLimit s) := by
  unfold execBackpressureLimit
  dsimp only
  have broken (u : State) (hu : u.mem.wf = true) (hs : List Nat) (c p : Nat) :
      (hs.foldl (fun (s : State) h => (s.breakHandle h).postSup c p h) u).mem.wf = true :=
    foldl_wf (fun s h hs => by simpa using s.breakHandle_wf h hs) _ _ hu
  split
  · exact canonical_fault _
  split
  · rw [canonical_next, State.bringUp_mem]
    exact broken _ (by simpa using h) _ _ _
  · exact (canonical_next _).2 (broken _ (by simpa using h) _ _ _)


theorem execHoldoverExpiry_canonical (s : State) (h : s.mem.wf = true) : Canonical (execHoldoverExpiry s) := by
  unfold execHoldoverExpiry
  split
  · exact canonical_fault _
  · rw [canonical_next]
    refine foldl_wf (fun u l hu => ?_) _ _ h
    extract_lets waits cur v w
    split
    · exact hu
    · simpa [v, w] using hu


@[simp] theorem State.deliverNote_mem (s : State) (peer : Nat) (n : Note) : (s.deliverNote peer n).mem = s.mem := by
  cases n <;> simp [State.deliverNote]

theorem execServiceMessage_canonical (s : State) (h : s.mem.wf = true) : Canonical (execServiceMessage s) := by
  unfold execServiceMessage
  split
  · split
    · exact (canonical_next _).2 h
    · exact canonical_fault _
  split
  · exact canonical_fault _
  split
  · exact canonical_fault _
  · rw [canonical_next, State.deliverNote_mem]
    exact h


theorem execMulticastApply_canonical (s : State) (h : s.mem.wf = true) : Canonical (execMulticastApply s) := by
  unfold execMulticastApply
  dsimp only
  split
  · exact canonical_fault _
  next h' _ =>
  split
  · simpa using h
  · next l _ =>
    have hg := s.gate_wf (s.group s.on.a).owner ((s.group s.on.a).target s.on.b h').1 l none h
    split <;> (rename_i e; rw [e] at hg)
    · split
      · exact canonical_fault _
      · exact (canonical_next _).2 hg
    · simpa [Gate.state] using hg
    · rw [canonical_next, State.tellCount_mem, State.modGroup_mem]
      exact State.writeHome_wf _ _ _ ((State.cacheLeaf_mem _ _ _ _ _).symm ▸ hg)


theorem execCollectiveDigest_canonical (s : State) (h : s.mem.wf = true) : Canonical (execCollectiveDigest s) := by
  unfold execCollectiveDigest
  split
  · exact canonical_fault _
  split
  · exact canonical_fault _
  split
  · rw [canonical_next, foldl_mem (by intros; rfl)]
    exact h
  · exact (canonical_next _).2 h


theorem execDeadlineRelease_canonical (s : State) (h : s.mem.wf = true) : Canonical (execDeadlineRelease s) := by
  unfold execDeadlineRelease
  split
  · exact canonical_fault _
  split
  · exact canonical_fault _
  · dsimp only
    rw [canonical_next, State.post_mem]
    refine foldl_wf (fun u y hu => ?_) _ _ ?_
    · split
      · exact u.vwrite_wf _ _ _ _ hu
      · exact hu
    · rw [State.oweBad_mem]
      exact foldl_wf (fun u y hu => State.collWrite_wf _ u _ _ _ hu) _ _ ((State.readShards_mem _ _).symm ▸ h)


theorem execWindowEnd_canonical (s : State) (h : s.mem.wf = true) : Canonical (execWindowEnd s) := by
  unfold execWindowEnd
  dsimp only
  split
  · exact canonical_fault _
  · rw [canonical_next, foldl_mem fun u k => foldl_mem (fun u y => u.owe_mem _ _) _ _]
    exact h


theorem execBar2Access_canonical (s : State) (h : s.mem.wf = true) : Canonical (execBar2Access s) := by
  unfold execBar2Access
  dsimp only
  split
  · simpa using h
  split
  · simpa using h
  · next l _ =>
    split
    · simpa using h
    split
    · exact (canonical_next _).2 (s.outsideAt_wf _ _ h)
    · have hg := s.gate_wf (s.on.a % 16) ((s.ctx (s.on.a % 16)).bar2 + (outsideParts s.on.access).1) l none h
      split <;> (rename_i e; rw [e] at hg)
      · exact (canonical_next _).2 (State.outsideAt_wf _ _ _ hg)
      · exact (canonical_next _).2 hg
      · simpa [Gate.state] using hg


theorem execHostFetchadd_canonical (s : State) (h : s.mem.wf = true) : Canonical (execHostFetchadd s) := by
  unfold execHostFetchadd
  split
  · exact (canonical_next _).2 (s.outsideAt_wf _ _ h)
  · simpa using h


theorem execRemoteAccessRequest_canonical (s : State) (h : s.mem.wf = true) : Canonical (execRemoteAccessRequest s) := by
  unfold execRemoteAccessRequest
  dsimp only
  split
  · exact canonical_fault _
  split
  · exact (canonical_next _).2 (s.outsideAt_wf _ _ h)
  · split <;> exact (canonical_next _).2 h


theorem execThermalOrPower_canonical (s : State) (h : s.mem.wf = true) : Canonical (execThermalOrPower s) := by
  unfold execThermalOrPower
  have posted : ((List.range 8).foldl (fun (s : State) t => s.postSup thermalC t 0) s).mem = s.mem := foldl_mem (by intros; rfl) _ _
  split
  · split
    · exact (canonical_next _).2 h
    · dsimp only
      split <;> simpa [posted] using h
  · split <;> exact (canonical_next _).2 h


theorem execThermalTrap_canonical (s : State) (h : s.mem.wf = true) : Canonical (execThermalTrap s) := by
  unfold execThermalTrap
  split
  · exact canonical_fault _
  · rw [canonical_next, foldl_mem fun u l => foldl_mem (fun u c => u.unitFault_mem _ _) _ _]
    exact h


theorem execColdBoot_canonical (s : State) : Canonical (execColdBoot s) := by
  unfold execColdBoot
  simp only [canonical_next, State.bootPursers_mem, State.bootScans_mem, State.bootLandings_mem, State.trainStacks_mem]
  rfl

/-! ## Every event -/

theorem event_canonical {i : Instr} {s : State} (h : s.mem.wf = true) (hw : i.streams = []) : Canonical (exec i s) := by
  cases i with
  | deadlineReached | elasticWaitEnd | shapeLoadLanding | phaseRerun | interruptTaken | unassignedOpcode | qsendArrival
  | retirementBoundExceeded | accessWindowExpiry | acqLanding | fenceComplete | mstoreAck =>
    dsimp only [exec, execDeadlineReached, execElasticWaitEnd, execShapeLoadLanding, execPhaseRerun, execInterruptTaken, execUnassignedOpcode,
      execQsendArrival, execRetirementBoundExceeded, execAccessWindowExpiry, execAcqLanding, execFenceComplete, execMstoreAck]
    (repeat' split) <;> simp [h]
  | misraGriesActivation | refreshWindow | eyeMarginMeasurement | hpcout | heyemin | correctedCountHour | patrolScrub | localStoreScrub =>
    dsimp only [exec, execMisraGriesActivation, execRefreshWindow, execEyeMarginMeasurement, execHpcout, execHeyemin, execCorrectedCountHour,
      execPatrolScrub, execLocalStoreScrub]
    (repeat' split) <;> simp [h]
  | handleLive | drainEnd | xhourEnd | xgroupAck | csendAck | flitReceive | flitAck | retrainingPause | retrainingPauseEnd | pauseBoundExceeded
  | laserPowerLow | ringTuningOutOfRange | bringUpStageEnd | bringUpTimeout | supervisorRetrain =>
    dsimp only [exec, execHandleLive, execDrainEnd, execXhourEnd, execXgroupAck, execCsendAck, execFlitReceive, execFlitAck, execRetrainingPause,
      execRetrainingPauseEnd, execPauseBoundExceeded, execLaserPowerLow, execRingTuningOutOfRange, execBringUpStageEnd, execBringUpTimeout,
      execSupervisorRetrain]
    (repeat' split) <;> simp [h]
  | dawnPulse | daycCorrection | holdoverStart | relayArrival | relayForward | relayTimeout | orderPointStamp | orderGap | memberResend =>
    dsimp only [exec, execDawnPulse, execDaycCorrection, execHoldoverStart, execRelayArrival, execRelayForward, execRelayTimeout,
      execOrderPointStamp, execOrderGap, execMemberResend]
    (repeat' split) <;> simp [h]
  | sncmdBegin | snapshotBeginPoint | sncmdRestore | rotationScanStep | scanPass | poolEntryFreed | placementTurn | agingStep
  | launchRetirement | preemptedResume =>
    dsimp only [exec, execSncmdBegin, execSnapshotBeginPoint, execSncmdRestore, execRotationScanStep, execScanPass, execPoolEntryFreed,
      execPlacementTurn, execAgingStep, execLaunchRetirement, execPreemptedResume]
    (repeat' split) <;> simp [h]
  | pterm | ppre | presume | pintr | ptrapq | pcdat | contextRootChange | pshoot | shootdownComplete | bar0Access | msixInterrupt | clockChange
  | clockRestore | warmReset =>
    dsimp only [exec, execPterm, execPpre, execPresume, execPintr, execPtrapq, execPcdat, execContextRootChange, execPshoot,
      execShootdownComplete, execBar0Access, execMsixInterrupt, execClockChange, execClockRestore, execWarmReset]
    (repeat' split) <;> simp [h]
  | copyTranslation | nearMemoryCompletion | collectiveDeadline | chunkRerun | memberLost =>
    dsimp only [exec, execCopyTranslation, execNearMemoryCompletion, execCollectiveDeadline, execChunkRerun, execMemberLost]
    (repeat' split) <;> simp [h]
  | snapshotCommit | sncmdCommitUnverified =>
    dsimp only [exec, execSnapshotCommit, execSncmdCommitUnverified]
    (repeat' split) <;> simp [h, State.commitSnapshot_wf, State.sncmdCommit_wf]
  | launchPacket | noopPacket =>
    dsimp only [exec, execLaunchPacket, execNoopPacket]
    (repeat' split) <;> simp [h, State.consume_wf]
  | completionRecord =>
    dsimp only [exec, execCompletionRecord]
    (repeat' split) <;> simp [h, State.vput_wf, State.ringWrite_wf]
  | rotationMigration =>
    dsimp only [exec, execRotationMigration]
    (repeat' split) <;> simp [h, State.savePhase_wf]
  | trapDelivery =>
    dsimp only [exec, execTrapDelivery]
    (repeat' split) <;> simp [h, State.takeTrap_wf]
  | pgrantLanding | prevokeLanding | pgrantHandle | prevokeHandle | pgrantGroup | prevokeGroup | pgrantQuay | prevokeQuay =>
    dsimp only [exec, execPgrantLanding, execPrevokeLanding, execPgrantHandle, execPrevokeHandle, execPgrantGroup, execPrevokeGroup,
      execPgrantQuay, execPrevokeQuay]
    simp [h, State.pgrant_wf]
  | registerWrite =>
    dsimp only [exec, execRegisterWrite]
    (repeat' split) <;> simp [h, State.packageWrite_wf]
  | translationResult =>
    dsimp only [exec, execTranslationResult]
    (repeat' split) <;> simp [h, State.wakeTrap_wf]
  | copyCompletion =>
    dsimp only [exec, execCopyCompletion]
    (repeat' split) <;> simp [h, State.moveCopy_wf]
  | collectiveCompletion =>
    dsimp only [exec, execCollectiveCompletion]
    (repeat' split) <;> simp [h, State.writeKept_wf]
  | eventRecord =>
    dsimp only [exec, execEventRecord]
    (repeat' split) <;> simp [h, State.writeEvent_wf]
  | nmupd | nmaxpby | nmred | nmfill | nmcpy => exact s.nearEvent_canonical _ h
  | collectiveSum | collectiveMax | collectiveMin | collectiveMove => exact s.collEvent_canonical _ h
  | resultLanding => exact execResultLanding_canonical s h
  | quietDeadlock => exact execQuietDeadlock_canonical s h
  | barrierRelease => exact execBarrierRelease_canonical s h
  | helmAccessAtHome => exact execHelmAccessAtHome_canonical s h
  | relIncrement => exact execRelIncrement_canonical s h
  | snapshotCopyOnWrite => exact execSnapshotCopyOnWrite_canonical s h
  | csendDelivery => exact execCsendDelivery_canonical s h
  | windowEnd => exact execWindowEnd_canonical s h
  | replayRequest => exact execReplayRequest_canonical s h
  | backpressureLimit => exact execBackpressureLimit_canonical s h
  | holdoverExpiry => exact execHoldoverExpiry_canonical s h
  | serviceMessage => exact execServiceMessage_canonical s h
  | multicastApply => exact execMulticastApply_canonical s h
  | heldCandidate => exact execHeldCandidate_canonical s h
  | startBroadcast => exact execStartBroadcast_canonical s h
  | preemptionStop => exact execPreemptionStop_canonical s h
  | trapResume => exact execTrapResume_canonical s h
  | thermalOrPower => exact execThermalOrPower_canonical s h
  | thermalTrap => exact execThermalTrap_canonical s h
  | scanFail => exact execScanFail_canonical s h
  | snapshotDrain => exact execSnapshotDrain_canonical s h
  | snapshotRestoreEnd => exact execSnapshotRestoreEnd_canonical s h
  | coldBoot => exact execColdBoot_canonical s
  | collectiveDigest => exact execCollectiveDigest_canonical s h
  | deadlineRelease => exact execDeadlineRelease_canonical s h
  | peerUnreachable => exact execPeerUnreachable_canonical s h
  | pendingInvalidationReplay => exact execPendingInvalidationReplay_canonical s h
  | remoteAccessRequest => exact execRemoteAccessRequest_canonical s h
  | bar2Access => exact execBar2Access_canonical s h
  | hostFetchadd => exact execHostFetchadd_canonical s h
  | groupTableWrite => exact execGroupTableWrite_canonical s h
  | _ => exact nomatch hw

theorem exec_canonical {s : State} (h : s.mem.wf = true) (i : Instr) : Canonical (exec i s) := by
  by_cases hl : 1 < i.streams.length
  · exact sharedWord_canonical h hl
  · match hi : i.streams with
    | [] => exact event_canonical h hi
    | [.helm] => exact helmWord_canonical h hi
    | [.vector] => exact vectorWord_canonical h hi
    | [.matrix] => exact matrixWord_canonical h hi
    | [.copy] => exact copyWord_canonical h hi
    | [.crossing] => exact crossingWord_canonical h hi
    | _ :: _ :: _ =>
      rw [hi] at hl
      simp at hl

/-! ## A step -/

section
variable {s : State} (h : s.mem.wf = true)
include h

theorem State.happens_wf (e : Happening) : ∀ t ∈ s.happens e, t.mem.wf = true := by
  intro t ht
  unfold State.happens at ht
  split at ht
  · next u hu =>
    cases Option.mem_some.1 ht
    exact exec_canonical (s := { s with on := e.2 }) h e.1 _ hu
  · cases ht

theorem State.firstOf_wf (l : List Happening) : ∀ t ∈ s.firstOf l, t.mem.wf = true := by
  intro t ht
  obtain ⟨e, -, he⟩ := List.exists_of_findSome?_eq_some ht
  exact State.happens_wf h e t he

theorem State.startStep_wf : s.startStep.mem.wf = true := by
  have planned : ∀ p ∈ s.popAgenda.or s.popAlarm, p.2.mem.wf = true := by
    intro p hp
    rcases Option.or_eq_some_iff.1 hp with ha | ⟨-, ha⟩
    · unfold State.popAgenda at ha
      split at ha
      · split at ha
        · cases ha
          exact h
        · cases ha
      · cases ha
    · unfold State.popAlarm at ha
      split at ha
      · split at ha
        · cases ha
          exact h
        · cases ha
      · cases ha
  unfold State.startStep
  split
  · next e u hu =>
    have hwf : u.mem.wf = true := planned _ hu
    cases hh : u.happens e with
    | none => exact hwf
    | some t => exact State.happens_wf hwf e t hh
  · cases hh : s.firstOf s.startEvents with
    | none => exact h
    | some t => exact State.firstOf_wf h _ t hh

theorem State.finishStep_wf : s.finishStep.mem.wf = true := by
  unfold State.finishStep
  cases hh : s.firstOf s.finishEvents with
  | none => exact s.edge_wf h
  | some t => exact State.firstOf_wf h _ t hh

theorem State.issue_canonical (d : Decoded) : Canonical (s.issue d) := by
  have noted {o : Host.Outcome State Fault Refusal} (ho : Canonical o) (x : StreamSt) : Canonical (noteOutcome x o) := by
    cases o with
    | next t => simpa [noteOutcome] using ho
    | fault => exact canonical_fault _
    | refused => exact canonical_refused _
  unfold State.issue
  split
  · split <;> simpa using h
  split
  · simpa using h
  split
  · simpa using h
  · exact noted (exec_canonical (by simpa using h) _) _

theorem State.slot_canonical (w : Word) : Canonical (s.slot w) := by
  unfold State.slot
  split
  · exact exec_canonical (by exact h) _
  split
  · simpa using h
  split
  · simpa using h
  split
  · simpa using h
  · split
    · exact exec_canonical (by exact h) _
    · exact State.issue_canonical h _

theorem State.runStream_canonical (c : Nat) (st : Stream) : Canonical (s.runStream c st) := by
  unfold State.runStream
  dsimp only
  split
  · simpa using h
  split
  · split
    · exact State.slot_canonical (by simpa [State.fetchEffects_mem] using h) _
    · simpa using h
  · split
    · simpa using h
    split
    · exact exec_canonical (by exact h) _
    split
    · simpa using h
    split <;> simpa [State.fetchEffects_mem] using h

theorem State.part_canonical (c : Nat) (st : Stream) : Canonical (s.part c st) := by
  unfold State.part
  split
  · split <;> simpa using h
  · exact State.runStream_canonical h c st

end

/-- Settles O59: every operation that a word or an event is made of leaves the memory alone or writes it by `writeHome` or `restoreCells`,
which keep its canonical form. -/
theorem stepKeepsMemory : Obligations.StepKeepsMemory := by
  intro s t h hst
  unfold step at hst
  split at hst
  · cases hst
    exact State.startStep_wf h
  · split at hst
    · cases hst
      exact h
    · next c st l _ => exact State.part_canonical (s := { s with todo := l }) h c st t hst
  · cases hst
    exact State.finishStep_wf h

end Sys2Proof.Machine
end

section
/-! PROOF. TAGLK, TAGSET and TAGCLR on the tag table (08 R235, 13 R395; O10). -/

namespace Sys2Proof.Machine

/-! ## The table by slot and by key -/

theorem tagFind_eq_none {t : Tab Word} {key : Word} {o : Option Nat} (rising : tabRising o t = true) (free : ∀ j, tabGet t j ≠ some key) :
    tagFind t key = none := by
  induction t generalizing o with
  | nil => rfl
  | cons p t ih =>
    obtain ⟨a, x⟩ := p
    obtain ⟨-, rest⟩ := tabRising_cons.1 rising
    have hx : x ≠ key := fun h => free a (by rw [tabGet, if_pos rfl, h])
    rw [tagFind, if_neg hx]
    refine ih rest fun j hj => ?_
    by_cases ha : a = j
    · rw [tabGet_none_of_above rest ha.ge] at hj
      cases hj
    · exact free j (by rw [tabGet, if_neg ha, hj])

theorem tagFind_eq_some {t : Tab Word} {key : Word} {m : Nat} {o : Option Nat} (rising : tabRising o t = true) (held : tabGet t m = some key)
    (free : ∀ j, j ≠ m → tabGet t j ≠ some key) : tagFind t key = some m := by
  induction t generalizing o with
  | nil => cases held
  | cons p t ih =>
    obtain ⟨a, x⟩ := p
    obtain ⟨-, rest⟩ := tabRising_cons.1 rising
    by_cases ha : a = m
    · rw [tabGet, if_pos ha, Option.some_inj] at held
      rw [tagFind, if_pos held, ha]
    · have hx : x ≠ key := fun h => free a ha (by rw [tabGet, if_pos rfl, h])
      rw [tabGet, if_neg ha] at held
      rw [tagFind, if_neg hx]
      refine ih rest held fun j hj hk => ?_
      by_cases hj' : a = j
      · rw [tabGet_none_of_above rest hj'.ge] at hk
        cases hk
      · exact free j hj (by rw [tabGet, if_neg hj', hk])

theorem Core.filter_tagBad {c : Core} (clean : c.tagBad = []) (t : Tab Word) (p : Nat → Bool) :
    { c with tagTab := t, tagBad := c.tagBad.filter p } = { c with tagTab := t } := by
  cases c
  subst clean
  rfl

/-! ## The words, by the slot that holds the key -/

section
variable {s : State} (hst : s.cur.st = .helm) (clean : s.me.tagBad = [])
include hst clean

omit hst in
theorem State.tagScrub_of_clean : s.tagScrub = s.modMe id := by
  have kept : ∀ c : Core, c.tagBad = [] → { c with tagTab := c.tagBad.foldl tabDel c.tagTab, tagBad := [] } = c := by
    rintro ⟨⟩ rfl
    rfl
  show s.me.tagBad.foldl _ (s.modMe _) = _
  rw [clean]
  exact s.modMe_congr _ _ (kept _ clean)

theorem State.write_tagScrub (lat : Nat) (effs : List Eff) : s.tagScrub.write lat effs = s.write lat effs := by
  have same : s.SameStreams (s.modMe id) := ⟨rfl, fun _ => by simp, by simp, by simp, by simp, by simp⟩
  rw [State.tagScrub_of_clean clean, State.write, State.emit, State.modMe_modMe, State.write, State.emit,
    funext fun e => same.flight (by simp [hst]) lat e]
  rfl

theorem gives_taglk {rd ra : SReg} {v : Word} (found : (match tagFind s.me.tagTab (s.sr ra) with
      | some n => BitVec.ofNat 64 (1024 * n)
      | none => BitVec.allOnes 64) = v) : Gives (.taglk rd ra) s [(4, .s rd v)] := by
  have hme : s.tagScrub.me = s.me := by rw [State.tagScrub_of_clean clean, State.me_modMe, id]
  refine .of_perform (effs := [.s rd v]) (by simp [hst]) (show exec (.taglk rd ra) s = execTaglk rd ra s from rfl) rfl ?_
  simp only [State.sr, hme]
  rw [State.write_tagScrub hst clean, ← found]
  rfl

omit clean in
/-- A word that changes the table of its core alone. -/
theorem becomes_of_tagTab {i : Instr} {f : Core → Core} (g : Tab Word → Tab Word) (hi : exec i s = .next (s.modMe f).advance)
    (hf : f s.me = { s.me with tagTab := g s.me.tagTab }) : Becomes i s fun c => { c with tagTab := g c.tagTab } := by
  refine .of_modMe hst (hi.trans (by rw [s.modMe_congr f (fun c => { c with tagTab := g c.tagTab }) hf])) ?_ fun _ _ _ => rfl
  refine ⟨rfl, fun st => ?_, ?_, ?_, ?_, ?_⟩ <;> rw [State.me_modMe]
  cases st <;> rfl

theorem becomes_tagset {ra rb : SReg} (g : Tab Word → Tab Word) (out : s.me.inPhase = false) (below : (s.sr rb).toNat ≤ 4095)
    (hg : (match tagFind s.me.tagTab (s.sr ra) with | some m => tabDel s.me.tagTab m | none => s.me.tagTab) = g s.me.tagTab) :
    Becomes (.tagset ra rb) s fun c => { c with tagTab := tabSet (g c.tagTab) (s.sr rb).toNat (s.sr ra) } := by
  refine becomes_of_tagTab hst (fun t => tabSet (g t) (s.sr rb).toNat (s.sr ra)) (f := fun c =>
    { c with
      tagTab := tabSet (match tagFind c.tagTab (s.sr ra) with | some m => tabDel c.tagTab m | none => c.tagTab) (s.sr rb).toNat (s.sr ra)
      tagBad := c.tagBad.filter (· != (s.sr rb).toNat) }) ?_ ?_
  · rw [exec, execTagset, State.noPhase_ok out, decide_eq_false (not_lt.2 below)]
    rfl
  · exact (Core.filter_tagBad clean _ _).trans (by rw [hg])

theorem becomes_tagclr {ra : SReg} (g : Tab Word → Tab Word) (out : s.me.inPhase = false)
    (hg : (match tagFind s.me.tagTab (s.sr ra) with | some m => tabDel s.me.tagTab m | none => s.me.tagTab) = g s.me.tagTab) :
    Becomes (.tagclr ra) s fun c => { c with tagTab := g c.tagTab } := by
  refine becomes_of_tagTab hst g (f := fun c => match tagFind c.tagTab (s.sr ra) with
    | some m => { c with tagTab := tabDel c.tagTab m, tagBad := c.tagBad.filter (· != m) }
    | none => c) ?_ ?_
  · rw [exec, execTagclr, State.noPhase_ok out]
    rfl
  · rw [← hg]
    split
    · exact Core.filter_tagBad clean _ _
    · rfl

end

theorem traps_tagset_of_phase {s : State} {ra rb : SReg} (hst : s.cur.st = .helm) (inside : s.me.inPhase = true) :
    Traps (.tagset ra rb) s (cause 0 0 2) :=
  .of_fault (by simp [hst]) (by rw [exec, execTagset, State.noPhase_fault hst inside]; rfl)

theorem traps_tagset_of_slot {s : State} {ra rb : SReg} (hst : s.cur.st = .helm) (out : s.me.inPhase = false) (above : 4095 < (s.sr rb).toNat) :
    Traps (.tagset ra rb) s (cause 1 1 6) :=
  .of_fault (by simp [hst]) (by rw [exec, execTagset, State.noPhase_ok out, decide_eq_true above]; rfl)

theorem traps_tagclr_of_phase {s : State} {ra : SReg} (hst : s.cur.st = .helm) (inside : s.me.inPhase = true) :
    Traps (.tagclr ra) s (cause 0 0 2) :=
  .of_perform (by simp [hst]) (show exec (.tagclr ra) s = execTagclr ra s from rfl) (State.noPhase_fault hst inside)

/-- Settles O10, by the slot that TAGLK's search of a rising table finds for the key. -/
theorem tagTableWords : Obligations.TagTableWords := by
  unfold Obligations.TagTableWords
  intro s rd ra rb hst clean key n free
  refine ⟨fun m rising held only => ?_, fun rising none => ?_, traps_tagset_of_slot hst, fun inside =>
    ⟨traps_tagset_of_phase hst inside, traps_tagclr_of_phase hst inside⟩⟩
  · have found : tagFind s.me.tagTab (s.sr ra) = some m := tagFind_eq_some rising held only
    exact ⟨gives_taglk hst clean (by rw [found]), fun out => becomes_tagclr hst clean (tabDel · m) out (by rw [found]),
      fun out below => becomes_tagset hst clean (tabDel · m) out below (by rw [found])⟩
  · have found : tagFind s.me.tagTab (s.sr ra) = .none := tagFind_eq_none rising none
    exact ⟨gives_taglk hst clean (by rw [found]), fun out => becomes_tagclr hst clean id out (by rw [found]; rfl),
      fun out below => becomes_tagset hst clean id out below (by rw [found]; rfl)⟩

end Sys2Proof.Machine
end

section
/-! PROOF. What a copy word at its issue does: the checks that the copy words share, and the command taken (08 R240, R243; 03 R80). -/

namespace Sys2Proof.Machine

/-! ## The issue of a copy command -/

/-- The core that has taken the command `k`, noted in the phase's log or not (08 R240, 13 R396). -/
def Core.takeCopy (c : Core) (me : Nat) (o : CRecOp) (k : CopyCmd) : Core :=
  let logged := if c.logs me k then c.logCopy k else c
  { logged with
    copies := logged.copies ++ [{ k with logged := c.logs me k }], nextCopy := logged.nextCopy + 1
    chIssued := vPut logged.chIssued o.ch.toNat k.ident }

/-- A phase's log takes bytes of the local store, and nothing else of the core. -/
theorem Core.logCopy_eq (c : Core) (k : CopyCmd) : ∃ m p l f, c.logCopy k = { c with ls := m, lsPoison := p, lsLatent := l, phase := f } := by
  unfold Core.logCopy
  split
  · exact ⟨c.ls, c.lsPoison, c.lsLatent, c.phase, rfl⟩
  · dsimp only
    split
    · exact ⟨_, _, _, _, rfl⟩
    · exact ⟨c.ls, c.lsPoison, c.lsLatent, _, rfl⟩

/-- What a taken command changes of its core: it joins the commands with its channel's next identifier, and outside a phase the local store
stays as it is. -/
theorem Core.takeCopy_eq (c : Core) (me : Nat) (o : CRecOp) (k : CopyCmd) : ∃ m p l f, c.takeCopy me o k = { c with
      ls := m, lsPoison := p, lsLatent := l, phase := f, copies := c.copies ++ [{ k with logged := c.logs me k }], nextCopy := c.nextCopy + 1
      chIssued := vPut c.chIssued o.ch.toNat k.ident } ∧ (c.phase = none → m = c.ls) := by
  unfold Core.takeCopy
  split
  · next logs =>
    obtain ⟨m, p, l, f, h⟩ := c.logCopy_eq k
    exact ⟨m, p, l, f, by rw [h], fun free => by rw [Core.logs, free] at logs; cases logs⟩
  · exact ⟨c.ls, c.lsPoison, c.lsLatent, c.phase, rfl, fun _ => rfl⟩

/-- The results of a copy word: an emptied source, and its identifier (08 R240). -/
def copyResults (o : CRecOp) (k : CopyCmd) : List Eff :=
  (if o.kg = 1 then [Eff.qEmpty (o.rg.setWidth 5)] else []) ++ if o.idq = 0 then [] else [Eff.q (o.idq.setWidth 5) (BitVec.ofNat 64 k.ident)]

/-- The core with the results of a copy word in flight and its command taken. -/
def State.takesCopy (s : State) (o : CRecOp) (k : CopyCmd) (c : Core) : Core :=
  Core.takeCopy { c with flights := c.flights ++ (copyResults o k).map (s.flight 1) } s.cur.core o k

theorem State.issueCopy_eq (s : State) (o : CRecOp) (k : CopyCmd) : s.issueCopy o k = (s.modMe (s.takesCopy o k)).advance := by
  show ((s.emit 1 (copyResults o k)).modMe fun c => c.takeCopy s.cur.core o k).advance = _
  rw [State.emit, State.modMe_modMe]
  rfl

section
variable {s u : State} (hst : s.cur.st = .copy) (same : s.SameStreams u) (me : u.me = s.me) (alone : s.Alone u) {o : CRecOp} {k : CopyCmd}
include hst same me alone

/-- The word of a copy command, on the state `u` that differs at most in the counter of free values. -/
theorem State.takes_issueCopy (number : k.id = s.me.nextCopy) (channel : k.ch = o.ch.toNat)
    (ident : k.ident = vAt s.me.chIssued o.ch.toNat + 1) (begun : k.issued = s.cyc ∧ k.fence = s.me.cfences ∧ k.finished = false ∧
      k.started = false ∧ k.ready = none) :
    s.Alone (u.issueCopy o k) ∧ s.Takes (u.issueCopy o k) o { k with logged := s.me.logs s.cur.core k } := by
  have hx : s.cur.st ≠ .crossing := by simp [hst]
  obtain ⟨m, p, l, f, took, kept⟩ :=
    Core.takeCopy_eq { s.me with flights := s.me.flights ++ (copyResults o k).map (s.flight 1) } s.cur.core o k
  have taken : u.takesCopy o k s.me = s.takesCopy o k s.me := by
    rw [State.takesCopy, same.cur, funext fun e => same.flight hx 1 e]
    rfl
  have next : s.SameStreams (u.modMe (u.takesCopy o k)) := by
    refine ⟨same.cur, fun st => ?_, ?_, ?_, ?_, ?_⟩ <;> rw [State.me_modMe, me, taken, State.takesCopy, took]
    cases st <;> rfl
  have moved : u.issueCopy o k = u.modMe fun _ => s.passCore (s.takesCopy o k s.me) := by
    rw [State.issueCopy_eq, next.advance hx, State.modMe_modMe, State.me_modMe, me, taken]
  have own : (u.issueCopy o k).me = s.passCore (s.takesCopy o k s.me) := by rw [moved, State.me_modMe]
  rw [State.takesCopy, took] at own
  rw [State.passCore, hst] at own
  have on : s.Alone (u.issueCopy o k) := by
    rw [moved]
    exact alone.modMe same.cur _
  refine ⟨on, ?_, on.others, ?_, ?_, number, channel, ident, fun j => ?_, begun, ⟨false, ?_⟩, fun free => ?_⟩
  · rw [State.issueCopy_eq]
    exact next.passed hx
  · rw [own]
    rfl
  · rw [own]
    rfl
  · have at_ (v : Vector Nat 4) : v[j] = vAt v j.val := by simp [vAt, Nat.mod_eq_of_lt j.isLt]
    rw [own, at_, at_]
    show vAt (vPut s.me.chIssued o.ch.toNat k.ident) j.val = _
    rw [vAt_vPut, Nat.mod_eq_of_lt o.ch.isLt, Nat.mod_eq_of_lt j.isLt]
    exact if_congr eq_comm rfl rfl
  · rw [own]
    show s.me.flights ++ (copyResults o k).map (s.flight 1) ++ s.loopEffs.map (s.flight 1) = s.me.flights ++ _ ++ _
    unfold copyResults
    congr 2
    split <;> split <;> rfl
  · rw [own]
    exact ⟨rfl, rfl, rfl, rfl, rfl, rfl, rfl, rfl, rfl, rfl, rfl, rfl, rfl, rfl, kept free, rfl, rfl, rfl, rfl, rfl, rfl, rfl, rfl, rfl⟩
end

section
variable {s t : State} {o : CRecOp} {k : CopyCmd}

theorem State.Takes.modHandle (h : s.Takes t o k) (n : Nat) (f : Handle → Handle) : s.Takes (t.modHandle n f) o k :=
  ⟨⟨h.passed.stream, h.passed.pipe, h.passed.streams⟩, h.others, h.copies, h.next, h.number, h.channel, h.ident, h.issued, h.begun, h.results,
    h.files⟩

theorem State.choice_lt (s : State) (c : Nat) (starts : List Nat) (f : Nat → Nat) : c < s.choice (c + 1) (c + (starts.map f).foldl max 1) :=
  Nat.lt_of_succ_le (Nat.le_add_right _ _)

end

/-! ## The checks that the copy words share (08 R240, R243; 03 R80) -/

section
variable {s : State} (hst : s.cur.st = .copy)
include hst

theorem State.bad0_copy {bad : Bool} (h : bad = true) (b : Nat) : s.bad0 bad b = .fault (cause 0 3 b) := by
  rw [h, bad0_true, hst]
  rfl

omit hst in
theorem State.bad0_ok {bad : Bool} (h : bad = false) (b : Nat) : s.bad0 bad b = .ok := (bad0_ok_iff _ _ _).2 h

omit hst in
theorem rgBad_false {kg : BitVec 1} {rg : BitVec 6} (h : kg = 1 → rg.toNat < 32) : rgBad kg rg = false := by
  simpa [rgBad] using h

omit hst in
theorem State.idq_ok {q : BitVec 6} (h : q = 0 ∨ 32 ≤ q.toNat) : s.bad0 (decide (1 ≤ q.toNat ∧ q.toNat < 32)) rangeC = .ok := by
  refine State.bad0_ok (decide_eq_false ?_) _
  rcases h with rfl | h
  · simp
  · omega

omit hst in
theorem State.source_ok {kg : BitVec 1} {rg : BitVec 6} (h : kg = 1 → s.me.qCanTake (rg.setWidth 5) = true) :
    (if kg = 1 then s.takeQ (rg.setWidth 5) else .ok) = .ok := by
  split
  · exact (need_ok_iff _ _).2 (h ‹_›)
  · rfl

omit hst in
theorem State.target_ok {q : BitVec 6} (h : q ≠ 0 → s.me.qIsEmpty (q.setWidth 5) = true) :
    (if q = 0 then .ok else s.freeQ (q.setWidth 5)) = .ok := by
  split
  · rfl
  · exact (need_ok_iff _ _).2 (h ‹_›)

omit hst in
theorem State.copyRows_ok {o : CRecOp} (ready : s.CopyReady o) : s.copyRows o = .ok := by
  obtain ⟨file, idField, source, target, room, ids⟩ := ready
  rw [State.copyRows, State.bad0_ok (rgBad_false file), State.idq_ok idField, State.source_ok source, State.target_ok target, decide_eq_true room,
    State.bad0_ok (decide_eq_false (not_le.2 ids))]
  rfl

omit hst in
theorem State.copyRows_full {o : CRecOp} (file : o.kg = 1 → o.rg.toNat < 32) (idField : o.idq = 0 ∨ 32 ≤ o.idq.toNat)
    (source : o.kg = 1 → s.me.qCanTake (o.rg.setWidth 5) = true) (target : o.idq ≠ 0 → s.me.qIsEmpty (o.idq.setWidth 5) = true)
    (full : 64 ≤ s.me.onChannel o.ch.toNat) : s.copyRows o = .wait (cause 2 3 2) := by
  rw [State.copyRows, State.bad0_ok (rgBad_false file), State.idq_ok idField, State.source_ok source, State.target_ok target,
    decide_eq_false (not_lt.2 full)]
  rfl

omit hst in
/-- A core with no poisoned sector reads any bytes. -/
theorem Core.poisoned_of_clean {c : Core} (clean : c.lsPoison = []) (a n : Nat) : c.poisoned a n = false := by
  rw [Core.poisoned, clean]
  simp

omit hst in
theorem Core.poisoned_of_sector {c : Core} {a n q : Nat} (hq : q ∈ c.lsPoison) (hn : n ≠ 0) (above : 32 * q < a + n) (below : a < 32 * q + 32) :
    c.poisoned a n = true := by
  rw [Core.poisoned, sectorsOf, if_neg hn, List.any_map, List.any_eq_true]
  exact ⟨q - a / 32, List.mem_range.2 (by omega), by simpa [show a / 32 + (q - a / 32) = q by omega] using hq⟩

omit hst in
theorem State.recordAddr_ok {a : Nat} (aligned : a % 64 = 0) (inside : a < 0x400000) (clean : s.me.lsPoison = []) : s.recordAddr a = .ok := by
  rw [State.recordAddr, State.bad0_ok (decide_eq_false (by simp [aligned])), State.bad0_ok (decide_eq_false (not_le.2 inside)),
    Core.poisoned_of_clean clean]
  rfl

theorem State.recordAddr_misaligned {a : Nat} (odd : a % 64 ≠ 0) : s.recordAddr a = .fault (cause 0 3 3) := by
  rw [State.recordAddr, State.bad0_copy hst (decide_eq_true odd)]
  rfl

theorem State.recordAddr_outside {a : Nat} (aligned : a % 64 = 0) (outside : 0x400000 ≤ a) : s.recordAddr a = .fault (cause 0 3 2) := by
  rw [State.recordAddr, State.bad0_ok (decide_eq_false (by simp [aligned])), State.bad0_copy hst (decide_eq_true outside)]
  rfl

omit hst in
theorem State.recordAddr_poisoned {a q : Nat} (aligned : a % 64 = 0) (inside : a < 0x400000) (hq : q ∈ s.me.lsPoison) (above : 32 * q < a + 64)
    (below : a < 32 * q + 32) : s.recordAddr a = .fault (cause 5 0 1) := by
  rw [State.recordAddr, State.bad0_ok (decide_eq_false (by simp [aligned])), State.bad0_ok (decide_eq_false (not_le.2 inside)),
    Core.poisoned_of_sector hq (by decide) above below]
  rfl

end

end Sys2Proof.Machine
end

section
/-! PROOF. The sends, bindings and waits of the copy stream at issue (08 R250, R251; 10 R313-R317, R327, R332; O34). -/

namespace Sys2Proof.Machine

/-! ## A send's or a binding's word by its verdict (12 R376) -/

section
variable {i : Instr} {s : State} {h : Nat} {v : Verdict} {eff : State → State} (hst : s.cur.st = .copy) (hi : exec i s = s.performH h v eff)
include hst hi

theorem Traps.of_performH {code : Nat} (hv : v = .fault code) (low : causeClass code ≠ 3) : Traps i s code := by
  refine .of_fault (by simp [hst]) ?_
  have own : ({ s.info code with engine := 3, unit := 0 } : TrapInfo) = s.info code := by
    rw [State.info, hst]
    rfl
  rw [hi, hv, State.performH]
  dsimp only
  rw [if_neg low, if_neg low, if_neg low, own]
  rfl

/-- A send that the crossing refuses stops the core with the handle's number, and is an event of the tile of its source (10 R327). -/
theorem State.refuses_of_performH {code : Nat} (hv : v = .fault code) (class3 : causeClass code = 3) :
    ∃ t, exec i s = .next t ∧ (∀ c, c ≠ s.cur.core → t.core c = s.core c) ∧
      t = { s with cores := t.cores, events := s.events ++ [(16, code, (s.handle h).src, 0)] } ∧
      t.me = { s.me with raised := s.me.raised ++ [{ s.info code with engine := 4, unit := h, ofWord := true }] } := by
  have goes : exec i s =
      .next ((s.raiseAt s.cur.core { s.info code with engine := 4, unit := h, ofWord := true }).postSup code (s.handle h).src 0) := by
    rw [hi, hv, State.performH]
    dsimp only
    rw [if_pos class3, if_pos class3, if_pos class3, State.faultWith_of_core (by simp [hst])]
  refine ⟨_, goes, fun c hc => ?_, rfl, ?_⟩
  · rw [State.core_postSup]
    exact State.core_modCore_other _ _ _ _ hc
  · show State.core _ s.cur.core = _
    rw [State.core_postSup]
    exact State.core_modCore_same _ _ _

end

/-! ## CWAIT and CFENCE (08 R250, R251) -/

theorem exec_cwait {s : State} {ch : BitVec 2} {kg : BitVec 1} {rg : BitVec 6} : exec (.cwait ch kg rg) s =
    s.perform (verdicts [s.bad0 (rgBad kg rg) rangeC, if kg = 1 then s.takeQ (rg.setWidth 5) else .ok,
      need (decide ((s.rgValue kg rg).toNat % 2 ^ 48 ≤ vAt s.me.chst ch.toNat)) (cause2 .copy emptyC),
      s.bad0 (decide (2 ^ 48 ≤ (s.rgValue kg rg).toNat)) rangeC])
      fun s => s.write 1 (if kg = 1 then [.qEmpty (rg.setWidth 5)] else []) := rfl

section
variable {s : State} (hst : s.cur.st = .copy) {ch : BitVec 2} {kg : BitVec 1} {rg : BitVec 6}
include hst

theorem traps_cwait_of_file (named : kg = 1) (outside : 32 ≤ rg.toNat) : Traps (.cwait ch kg rg) s (cause 0 3 2) := by
  refine .of_fault (by simp [hst]) ?_
  rw [exec, execCwait, State.bad0_copy hst (by simp [rgBad, named, outside])]
  rfl

section
variable (source : kg = 0 ∨ (rg.toNat < 32 ∧ s.me.qCanTake (rg.setWidth 5) = true))
include source

omit hst in
theorem State.cwaitRows : s.bad0 (rgBad kg rg) rangeC = .ok ∧ (if kg = 1 then s.takeQ (rg.setWidth 5) else .ok) = .ok := by
  rcases source with rfl | ⟨file, ready⟩
  · exact ⟨rfl, rfl⟩
  · exact ⟨State.bad0_ok (rgBad_false fun _ => file) _, State.source_ok fun _ => ready⟩

theorem gives_cwait (reached : (s.rgValue kg rg).toNat % 2 ^ 48 ≤ vAt s.me.chst ch.toNat) (legal : (s.rgValue kg rg).toNat < 2 ^ 48) :
    Gives (.cwait ch kg rg) s (if kg = 1 then [(1, .qEmpty (rg.setWidth 5))] else []) := by
  obtain ⟨field, take⟩ := State.cwaitRows source
  refine ⟨s.write 1 (if kg = 1 then [.qEmpty (rg.setWidth 5)] else []), ?_, ?_⟩
  · rw [exec, execCwait, field, take, decide_eq_true reached, State.bad0_ok (decide_eq_false (not_le.2 legal))]
    rfl
  · have effs : (if kg = 1 then [(1, Eff.qEmpty (rg.setWidth 5))] else []) =
        (if kg = 1 then [.qEmpty (rg.setWidth 5)] else []).map fun e => (1, e) := by
      split <;> rfl
    rw [effs]
    exact s.issued_write 1 _ (by simp [hst])

theorem traps_cwait_of_range (reached : (s.rgValue kg rg).toNat % 2 ^ 48 ≤ vAt s.me.chst ch.toNat) (large : 2 ^ 48 ≤ (s.rgValue kg rg).toNat) :
    Traps (.cwait ch kg rg) s (cause 0 3 2) := by
  obtain ⟨field, take⟩ := State.cwaitRows source
  refine .of_fault (by simp [hst]) ?_
  rw [exec, execCwait, field, take, decide_eq_true reached, State.bad0_copy hst (decide_eq_true large)]
  rfl

theorem stalls_cwait (short : ¬ (s.rgValue kg rg).toNat % 2 ^ 48 ≤ vAt s.me.chst ch.toNat) : Stalls (.cwait ch kg rg) s (cause 2 3 0) := by
  obtain ⟨field, take⟩ := State.cwaitRows source
  refine .of_perform (by simp [hst]) exec_cwait ?_
  rw [field, take, decide_eq_false short]
  rfl

end

theorem cfence_counts : ∃ t, exec .cfence s = .next t ∧ s.Alone t ∧ s.Passed t ∧ t.me.cfences = s.me.cfences + 1 ∧
    t.me.copies = s.me.copies ∧ s.me.SameFiles t.me ∧ t.me.flights = s.me.flights ++ s.loopEffs.map (s.flight 1) := by
  have hx : s.cur.st ≠ .crossing := by simp [hst]
  have same : s.SameStreams (s.modMe fun c => { c with cfences := c.cfences + 1 }) := by
    refine ⟨rfl, fun st => ?_, ?_, ?_, ?_, ?_⟩ <;> rw [State.me_modMe]
    cases st <;> rfl
  have moved := same.advance hx
  have me := congrArg State.me moved
  rw [State.me_modMe, State.me_modMe, State.passCore, hst] at me
  have goes : exec .cfence s = .next (s.modMe fun c => { c with cfences := c.cfences + 1 }).advance := rfl
  refine ⟨_, goes, ?_, same.passed hx, ?_, ?_, ?_, ?_⟩
  · rw [moved]
    exact (State.Alone.modMe' s _).modMe rfl _
  all_goals rw [me]
  · rfl
  · rfl
  · constructor <;> rfl
  · rfl

end

theorem verdicts_ok (l : List Verdict) : verdicts (.ok :: l) = verdicts l := rfl

/-! ## CSEND at issue (10 R313, R314) -/

section
variable {s : State} (hst : s.cur.st = .copy) {o : CRecOp} {zr nt : BitVec 1} {hd : BitVec 6}

/-- The count of the issuing core's launch, by which its handle's sends are timed (10 R318). -/
def State.sendCount (s : State) : Nat := ((s.launchOf s.cur.core).map (·.count)).getD 0

/-- A send leaves in the hour's program portion, where a fibre landing is among its destinations (10 R332). -/
def State.sendInTime (s : State) (x : Handle) (k : CopyCmd) : Prop := (∀ l ∈ x.dsts, isFibre l = false) ∨
  (s.inProgram = true ∧ s.fitsHour s.sendCount (s.me.sendStart k s.sendCount (s.freeOf x s.sendCount) + sendCycles k.granules) = true)

theorem State.sendInTime_iff {h : Nat} {k : CopyCmd} :
    ((s.handle h).dsts.any isFibre && !(s.inProgram && s.fitsHour s.sendCount (s.me.sendStart k s.sendCount (s.freeOf (s.handle h) s.sendCount) +
      sendCycles k.granules))) = false ↔ s.sendInTime (s.handle h) k := by
  rw [Bool.and_eq_false_iff, Bool.not_eq_false', Bool.and_eq_true, List.any_eq_false]
  simp only [Bool.not_eq_true]
  rfl

theorem State.sendChecks_eq (h : Nat) (k : CopyCmd) : s.sendChecks h k = verdicts [
    s.bad0 ((s.handle h).owner != some (s.ctxOf s.cur.core)) rangeC, bar ((s.handle h).st == .free) sendC,
    s.bad0 (isFibre (s.handle h).src || landingTile (s.handle h).src != tileOf s.cur.core) rangeC,
    bar (!s.holdsXing || (match (s.handle h).st with | .windowed | .draining | .lost => true | _ => false)) sendC,
    need ((s.handle h).st == .live) sendC,
    bar ((s.handle h).dsts.any isFibre && !(s.inProgram && s.fitsHour s.sendCount (s.me.sendStart k s.sendCount
      (s.freeOf (s.handle h) s.sendCount) + sendCycles k.granules))) hourC] := by
  cases running : s.launchOf s.cur.core <;> simp only [State.sendChecks, State.sendCount, running] <;> rfl

section
variable {h : Nat} {k : CopyCmd} (owner : (s.handle h).owner = some (s.ctxOf s.cur.core))
include owner

theorem State.sendChecks_free (free : (s.handle h).st = .free) : s.sendChecks h k = .fault (cause 3 7 6) := by
  rw [State.sendChecks_eq, owner, free, State.bad0_ok (by simp)]
  rfl

theorem State.sendChecks_away (hst : s.cur.st = .copy) (held : (s.handle h).st ≠ .free)
    (away : ¬ (isFibre (s.handle h).src = false ∧ landingTile (s.handle h).src = tileOf s.cur.core)) :
    s.sendChecks h k = .fault (cause 0 3 2) := by
  have other : (isFibre (s.handle h).src || landingTile (s.handle h).src != tileOf s.cur.core) = true := by
    simpa [← Bool.not_eq_true, not_and_or, or_iff_not_imp_left] using away
  rw [State.sendChecks_eq, owner, State.bad0_ok (by simp), beq_eq_false_iff_ne.2 held, State.bad0_copy hst other]
  rfl

section
variable (here : isFibre (s.handle h).src = false ∧ landingTile (s.handle h).src = tileOf s.cur.core)
include here

theorem State.sendChecks_ended (ended : (s.handle h).st = .windowed ∨ (s.handle h).st = .draining ∨ (s.handle h).st = .lost) :
    s.sendChecks h k = .fault (cause 3 7 6) := by
  obtain ⟨tile, at_⟩ := here
  rw [State.sendChecks_eq, owner, tile, at_, State.bad0_ok (by simp), State.bad0_ok (b := rangeC) (by simp)]
  rcases ended with e | e | e <;> rw [e] <;> simp <;> rfl

theorem State.sendChecks_live (runs : s.holdsXing = true) (live : (s.handle h).st = .live) (inTime : s.sendInTime (s.handle h) k) :
    s.sendChecks h k = .ok := by
  obtain ⟨tile, at_⟩ := here
  rw [State.sendChecks_eq, owner, tile, at_, runs, live, State.sendInTime_iff.2 inTime, State.bad0_ok (by simp),
    State.bad0_ok (b := rangeC) (by simp)]
  rfl

theorem State.sendChecks_late (runs : s.holdsXing = true) (live : (s.handle h).st = .live) (late : ¬ s.sendInTime (s.handle h) k) :
    s.sendChecks h k = .fault (cause 3 7 7) := by
  obtain ⟨tile, at_⟩ := here
  rw [← State.sendInTime_iff, Bool.not_eq_false] at late
  rw [State.sendChecks_eq, owner, tile, at_, runs, live, late, State.bad0_ok (by simp), State.bad0_ok (b := rangeC) (by simp)]
  rfl

end
end

/-- The checks of a send's record (10 R314). -/
structure State.SendRecord (s : State) (o : CRecOp) (zr : BitVec 1) : Prop where
  ready : s.CopyReady o
  aligned : (s.rgValue o.kg o.rg).toNat % 64 = 0
  inside : (s.rgValue o.kg o.rg).toNat < 0x400000
  clean : s.me.lsPoison = []
  plain : sendReserved (boxOf (s.recordAt (s.rgValue o.kg o.rg).toNat)) (s.recordAt (s.rgValue o.kg o.rg).toNat) = false
  range : (boxOf (s.recordAt (s.rgValue o.kg o.rg).toNat)).sendRange (zr == 1) = false

/-- The command that CSEND sends. -/
def State.sent (s : State) (o : CRecOp) (nt : BitVec 1) (hd : BitVec 6) : CopyCmd :=
  s.sendCopy o (s.rgValue o.kg o.rg).toNat hd.toNat (nt == 1)

/-- The verdict of CSEND's checks, in their order (10 R314). -/
def State.sendVerdict (s : State) (o : CRecOp) (zr nt : BitVec 1) (hd : BitVec 6) : Verdict :=
  let a := (s.rgValue o.kg o.rg).toNat
  let b := boxOf (s.recordAt a)
  verdicts [s.copyRows o, s.recordAddr a, s.bad0 (sendReserved b (s.recordAt a)) reservedC, s.bad0 (b.sendRange (zr == 1)) rangeC,
    s.sendChecks hd.toNat (s.sent o nt hd), if b.isZero then .ok else s.tileStates b.sk (b.src % 16) 0 0]

/-- The state after CSEND of the record at `a`: the command is its channel's, and waits at the handle. -/
def State.sends (s : State) (o : CRecOp) (a h : Nat) (nt : Bool) : State :=
  (s.chosen.issueCopy o (s.sendCopy o a h nt)).modHandle h fun x => { x with sends := x.sends ++ [(s.cur.core, (s.sendCopy o a h nt).id)] }

theorem exec_csend : exec (.csend o zr nt hd) s =
    s.performH hd.toNat (s.sendVerdict o zr nt hd) fun u => u.sends o (s.rgValue o.kg o.rg).toNat hd.toNat (nt == 1) := rfl

theorem State.sendVerdict_eq (record : s.SendRecord o zr) : s.sendVerdict o zr nt hd = verdicts [s.sendChecks hd.toNat (s.sent o nt hd),
    if (boxOf (s.recordAt (s.rgValue o.kg o.rg).toNat)).isZero then .ok
      else s.tileStates (boxOf (s.recordAt (s.rgValue o.kg o.rg).toNat)).sk ((boxOf (s.recordAt (s.rgValue o.kg o.rg).toNat)).src % 16) 0 0] := by
  rw [State.sendVerdict, State.copyRows_ok record.ready, State.recordAddr_ok record.aligned record.inside record.clean, record.plain, record.range,
    bad0_false, bad0_false, verdicts_ok, verdicts_ok, verdicts_ok, verdicts_ok]

/-- A tile register that a box reads is full and its parity holds (08 R243, 13 R390). -/
theorem State.tileStates_ok {sk src : Nat} (ready : sk = 3 → s.me.tIsFull (BitVec.ofNat 4 src) = true ∧ src % 16 ∉ s.me.tBad) :
    s.tileStates sk (src % 16) 0 0 = .ok := by
  have number : BitVec.ofNat 4 (src % 16) = BitVec.ofNat 4 src := by simp [← BitVec.toNat_inj]
  unfold State.tileStates
  by_cases tile : sk = 3
  · obtain ⟨full, good⟩ := ready tile
    rw [if_pos tile, number, State.needT, full]
    simp [good]
  · rw [if_neg tile, beq_eq_false_iff_ne.2 tile]
    simp
end

/-- Consuming a free choice changes no stream. -/
theorem State.sameStreams_chosen (s : State) : s.SameStreams s.chosen := ⟨rfl, fun st => by cases st <;> rfl, rfl, rfl, rfl, rfl⟩

theorem State.alone_chosen (s : State) : s.Alone s.chosen := ⟨rfl, fun _ _ => rfl⟩

theorem Handle.live_ne_free {x : Handle} (live : x.st = .live) : x.st ≠ .free := by simp [live]

section
variable {s : State} (hst : s.cur.st = .copy) {o : CRecOp} {zr nt : BitVec 1} {hd : BitVec 6}
include hst

/-- A command of a crossing handle: the core takes it, and the handle's entry alone changes with it. -/
theorem State.takes_ofHandle {k : CopyCmd} {h : Nat} (small : h < 64) (f : Handle → Handle) (number : k.id = s.me.nextCopy)
    (channel : k.ch = o.ch.toNat) (ident : k.ident = vAt s.me.chIssued o.ch.toNat + 1)
    (begun : k.issued = s.cyc ∧ k.fence = s.me.cfences ∧ k.finished = false ∧ k.started = false ∧ k.ready = none) :
    let t := (s.chosen.issueCopy o k).modHandle h f
    s.Takes t o { k with logged := s.me.logs s.cur.core k } ∧
      (t = { s with cores := t.cores, freeCtr := t.freeCtr, handles := t.handles } ∧ ∀ j, j < 64 → j ≠ h → t.handle j = s.handle j) ∧
      t.handle h = f (s.handle h) := by
  obtain ⟨⟨alone, -⟩, takes⟩ := State.takes_issueCopy hst s.sameStreams_chosen rfl s.alone_chosen number channel ident begun
  have handles (j : Nat) : (s.chosen.issueCopy o k).handle j = s.handle j := by
    unfold State.handle
    rw [alone]
  refine ⟨takes.modHandle h f, ⟨?_, fun j bound other => ?_⟩, ?_⟩
  · rw [alone]
    rfl
  · rw [State.handle_modHandle_other _ _ _ _ (by omega), handles]
  · rw [State.handle_modHandle, handles]

section
variable (record : s.SendRecord o zr) (owner : (s.handle hd.toNat).owner = some (s.ctxOf s.cur.core))
include record owner

omit hst owner in
theorem State.sendVerdict_fault {code : Nat} (refused : s.sendChecks hd.toNat (s.sent o nt hd) = .fault code) :
    s.sendVerdict o zr nt hd = .fault code := by
  rw [State.sendVerdict_eq record, refused]
  rfl

theorem traps_csend_away (held : (s.handle hd.toNat).st ≠ .free)
    (away : ¬ (isFibre (s.handle hd.toNat).src = false ∧ landingTile (s.handle hd.toNat).src = tileOf s.cur.core)) :
    Traps (.csend o zr nt hd) s (cause 0 3 2) :=
  .of_performH hst exec_csend (State.sendVerdict_fault record (State.sendChecks_away owner hst held away)) (by decide)

omit hst in
/-- The accepted send (10 R313, R314). -/
theorem sends_csend (here : isFibre (s.handle hd.toNat).src = false ∧ landingTile (s.handle hd.toNat).src = tileOf s.cur.core)
    (runs : s.holdsXing = true) (live : (s.handle hd.toNat).st = .live) (inTime : s.sendInTime (s.handle hd.toNat) (s.sent o nt hd))
    (tiles : s.tileStates (boxOf (s.recordAt (s.rgValue o.kg o.rg).toNat)).sk
        ((boxOf (s.recordAt (s.rgValue o.kg o.rg).toNat)).src % 16) 0 0 = .ok ∨
      (boxOf (s.recordAt (s.rgValue o.kg o.rg).toNat)).isZero = true) :
    exec (.csend o zr nt hd) s = .next (s.sends o (s.rgValue o.kg o.rg).toNat hd.toNat (nt == 1)) := by
  rw [exec_csend, State.sendVerdict_eq record, State.sendChecks_live owner here runs live inTime, verdicts_ok]
  rcases tiles with tiles | zero
  · rw [tiles, ite_self]
    rfl
  · rw [zero]
    rfl

end
end

/-! ## CRECVB at issue (10 R315) -/

section
variable {s : State} {o : CRecOp} {hd : BitVec 6}

/-- The checks of a binding's record alone (10 R315). -/
structure State.RecvRecord (s : State) (o : CRecOp) (r : List Byte) : Prop where
  ready : s.CopyReady o
  aligned : (s.rgValue o.kg o.rg).toNat % 64 = 0
  inside : (s.rgValue o.kg o.rg).toNat < 0x400000
  clean : s.me.lsPoison = []
  record : r = s.recordAt (s.rgValue o.kg o.rg).toNat
  plain : ∀ y ∈ r.drop 25, y = 0
  kind : recField r 8 4 < 4
  peerWord : recField r 12 4 < 8192 ∧ recField r 12 4 / 64 % 4 = 0
  store : recField r 8 4 < 2 → recField r 0 8 + recField r 16 4 ≤ 0x400000
  tile : recField r 8 4 = 3 → recField r 0 8 < 16 ∧ recField r 16 4 = 4096 ∧
    (recField r 20 4 ≠ 0 → s.me.tIsEmpty (BitVec.ofNat 4 (recField r 0 8)) = true)
  length : 1 ≤ recField r 16 4 ∧ recField r 16 4 ≤ 0x1000000 ∧ recField r 20 4 ≤ recField r 16 4
  peer : recField r 8 4 = 1 → ∃ c, coreOfWord (recField r 12 4) = some c ∧ s.inLaunch c = true ∧ tileOf c = tileOf s.cur.core
  blocks : recField r 8 4 = 2 → (blocksOf (recField r 0 8) (recField r 16 4)).length ≤ 1024

/-- What a binding's record may not hold in its reserved fields (10 R315). -/
def recvReserved (r : List Byte) : Bool :=
  decide (8 ≤ recField r 8 4 ∨ 8192 ≤ (recvOf r).peer ∨ (recvOf r).peer / 64 % 4 ≠ 0) || (r.drop 25).any (· != 0) ||
    addrReserved (recvOf r).dk (recvOf r).dst

/-- The core that a binding's record names is one of the launch's on its tile. -/
def State.recvPeer (s : State) (r : List Byte) : Bool :=
  match coreOfWord (recvOf r).peer with | some c => s.inLaunch c && tileOf c == tileOf s.cur.core | none => false

/-- A binding's record is outside the ranges of its fields (10 R315). -/
def State.recvRange (s : State) (r : List Byte) : Bool :=
  decide (4 ≤ (recvOf r).dk ∨ (recvOf r).len = 0 ∨ 0x1000000 < (recvOf r).len ∨ (recvOf r).len < (recvOf r).exp ∨
      ((recvOf r).dk = 3 ∧ (recvOf r).len ≠ 4096)) ||
    ((recvOf r).dk == 1 && !s.recvPeer r) || (decide ((recvOf r).dk < 2) && !inStore (recvOf r).dst (recvOf r).len) ||
    ((recvOf r).dk == 2 && decide (1024 < (blocksOf (recvOf r).dst (recvOf r).len).length))

/-- The checks of a binding's handle, and the room in its queue and its tile register (10 R315). -/
def State.recvChecks (s : State) (r : List Byte) (h : Nat) : Verdict :=
  verdicts [s.bad0 ((s.handle h).owner != some (s.ctxOf s.cur.core) || ((s.handle h).st != .free &&
      !(s.handle h).dsts.any fun l => !isFibre l && landingTile l == tileOf s.cur.core)) rangeC,
    bar (!s.holdsXing) sendC, need (decide (s.queued h (tileOf s.cur.core) < 4) || (recvOf r).exp == 0) (cause2 .copy fullC),
    if (recvOf r).dk = 3 ∧ (recvOf r).exp ≠ 0 then s.freeT (BitVec.ofNat 4 (recvOf r).dst) else .ok]

/-- The verdict of CRECVB's checks, in their order (10 R315). -/
def State.recvVerdict (s : State) (o : CRecOp) (hd : BitVec 6) : Verdict :=
  let a := (s.rgValue o.kg o.rg).toNat
  verdicts [s.copyRows o, s.recordAddr a, s.bad0 (recvReserved (s.recordAt a)) reservedC, s.bad0 (s.recvRange (s.recordAt a)) rangeC,
    s.recvChecks (s.recordAt a) hd.toNat]

/-- The state after CRECVB of the record at `a`: the command is its channel's, and binds to the handle where it expects bytes. -/
def State.receives (s : State) (o : CRecOp) (a h exp : Nat) (x : Handle) : State :=
  let k := s.recvCopy o a h (if x.st = .free then [] else (s.queueFor h (tileOf s.cur.core)).toList)
  (s.chosen.issueCopy o k).modHandle h fun x => if exp = 0 then x else { x with bindings := x.bindings ++ [(s.cur.core, k.id)] }

theorem exec_crecvb : exec (.crecvb o hd) s = s.performH hd.toNat (s.recvVerdict o hd) fun u =>
    u.receives o (s.rgValue o.kg o.rg).toNat hd.toNat (recvOf (s.recordAt (s.rgValue o.kg o.rg).toNat)).exp (s.handle hd.toNat) := by
  have last (v w x y : Verdict) (l : List Verdict) : verdicts (v :: w :: x :: y :: l) = verdicts [v, w, x, y, verdicts l] := by
    simp [Verdict.and_ok_right]
  rw [exec, execCrecvb]
  dsimp only
  rw [last]
  rfl

section
variable (fine : s.RecvRecord o (s.recordAt (s.rgValue o.kg o.rg).toNat))
include fine

theorem recvKind : (recvOf (s.recordAt (s.rgValue o.kg o.rg).toNat)).dk = recField (s.recordAt (s.rgValue o.kg o.rg).toNat) 8 4 :=
  Nat.mod_eq_of_lt (by have := fine.kind; omega)

theorem recvReserved_false : recvReserved (s.recordAt (s.rgValue o.kg o.rg).toNat) = false := by
  have kind := recvKind fine
  obtain ⟨word, grid⟩ := fine.peerWord
  have four := fine.kind
  have addr : addrReserved (recvOf (s.recordAt (s.rgValue o.kg o.rg).toNat)).dk (recvOf (s.recordAt (s.rgValue o.kg o.rg).toNat)).dst = false := by
    rw [kind]
    unfold addrReserved
    split
    · exact decide_eq_false (by have := fine.store (by omega); have := fine.length.1; show ¬ 2 ^ 22 ≤ recField _ 0 8; omega)
    · split
      · exact decide_eq_false (by have := fine.tile ‹_›; show ¬ 16 ≤ recField _ 0 8; omega)
      · rfl
  have blank : ((s.recordAt (s.rgValue o.kg o.rg).toNat).drop 25).any (· != 0) = false := by
    rw [List.any_eq_false]
    intro y hy
    simp [fine.plain y hy]
  rw [recvReserved, addr, blank, decide_eq_false (by show ¬ (_ ∨ 8192 ≤ recField _ 12 4 ∨ recField _ 12 4 / 64 % 4 ≠ 0); omega)]
  rfl

theorem State.recvRange_false : s.recvRange (s.recordAt (s.rgValue o.kg o.rg).toNat) = false := by
  have kind := recvKind fine
  have four := fine.kind
  obtain ⟨one, most, within⟩ := fine.length
  have peer : ((recvOf (s.recordAt (s.rgValue o.kg o.rg).toNat)).dk == 1 && !s.recvPeer (s.recordAt (s.rgValue o.kg o.rg).toNat)) = false := by
    rw [Bool.and_eq_false_iff, beq_eq_false_iff_ne, Bool.not_eq_false', kind, ← imp_iff_not_or]
    intro one
    obtain ⟨c, found, member, near⟩ := fine.peer one
    have found' : coreOfWord (recvOf (s.recordAt (s.rgValue o.kg o.rg).toNat)).peer = some c := found
    simp [State.recvPeer, found', member, near]
  have store : (decide ((recvOf (s.recordAt (s.rgValue o.kg o.rg).toNat)).dk < 2) &&
      !inStore (recvOf (s.recordAt (s.rgValue o.kg o.rg).toNat)).dst (recvOf (s.recordAt (s.rgValue o.kg o.rg).toNat)).len) = false := by
    rw [Bool.and_eq_false_iff, decide_eq_false_iff_not, Bool.not_eq_false', kind, ← imp_iff_not_or, inStore, decide_eq_true_iff]
    intro near
    have := fine.store near
    show (0 : Int) ≤ (recField _ 0 8 : Nat) ∧ ((recField _ 0 8 : Nat) : Int) + (recField _ 16 4 : Nat) ≤ 0x400000
    omega
  have blocks : ((recvOf (s.recordAt (s.rgValue o.kg o.rg).toNat)).dk == 2 && decide (1024 < (blocksOf (recvOf (s.recordAt
      (s.rgValue o.kg o.rg).toNat)).dst (recvOf (s.recordAt (s.rgValue o.kg o.rg).toNat)).len).length)) = false := by
    rw [Bool.and_eq_false_iff, beq_eq_false_iff_ne, decide_eq_false_iff_not, kind, ← imp_iff_not_or, not_lt]
    exact fine.blocks
  have fields : ¬ (4 ≤ (recvOf (s.recordAt (s.rgValue o.kg o.rg).toNat)).dk ∨ (recvOf (s.recordAt (s.rgValue o.kg o.rg).toNat)).len = 0 ∨
      0x1000000 < (recvOf (s.recordAt (s.rgValue o.kg o.rg).toNat)).len ∨
      (recvOf (s.recordAt (s.rgValue o.kg o.rg).toNat)).len < (recvOf (s.recordAt (s.rgValue o.kg o.rg).toNat)).exp ∨
      ((recvOf (s.recordAt (s.rgValue o.kg o.rg).toNat)).dk = 3 ∧ (recvOf (s.recordAt (s.rgValue o.kg o.rg).toNat)).len ≠ 4096)) := by
    rw [kind]
    have := fine.tile
    show ¬ (_ ∨ recField _ 16 4 = 0 ∨ 0x1000000 < recField _ 16 4 ∨ recField _ 16 4 < recField _ 20 4 ∨ (_ ∧ recField _ 16 4 ≠ 4096))
    omega
  rw [State.recvRange, peer, store, blocks, decide_eq_false fields]
  rfl

theorem State.recvVerdict_eq : s.recvVerdict o hd = s.recvChecks (s.recordAt (s.rgValue o.kg o.rg).toNat) hd.toNat := by
  rw [State.recvVerdict, State.copyRows_ok fine.ready, State.recordAddr_ok fine.aligned fine.inside fine.clean, recvReserved_false fine,
    State.recvRange_false fine, bad0_false, bad0_false]
  simp

theorem State.recvTile_ok :
    (if (recvOf (s.recordAt (s.rgValue o.kg o.rg).toNat)).dk = 3 ∧ (recvOf (s.recordAt (s.rgValue o.kg o.rg).toNat)).exp ≠ 0
    then s.freeT (BitVec.ofNat 4 (recvOf (s.recordAt (s.rgValue o.kg o.rg).toNat)).dst) else .ok) = .ok := by
  rw [recvKind fine]
  split
  · obtain ⟨-, -, empty⟩ := fine.tile (‹_ ∧ _›).1
    exact (need_ok_iff _ _).2 (empty (‹_ ∧ _›).2)
  · rfl

/-- The accepted binding (10 R315). -/
theorem receives_crecvb (owner : (s.handle hd.toNat).owner = some (s.ctxOf s.cur.core)) (runs : s.holdsXing = true)
    (near : (s.handle hd.toNat).st = .free ∨ ∃ l ∈ (s.handle hd.toNat).dsts, isFibre l = false ∧ landingTile l = tileOf s.cur.core)
    (room : recField (s.recordAt (s.rgValue o.kg o.rg).toNat) 20 4 ≠ 0 → s.queued hd.toNat (tileOf s.cur.core) < 4) :
    exec (.crecvb o hd) s = .next (s.receives o (s.rgValue o.kg o.rg).toNat hd.toNat (recvOf (s.recordAt (s.rgValue o.kg o.rg).toNat)).exp
      (s.handle hd.toNat)) := by
  have place : ((s.handle hd.toNat).owner != some (s.ctxOf s.cur.core) || ((s.handle hd.toNat).st != .free &&
      !(s.handle hd.toNat).dsts.any fun l => !isFibre l && landingTile l == tileOf s.cur.core)) = false := by
    rw [Bool.or_eq_false_iff, Bool.and_eq_false_iff, bne_eq_false_iff_eq, bne_eq_false_iff_eq, Bool.not_eq_false', List.any_eq_true]
    simpa using ⟨owner, near⟩
  have free : (decide (s.queued hd.toNat (tileOf s.cur.core) < 4) || (recvOf (s.recordAt (s.rgValue o.kg o.rg).toNat)).exp == 0) = true := by
    rw [Bool.or_eq_true, decide_eq_true_iff, beq_iff_eq, or_iff_not_imp_right]
    exact room
  rw [exec_crecvb, State.recvVerdict_eq fine, State.recvChecks, place, runs, free, State.recvTile_ok fine]
  rfl

theorem traps_crecvb_of_place (hst : s.cur.st = .copy) (held : (s.handle hd.toNat).st ≠ .free)
    (away : ∀ l ∈ (s.handle hd.toNat).dsts, isFibre l = true ∨ landingTile l ≠ tileOf s.cur.core) : Traps (.crecvb o hd) s (cause 0 3 2) := by
  have place : ((s.handle hd.toNat).owner != some (s.ctxOf s.cur.core) || ((s.handle hd.toNat).st != .free &&
      !(s.handle hd.toNat).dsts.any fun l => !isFibre l && landingTile l == tileOf s.cur.core)) = true := by
    rw [Bool.or_eq_true, Bool.and_eq_true, bne_iff_ne, bne_iff_ne, Bool.not_eq_true', List.any_eq_false]
    exact .inr ⟨held, by simpa [or_iff_not_imp_left] using away⟩
  refine .of_performH hst exec_crecvb ?_ (by decide)
  rw [State.recvVerdict_eq fine, State.recvChecks, place, State.bad0_copy hst rfl]
  rfl

end

end

/-- Settles O34: each word's checks in their order, and the accepted words as commands of their channel and their handle. -/
theorem copySends : Obligations.CopySends := by
  intro s o zr nt hd ch kg rg hst v a r num b h x ctx tile others record sendOk here count sent inTime tileOk refused
  have small : h < 64 := hd.isLt
  have sendRecord (hr : record) (hs : sendOk) : s.SendRecord o zr := by
    obtain ⟨ready, aligned, inside, clean⟩ := hr
    obtain ⟨plain, range, -, -⟩ := hs
    exact ⟨ready, aligned, inside, clean, plain, range⟩
  have refuses {code : Nat} (hr : record) (hs : sendOk) (checks : s.sendChecks h (s.sent o nt hd) = .fault code) (class3 : causeClass code = 3) :
      refused code :=
    State.refuses_of_performH hst exec_csend (State.sendVerdict_fault (sendRecord hr hs) checks) class3
  refine ⟨fun hr hs hh live timed tiles => ?_, fun hr hs free => ?_, fun hr hs hh ended => ?_, fun hr hs hh live late => ?_,
    fun hr hs held away => ?_, ?_, fun named outside => traps_cwait_of_file hst named outside,
    fun source => ⟨fun reached large => traps_cwait_of_range hst source reached large, fun reached legal => gives_cwait hst source reached legal,
      fun short => stalls_cwait hst source short⟩, cfence_counts hst⟩
  · obtain ⟨-, -, owner, runs⟩ := id hs
    obtain ⟨takes, rest, handle⟩ := State.takes_ofHandle hst (o := o) (k := s.sendCopy o a h (nt == 1)) small
      (fun x => { x with sends := x.sends ++ [(s.cur.core, (s.sendCopy o a h (nt == 1)).id)] }) rfl rfl rfl ⟨rfl, rfl, rfl, rfl, rfl⟩
    refine ⟨_, _, sends_csend (sendRecord hr hs) owner hh runs live timed ?_, takes, rest, rfl, rfl, rfl, rfl, rfl, handle⟩
    by_cases zero : b.isZero = true
    · exact .inr zero
    · exact .inl (State.tileStates_ok fun tile => tiles (by simpa using zero) tile)
  · obtain ⟨-, -, owner, runs⟩ := id hs
    exact refuses hr hs (State.sendChecks_free owner free) (by decide)
  · obtain ⟨-, -, owner, runs⟩ := id hs
    exact refuses hr hs (State.sendChecks_ended owner hh ended) (by decide)
  · obtain ⟨-, -, owner, runs⟩ := id hs
    exact refuses hr hs (State.sendChecks_late owner hh runs live late) (by decide)
  · obtain ⟨-, -, owner, runs⟩ := id hs
    exact traps_csend_away hst (sendRecord hr hs) owner held away
  · intro dk peerOk hr plain kind word grid store tileOk one most within peer blocks owner runs
    obtain ⟨ready, aligned, inside, clean⟩ := hr
    have fine : s.RecvRecord o (s.recordAt (s.rgValue o.kg o.rg).toNat) :=
      ⟨ready, aligned, inside, clean, rfl, plain, kind, ⟨word, grid⟩, store, tileOk, ⟨one, most, within⟩, peer, blocks⟩
    refine ⟨fun near room => ?_, fun held away => traps_crecvb_of_place fine hst held away⟩
    obtain ⟨takes, rest, handle⟩ := State.takes_ofHandle hst (o := o)
      (k := s.recvCopy o a h (if x.st = .free then [] else (s.queueFor h tile).toList)) small
      (fun x => if (recvOf r).exp = 0 then x else
        { x with bindings := x.bindings ++ [(s.cur.core, s.me.nextCopy)] }) rfl rfl rfl ⟨rfl, rfl, rfl, rfl, rfl⟩
    exact ⟨_, _, receives_crecvb fine owner runs near room, takes, rest, rfl, rfl, rfl, beq_iff_eq, handle⟩

end Sys2Proof.Machine
end

section
/-! PROOF. The copy commands with a record at issue: boxes, lists, bins, near-memory, collectives and constants (08 R239-R257; 11 R353-R356; O33). -/

namespace Sys2Proof.Machine

/-! ## The rows of a box (08 R244) -/

section
variable {α : Type} {f : Nat → List α} {n : Nat} (len : ∀ i, (f i).length = n)
include len

theorem length_flatMap_range (m : Nat) : ((List.range m).flatMap f).length = m * n := by
  induction m with
  | zero => simp
  | succ m ih => rw [List.range_succ, List.flatMap_append, List.length_append, ih]; simp [len, Nat.succ_mul]

theorem getElem?_flatMap_range {m i j : Nat} (hi : i < m) (hj : j < n) : ((List.range m).flatMap f)[i * n + j]? = (f i)[j]? := by
  induction m with
  | zero => omega
  | succ m ih =>
    rw [List.range_succ, List.flatMap_append]
    have whole := length_flatMap_range len m
    rcases Nat.lt_succ_iff_lt_or_eq.1 hi with earlier | rfl
    · rw [List.getElem?_append_left, ih earlier]
      calc i * n + j < (i + 1) * n := by rw [Nat.succ_mul]; omega
        _ ≤ _ := by rw [whole]; exact Nat.mul_le_mul_right n earlier
    · rw [List.getElem?_append_right (by omega), whole, Nat.add_sub_cancel_left]
      simp

end

/-- The source and destination of the row of a box at the loop indices `i1`, `i2`, `i3` (08 R244). -/
def Box.rowAt (b : Box) (i1 i2 i3 : Nat) : Int × Int :=
  ((b.src : Int) + (i1 : Int) * b.ss.1 + (i2 : Int) * b.ss.2.1 + (i3 : Int) * b.ss.2.2,
    (b.dst : Int) + (i1 : Int) * b.ds.1 + (i2 : Int) * b.ds.2.1 + (i3 : Int) * b.ds.2.2)

/-- The place of a row in the loop order (08 R244). -/
def Box.place (b : Box) (i1 i2 i3 : Nat) : Nat := (i3 * b.ext.2.2.1 + i2) * b.ext.2.1 + i1

section
variable {b : Box}

theorem Box.length_rows : b.rows.length = b.ext.2.2.2 * (b.ext.2.2.1 * b.ext.2.1) :=
  length_flatMap_range (fun _ => length_flatMap_range (fun _ => by simp) _) _

theorem Box.rows_getElem? {i1 i2 i3 : Nat} (h1 : i1 < b.ext.2.1) (h2 : i2 < b.ext.2.2.1) (h3 : i3 < b.ext.2.2.2) :
    b.rows[b.place i1 i2 i3]? = some (b.rowAt i1 i2 i3) := by
  have inner : i2 * b.ext.2.1 + i1 < b.ext.2.2.1 * b.ext.2.1 := calc
    i2 * b.ext.2.1 + i1 < (i2 + 1) * b.ext.2.1 := by rw [Nat.succ_mul]; omega
    _ ≤ _ := Nat.mul_le_mul_right _ h2
  have place : b.place i1 i2 i3 = i3 * (b.ext.2.2.1 * b.ext.2.1) + (i2 * b.ext.2.1 + i1) := by
    rw [Box.place, Nat.add_mul, Nat.mul_assoc, Nat.add_assoc]
  rw [place]
  refine (getElem?_flatMap_range (fun _ => length_flatMap_range (fun _ => by simp) _) h3 inner).trans ?_
  refine (getElem?_flatMap_range (fun _ => by simp) h2 h1).trans ?_
  rw [List.getElem?_map, List.getElem?_range h1]
  rfl

/-- Every place of a box is that of one row (08 R244). -/
theorem Box.exists_place {n : Nat} (h : n < b.rows.length) :
    ∃ i1 i2 i3, i1 < b.ext.2.1 ∧ i2 < b.ext.2.2.1 ∧ i3 < b.ext.2.2.2 ∧ b.place i1 i2 i3 = n := by
  rw [Box.length_rows, ← Nat.mul_assoc] at h
  have p1 : 0 < b.ext.2.1 := Nat.pos_of_ne_zero fun zero => by simp [zero] at h
  have p2 : 0 < b.ext.2.2.1 := Nat.pos_of_ne_zero fun zero => by simp [zero] at h
  refine ⟨n % b.ext.2.1, n / b.ext.2.1 % b.ext.2.2.1, n / b.ext.2.1 / b.ext.2.2.1, Nat.mod_lt _ p1, Nat.mod_lt _ p2, ?_, ?_⟩
  · rw [Nat.div_div_eq_div_mul, Nat.div_lt_iff_lt_mul (Nat.mul_pos p1 p2), Nat.mul_comm b.ext.2.1, ← Nat.mul_assoc]
    exact h
  · rw [Box.place, Nat.div_add_mod' , Nat.div_add_mod']

theorem Box.place_mod {i1 : Nat} (h1 : i1 < b.ext.2.1) (i2 i3 : Nat) : b.place i1 i2 i3 % b.ext.2.1 = i1 := by
  rw [Box.place, Nat.mul_add_mod', Nat.mod_eq_of_lt h1]

/-- The bytes of a row of a box: virtual addresses are 64-bit, and a tile register's bytes are counted from its first (08 R244). -/
def Box.spanAt (b : Box) (i1 i2 i3 : Nat) : Span :=
  { src := if b.sk = 2 then va64 (b.rowAt i1 i2 i3).1 else if b.sk = 3 then b.place i1 i2 i3 * b.ext.1 else (b.rowAt i1 i2 i3).1.toNat
    dst := if b.dk = 2 then va64 (b.rowAt i1 i2 i3).2 else if b.dk = 3 then b.place i1 i2 i3 * b.ext.1 else (b.rowAt i1 i2 i3).2.toNat
    len := b.ext.1 }

theorem Box.isZero_iff : b.isZero = true ↔ ¬ b.ext.1 * b.ext.2.1 * b.ext.2.2.1 * b.ext.2.2.2 ≠ 0 := by
  rw [not_not]
  simp [Box.isZero, or_assoc]

theorem Box.isZero_false_iff : b.isZero = false ↔ b.ext.1 * b.ext.2.1 * b.ext.2.2.1 * b.ext.2.2.2 ≠ 0 := by
  rw [← Bool.not_eq_true, Box.isZero_iff, not_not]

theorem Box.spans_of_zero (zero : b.isZero = true) : b.spans = [] := by
  rw [Box.spans, if_pos zero]

section
variable (some_ : b.isZero = false)
include some_

theorem Box.spans_getElem? {i1 i2 i3 : Nat} (h1 : i1 < b.ext.2.1) (h2 : i2 < b.ext.2.2.1) (h3 : i3 < b.ext.2.2.2) :
    b.spans[b.place i1 i2 i3]? = some (b.spanAt i1 i2 i3) := by
  rw [Box.spans, some_, if_neg Bool.false_ne_true, List.getElem?_map, List.getElem?_zipIdx, Box.rows_getElem? h1 h2 h3, Nat.zero_add]
  rfl

theorem Box.length_spans : b.spans.length = b.ext.2.1 * b.ext.2.2.1 * b.ext.2.2.2 := by
  rw [Box.spans, some_, if_neg Bool.false_ne_true, List.length_map, List.length_zipIdx, Box.length_rows]
  ring

/-- The rows that a filter by place keeps, where it looks at the first loop index alone. -/
theorem Box.mem_filter_spans {x : Span} {valid : Nat → Bool} :
    x ∈ (b.spans.zipIdx.filter fun y => valid (y.2 % b.ext.2.1)).map (·.1) ↔
      ∃ i1 i2 i3, i1 < b.ext.2.1 ∧ i2 < b.ext.2.2.1 ∧ i3 < b.ext.2.2.2 ∧ x = b.spanAt i1 i2 i3 ∧ valid i1 = true := by
  simp only [List.mem_map, List.mem_filter, Prod.exists, List.mem_zipIdx_iff_getElem?]
  constructor
  · rintro ⟨y, n, ⟨at_, keep⟩, rfl⟩
    have inside : n < b.spans.length := (List.getElem?_eq_some_iff.1 at_).1
    obtain ⟨i1, i2, i3, h1, h2, h3, rfl⟩ := Box.exists_place (b := b) (n := n)
      (by rw [Box.length_rows]; rw [Box.length_spans some_] at inside; convert inside using 1; ring)
    rw [Box.place_mod h1] at keep
    exact ⟨i1, i2, i3, h1, h2, h3, Option.some.inj (at_.symm.trans (Box.spans_getElem? some_ h1 h2 h3)), keep⟩
  · rintro ⟨i1, i2, i3, h1, h2, h3, rfl, keep⟩
    exact ⟨_, _, ⟨Box.spans_getElem? some_ h1 h2 h3, by rwa [Box.place_mod h1]⟩, rfl⟩

end
end

/-! ## What every copy word with a record checks first (08 R243) -/

/-- The words of a copy command with a record that checks nothing before its rows and its record's address. -/
def recordWords (o : CRecOp) (zr nt : BitVec 1) : List Instr := [.cpy o zr nt, .cgath o nt, .cscat o nt, .cbin o nt, .cnmc o, .ccoll o]

theorem State.perform_checks (s : State) (u v : Verdict) (l m : List Verdict) (eff : State → State) :
    s.perform (verdicts (u :: verdicts (v :: l) :: m)) eff = s.perform (u.and (v.and (verdicts (l ++ m)))) eff := by
  have join (l : List Verdict) : verdicts (l ++ m) = (verdicts l).and (verdicts m) := by
    induction l with
    | nil => rfl
    | cons x l ih => rw [List.cons_append, verdicts_cons, ih, verdicts_cons, Verdict.and_assoc]
  rw [verdicts_cons, verdicts_cons, verdicts_cons, Verdict.and_assoc, join]

section
variable {s : State} {o : CRecOp} {zr nt : BitVec 1} {i : Instr}

theorem exec_recordWord (hi : i ∈ recordWords o zr nt) :
    ∃ v eff, exec i s = s.perform ((s.copyRows o).and ((s.recordAddr (s.rgValue o.kg o.rg).toNat).and v)) eff := by
  simp only [recordWords, List.mem_cons, List.not_mem_nil, or_false] at hi
  obtain rfl | rfl | rfl | rfl | rfl | rfl := hi
  · rw [exec, execCpy, State.boxChecks]
    exact ⟨_, _, s.perform_checks _ _ _ _ _⟩
  · rw [exec, execCgath, State.listChecks]
    exact ⟨_, _, s.perform_checks _ _ _ _ _⟩
  · rw [exec, execCscat, State.listChecks]
    exact ⟨_, _, s.perform_checks _ _ _ _ _⟩
  · rw [exec, execCbin, State.binChecks]
    exact ⟨_, _, s.perform_checks _ _ _ _ _⟩
  · rw [exec, execCnmc, State.nearChecks]
    exact ⟨_, _, s.perform_checks _ _ _ _ _⟩
  · rw [exec, execCcoll]
    exact ⟨_, _, rfl⟩

theorem exec_copyWord (hi : i ∈ recordWords o zr nt ++ [.cconst o]) : ∃ v eff, exec i s = s.perform ((s.copyRows o).and v) eff := by
  rcases List.mem_append.1 hi with record | const
  · obtain ⟨v, eff, h⟩ := exec_recordWord record
    exact ⟨_, _, h⟩
  · rw [List.mem_singleton.1 const]
    rw [exec, execCconst]
    exact ⟨_, _, rfl⟩

variable (hst : s.cur.st = .copy)
include hst

theorem traps_of_recordAddr (ready : s.CopyReady o) {code : Nat} (refused : s.recordAddr (s.rgValue o.kg o.rg).toNat = .fault code)
    (hi : i ∈ recordWords o zr nt) : Traps i s code := by
  obtain ⟨v, eff, h⟩ := exec_recordWord hi
  refine .of_perform (by simp [hst]) h ?_
  rw [State.copyRows_ok ready, refused]
  rfl

theorem stalls_of_copyRows {code : Nat} (full : s.copyRows o = .wait code) (hi : i ∈ recordWords o zr nt ++ [.cconst o]) : Stalls i s code := by
  obtain ⟨v, eff, h⟩ := exec_copyWord hi
  refine .of_perform (by simp [hst]) h ?_
  rw [full]
  rfl

/-! ## The commands that the words leave -/

/-- A command breaks a bond exactly where one of its writes does, and then names the axis of its kind (09 R273). -/
def State.Clears (s : State) (k : CopyCmd) (ws : List (Nat × Nat)) : Prop :=
  ((∀ w ∈ ws, w.2 ≠ 0 → ¬ Breaks s.me.bonds w.1 w.2) → k.fault = none) ∧
    ((∃ w ∈ ws, w.2 ≠ 0 ∧ Breaks s.me.bonds w.1 w.2) → ∃ f, k.fault = some f ∧ f.code = cause 1 (if k.kind = .nmc then 7 else 4) 4)

theorem State.clears_of_copyBond {k : CopyCmd} {ws : List (Nat × Nat)}
    (checked : k.fault = s.copyBond ws (if k.kind = .nmc then nearA else copyWriteA)) :
    s.Clears k ws := by
  have any : ((ws.filter (·.2 != 0)).any fun w => bondBroken s.me.bonds w.1 w.2) = true ↔ ∃ w ∈ ws, w.2 ≠ 0 ∧ Breaks s.me.bonds w.1 w.2 := by
    simp only [List.any_eq_true, List.mem_filter, bne_iff_ne, bondBroken_iff, and_assoc]
  have code (n : Nat) : (s.info n).code = n := by
    unfold State.info
    rw [hst]
  rw [State.copyBond] at checked
  refine ⟨fun clear => ?_, fun broken => ?_⟩
  · rw [checked, if_neg]
    rw [any]
    rintro ⟨w, hw, some_, breaks⟩
    exact clear w hw some_ breaks
  · rw [checked]
    dsimp only
    rw [if_pos (any.2 broken)]
    refine ⟨_, rfl, ?_⟩
    show (s.info _).code = _
    rw [code]
    split <;> rfl

theorem State.clears_of_copyWrite {k : CopyCmd} {ws : List (Nat × Nat)} (kind : k.kind ≠ .nmc) (checked : k.fault = s.copyBond ws copyWriteA) :
    s.Clears k ws :=
  State.clears_of_copyBond hst (by rw [if_neg kind, checked])

/-- A copy word that only takes its command: the checks pass, and the command is as the word makes it. Whether it is logged is
no part of what is claimed of it. -/
theorem copies_of_perform {v : Verdict} {k : State → CopyCmd} {ok : CopyCmd → Prop}
    (hi : exec i s = s.perform v fun u => u.chosen.issueCopy o (k u)) (pass : v = .ok) (number : (k s).id = s.me.nextCopy)
    (channel : (k s).ch = o.ch.toNat) (ident : (k s).ident = vAt s.me.chIssued o.ch.toNat + 1) (begun : (k s).issued = s.cyc ∧
      (k s).fence = s.me.cfences ∧ (k s).finished = false ∧ (k s).started = false ∧ (k s).ready = none)
    (unlogged : ∀ c b, ok c → ok { c with logged := b }) (is : ok (k s)) : Copies i s o ok := by
  obtain ⟨alone, takes⟩ := State.takes_issueCopy hst s.sameStreams_chosen rfl s.alone_chosen number channel ident begun
  exact ⟨_, _, by rw [hi, pass]; rfl, alone, takes, unlogged _ _ is⟩

end

/-! ## CPY and CPYR (08 R242-R244) -/

/-- A command bound to a shape slot: the slots are none of what a taken command leaves alone. -/
theorem State.Takes.bindTo {s t : State} {o : CRecOp} {k : CopyCmd} (h : s.Takes t o k) (cur : t.cur = s.cur) (hx : t.cur.st ≠ .crossing) (z : Nat)
    (u : Stream × Nat) : s.Takes (t.modMe fun c => c.bindTo z u) o k := by
  obtain ⟨⟨stream, pipe, streams⟩, others, copies, next, number, channel, ident, issued, begun, ⟨checked, flights⟩, files⟩ := h
  have me : (t.modMe fun c => c.bindTo z u).me = t.me.bindTo z u := State.me_modMe _ _
  have same : t.SameStreams (t.modMe fun c => c.bindTo z u) := by
    refine ⟨rfl, fun st => ?_, ?_, ?_, ?_, ?_⟩ <;> rw [me]
    · cases st <;> rfl
    all_goals rfl
  refine ⟨⟨(same.mine hx).trans stream, same.pipe.trans pipe, fun st other => (same.streams st).trans (streams st other)⟩, fun c other => ?_, ?_, ?_,
    number, channel, ident, fun j => ?_, begun, ⟨checked, ?_⟩, fun free => ?_⟩
  · rw [← cur] at other
    exact (State.core_modCore_other _ _ _ _ other).trans (others c (by rwa [← cur]))
  all_goals rw [me]
  · exact copies
  · exact next
  · exact issued j
  · exact flights
  · exact (files free).trans (Core.bindTo_sameFiles _ _ _)

section
variable {s : State} {o : CRecOp} {zr nt : BitVec 1} {zs : BitVec 3}

/-- The tile registers that a box names are ready, and the parity of its source holds (08 R243, 13 R390). -/
theorem State.boxTiles_ok {b : Box} (ready : b.isZero = false → (b.sk = 3 → s.me.tIsFull (BitVec.ofNat 4 b.src) = true ∧ b.src % 16 ∉ s.me.tBad) ∧
      (b.dk = 3 → s.me.tIsEmpty (BitVec.ofNat 4 b.dst) = true)) :
    (if b.isZero then .ok else s.tileStates b.sk (b.src % 16) b.dk (b.dst % 16)) = .ok := by
  have number (n : Nat) : BitVec.ofNat 4 (n % 16) = BitVec.ofNat 4 n := by simp [← BitVec.toNat_inj]
  split
  · rfl
  · next some_ =>
    obtain ⟨source, target⟩ := ready (by simpa using some_)
    have full : (if b.sk = 3 then s.needT (BitVec.ofNat 4 (b.src % 16)) else .ok) = .ok := by
      split
      · rw [number]
        exact (need_ok_iff _ _).2 (source ‹_›).1
      · rfl
    have empty : (if b.dk = 3 then s.freeT (BitVec.ofNat 4 (b.dst % 16)) else .ok) = .ok := by
      split
      · rw [number]
        exact (need_ok_iff _ _).2 (target ‹_›)
      · rfl
    have good : (b.sk == 3 && s.me.tBad.contains (b.src % 16 % 16)) = false := by
      rw [Nat.mod_mod, Bool.and_eq_false_iff, beq_eq_false_iff_ne, ← imp_iff_not_or]
      intro tile
      simpa using (source tile).2
    rw [State.tileStates, full, empty, good]
    rfl

/-- The address of the record of a copy word. -/
abbrev State.copyAddr (s : State) (o : CRecOp) : Nat := (s.rgValue o.kg o.rg).toNat

/-- The record of a copy word. -/
abbrev State.copyRecord (s : State) (o : CRecOp) : List Byte := s.recordAt (s.copyAddr o)

/-- The rows of a copy word are ready, and its record may be read (08 R243). -/
structure State.RecordReady (s : State) (o : CRecOp) : Prop where
  ready : s.CopyReady o
  aligned : s.copyAddr o % 64 = 0
  inside : s.copyAddr o < 0x400000
  clean : s.me.lsPoison = []

theorem State.RecordReady.rows (h : s.RecordReady o) : s.copyRows o = .ok := State.copyRows_ok h.ready

theorem State.RecordReady.addr (h : s.RecordReady o) : s.recordAddr (s.copyAddr o) = .ok := State.recordAddr_ok h.aligned h.inside h.clean

theorem State.lt_copyXlat (starts : List Nat) : s.cyc < s.copyXlat starts := s.choice_lt _ _ _

theorem exec_cpy : exec (.cpy o zr nt) s = s.perform (verdicts [s.copyRows o, s.boxChecks (s.copyAddr o) (zr == 1),
    if (boxOf (s.copyRecord o)).isZero then .ok else
      s.tileStates (boxOf (s.copyRecord o)).sk ((boxOf (s.copyRecord o)).src % 16) (boxOf (s.copyRecord o)).dk ((boxOf (s.copyRecord o)).dst % 16)])
      fun u => u.chosen.issueCopy o (u.boxCopy o (s.copyAddr o) (nt == 1)) := rfl

/-- What CPY and CPYR take from their record alike (08 R242). -/
structure State.BoxCommand (s : State) (o : CRecOp) (nt : BitVec 1) (k : CopyCmd) : Prop where
  record : k.record = s.copyRecord o
  recAddr : k.recAddr = s.copyAddr o
  sk : k.sk = (boxOf (s.copyRecord o)).sk
  dk : k.dk = (boxOf (s.copyRecord o)).dk
  nt : k.nt = (nt == 1)
  zero : k.zero = (boxOf (s.copyRecord o)).isZero
  xlat : s.cyc < k.xlatAt
  fault : (boxOf (s.copyRecord o)).dk ≠ 2 → k.fault = none

theorem State.BoxCommand.logged {k : CopyCmd} (h : s.BoxCommand o nt k) (b : Bool) : s.BoxCommand o nt { k with logged := b } :=
  ⟨h.record, h.recAddr, h.sk, h.dk, h.nt, h.zero, h.xlat, h.fault⟩

section
variable (hst : s.cur.st = .copy) (fine : s.RecordReady o)
include hst fine

theorem State.boxChecks_reserved (zr : Bool) (junk : (boxOf (s.copyRecord o)).reserved (s.copyRecord o) = true) :
    s.boxChecks (s.copyAddr o) zr = .fault (cause 0 3 1) := by
  rw [State.boxChecks, fine.addr, State.bad0_copy hst junk]
  rfl

theorem State.boxChecks_outside {zr : Bool} (plain : (boxOf (s.copyRecord o)).reserved (s.copyRecord o) = false)
    (outside : (boxOf (s.copyRecord o)).outOfRange zr s.inLaunch = true) : s.boxChecks (s.copyAddr o) zr = .fault (cause 0 3 2) := by
  rw [State.boxChecks, fine.addr, State.bad0_ok plain, State.bad0_copy hst outside]
  rfl

theorem traps_cpy {code : Nat} (refused : s.boxChecks (s.copyAddr o) (zr == 1) = .fault code) : Traps (.cpy o zr nt) s code := by
  refine .of_perform (by simp [hst]) exec_cpy ?_
  rw [fine.rows, refused]
  rfl

section
variable (plain : (boxOf (s.copyRecord o)).reserved (s.copyRecord o) = false)
  (range : (boxOf (s.copyRecord o)).outOfRange (zr == 1) s.inLaunch = false)
  (tiles : (if (boxOf (s.copyRecord o)).isZero then .ok else s.tileStates (boxOf (s.copyRecord o)).sk ((boxOf (s.copyRecord o)).src % 16)
    (boxOf (s.copyRecord o)).dk ((boxOf (s.copyRecord o)).dst % 16)) = .ok)
include plain range

omit hst in
theorem State.boxChecks_ok : s.boxChecks (s.copyAddr o) (zr == 1) = .ok := by
  rw [State.boxChecks, fine.addr, State.bad0_ok plain, State.bad0_ok range]
  rfl

include tiles

theorem copies_cpy : Copies (.cpy o zr nt) s o fun k => k.kind = .box ∧ s.BoxCommand o nt k ∧ k.spans = (boxOf (s.copyRecord o)).spans ∧
    ((boxOf (s.copyRecord o)).dk = 2 → s.Clears k (k.spans.map fun x => (x.dst, x.len))) ∧
    (k.virt = true ↔ (boxOf (s.copyRecord o)).isZero = false ∧ ((boxOf (s.copyRecord o)).sk = 2 ∨ (boxOf (s.copyRecord o)).dk = 2)) := by
  refine copies_of_perform hst exec_cpy ?_ rfl rfl rfl ⟨rfl, rfl, rfl, rfl, rfl⟩
    (fun _ b ⟨kind, box, rest⟩ => ⟨kind, box.logged b, rest⟩) ⟨rfl, ?_, rfl, fun virtual => ?_, ?_⟩
  · rw [fine.rows, State.boxChecks_ok fine plain range, tiles]
    rfl
  · exact ⟨rfl, rfl, rfl, rfl, rfl, rfl, State.lt_copyXlat _, fun other => if_neg other⟩
  · exact State.clears_of_copyBond hst (if_pos virtual)
  · show (!_ && decide _) = true ↔ _
    rw [Bool.and_eq_true, Bool.not_eq_true', decide_eq_true_iff]

end

omit hst fine in
/-- The checks of the shape that CPYR clips its rows by (08 R243). -/
theorem State.cpyrChecks_ok {z : Nat} {b : Box} {g : Shape} {w : ElemType} (shape : s.me.shape? z = some g)
    (type : ElemType.ofCode g.etype = some w) (width : 8 * b.ext.1 = g.cols * w.width)
    (whole : g.fault = false ∨ g.straddles s.mine.vc.toNat (s.origin z) b.ext.2.1 = false) : s.cpyrChecks b z = .ok := by
  have straddle : (g.fault && g.straddles s.mine.vc.toNat (s.origin z) b.ext.2.1) = false := Bool.and_eq_false_iff.2 whole
  simp [State.cpyrChecks, shape, type, width, straddle]

/-- The rows of a box that CPYR keeps (08 R244, 07 R203). -/
def State.raggedSpans (s : State) (b : Box) (z : Nat) (spans : List Span) : List Span :=
  (spans.zipIdx.filter fun x => ((s.me.shape? z).getD (({} : ShapeBuf).shape)).validClip s.mine.vc.toNat (s.origin z) b.ext.2.1
    (x.2 % b.ext.2.1)).map (·.1)

/-- The command of CPYR: that of its box, for the rows that the shape keeps (08 R244). -/
def State.raggedCopy (s : State) (o : CRecOp) (a : Nat) (nt : Bool) (b : Box) (z : Nat) : CopyCmd :=
  let sp := s.raggedSpans b z (s.boxCopy o a nt).spans
  let from_ := if b.sk = 2 then sp.map fun x => (x.src, x.len) else []
  let to_ := if b.dk = 2 then sp.map fun x => (x.dst, x.len) else []
  { s.boxCopy o a nt with
    kind := .ragged, spans := sp, reads := startsIn from_, writes := startsIn to_
    xlatAt := s.copyXlat ((from_ ++ to_).map (·.1)), fault := s.copyBond to_ copyWriteA }

omit hst fine in
theorem State.raggedCopy_fault {a : Nat} {nt : Bool} {b : Box} {z : Nat} (virtual : b.dk = 2) :
    (s.raggedCopy o a nt b z).fault = s.copyBond ((s.raggedCopy o a nt b z).spans.map fun x => (x.dst, x.len)) copyWriteA := by
  show s.copyBond (if _ then _ else _) _ = _
  rw [if_pos virtual]
  rfl

omit hst fine in
theorem State.Clears.logged {k : CopyCmd} {ws : List (Nat × Nat)} (h : s.Clears k ws) (b : Bool) : s.Clears { k with logged := b } ws := h

omit fine in
theorem State.raggedCopy_clears {a : Nat} {nt : Bool} {b : Box} {z : Nat} (virtual : b.dk = 2) :
    s.Clears (s.raggedCopy o a nt b z) ((s.raggedCopy o a nt b z).spans.map fun x => (x.dst, x.len)) :=
  State.clears_of_copyWrite hst nofun (State.raggedCopy_fault virtual)

omit hst fine in
theorem exec_cpyr {zs : BitVec 3} : exec (.cpyr o zr nt zs) s = s.perform (verdicts [s.bad0 (s.me.shape? zs.toNat).isNone rangeC, s.copyRows o,
    s.boxChecks (s.copyAddr o) (zr == 1), s.cpyrChecks (boxOf (s.copyRecord o)) zs.toNat, if (boxOf (s.copyRecord o)).isZero then .ok else
      s.tileStates (boxOf (s.copyRecord o)).sk ((boxOf (s.copyRecord o)).src % 16) (boxOf (s.copyRecord o)).dk ((boxOf (s.copyRecord o)).dst % 16)])
      fun u => (u.chosen.issueCopy o (u.raggedCopy o (s.copyAddr o) (nt == 1) (boxOf (s.copyRecord o)) zs.toNat)).modMe fun c =>
        c.bindTo zs.toNat (.crossing, u.me.nextCopy) := rfl

section
variable (plain : (boxOf (s.copyRecord o)).reserved (s.copyRecord o) = false)
  (range : (boxOf (s.copyRecord o)).outOfRange (zr == 1) s.inLaunch = false)
  (tiles : (if (boxOf (s.copyRecord o)).isZero then .ok else s.tileStates (boxOf (s.copyRecord o)).sk ((boxOf (s.copyRecord o)).src % 16)
    (boxOf (s.copyRecord o)).dk ((boxOf (s.copyRecord o)).dst % 16)) = .ok)
include plain range tiles

theorem copies_cpyr {g : Shape} (shape : s.me.shape? zs.toNat = some g) (clip : s.cpyrChecks (boxOf (s.copyRecord o)) zs.toNat = .ok) :
    Copies (.cpyr o zr nt zs) s o fun k => k.kind = .ragged ∧ s.BoxCommand o nt k ∧
      (∀ x, x ∈ k.spans ↔ (boxOf (s.copyRecord o)).isZero = false ∧ ∃ i1 i2 i3, i1 < (boxOf (s.copyRecord o)).ext.2.1 ∧
        i2 < (boxOf (s.copyRecord o)).ext.2.2.1 ∧ i3 < (boxOf (s.copyRecord o)).ext.2.2.2 ∧ x = (boxOf (s.copyRecord o)).spanAt i1 i2 i3 ∧
        g.validClip s.mine.vc.toNat (s.origin zs.toNat) (boxOf (s.copyRecord o)).ext.2.1 i1 = true) ∧
      ((boxOf (s.copyRecord o)).dk = 2 → s.Clears k (k.spans.map fun x => (x.dst, x.len))) := by
  obtain ⟨alone, takes⟩ := State.takes_issueCopy hst s.sameStreams_chosen rfl s.alone_chosen (o := o)
    (k := s.raggedCopy o (s.copyAddr o) (nt == 1) (boxOf (s.copyRecord o)) zs.toNat) rfl rfl rfl ⟨rfl, rfl, rfl, rfl, rfl⟩
  have cur : (s.chosen.issueCopy o (s.raggedCopy o (s.copyAddr o) (nt == 1) (boxOf (s.copyRecord o)) zs.toNat)).cur = s.cur := by
    rw [alone.rest]
  refine ⟨_, _, ?_, alone.modMe cur _, takes.bindTo cur (by rw [cur, hst]; decide) zs.toNat (.crossing, s.me.nextCopy), rfl, ?_, fun x => ?_,
    fun virtual => ?_⟩
  · rw [exec_cpyr, fine.rows, State.boxChecks_ok fine plain range, clip, tiles, State.bad0_ok (by rw [shape]; rfl)]
    rfl
  · refine ⟨rfl, rfl, rfl, rfl, rfl, rfl, State.lt_copyXlat _, fun other => ?_⟩
    show s.copyBond (if _ then _ else _) _ = none
    rw [if_neg other]
    rfl
  · show x ∈ s.raggedSpans _ _ (boxOf (s.copyRecord o)).spans ↔ _
    rw [State.raggedSpans, shape, Option.getD_some]
    by_cases zero : (boxOf (s.copyRecord o)).isZero = true
    · rw [Box.spans_of_zero zero, zero]
      simp
    · rw [Bool.not_eq_true] at zero
      rw [Box.mem_filter_spans zero (valid := fun i => g.validClip s.mine.vc.toNat (s.origin zs.toNat) (boxOf (s.copyRecord o)).ext.2.1 i)]
      exact ⟨fun h => ⟨zero, h⟩, And.right⟩
  · have clears := State.raggedCopy_clears (o := o) (a := s.copyAddr o) (nt := nt == 1) (z := zs.toNat) hst virtual
    generalize s.raggedCopy o (s.copyAddr o) (nt == 1) (boxOf (s.copyRecord o)) zs.toNat = k at clears ⊢
    exact clears.logged _

end
end
end

/-! ## CGATH and CSCAT (08 R253) -/

section
variable {s : State} {o : CRecOp} {nt : BitVec 1}

theorem exec_cgath : exec (.cgath o nt) s = s.perform (verdicts [s.copyRows o, s.listChecks (s.copyAddr o)]) fun u =>
    u.chosen.issueCopy o (u.listCopy o (s.copyAddr o) (nt == 1) true) := rfl

theorem exec_cscat : exec (.cscat o nt) s = s.perform (verdicts [s.copyRows o, s.listChecks (s.copyAddr o)]) fun u =>
    u.chosen.issueCopy o (u.listCopy o (s.copyAddr o) (nt == 1) false) := rfl

/-- The virtual address of a list's row (08 R253). -/
def State.listAt (s : State) (l : ListRec) (i : Nat) : Nat := l.row (sint32 (memRead s.me.ls (l.idx + 4 * i) 4))

/-- What the checks of a list record pass on (08 R243, R253). -/
structure State.ListLegal (s : State) (r : List Byte) (l : ListRec) : Prop where
  plain : ∀ x ∈ r.drop 28, x = 0
  base : l.ladr < 2 ^ 22
  index : l.idx % 4 = 0
  rows : l.n ≤ 65535
  bytes : 1 ≤ l.rb ∧ l.rb ≤ 65536
  store : l.n ≠ 0 → l.ladr + l.n * l.rb ≤ 0x400000 ∧ l.idx + 4 * l.n ≤ 0x400000
  blocks : l.n ≠ 0 → (blocksIn ((List.range l.n).map fun i => (s.listAt l i, l.rb))).length ≤ 1024

theorem any_ne_zero_false {l : List Byte} (blank : ∀ x ∈ l, x = 0) : l.any (· != 0) = false := by
  rw [List.any_eq_false]
  intro x hx
  simp [blank x hx]

theorem inStore_of_le {a n : Nat} (h : a + n ≤ 0x400000) : inStore a n = true := by
  rw [inStore, decide_eq_true_iff]
  omega

theorem State.indices_rows (s : State) (l : ListRec) {β : Type} (f : Nat → β) :
    ((s.indices l.idx l.n).map l.row).map f = (List.range l.n).map fun i => f (s.listAt l i) := by
  rw [State.indices, List.map_map, List.map_map]
  rfl

section
variable (hst : s.cur.st = .copy) (fine : s.RecordReady o) (legal : s.ListLegal (s.copyRecord o) (listOf (s.copyRecord o)))
include fine legal

theorem State.listChecks_ok : s.listChecks (s.copyAddr o) = .ok := by
  obtain ⟨plain, base, index, rows, ⟨one, most⟩, store, blocks⟩ := legal
  have junk : (((s.copyRecord o).drop 28).any (· != 0) || decide (2 ^ 22 ≤ (listOf (s.copyRecord o)).ladr)) = false := by
    rw [any_ne_zero_false plain, decide_eq_false (not_le.2 base)]
    rfl
  have fields : decide ((listOf (s.copyRecord o)).idx % 4 ≠ 0 ∨ 65535 < (listOf (s.copyRecord o)).n ∨ (listOf (s.copyRecord o)).rb = 0 ∨
      65536 < (listOf (s.copyRecord o)).rb) = false := decide_eq_false (by omega)
  have rowsIn : (decide ((listOf (s.copyRecord o)).n ≠ 0) && (!inStore (listOf (s.copyRecord o)).ladr ((listOf (s.copyRecord o)).n *
      (listOf (s.copyRecord o)).rb) || !inStore (listOf (s.copyRecord o)).idx (4 * (listOf (s.copyRecord o)).n))) = false := by
    by_cases none : (listOf (s.copyRecord o)).n = 0
    · simp [none]
    · obtain ⟨local_, indices⟩ := store none
      rw [inStore_of_le (by exact_mod_cast local_), inStore_of_le (by exact_mod_cast indices)]
      simp
  have pages : (decide ((listOf (s.copyRecord o)).n ≠ 0) && decide (1024 < (blocksIn ((s.indices (listOf (s.copyRecord o)).idx
      (listOf (s.copyRecord o)).n).map fun i => ((listOf (s.copyRecord o)).row i, (listOf (s.copyRecord o)).rb))).length)) = false := by
    by_cases none : (listOf (s.copyRecord o)).n = 0
    · simp [none]
    · have few := blocks none
      rw [← State.indices_rows s (listOf (s.copyRecord o)) fun x => (x, (listOf (s.copyRecord o)).rb), List.map_map] at few
      rw [Bool.and_eq_false_iff]
      exact .inr (decide_eq_false (not_lt.2 few))
  rw [State.listChecks, fine.addr, State.bad0_ok junk, fields, rowsIn, Bool.false_or, bad0_false, Core.poisoned_of_clean fine.clean,
    State.bad0_ok pages, Bool.and_false]
  rfl

end

theorem State.listCopy_span {a i : Nat} {nt toStore : Bool} (hi : i < (listOf (s.recordAt a)).n) :
    (s.listCopy o a nt toStore).spans[i]? = some (if toStore
      then ⟨s.listAt (listOf (s.recordAt a)) i, (listOf (s.recordAt a)).ladr + i * (listOf (s.recordAt a)).rb, (listOf (s.recordAt a)).rb⟩
      else ⟨(listOf (s.recordAt a)).ladr + i * (listOf (s.recordAt a)).rb, s.listAt (listOf (s.recordAt a)) i, (listOf (s.recordAt a)).rb⟩) := by
  have row : ((s.indices (listOf (s.recordAt a)).idx (listOf (s.recordAt a)).n).map (listOf (s.recordAt a)).row)[i]? =
      some (s.listAt (listOf (s.recordAt a)) i) := by
    have := s.indices_rows (listOf (s.recordAt a)) id
    rw [List.map_id] at this
    rw [this, List.getElem?_map, List.getElem?_range hi]
    rfl
  show (List.map _ _)[i]? = _
  rw [List.getElem?_map, List.getElem?_zipIdx, row, Nat.zero_add]
  cases toStore <;> rfl

theorem State.listCopy_length {a : Nat} {nt toStore : Bool} : (s.listCopy o a nt toStore).spans.length = (listOf (s.recordAt a)).n := by
  show (List.map _ _).length = _
  rw [List.length_map, List.length_zipIdx, List.length_map, State.indices, List.length_map, List.length_range]

theorem State.listCopy_writes {a : Nat} {nt : Bool} : (s.listCopy o a nt false).spans.map (fun x => (x.dst, x.len)) =
    ((s.indices (listOf (s.recordAt a)).idx (listOf (s.recordAt a)).n).map (listOf (s.recordAt a)).row).map fun x =>
      (x, (listOf (s.recordAt a)).rb) := by
  generalize far : (s.indices (listOf (s.recordAt a)).idx (listOf (s.recordAt a)).n).map (listOf (s.recordAt a)).row = l
  have spans : (s.listCopy o a nt false).spans.map (fun x => (x.dst, x.len)) =
      (l.zipIdx.map Prod.fst).map fun x => (x, (listOf (s.recordAt a)).rb) := by
    rw [← far]
    show (List.map _ (List.zipIdx _)).map _ = _
    rw [List.map_map, List.map_map]
    rfl
  rw [spans, List.zipIdx_map_fst]

theorem State.listCopy_fault {a : Nat} {nt : Bool} : (s.listCopy o a nt false).fault =
    s.copyBond (((s.indices (listOf (s.recordAt a)).idx (listOf (s.recordAt a)).n).map (listOf (s.recordAt a)).row).map fun x =>
      (x, (listOf (s.recordAt a)).rb)) copyWriteA := by
  rw [State.listCopy]
  dsimp only
  rw [if_neg Bool.false_ne_true]

theorem State.listCopy_clears {a : Nat} {nt : Bool} (hst : s.cur.st = .copy) :
    s.Clears (s.listCopy o a nt false) ((s.listCopy o a nt false).spans.map fun x => (x.dst, x.len)) :=
  State.clears_of_copyWrite hst nofun (by rw [State.listCopy_writes, State.listCopy_fault])

/-- What CGATH and CSCAT take from their record alike (08 R253). -/
structure State.ListCommand (s : State) (o : CRecOp) (nt : BitVec 1) (k : CopyCmd) : Prop where
  length : k.spans.length = (listOf (s.copyRecord o)).n
  record : k.record = s.copyRecord o
  recAddr : k.recAddr = s.copyAddr o
  nt : k.nt = (nt == 1)
  zero : k.zero = true ↔ (listOf (s.copyRecord o)).n = 0
  xlat : s.cyc < k.xlatAt

theorem State.ListCommand.logged {k : CopyCmd} (h : s.ListCommand o nt k) (b : Bool) : s.ListCommand o nt { k with logged := b } :=
  ⟨h.length, h.record, h.recAddr, h.nt, h.zero, h.xlat⟩

section
variable (hst : s.cur.st = .copy) (fine : s.RecordReady o) (legal : s.ListLegal (s.copyRecord o) (listOf (s.copyRecord o)))
include hst fine legal

theorem copies_cgath : Copies (.cgath o nt) s o fun k => k.kind = .gath ∧ k.sk = 2 ∧ k.dk = 0 ∧ s.ListCommand o nt k ∧ k.fault = none ∧
    ∀ i, i < (listOf (s.copyRecord o)).n → k.spans[i]? =
      some ⟨s.listAt (listOf (s.copyRecord o)) i,
        (listOf (s.copyRecord o)).ladr + i * (listOf (s.copyRecord o)).rb, (listOf (s.copyRecord o)).rb⟩ := by
  refine copies_of_perform hst exec_cgath ?_ rfl rfl rfl ⟨rfl, rfl, rfl, rfl, rfl⟩
    (fun _ b ⟨kind, sk, dk, list, rest⟩ => ⟨kind, sk, dk, list.logged b, rest⟩) ⟨rfl, rfl, rfl, ?_, rfl, fun i hi => State.listCopy_span hi⟩
  · rw [fine.rows, State.listChecks_ok fine legal]
    rfl
  · exact ⟨State.listCopy_length, rfl, rfl, rfl, decide_eq_true_iff, State.lt_copyXlat _⟩

theorem copies_cscat : Copies (.cscat o nt) s o fun k => k.kind = .scat ∧ k.sk = 0 ∧ k.dk = 2 ∧ s.ListCommand o nt k ∧
    s.Clears k (k.spans.map fun x => (x.dst, x.len)) ∧
    ∀ i, i < (listOf (s.copyRecord o)).n → k.spans[i]? =
      some ⟨(listOf (s.copyRecord o)).ladr + i * (listOf (s.copyRecord o)).rb,
        s.listAt (listOf (s.copyRecord o)) i, (listOf (s.copyRecord o)).rb⟩ := by
  refine copies_of_perform hst exec_cscat ?_ rfl rfl rfl ⟨rfl, rfl, rfl, rfl, rfl⟩
    (fun _ b ⟨kind, sk, dk, list, rest⟩ => ⟨kind, sk, dk, list.logged b, rest⟩) ⟨rfl, rfl, rfl, ?_, ?_, fun i hi => State.listCopy_span hi⟩
  · rw [fine.rows, State.listChecks_ok fine legal]
    rfl
  · exact ⟨State.listCopy_length, rfl, rfl, rfl, decide_eq_true_iff, State.lt_copyXlat _⟩
  · exact State.listCopy_clears hst

end

end

/-! ## CBIN (08 R254) -/

section
variable {s : State} {o : CRecOp} {nt : BitVec 1} (hst : s.cur.st = .copy) (fine : s.RecordReady o)

/-- The command of a bin record (08 R254). -/
def State.binCopy (s : State) (o : CRecOp) (a : Nat) (nt : Bool) : CopyCmd :=
  let b := binOf (s.recordAt a)
  { s.newCopy .bin o with
    record := s.recordAt a, recAddr := a, nt := nt, dk := 2, granules := b.n * ((b.rb + 63) / 64 + 1)
    reads := startsOf b.tab (32 * (b.nb + 1)), idx := s.indices b.idx b.n, bonds := s.me.bonds
    ranges := if b.n = 0 then [] else [(b.ladr, b.ladr + b.n * b.rb, false)]
    virt := decide (b.n ≠ 0), zero := decide (b.n = 0), xlatAt := s.copyXlat (startsOf b.tab (32 * (b.nb + 1))) }

theorem exec_cbin : exec (.cbin o nt) s = s.perform (verdicts [s.copyRows o, s.binChecks (s.copyAddr o)]) fun u =>
    u.chosen.issueCopy o (u.binCopy o (s.copyAddr o) (nt == 1)) := rfl

/-- What the checks of a bin record pass on (08 R243, R254). -/
structure BinLegal (r : List Byte) (b : BinRec) : Prop where
  plain : ∀ x ∈ r.drop 28, x = 0
  index : b.idx % 4 = 0
  rows : b.n ≤ 65535
  bytes : 1 ≤ b.rb ∧ b.rb ≤ 65536
  table : b.tab % 32 = 0
  bins : 1 ≤ b.nb ∧ b.nb ≤ 4096
  store : b.n ≠ 0 → b.ladr + b.n * b.rb ≤ 0x400000 ∧ b.idx + 4 * b.n ≤ 0x400000

include fine in
theorem State.binChecks_ok (legal : BinLegal (s.copyRecord o) (binOf (s.copyRecord o))) : s.binChecks (s.copyAddr o) = .ok := by
  obtain ⟨plain, index, rows, ⟨one, most⟩, table, ⟨oneBin, mostBins⟩, store⟩ := legal
  have fields : decide ((binOf (s.copyRecord o)).idx % 4 ≠ 0 ∨ 65535 < (binOf (s.copyRecord o)).n ∨ (binOf (s.copyRecord o)).rb = 0 ∨
      65536 < (binOf (s.copyRecord o)).rb ∨ (binOf (s.copyRecord o)).tab % 32 ≠ 0 ∨ (binOf (s.copyRecord o)).nb = 0 ∨
      4096 < (binOf (s.copyRecord o)).nb) = false := decide_eq_false (by omega)
  have rowsIn : (decide ((binOf (s.copyRecord o)).n ≠ 0) && (!inStore (binOf (s.copyRecord o)).ladr ((binOf (s.copyRecord o)).n *
      (binOf (s.copyRecord o)).rb) || !inStore (binOf (s.copyRecord o)).idx (4 * (binOf (s.copyRecord o)).n))) = false := by
    by_cases none : (binOf (s.copyRecord o)).n = 0
    · simp [none]
    · obtain ⟨local_, indices⟩ := store none
      rw [inStore_of_le local_, inStore_of_le indices]
      simp
  rw [State.binChecks, fine.addr, State.bad0_ok (any_ne_zero_false plain), fields, rowsIn, Bool.false_or, bad0_false,
    Core.poisoned_of_clean fine.clean, Bool.and_false]
  rfl

include hst fine in
theorem copies_cbin (legal : BinLegal (s.copyRecord o) (binOf (s.copyRecord o))) : Copies (.cbin o nt) s o fun k => k.kind = .bin ∧
    k.record = s.copyRecord o ∧ k.recAddr = s.copyAddr o ∧ k.nt = (nt == 1) ∧
    k.idx = s.indices (binOf (s.copyRecord o)).idx (binOf (s.copyRecord o)).n ∧ k.bonds = s.me.bonds ∧
    (k.zero = true ↔ (binOf (s.copyRecord o)).n = 0) ∧ s.cyc < k.xlatAt := by
  refine copies_of_perform hst exec_cbin ?_ rfl rfl rfl ⟨rfl, rfl, rfl, rfl, rfl⟩ (fun _ _ h => h)
    ⟨rfl, rfl, rfl, rfl, rfl, rfl, decide_eq_true_iff, State.lt_copyXlat _⟩
  rw [fine.rows, State.binChecks_ok fine legal]
  rfl

/-! ## CNMC (08 R256, R257) -/

/-- The command of a near-memory record (08 R256). -/
def State.nearCopy (s : State) (o : CRecOp) (a : Nat) : CopyCmd :=
  let n := nearOf (s.recordAt a)
  { s.newCopy .nmc o with
    record := s.recordAt a, recAddr := a, granules := n.chunks * (if n.opc = 4 then 4 else if n.opc = 5 then 8 else 12)
    reads := startsOf n.x n.xlen, writes := startsOf n.y n.ylen, ranges := [(a, a + 64, true)]
    virt := decide (n.count ≠ 0), zero := decide (n.count = 0)
    xlatAt := s.copyXlat (startsOf n.x n.xlen ++ startsOf n.y n.ylen)
    fault := s.copyBond [(n.y, n.ylen)] nearA }

theorem exec_cnmc : exec (.cnmc o) s = s.perform (verdicts [s.copyRows o, s.nearChecks (s.copyAddr o)]) fun u =>
    u.chosen.issueCopy o (u.nearCopy o (s.copyAddr o)) := rfl

/-- A reserved field of a near-memory record is nonzero (08 R256). -/
def NearJunk (r : List Byte) (n : NearRec) : Prop :=
  recField r 2 2 ≠ 0 ∨ (∃ x ∈ (r.drop 36).take 12, x ≠ 0) ∨ (∃ x ∈ (r.drop 56).take 8, x ≠ 0) ∨ (n.opc = 4 ∧ n.x ≠ 0)

/-- The fields of a near-memory record are in their ranges (08 R257). -/
def NearRec.Legal (n : NearRec) : Prop :=
  1 ≤ n.opc ∧ n.opc ≤ 5 ∧ n.type ∈ [0, 2, 4] ∧ ¬ (n.opc = 1 ∧ n.type = 4) ∧ n.x % 64 = 0 ∧ n.y % 64 = 0 ∧ n.count ≤ 0x4000000

theorem ofBytes_eq_zero_iff {l : List Byte} : ofBytes l = 0 ↔ ∀ x ∈ l, x = 0 := by
  induction l with
  | nil => simp [ofBytes]
  | cons x l ih =>
    have byte : x.toNat = 0 ↔ x = 0 := by simp [← BitVec.toNat_inj]
    rw [ofBytes, Nat.add_eq_zero_iff, byte, Nat.mul_eq_zero, ih, List.forall_mem_cons]
    simp

theorem nearJunk_iff {r : List Byte} {n : NearRec} : NearJunk r n ↔ (((r.drop 2).take 2).any (· != 0) = true ∨
    (((r.drop 36).take 12).any (· != 0) || ((r.drop 56).take 8).any (· != 0) || (decide (n.opc = 4) && decide (n.x ≠ 0))) = true) := by
  have field : recField r 2 2 ≠ 0 ↔ ((r.drop 2).take 2).any (· != 0) = true := by
    rw [recField, Ne, ofBytes_eq_zero_iff]
    simp
  simp only [NearJunk, field, List.any_eq_true, bne_iff_ne, Bool.or_eq_true, Bool.and_eq_true, decide_eq_true_iff, or_assoc]

theorem NearRec.legal_iff {n : NearRec} : n.Legal ↔ ¬ (n.opc = 0 ∨ 5 < n.opc ∨ (n.type ≠ 0 ∧ n.type ≠ 2 ∧ n.type ≠ 4) ∨ (n.opc = 1 ∧ n.type = 4) ∨
    n.x % 64 ≠ 0 ∨ n.y % 64 ≠ 0 ∨ 0x4000000 < n.count) := by
  simp only [NearRec.Legal, List.mem_cons, List.not_mem_nil, or_false]
  omega

section
variable (plain : ¬ NearJunk (s.copyRecord o) (nearOf (s.copyRecord o)))

include fine in
theorem State.nearChecks_junk (junk : NearJunk (s.copyRecord o) (nearOf (s.copyRecord o))) :
    s.nearChecks (s.copyAddr o) = .fault (cause 0 7 1) := by
  rw [State.nearChecks, fine.addr]
  rcases nearJunk_iff.1 junk with low | high
  · rw [low]
    rfl
  · rw [high]
    cases ((s.copyRecord o).drop 2).take 2 |>.any (· != 0) <;> rfl

include fine plain

theorem State.nearChecks_ok (legal : (nearOf (s.copyRecord o)).Legal) : s.nearChecks (s.copyAddr o) = .ok := by
  rw [nearJunk_iff, not_or, Bool.not_eq_true, Bool.not_eq_true] at plain
  obtain ⟨low, high⟩ := plain
  rw [State.nearChecks, fine.addr, low, high, decide_eq_false (NearRec.legal_iff.1 legal)]
  rfl

theorem State.nearChecks_outside (outside : ¬ (nearOf (s.copyRecord o)).Legal) : s.nearChecks (s.copyAddr o) = .fault (cause 0 7 2) := by
  rw [nearJunk_iff, not_or, Bool.not_eq_true, Bool.not_eq_true] at plain
  obtain ⟨low, high⟩ := plain
  rw [State.nearChecks, fine.addr, low, high, decide_eq_true (by rwa [NearRec.legal_iff, not_not] at outside)]
  rfl

include hst

theorem copies_cnmc (legal : (nearOf (s.copyRecord o)).Legal) : Copies (.cnmc o) s o fun k => k.kind = .nmc ∧ k.record = s.copyRecord o ∧
    k.recAddr = s.copyAddr o ∧ (k.zero = true ↔ (nearOf (s.copyRecord o)).count = 0) ∧ s.cyc < k.xlatAt ∧
    s.Clears k [((nearOf (s.copyRecord o)).y, (nearOf (s.copyRecord o)).ylen)] := by
  refine copies_of_perform hst exec_cnmc ?_ rfl rfl rfl ⟨rfl, rfl, rfl, rfl, rfl⟩ (fun _ _ h => h)
    ⟨rfl, rfl, rfl, decide_eq_true_iff, State.lt_copyXlat _, State.clears_of_copyBond hst rfl⟩
  rw [fine.rows, State.nearChecks_ok fine plain legal]
  rfl

end

include hst fine in
theorem traps_cnmc {code : Nat} (refused : s.nearChecks (s.copyAddr o) = .fault code) : Traps (.cnmc o) s code := by
  refine .of_perform (by simp [hst]) exec_cnmc ?_
  rw [fine.rows, refused]
  rfl

/-! ## CCOLL (11 R353-R357) -/

/-- The team that a collective record names (11 R355). -/
def State.teamOf (s : State) (c : CollRec) : Option (Nat × Nat × Nat × Nat) := (s.launchOf s.cur.core).bind fun l => l.team s.cur.core c.team

/-- The axes of the team that a collective record names (11 R355). -/
def State.axesOf (s : State) (c : CollRec) : List Nat := c.axes ((s.teamOf c).getD (0, 0, 1, 1))

/-- The command of a collective record, for its team's axes (11 R354). -/
def State.collCopy (s : State) (o : CRecOp) (a : Nat) (r : List Byte) (axes : List Nat) : CopyCmd :=
  let c := collOf r
  { s.newCopy .coll o with
    record := r, recAddr := a, reads := startsOf c.src (c.shardLen c.srcl axes), writes := startsOf c.dst (c.shardLen c.dstl axes)
    spans := [⟨c.src, 0, c.shardLen c.srcl axes⟩, ⟨0, c.dst, c.shardLen c.dstl axes⟩], ranges := [(a, a + 64, true)], virt := true
    xlatAt := s.copyXlat (startsOf c.src (c.shardLen c.srcl axes) ++ startsOf c.dst (c.shardLen c.dstl axes))
    fault := s.copyBond [(c.dst, c.shardLen c.dstl axes)] copyWriteA }

theorem exec_ccoll : exec (.ccoll o) s = s.perform (verdicts [s.copyRows o, s.recordAddr (s.copyAddr o),
    s.bad0 (collOf (s.copyRecord o)).reserved reservedC,
    s.bad0 ((collOf (s.copyRecord o)).outOfRange (s.teamOf (collOf (s.copyRecord o)))) rangeC]) fun u => u.chosen.issueCopy o
      (u.collCopy o (s.copyAddr o) (s.copyRecord o) (s.axesOf (collOf (s.copyRecord o)))) := rfl

include hst fine in
theorem copies_ccoll (plain : (collOf (s.copyRecord o)).reserved = false)
    (range : (collOf (s.copyRecord o)).outOfRange (s.teamOf (collOf (s.copyRecord o))) = false) : Copies (.ccoll o) s o fun k => k.kind = .coll ∧
    k.record = s.copyRecord o ∧ k.recAddr = s.copyAddr o ∧ s.cyc < k.xlatAt ∧ s.Clears k [((collOf (s.copyRecord o)).dst,
      (collOf (s.copyRecord o)).shardLen (collOf (s.copyRecord o)).dstl (s.axesOf (collOf (s.copyRecord o))))] := by
  refine copies_of_perform hst exec_ccoll ?_ rfl rfl rfl ⟨rfl, rfl, rfl, rfl, rfl⟩ (fun _ _ h => h)
    ⟨rfl, rfl, rfl, State.lt_copyXlat _, State.clears_of_copyBond hst rfl⟩
  rw [fine.rows, fine.addr, plain, range]
  rfl

/-! ## CCONST (08 R255) -/

/-- A descriptor of constants has a reserved bit set, or names words outside the file or the store (08 R255). -/
def ConstOutside (a : Nat) : Prop :=
  (a / 2 ^ 22 % 2 ^ 10 ≠ 0 ∨ a / 2 ^ 49 ≠ 0) ∨ a / 2 ^ 40 % 2 ^ 9 = 0 ∨ 256 < a / 2 ^ 32 % 2 ^ 8 + a / 2 ^ 40 % 2 ^ 9 ∨
    0x400000 < a % 2 ^ 22 + 4 * (a / 2 ^ 40 % 2 ^ 9)

theorem bits_eq (v : Word) (hi lo : Nat) : bits v hi lo = v.toNat / 2 ^ lo % 2 ^ (hi + 1 - lo) := by
  rw [bits, Nat.shiftRight_eq_div_pow]

theorem constOutside_iff : (bits (s.rgValue o.kg o.rg) 31 22 ≠ 0 ∨ bits (s.rgValue o.kg o.rg) 63 49 ≠ 0) ∨ bits (s.rgValue o.kg o.rg) 48 40 = 0 ∨
    256 < bits (s.rgValue o.kg o.rg) 39 32 + bits (s.rgValue o.kg o.rg) 48 40 ∨
    0x400000 < bits (s.rgValue o.kg o.rg) 21 0 + 4 * bits (s.rgValue o.kg o.rg) 48 40 ↔ ConstOutside (s.copyAddr o) := by
  have top : s.copyAddr o / 2 ^ 49 % 2 ^ (63 + 1 - 49) = s.copyAddr o / 2 ^ 49 :=
    Nat.mod_eq_of_lt (Nat.div_lt_of_lt_mul (s.rgValue o.kg o.rg).isLt)
  simp only [bits_eq, ConstOutside, top, Nat.pow_zero, Nat.div_one]

/-- The command of a descriptor of constants (08 R255). -/
def State.constCopy (s : State) (o : CRecOp) (v : Word) : CopyCmd :=
  { s.newCopy .const o with
    recAddr := bits v 21 0, spans := [⟨bits v 21 0, bits v 39 32, bits v 48 40⟩]
    ranges := [(bits v 21 0, bits v 21 0 + 4 * bits v 48 40, false)] }

theorem exec_cconst : exec (.cconst o) s = s.perform (verdicts [s.copyRows o, s.bad0 (decide (bits (s.rgValue o.kg o.rg) 21 0 % 4 ≠ 0)) alignC,
    s.bad0 (decide ((bits (s.rgValue o.kg o.rg) 31 22 ≠ 0 ∨ bits (s.rgValue o.kg o.rg) 63 49 ≠ 0) ∨ bits (s.rgValue o.kg o.rg) 48 40 = 0 ∨
      256 < bits (s.rgValue o.kg o.rg) 39 32 + bits (s.rgValue o.kg o.rg) 48 40 ∨
      0x400000 < bits (s.rgValue o.kg o.rg) 21 0 + 4 * bits (s.rgValue o.kg o.rg) 48 40)) rangeC]) fun u =>
    u.issueCopy o (u.constCopy o (s.rgValue o.kg o.rg)) := rfl

section
variable (ready : s.CopyReady o)
include hst ready

theorem traps_cconst_misaligned (odd : s.copyAddr o % 2 ^ 22 % 4 ≠ 0) : Traps (.cconst o) s (cause 0 3 3) := by
  refine .of_perform (by simp [hst]) exec_cconst ?_
  rw [State.copyRows_ok ready, State.bad0_copy hst (decide_eq_true (by simpa only [bits_eq, Nat.pow_zero, Nat.div_one] using odd))]
  rfl

section
variable (aligned : s.copyAddr o % 2 ^ 22 % 4 = 0)
include aligned

omit hst ready in
theorem State.constAligned : s.bad0 (decide (bits (s.rgValue o.kg o.rg) 21 0 % 4 ≠ 0)) alignC = .ok :=
  State.bad0_ok (decide_eq_false (not_not.2 (by simpa only [bits_eq, Nat.pow_zero, Nat.div_one] using aligned))) _

theorem traps_cconst_outside (outside : ConstOutside (s.copyAddr o)) : Traps (.cconst o) s (cause 0 3 2) := by
  refine .of_perform (by simp [hst]) exec_cconst ?_
  rw [State.copyRows_ok ready, State.constAligned aligned, State.bad0_copy hst (decide_eq_true (constOutside_iff.2 outside))]
  rfl

theorem copies_cconst (inside : ¬ ConstOutside (s.copyAddr o)) : Copies (.cconst o) s o fun k => k.kind = .const ∧
    k.spans = [⟨s.copyAddr o % 2 ^ 22, s.copyAddr o / 2 ^ 32 % 2 ^ 8, s.copyAddr o / 2 ^ 40 % 2 ^ 9⟩] := by
  have same : s.SameStreams s := ⟨rfl, fun _ => rfl, rfl, rfl, rfl, rfl⟩
  obtain ⟨alone, takes⟩ := State.takes_issueCopy hst same rfl (.refl s) (o := o) (k := s.constCopy o (s.rgValue o.kg o.rg)) rfl rfl rfl
    ⟨rfl, rfl, rfl, rfl, rfl⟩
  refine ⟨_, _, ?_, alone, takes, rfl, ?_⟩
  · rw [exec_cconst, State.copyRows_ok ready, State.constAligned aligned, State.bad0_ok (decide_eq_false (mt constOutside_iff.1 inside))]
    rfl
  · show [(⟨bits _ 21 0, bits _ 39 32, bits _ 48 40⟩ : Span)] = _
    simp only [bits_eq, Nat.pow_zero, Nat.div_one]

end
end

end

theorem Copies.mono {i : Instr} {s : State} {o : CRecOp} {p q : CopyCmd → Prop} (h : Copies i s o p) (weaker : ∀ k, p k → q k) : Copies i s o q := by
  obtain ⟨t, k, goes, alone, takes, holds⟩ := h
  exact ⟨t, k, goes, alone, takes, weaker k holds⟩

theorem sint32_eq (n : Nat) : (BitVec.ofNat 32 n).toInt = sint32 n := rfl

theorem boxOf_ss (r : List Byte) : (boxOf r).ss = (sint32 (recField r 40 4), sint32 (recField r 44 4), sint32 (recField r 48 4)) := rfl

theorem boxOf_ds (r : List Byte) : (boxOf r).ds = (sint32 (recField r 52 4), sint32 (recField r 56 4), sint32 (recField r 60 4)) := rfl

theorem listOf_str (r : List Byte) : (listOf r).str = sint32 (recField r 24 4) := rfl

/-- Settles O33: each word's checks in their order, and the command that each leaves. -/
theorem copyCommands : Obligations.CopyCommands := by
  intro s o zr nt zs hst v a r num sgn index virt b nd e far row boxOk some_ tilesOk clear isBox words
  have e0 : e 0 = b.ext.1 := if_pos (Nat.zero_le _)
  have nonzero : some_ ↔ b.isZero = false := by
    rw [Box.isZero_false_iff, ← e0]
    exact Iff.rfl
  have e1 : e 1 = b.ext.2.1 := rfl
  have e2 : e 2 = b.ext.2.2.1 := rfl
  have stride (at_ : Nat) : sgn at_ = sint32 (recField r at_ 4) := sint32_eq _
  have fields : num 0 8 = b.src ∧ num 8 8 = b.dst ∧ num 16 4 % 8 = b.sk ∧ num 16 4 / 8 % 8 = b.dk := ⟨rfl, rfl, rfl, rfl⟩
  have place (kind n : Nat) (x : Int) : far kind n x = if kind = 2 then va64 x else if kind = 3 then n * b.ext.1 else x.toNat := by
    rw [← e0]
    rfl
  have rows (i1 i2 i3 : Nat) : row i1 i2 i3 = b.spanAt i1 i2 i3 := by
    obtain ⟨src, dst, sk, dk⟩ := fields
    have parts : row i1 i2 i3 = ⟨far (num 16 4 % 8) ((i3 * e 2 + i2) * e 1 + i1) (num 0 8 + i1 * sgn 40 + i2 * sgn 44 + i3 * sgn 48),
      far (num 16 4 / 8 % 8) ((i3 * e 2 + i2) * e 1 + i1) (num 8 8 + i1 * sgn 52 + i2 * sgn 56 + i3 * sgn 60), e 0⟩ := rfl
    rw [parts, place, place, e0, e1, e2, stride, stride, stride, stride, stride, stride, src, dst, sk, dk, Box.spanAt, Box.rowAt, Box.place, boxOf_ss,
      boxOf_ds]
  have tiles (ready : some_ → tilesOk) : (if b.isZero then .ok else s.tileStates b.sk (b.src % 16) b.dk (b.dst % 16)) = .ok :=
    State.boxTiles_ok fun filled => ready (nonzero.2 filled)
  have box {k : CopyCmd} (h : s.BoxCommand o nt k) : isBox k := by
    obtain ⟨record, recAddr, sk, dk, nt, zero, xlat, fault⟩ := h
    refine ⟨record, recAddr, sk, dk, nt, ?_, xlat, fault⟩
    rw [zero, nonzero, Bool.not_eq_false]
    exact Iff.rfl
  refine ⟨fun ready => ⟨fun odd i hi => traps_of_recordAddr hst ready (State.recordAddr_misaligned hst odd) hi,
    fun aligned outside i hi => traps_of_recordAddr hst ready (State.recordAddr_outside hst aligned outside) hi,
    fun aligned inside poisoned i hi => ?_, fun aligned inside clean => ?_, ?_⟩, fun file idField source target full i hi => ?_⟩
  · obtain ⟨q, hq, above, below⟩ := poisoned
    exact traps_of_recordAddr hst ready (State.recordAddr_poisoned aligned inside hq above below) hi
  · have fine : s.RecordReady o := ⟨ready, aligned, inside, clean⟩
    refine ⟨fun junk => traps_cpy hst fine (State.boxChecks_reserved hst fine _ junk),
      fun plain outside => traps_cpy hst fine (State.boxChecks_outside hst fine plain outside), fun legal ready => ?_,
      fun g w legal ready shape type width whole => ?_, ?_, ?_, ?_, ?_⟩
    · obtain ⟨plain, range⟩ := legal
      refine (copies_cpy hst fine plain range (tiles ready)).mono fun k ⟨kind, command, spans, clears, virtual⟩ =>
        ⟨kind, box command, ?_, ?_, clears, ?_⟩
      · intro filled i1 i2 i3 h1 h2 h3
        rw [spans, rows]
        exact Box.spans_getElem? (nonzero.1 filled) h1 h2 h3
      · rw [spans]
        split
        · exact Box.length_spans (nonzero.1 ‹_›)
        · next none =>
          rw [Box.spans_of_zero (by rwa [nonzero, Bool.not_eq_false] at none), List.length_nil]
      · rw [virtual, nonzero]
        exact Iff.rfl
    · obtain ⟨plain, range⟩ := legal
      have clip := State.cpyrChecks_ok (b := b) shape type (by rw [← e0]; exact width) whole
      refine (copies_cpyr hst fine plain range (tiles ready) shape clip).mono fun k ⟨kind, command, spans, clears⟩ =>
        ⟨kind, box command, fun x => ?_, clears⟩
      rw [spans, nonzero]
      simp only [rows]
      exact Iff.rfl
    · intro n at_ plain base offset rows one most store
      have element (a i : Nat) : index a i = sint32 (memRead s.me.ls (a + 4 * i) 4) := sint32_eq _
      have far (x : Int) : virt x = va64 x := rfl
      have here (i : Nat) : at_ i = s.listAt (listOf (s.copyRecord o)) i := by
        have parts : at_ i = virt (num 0 8 + index (num 12 4) i * sgn 24) := rfl
        rw [parts, stride, element, far, State.listAt, ListRec.row, listOf_str]
        rfl
      simp only [here] at store ⊢
      have legal : s.ListLegal (s.copyRecord o) (listOf (s.copyRecord o)) :=
        ⟨plain, base, offset, rows, ⟨one, most⟩, fun some_ => ⟨(store some_).1, (store some_).2.1⟩, fun some_ => (store some_).2.2⟩
      exact ⟨(copies_cgath hst fine legal).mono fun k ⟨kind, sk, dk, list, fault, spans⟩ =>
          ⟨kind, sk, dk, list.length, list.record, list.recAddr, list.nt, list.zero, fault, list.xlat, spans⟩,
        (copies_cscat hst fine legal).mono fun k ⟨kind, sk, dk, list, clears, spans⟩ =>
          ⟨kind, sk, dk, list.length, list.record, list.recAddr, list.nt, list.zero, list.xlat, clears, spans⟩⟩
    · intro n plain index rows one most table oneBin mostBins store
      exact copies_cbin hst fine ⟨plain, index, rows, ⟨one, most⟩, table, ⟨oneBin, mostBins⟩, store⟩
    · exact ⟨fun junk => traps_cnmc hst fine (State.nearChecks_junk fine junk),
        fun plain outside => traps_cnmc hst fine (State.nearChecks_outside fine plain outside),
        fun plain legal => copies_cnmc hst fine plain legal⟩
    · exact fun plain range => copies_ccoll hst fine plain range
  · refine ⟨fun odd => traps_cconst_misaligned hst ready odd, fun aligned outside => traps_cconst_outside hst ready aligned outside,
      fun aligned plain count words within => copies_cconst hst ready aligned ?_⟩
    exact not_or.2 ⟨plain, not_or.2 ⟨count, not_or.2 ⟨not_lt.2 words, not_lt.2 within⟩⟩⟩
  · exact stalls_of_copyRows hst (State.copyRows_full file idField source target full) hi

end Sys2Proof.Machine
end

section
/-! PROOF. Near-memory commands, and the life of a crossing handle (08 R258-R260; 10 R298, R310, R316, R326, R327; 11 R361; O52). -/

namespace Sys2Proof.Machine

/-! ## A chunk of one element (08 R258) -/

theorem NearRec.yw_cases (n : NearRec) : n.yw = 2 ∨ n.yw = 4 := by
  unfold NearRec.yw
  split <;> simp

theorem NearRec.chunkElems_one {n : NearRec} (one : n.count = 1) : n.chunkElems 0 = [0] := by
  unfold NearRec.chunkElems
  rw [one]
  rcases n.yw_cases with w | w <;> rw [w] <;> rfl

/-- The reads of a chunk leave at the stacks what every read may leave: errors found, and no more. -/
theorem State.nearReads_keeps {γ : Type} (π : State → γ) (hb : ∀ (s : State) b p, π { s with bad := b, poison := p } = π s)
    (hn : ∀ (s : State) g, π (s.noteCorrected g) = π s) (s : State) (k : CopyCmd) (n : NearRec) : π (s.nearReads k n) = π s := by
  have reads (t : State) (key len : Nat) : π (t.readEffects key len) = π t := State.readEffects_keeps π hb hn t key len
  have elements : π ((n.chunkElems k.count).foldl (fun (s : State) e =>
      let s := if n.opc = 4 then s else s.readEffects (k.key (n.x + e * n.xw)) n.xw
      if n.readsY then s.readEffects (k.key (n.y + e * n.yw)) n.yw else s) s) = π s := by
    refine foldl_keeps π (fun t e => ?_) _ s
    dsimp only
    split <;> split <;> simp only [reads]
  refine Eq.trans ?_ elements
  unfold State.nearReads
  dsimp only
  split
  · exact hn _ _
  · exact hb _ _ _
  · split
    · exact hb _ _ _
    · rfl
  · rfl

@[simp] theorem State.nearReads_cores (s : State) (k : CopyCmd) (n : NearRec) : (s.nearReads k n).cores = s.cores :=
  s.nearReads_keeps State.cores (fun _ _ _ => rfl) (State.noteCorrected_keeps State.cores fun _ _ _ => rfl) k n

theorem State.nearReads_opened {s : State} {key len : Nat} (h : s.Opened key len) (k : CopyCmd) (n : NearRec) : (s.nearReads k n).Opened key len :=
  h.congr (s.nearReads_keeps State.mem (fun _ _ _ => rfl) State.noteCorrected_mem k n) fun i =>
    s.nearReads_keeps (fun s => (s.stack i).mapped) (fun _ _ _ => rfl) (fun s g => s.mapped_noteCorrected g i) k n

/-- A command that writes one element, of a chunk in which no read fails and no race keeps old bytes. -/
structure State.OneElement (s : State) (k : CopyCmd) (n : NearRec) : Prop where
  fresh : k.count = 0
  one : n.count = 1
  good : s.nearBad k n = []
  takes : s.nearKeeps n n.y = false

/-- The element of a command of one. -/
def State.nearElement (s : State) (k : CopyCmd) (n : NearRec) : Nat :=
  n.element (memRead s.mem (k.key n.x) n.xw) (memRead s.mem (k.key n.y) n.yw)

/-- A granule of a chunk of one element: the one that holds it takes its bytes. -/
theorem State.nearGranules_one {s t : State} {k : CopyCmd} {n : NearRec} (takes : s.nearKeeps n n.y = false) (v : Nat) :
    (List.range 4).foldl (fun (t : State) g => t.nearGranule k n (([] : List Nat).contains g) (s.nearKeeps n)
      (([(0, v)] : List (Nat × Nat)).filter fun x => (x.1 - 0 * (256 / n.yw)) / (64 / n.yw) == g)) t =
      t.writeHome (k.key n.y) (toBytes n.yw v) := by
  simp [List.range_succ, State.nearGranule, takes]

theorem State.runChunk_one {s : State} {c : Nat} {k : CopyCmd} (h : s.OneElement k (nearOf k.record)) : s.runChunk c k =
    (((s.nearReads k (nearOf k.record)).writeHome (k.key (nearOf k.record).y)
      (toBytes (nearOf k.record).yw (s.nearElement k (nearOf k.record)))).modCopy c k.id fun j => { j with count := j.count + 1 }).chosen := by
  obtain ⟨fresh, one, good, takes⟩ := h
  have value : (nearOf k.record).element (memRead s.mem (k.key ((nearOf k.record).x + 0 * (nearOf k.record).xw)) (nearOf k.record).xw)
      (memRead s.mem (k.key ((nearOf k.record).y + 0 * (nearOf k.record).yw)) (nearOf k.record).yw) = s.nearElement k (nearOf k.record) := by
    rw [Nat.zero_mul, Nat.zero_mul]
    rfl
  unfold State.runChunk
  dsimp only
  rw [good, fresh, NearRec.chunkElems_one one, List.map_cons, List.map_nil, value, State.nearGranules_one takes]
  rfl

/-- What a chunk of one element leaves (08 R258): the element written, the memory around it, and the command's chunk counted. -/
structure State.Ran (s t : State) (c : Nat) (k : CopyCmd) (v : Nat) : Prop where
  value : memRead t.mem (k.key (nearOf k.record).y) (nearOf k.record).yw = v % 256 ^ (nearOf k.record).yw
  around : ∀ i, i < k.key (nearOf k.record).y ∨ k.key (nearOf k.record).y + (nearOf k.record).yw ≤ i → memGet t.mem i = memGet s.mem i
  counted : ∃ j ∈ (t.core c).copies, j.id = k.id ∧ j.count = 1

theorem State.ran_runChunk {s : State} {c : Nat} {k : CopyCmd} (h : s.OneElement k (nearOf k.record)) (mem : k ∈ (s.core c).copies)
    (wf : s.mem.wf = true) (mapped : ∀ g, s.mappedOut g = false) : s.Ran (s.runChunk c k) c k (s.nearElement k (nearOf k.record)) := by
  have opened : s.Opened (k.key (nearOf k.record).y) (toBytes (nearOf k.record).yw (s.nearElement k (nearOf k.record))).length :=
    ⟨wf, fun g _ => mapped g⟩
  have reads : (s.nearReads k (nearOf k.record)).mem = s.mem :=
    s.nearReads_keeps State.mem (fun _ _ _ => rfl) State.noteCorrected_mem k _
  obtain ⟨bytes, rest⟩ := State.wrote_writeHome (State.nearReads_opened opened k (nearOf k.record))
  rw [State.runChunk_one h]
  rw [toBytes_length] at bytes rest
  refine ⟨?_, fun i out => ?_, ?_⟩
  · rw [memRead, State.chosen_mem, State.modCopy_mem, bytes, ofBytes_toBytes]
  · rw [State.chosen_mem, State.modCopy_mem, rest i out, reads]
  · refine ⟨{ k with count := k.count + 1 }, ?_, rfl, ?_⟩
    · have held : ((s.nearReads k (nearOf k.record)).writeHome (k.key (nearOf k.record).y)
          (toBytes (nearOf k.record).yw (s.nearElement k (nearOf k.record)))).core c = s.core c := by
        show (s.nearReads k (nearOf k.record)).core c = s.core c
        rw [State.core, s.nearReads_cores k (nearOf k.record)]
        rfl
      show _ ∈ (State.core (State.modCopy _ c k.id _) c).copies
      rw [State.modCopy, State.core_modCore_same, held, mem_updIf]
      exact .inl ⟨k, mem, by simp, rfl⟩
    · show k.count + 1 = 1
      rw [h.fresh]

/-- The near-memory events run the command that their stack serves (08 R258). -/
theorem happens_near {s : State} {i : Instr} {opc c : Nat} {k : CopyCmd} {v : Nat} {ok : State → Prop} (hi : exec i s = s.nearEvent opc)
    (next : s.nearNext s.on.a opc = some (c, k)) (mem : k ∈ (s.core c).copies) (h : s.OneElement k (nearOf k.record)) (wf : s.mem.wf = true)
    (mapped : ∀ g, s.mappedOut g = false) (value : (nearOf k.record).opc = opc → s.nearElement k (nearOf k.record) % 256 ^ (nearOf k.record).yw =
      v % 256 ^ (nearOf k.record).yw) (is : ∀ t, s.Ran t c k v → ok t) : Happens i s ok := by
  have opcode : (nearOf k.record).opc = opc := by
    have := List.find?_some next
    simp only [Bool.and_eq_true, beq_iff_eq] at this
    exact this.1
  obtain ⟨written, around, counted⟩ := State.ran_runChunk (c := c) h mem wf mapped
  refine ⟨s.runChunk c k, ?_, is _ ⟨?_, around, counted⟩⟩
  · rw [hi, State.nearEvent, next]
  · rw [written, value opcode]

/-! ## The elements of each command (08 R258) -/

section
variable {n : NearRec} (x y : Nat)

theorem NearRec.element_update (opc : n.opc = 1) (type : n.type = 0) : n.element x y = nearUpd n.a n.b y x := by
  simp [NearRec.element, opc, type]

theorem NearRec.element_axpby (opc : n.opc = 2) : n.element x y = nearAxpby n.type n.a n.b x y := by
  simp [NearRec.element, opc]

theorem NearRec.element_reduce (opc : n.opc = 3) : n.element x y = nearRed n.type x y := by
  simp [NearRec.element, opc]

theorem NearRec.element_fill (opc : n.opc = 4) : n.element x y % 256 ^ n.yw = n.f % 256 ^ n.yw := by
  have bytes : (2 : Nat) ^ (8 * n.yw) = 256 ^ n.yw := by rw [Nat.pow_mul]
  simp [NearRec.element, opc, bytes]

theorem NearRec.element_copy (opc : n.opc = 5) : n.element x y = x := by
  simp [NearRec.element, opc]

theorem NearRec.yw_of_type (type : n.type ≠ 2) : n.yw = 4 := by
  simp [NearRec.yw, type]

end

/-! ## The completion (08 R259, R260) -/

/-- The bytes that a near-memory completion writes into its record. -/
def CopyCmd.nearStatus (k : CopyCmd) : List Byte :=
  toBytes 4 (if k.status == 0 then 0 else 1) ++ toBytes 4 (if k.status == 0 then 0xFFFFFFFF else k.count) ++ toBytes 8 0

/-- The state after the command's record and its completion. -/
def State.nearDone (s : State) (c : Nat) (k : CopyCmd) : State :=
  (s.modCore c fun x => x.putBytes (k.recAddr + 48) k.nearStatus).finishCopy c k.id

/-! A completed command is marked so in its core, whose local store stays as it is. -/

theorem State.copies_finishCopy (s : State) (c id : Nat) : ((s.finishCopy c id).core c).copies =
    updIf (·.id == id) (fun k => { k with finished := true, doneAt := some (s.core c).time, started := true }) (s.core c).copies := by
  rw [State.finishCopy, State.core_modCore_same]
  rfl

theorem State.ls_finishCopy (s : State) (c id : Nat) : ((s.finishCopy c id).core c).ls = (s.core c).ls := by
  rw [State.finishCopy, State.core_modCore_same]
  rfl

theorem State.finished_finishCopy (s : State) (c id : Nat) : ∀ j ∈ ((s.finishCopy c id).core c).copies, j.id = id → j.finished = true := by
  intro j hj same
  rw [State.copies_finishCopy, mem_updIf] at hj
  rcases hj with ⟨_, -, -, rfl⟩ | ⟨-, other⟩
  · rfl
  · simp [same] at other

theorem State.nearDone_mem (s : State) (c : Nat) (k : CopyCmd) : (s.nearDone c k).mem = s.mem := by
  rw [State.nearDone, State.finishCopy_mem, State.modCore_mem]

theorem State.nearDone_record (s : State) (c : Nat) (k : CopyCmd) (wf : (s.core c).ls.wf = true) :
    memRead ((s.nearDone c k).core c).ls (k.recAddr + 48) 4 = (if k.status == 0 then 0 else 1) % 2 ^ 32 ∧
      memRead ((s.nearDone c k).core c).ls (k.recAddr + 52) 4 = (if k.status == 0 then 0xFFFFFFFF else k.count) % 2 ^ 32 := by
  have ls : ((s.nearDone c k).core c).ls = memWrite (s.core c).ls (k.recAddr + 48) k.nearStatus := by
    rw [State.nearDone, State.ls_finishCopy, State.core_modCore_same]
    rfl
  have bytes := memBytes_memWrite_same k.nearStatus (s.core c).ls (k.recAddr + 48) wf
  have length : k.nearStatus.length = 16 := by simp [CopyCmd.nearStatus, toBytes_length]
  rw [length] at bytes
  have low := memRead_eq_recField (memWrite (s.core c).ls (k.recAddr + 48) k.nearStatus) (k.recAddr + 48) 0 4 16 (by decide)
  have high := memRead_eq_recField (memWrite (s.core c).ls (k.recAddr + 48) k.nearStatus) (k.recAddr + 48) 4 4 16 (by decide)
  rw [bytes] at low high
  rw [ls]
  refine ⟨low.trans ?_, high.trans ?_⟩
  · have field : (k.nearStatus.drop 0).take 4 = toBytes 4 (if k.status == 0 then 0 else 1) := by
      simp [CopyCmd.nearStatus, toBytes_length]
    rw [recField, field, ofBytes_toBytes, show (256 : Nat) ^ 4 = 2 ^ 32 from rfl]
  · have field : (k.nearStatus.drop 4).take 4 = toBytes 4 (if k.status == 0 then 0xFFFFFFFF else k.count) := by
      simp [CopyCmd.nearStatus, toBytes_length]
    rw [recField, field, ofBytes_toBytes, show (256 : Nat) ^ 4 = 2 ^ 32 from rfl]

/-- The trap that an error of a near-memory command is to its core (08 R260). -/
def CopyCmd.nearTrap (k : CopyCmd) : TrapInfo :=
  { code := cause 5 4 (if k.status = 2 then 4 else 1), st := .copy, cmd := k.before.step, engine := 6, unit := k.nearStack
    cyc := k.issued, stat := BitVec.ofNat 32 k.count, xpc := some k.before.pc }

section
variable {s : State} {c : Nat} {k : CopyCmd} (ended : (s.nearCmds s.on.a).find? (fun q => q.2.nearOver) = some (c, k))
include ended

theorem exec_nearMemoryCompletion : exec .nearMemoryCompletion s =
    .next (if k.status == 0 then s.nearDone c k else (s.nearDone c k).owe c k.nearTrap) := by
  rw [exec, execNearMemoryCompletion, ended]
  rfl

theorem happens_nearMemoryCompletion : Happens .nearMemoryCompletion s fun t => t.mem = s.mem ∧
    (∀ j ∈ (t.core c).copies, j.id = k.id → j.finished = true) ∧
    (k.status = 0 → (s.core c).ls.wf = true → memRead (t.core c).ls (k.recAddr + 48) 4 = 0 ∧
      memRead (t.core c).ls (k.recAddr + 52) 4 = 0xFFFFFFFF % 2 ^ 32) ∧
    (k.status ≠ 0 → ((s.core c).ls.wf = true → memRead (t.core c).ls (k.recAddr + 48) 4 = 1 ∧
      memRead (t.core c).ls (k.recAddr + 52) 4 = k.count % 2 ^ 32) ∧ t.Owes c (cause 5 4 (if k.status = 2 then 4 else 1))) := by
  have done := (s.modCore c fun x => x.putBytes (k.recAddr + 48) k.nearStatus).finished_finishCopy c k.id
  refine ⟨_, exec_nearMemoryCompletion ended, ?_⟩
  by_cases good : k.status = 0
  · rw [if_pos (beq_iff_eq.2 good)]
    refine ⟨s.nearDone_mem c k, done, fun _ wf => ?_, fun bad => absurd good bad⟩
    have record := s.nearDone_record c k wf
    rwa [if_pos (beq_iff_eq.2 good), if_pos (beq_iff_eq.2 good)] at record
  · rw [if_neg (mt beq_iff_eq.1 good)]
    have owes : ((s.nearDone c k).owe c k.nearTrap).core c =
        { (s.nearDone c k).core c with owed := ((s.nearDone c k).core c).owed ++ [k.nearTrap] } :=
      State.core_modCore_same _ _ _
    refine ⟨s.nearDone_mem c k, ?_, fun none => absurd none good, fun _ => ⟨fun wf => ?_, ?_⟩⟩
    · rw [owes]
      exact done
    · have record := s.nearDone_record c k wf
      rw [if_neg (mt beq_iff_eq.1 good), if_neg (mt beq_iff_eq.1 good)] at record
      rw [owes]
      exact record
    · exact ⟨k.nearTrap, by rw [owes]; exact List.mem_append_right _ (List.mem_singleton_self _), rfl⟩

end

/-! ## The life of a crossing handle (10 R310, R316, R326, R327) -/

section
variable {s : State}

theorem happens_handleLive (settling : (s.handle s.on.a).st = .settling) (due : (s.handle s.on.a).liveAt ≤ s.handleCount s.on.a)
    (relocked : s.on.flag = true) : Happens .handleLive s fun t => t.cores = s.cores ∧
      (t.handle s.on.a).st = if (s.handle s.on.a).window = none then .live else .windowed := by
  have goes : exec .handleLive s = .next (s.modHandle s.on.a fun x => { x with st := if x.window.isSome then .windowed else .live, free := 0 }) := by
    rw [exec, execHandleLive, settling, decide_eq_false (not_lt.2 due), relocked]
    rfl
  refine ⟨_, goes, rfl, ?_⟩
  rw [State.handle_modHandle]
  cases (s.handle s.on.a).window <;> rfl

/-- The state in which a settling handle's program faults: the fault is the crossing program's. -/
def State.ofProgram (s : State) (lid : Nat) : State := { s with cur := ⟨lid, .crossing, 0⟩ }

theorem exec_handleLive_lost (settling : (s.handle s.on.a).st = .settling) (due : (s.handle s.on.a).liveAt ≤ s.handleCount s.on.a)
    (slipped : s.on.flag = false) : exec .handleLive s =
      .next ((((s.ofProgram (s.handle s.on.a).lid).loseHandle s.on.a).faultWith
        { (s.ofProgram (s.handle s.on.a).lid).info hourC with unit := s.on.a }).postSup hourC (s.handle s.on.a).src s.on.a) := by
  rw [exec, execHandleLive, settling, decide_eq_false (not_lt.2 due), slipped]
  rfl

/-- The loss of a handle changes cores and landings, its own entry, and what is to happen later. -/
theorem State.loseHandle_keeps {γ : Type} (π : State → γ) (hl : ∀ (s : State) c a l, π { s with freeCtr := c, alarms := a, landings := l } = π s)
    (hp : ∀ (s : State) t i e, π (s.plan t i e) = π s) (hc : ∀ (s : State) x, π { s with cores := x } = π s)
    (hh : ∀ (s : State) x, π { s with handles := x } = π s) (s : State) (h : Nat) : π (s.loseHandle h) = π s := by
  have rerun (x : Handle) : π (s.rerunOn x) = π s := by
    unfold State.rerunOn
    split
    · exact foldl_keeps π (fun t q => hp t _ _ _) _ s
    · rfl
  unfold State.loseHandle
  dsimp only
  refine (foldl_keeps π (State.bringUp_keeps π hl) _ _).trans ((hh _ _).trans ?_)
  exact (foldl_keeps π (fun t c => (hc _ _).trans (hc _ _)) _ _).trans (rerun _)

theorem State.handle_loseHandle (s : State) (h : Nat) : ((s.loseHandle h).handle h).st = .lost := by
  unfold State.loseHandle
  dsimp only
  refine (congrArg Handle.st (foldl_keeps (fun t : State => t.handle h)
    (State.bringUp_keeps (fun t : State => t.handle h) fun _ _ _ _ => rfl) _ _)).trans ?_
  rw [State.handle_modHandle]

/-- A fault of a launch's crossing program is the origin core's (10 R301). -/
theorem State.raised_faultWith {l : Launch} (running : s.launch? s.cur.core = some l) (hx : s.cur.st = .crossing) (i : TrapInfo) :
    (s.faultWith i).Raised l.origin i.code := by
  rw [State.faultWith, hx]
  dsimp only
  rw [running]
  refine ⟨{ i with ofWord := true }, ?_, rfl⟩
  show _ ∈ ((State.modCore _ _ _).core l.origin).raised
  rw [State.core_modCore_same]
  exact List.mem_append_right _ (List.mem_singleton_self _)

theorem State.faultWith_handles (i : TrapInfo) : (s.faultWith i).handles = s.handles := by
  unfold State.faultWith
  dsimp only
  split
  · split <;> rfl
  · rfl

theorem happens_handleLive_lost (settling : (s.handle s.on.a).st = .settling) (due : (s.handle s.on.a).liveAt ≤ s.handleCount s.on.a)
    (slipped : s.on.flag = false) (l : Launch) : Happens .handleLive s fun t => (t.handle s.on.a).st = .lost ∧
      (16, hourC, (s.handle s.on.a).src, s.on.a) ∈ t.events ∧ (s.launch? (s.handle s.on.a).lid = some l → t.Raised l.origin hourC) := by
  refine ⟨_, exec_handleLive_lost settling due slipped, ?_, List.mem_append_right _ (List.mem_singleton_self _), fun running => ?_⟩
  · show (State.handle _ _).st = _
    rw [← State.handle_loseHandle (s.ofProgram (s.handle s.on.a).lid) s.on.a]
    exact congrArg (fun v => (vAt v s.on.a).st) (State.faultWith_handles _)
  · have code : ((s.ofProgram (s.handle s.on.a).lid).info hourC).code = hourC := rfl
    have launches : ((s.ofProgram (s.handle s.on.a).lid).loseHandle s.on.a).launches = s.launches :=
      State.loseHandle_keeps State.launches (fun _ _ _ _ => rfl) (fun _ _ _ _ => rfl) (fun _ _ => rfl) (fun _ _ => rfl) _ _
    have cur : ((s.ofProgram (s.handle s.on.a).lid).loseHandle s.on.a).cur = ⟨(s.handle s.on.a).lid, .crossing, 0⟩ :=
      State.loseHandle_keeps State.cur (fun _ _ _ _ => rfl) (fun _ _ _ _ => rfl) (fun _ _ => rfl) (fun _ _ => rfl) _ _
    refine State.raised_faultWith (l := l) ?_ (by rw [cur]) { (s.ofProgram (s.handle s.on.a).lid).info hourC with unit := s.on.a }
    rw [cur, State.launch?, launches]
    exact running

/-! A handle that has drained becomes free, and the bindings that wait on it leave their cores (10 R316). -/

/-- A core gives up a binding of a freed handle. -/
def State.dropBinding (s : State) (b : Nat × Nat) : State := s.modCore b.1 fun c => { c with copies := c.copies.filter (·.id != b.2) }

theorem State.freeHandle_eq (s : State) (h : Nat) : s.freeHandle h = ((s.handle h).bindings.foldl State.dropBinding s).modHandle h Handle.freed := rfl

theorem State.dropBinding_copies (s : State) (b : Nat × Nat) (c : Nat) {j : CopyCmd} (hj : j ∈ ((s.dropBinding b).core c).copies) :
    j ∈ (s.core c).copies ∧ (b.1 = c → j.id ≠ b.2) := by
  by_cases same : c = b.1
  · subst same
    rw [State.dropBinding, State.core_modCore_same, List.mem_filter, bne_iff_ne] at hj
    exact ⟨hj.1, fun _ => hj.2⟩
  · rw [State.dropBinding, State.core_modCore_other _ _ _ _ same] at hj
    exact ⟨hj, fun e => absurd e.symm same⟩

theorem State.copies_freeHandle (s : State) (h : Nat) {b : Nat × Nat} (hb : b ∈ (s.handle h).bindings) :
    ∀ j ∈ ((s.freeHandle h).core b.1).copies, j.id ≠ b.2 :=
  foldl_of_mem (P := fun t : State => ∀ j ∈ (t.core b.1).copies, j.id ≠ b.2) hb (fun t _ hj => (t.dropBinding_copies b b.1 hj).2 rfl)
    fun t d dropped j hj => dropped j (t.dropBinding_copies d b.1 hj).1

theorem State.dropBindings_keeps {γ : Type} (π : State → γ) (hc : ∀ (s : State) x, π { s with cores := x } = π s) (l : List (Nat × Nat)) (s : State) :
    π (l.foldl State.dropBinding s) = π s :=
  foldl_keeps π (fun t _ => hc t _) l s

theorem happens_drainEnd (draining : (s.handle s.on.a).st = .draining) (sent : (s.handle s.on.a).sends = [])
    (due : (s.handle s.on.a).lastDone + 64 ≤ s.handleCount s.on.a + (s.handle s.on.a).aged) : Happens .drainEnd s fun t =>
      (t.handle s.on.a).st = .free ∧ (t.handle s.on.a).owner = (s.handle s.on.a).owner ∧
      (∀ i, i % 64 ≠ s.on.a % 64 → t.handle i = s.handle i) ∧
      (∀ b ∈ (s.handle s.on.a).bindings, ∀ j ∈ (t.core b.1).copies, j.id ≠ b.2) ∧ t.mem = s.mem := by
  have goes : exec .drainEnd s = .next (s.freeHandle s.on.a) := by
    rw [exec, execDrainEnd, draining, sent, decide_eq_false (not_lt.2 due)]
    rfl
  have handles (i : Nat) : ((s.handle s.on.a).bindings.foldl State.dropBinding s).handle i = s.handle i :=
    State.dropBindings_keeps (fun t : State => t.handle i) (fun _ _ => rfl) _ _
  refine ⟨_, goes, ?_, ?_, fun i other => ?_, fun b hb => s.copies_freeHandle _ hb, State.dropBindings_keeps State.mem (fun _ _ => rfl) _ _⟩
  · rw [State.freeHandle_eq, State.handle_modHandle]
    rfl
  · rw [State.freeHandle_eq, State.handle_modHandle, handles]
    rfl
  · rw [State.freeHandle_eq, State.handle_modHandle_other _ _ _ _ (Ne.symm other), handles]

/-! ## The end of a window (10 R310, 11 R361) -/

/-- The traps of a collective's members whose data moved on a handle when its window ended (11 R361). -/
def cutShort (h : Nat) (x : Handle) (t : State) (k : Coll) : State := (t.collUsers k x).foldl (fun (t : State) y =>
  t.owe y.core { code := cause 4 k.q.kindOf 6, st := .copy, cmd := (t.core y.core).cpy.step, engine := 5, unit := h, cyc := (t.core y.core).time }) t

/-- The collectives whose data is moving on a handle's window. -/
def State.movingOn (s : State) (x : Handle) : List Coll := s.colls.filter fun k => k.lid == x.lid && k.digested && k.status.isNone

theorem exec_windowEnd {w : Nat × Nat} (windowed : (s.handle s.on.a).st = .windowed) (window : (s.handle s.on.a).window = some w)
    (due : w.2 ≤ s.handleCount s.on.a) : exec .windowEnd s = .next ((s.movingOn (s.handle s.on.a)).foldl (cutShort s.on.a (s.handle s.on.a))
      (s.modHandle s.on.a fun x => { x with st := .live, window := none })) := by
  have ends : s.windowOver s.on.a = true := by
    simp [State.windowOver, windowed, window, due]
  rw [exec, execWindowEnd, ends]
  rfl

theorem State.Owes.owe {s : State} {c code : Nat} (h : s.Owes c code) (d : Nat) (i : TrapInfo) : (s.owe d i).Owes c code := by
  obtain ⟨j, hj, same⟩ := h
  refine ⟨j, ?_, same⟩
  by_cases here : c = d
  · subst here
    rw [State.owe, State.core_modCore_same]
    exact List.mem_append_left _ hj
  · rwa [State.owe, State.core_modCore_other _ _ _ _ here]

theorem State.owes_owe (s : State) (c : Nat) (i : TrapInfo) : (s.owe c i).Owes c i.code :=
  ⟨i, by rw [State.owe, State.core_modCore_same]; exact List.mem_append_right _ (List.mem_singleton_self _), rfl⟩

theorem State.Owes.cutShort {u : State} {c code : Nat} (h : u.Owes c code) (n : Nat) (x : Handle) (k : Coll) : (cutShort n x u k).Owes c code :=
  List.foldlRecOn (motive := fun t : State => t.Owes c code) (u.collUsers k x) _ h fun _ before _ _ => before.owe _ _

theorem cutShort_keeps {γ : Type} (π : State → γ) (hc : ∀ (s : State) x, π { s with cores := x } = π s) (n : Nat) (x : Handle) (t : State)
    (k : Coll) : π (cutShort n x t k) = π t :=
  foldl_keeps π (fun t _ => hc t _) _ t

theorem happens_windowEnd {w : Nat × Nat} (windowed : (s.handle s.on.a).st = .windowed) (window : (s.handle s.on.a).window = some w)
    (due : w.2 ≤ s.handleCount s.on.a) : Happens .windowEnd s fun t => (t.handle s.on.a).st = .live ∧ (t.handle s.on.a).window = none ∧
      ((∀ k ∈ s.colls, k.lid ≠ (s.handle s.on.a).lid ∨ k.digested = false ∨ k.status ≠ none) → t.cores = s.cores) ∧
      ∀ k ∈ s.colls, k.lid = (s.handle s.on.a).lid → k.digested = true → k.status = none → ∀ y ∈ s.collUsers k (s.handle s.on.a),
        t.Owes y.core (cause 4 k.q.kindOf 6) := by
  have handle : ((s.movingOn (s.handle s.on.a)).foldl (cutShort s.on.a (s.handle s.on.a))
      (s.modHandle s.on.a fun x => { x with st := .live, window := none })).handle s.on.a = { s.handle s.on.a with st := .live, window := none } :=
    (foldl_keeps (fun t : State => t.handle s.on.a) (cutShort_keeps (fun t : State => t.handle s.on.a) (fun _ _ => rfl) _ _) _ _).trans
      (State.handle_modHandle _ _ _)
  refine ⟨_, exec_windowEnd windowed window due, by rw [handle], by rw [handle], fun still => ?_, fun k hk lid digested open_ y hy => ?_⟩
  · have none : s.movingOn (s.handle s.on.a) = [] := by
      rw [State.movingOn, List.filter_eq_nil_iff]
      intro k hk moving
      simp only [Bool.and_eq_true, beq_iff_eq, Option.isNone_iff_eq_none] at moving
      obtain ⟨⟨lid, digested⟩, open_⟩ := moving
      rcases still k hk with other | early | closed
      · exact other lid
      · simp [early] at digested
      · exact closed open_
    rw [none]
    rfl
  · have moving : k ∈ s.movingOn (s.handle s.on.a) := by simp [State.movingOn, hk, lid, digested, open_]
    refine foldl_of_mem_of_inv (I := fun t : State => t.collUsers k (s.handle s.on.a) = s.collUsers k (s.handle s.on.a))
      (P := fun t : State => t.Owes y.core (cause 4 k.q.kindOf 6)) moving rfl (fun t j same => ?_) (fun t same => ?_)
      fun t j _ owes => owes.cutShort _ _ j
    · exact (cutShort_keeps (fun t : State => t.collUsers k (s.handle s.on.a)) (fun _ _ => rfl) _ _ t j).trans same
    · rw [← same] at hy
      exact foldl_of_mem (P := fun t : State => t.Owes y.core (cause 4 k.q.kindOf 6)) hy (fun t => t.owes_owe y.core _) fun t z owes => owes.owe _ _

end

/-- Settles O52: each near-memory event runs its command's one element, and each event of a handle leaves it as its state says. -/
theorem nearMemoryEvents : Obligations.NearMemoryEvents := by
  refine ⟨?_, ?_⟩
  · intro s c k n x y r d ran ready record
    have run {i : Instr} {opc v : Nat} (hi : exec i s = s.nearEvent opc) (due : ready opc)
        (value : n.opc = opc → n.element x y % 256 ^ n.yw = v % 256 ^ n.yw) : Happens i s fun t => ran t v := by
      obtain ⟨next, mem, fresh, one, wf, good, takes, mapped⟩ := due
      exact happens_near hi next mem ⟨fresh, one, good, takes⟩ wf mapped value fun t h => ⟨h.value, h.around, h.counted⟩
    refine ⟨fun due type => run rfl due fun opc => ?_, fun due type => run rfl due fun opc => ?_, fun due type => run rfl due fun opc => ?_,
      fun due type => run rfl due fun opc => ?_, fun due type => run rfl due fun opc => ?_, fun due => run rfl due fun opc => ?_,
      fun due => run rfl due fun opc => ?_, fun ended => (happens_nearMemoryCompletion ended).mono fun t ⟨mem, finished, good, bad⟩ =>
        ⟨mem, finished, fun ok wf => good ok wf, fun fails => ⟨fun wf => (bad fails).1 wf, (bad fails).2⟩⟩⟩
    · rw [NearRec.element_update x y opc type]
      rfl
    · rw [NearRec.element_axpby x y opc, NearRec.yw_of_type (by simp [type]), nearAxpby, if_pos type]
      simp [Nat.add_mod]
    · rw [NearRec.element_axpby x y opc, nearAxpby, type]
      rfl
    · rw [NearRec.element_reduce x y opc, NearRec.yw_of_type (by simp [type]), nearRed, if_pos type]
      simp
    · rw [NearRec.element_reduce x y opc, nearRed, type]
      rfl
    · exact NearRec.element_fill x y opc
    · rw [NearRec.element_copy x y opc]
  · intro s l h x
    exact ⟨fun settling due relocked => happens_handleLive settling due relocked,
      fun settling due slipped => happens_handleLive_lost settling due slipped l, fun draining sent due => happens_drainEnd draining sent due,
      fun w windowed window due => happens_windowEnd windowed window due⟩

end Sys2Proof.Machine
end

section
/-! PROOF. Snapshots: begin, copy on write, drain, commit and restore (08 R247; 13 R404-R409; O50). -/

namespace Sys2Proof.Machine

/-! ## Copied ranges of memory (13 R406) -/

/-- A memory cut down by address. -/
theorem memGet_filter (m : Memory) (p : Nat → Bool) (a : Nat) : memGet (m.filter fun c => p c.1) a = if p a then memGet m a else 0 := by
  induction m with
  | nil => simp [memGet]
  | cons c m ih =>
    obtain ⟨k, b⟩ := c
    by_cases kept : p k = true
    · rw [List.filter_cons_of_pos (p := fun c : Host.Cell => p c.1) kept, memGet, memGet, ih]
      split
      · subst_vars
        rw [if_pos kept]
      · rfl
    · rw [List.filter_cons_of_neg (p := fun c : Host.Cell => p c.1) kept, ih, memGet]
      by_cases same : k = a
      · subst same
        rw [if_neg kept, if_neg kept]
      · rw [if_neg same]

/-- A memory moved down to 0 from `low`, below which it holds nothing. -/
theorem memGet_shift (m : Memory) {low : Nat} (above : ∀ c ∈ m, low ≤ c.1) (j : Nat) :
    memGet (m.map fun c => (c.1 - low, c.2)) j = memGet m (low + j) := by
  induction m with
  | nil => rfl
  | cons c m ih =>
    obtain ⟨k, b⟩ := c
    have here := above (k, b) List.mem_cons_self
    rw [List.map_cons, memGet, memGet, ih fun c hc => above c (List.mem_cons_of_mem _ hc)]
    have same : k - low = j ↔ k = low + j := by omega
    simp only [same]

theorem memGet_foldl_memSet_other (cs : List Host.Cell) (m : Memory) (key i : Nat) (other : ∀ c ∈ cs, key + c.1 ≠ i) :
    memGet (cs.foldl (fun m c => memSet m (key + c.1) c.2) m) i = memGet m i := by
  induction cs generalizing m with
  | nil => rfl
  | cons c cs ih =>
    rw [List.foldl_cons, ih _ fun c hc => other c (List.mem_cons_of_mem _ hc), memGet_memSet_other _ _ _ _ (Ne.symm (other c List.mem_cons_self))]

/-- Cells set one by one into a memory that holds nothing at `key + j`. -/
theorem memGet_foldl_memSet (cs : List Host.Cell) (m : Memory) {key j : Nat} (wf : Memory.wf m = true) (nodup : (cs.map Prod.fst).Nodup)
    (blank : memGet m (key + j) = 0) : memGet (cs.foldl (fun m c => memSet m (key + c.1) c.2) m) (key + j) = memGet cs j := by
  induction cs generalizing m with
  | nil => exact blank
  | cons c cs ih =>
    obtain ⟨k, b⟩ := c
    obtain ⟨fresh, rest⟩ := List.nodup_cons.1 nodup
    rw [List.foldl_cons, memGet]
    split
    · subst_vars
      rw [memGet_foldl_memSet_other, memGet_memSet_same _ _ _ wf]
      intro c hc same
      exact fresh (List.mem_map.2 ⟨c, hc, by omega⟩)
    · next other =>
      exact ih _ (memSet_wf _ _ _ wf) rest (by rw [memGet_memSet_other _ _ _ _ (by omega)]; exact blank)

theorem nodup_of_tabRising {α : Type} {o : Option Nat} {t : Tab α} (rising : tabRising o t = true) : (t.map Prod.fst).Nodup := by
  induction t generalizing o with
  | nil => simp
  | cons c t ih =>
    obtain ⟨k, x⟩ := c
    obtain ⟨-, rest⟩ := tabRising_cons.1 rising
    refine List.nodup_cons.2 ⟨fun held => ?_, ih rest⟩
    obtain ⟨d, hd, same⟩ := List.mem_map.1 held
    have := tabRising_above rest d hd
    omega

theorem mem_granulesOf {key len a : Nat} (low : key ≤ a) (high : a < key + len) : a / 64 ∈ granulesOf key len := by
  rw [granulesOf, if_neg (by omega), List.mem_map]
  exact ⟨a / 64 - key / 64, List.mem_range.2 (by omega), by omega⟩

theorem of_mem_granulesOf {key len g : Nat} (h : g ∈ granulesOf key len) : key / 64 ≤ g ∧ 64 * g < key + len := by
  rw [granulesOf] at h
  split at h
  · cases h
  · obtain ⟨i, hi, rfl⟩ := List.mem_map.1 h
    have := List.mem_range.1 hi
    omega

/-- A range of which a larger one has every granule in use. -/
theorem granulesOf_subset {key len key' len' g : Nat} (low : key' ≤ key) (high : key + len ≤ key' + len') (h : g ∈ granulesOf key len) :
    g ∈ granulesOf key' len' := by
  rw [granulesOf] at h ⊢
  split at h
  · cases h
  · obtain ⟨i, hi, rfl⟩ := List.mem_map.1 h
    have := List.mem_range.1 hi
    rw [if_neg (by omega), List.mem_map]
    exact ⟨key / 64 + i - key' / 64, List.mem_range.2 (by omega), by omega⟩

section
variable {s : State} {src dst len : Nat}

theorem State.cells_nodup (wf : s.mem.wf = true) : ((s.cells src len).map Prod.fst).Nodup := by
  have rising : ((s.mem.filter fun c => decide (src ≤ c.1 ∧ c.1 < src + len)).map Prod.fst).Nodup :=
    nodup_of_tabRising (tabRising_filter _ ((Memory.wf_iff _).1 wf).1)
  have shift : (s.cells src len).map Prod.fst = ((s.mem.filter fun c => decide (src ≤ c.1 ∧ c.1 < src + len)).map Prod.fst).map (· - src) := by
    rw [State.cells, List.map_map, List.map_map]
    rfl
  rw [shift]
  refine List.Nodup.map_on (fun a ha b hb same => ?_) rising
  obtain ⟨c, hc, rfl⟩ := List.mem_map.1 ha
  obtain ⟨d, hd, rfl⟩ := List.mem_map.1 hb
  have hc := of_decide_eq_true (List.mem_filter.1 hc).2
  have hd := of_decide_eq_true (List.mem_filter.1 hd).2
  omega

theorem State.memGet_cells {j : Nat} (hj : j < len) : memGet (s.cells src len) j = memGet s.mem (src + j) := by
  rw [State.cells, memGet_shift _ (low := src) fun c hc => (of_decide_eq_true (List.mem_filter.1 hc).2).1,
    memGet_filter s.mem (fun a => decide (src ≤ a ∧ a < src + len)), if_pos (decide_eq_true (by omega))]

theorem State.of_mem_cells {c : Host.Cell} (h : c ∈ s.cells src len) : c.1 < len := by
  obtain ⟨d, hd, rfl⟩ := List.mem_map.1 h
  have := of_decide_eq_true (List.mem_filter.1 hd).2
  show d.1 - src < len
  omega

/-- Cells restored into a range of which no granule is mapped out. -/
theorem State.memGet_restoreCells {j : Nat} {cs : List Host.Cell} (wf : s.mem.wf = true) (nodup : (cs.map Prod.fst).Nodup)
    (within : ∀ c ∈ cs, c.1 < len) (mapped : ∀ g ∈ granulesOf dst len, s.mappedOut g = false) (hj : j < len) :
    memGet (s.restoreCells dst len cs).mem (dst + j) = memGet cs j := by
  have takes (i : Nat) (hi : i < len) : s.mappedOut ((dst + i) / 64) = false :=
    mapped _ (mem_granulesOf (Nat.le_add_right _ _) (by omega))
  have rest := memGet_filter s.mem (fun a => !(decide (dst ≤ a ∧ a < dst + len) && !s.mappedOut (a / 64))) (dst + j)
  rw [takes j hj, decide_eq_true (by omega : dst ≤ dst + j ∧ dst + j < dst + len)] at rest
  have all : (s.restoreCells dst len cs).mem = cs.foldl (fun m c => memSet m (dst + c.1) c.2)
      (s.mem.filter fun c => !(decide (dst ≤ c.1 ∧ c.1 < dst + len) && !s.mappedOut (c.1 / 64))) := by
    refine List.foldl_ext _ _ _ fun m c hc => ?_
    exact if_pos (by simp [takes c.1 (within c hc)])
  rw [all]
  exact memGet_foldl_memSet cs _ (Memory.wf_filter _ _ wf) nodup rest

end

section
variable {s : State} {src dst len : Nat}

/-- What the reads of a copied range leave: errors found, and no more. -/
def State.copyReads (s : State) (src len : Nat) : State :=
  ((s.bad.map (·.1)).filter fun g => decide (src ≤ 64 * g ∧ 64 * g < src + len)).foldl (fun (s : State) g => s.readEffects (64 * g) 64) s

theorem State.copyReads_keeps {γ : Type} (π : State → γ) (hb : ∀ (s : State) b p, π { s with bad := b, poison := p } = π s)
    (hn : ∀ (s : State) g, π (s.noteCorrected g) = π s) (s : State) (src len : Nat) : π (s.copyReads src len) = π s :=
  foldl_keeps π (fun t g => State.readEffects_keeps π hb hn t (64 * g) 64) _ s

theorem State.mappedOut_copyReads (g : Nat) : (s.copyReads src len).mappedOut g = s.mappedOut g :=
  State.mappedOut_congr (fun i =>
    s.copyReads_keeps (fun s => (s.stack i).mapped) (fun _ _ _ => rfl) (fun s g => s.mapped_noteCorrected g i) src len) g

theorem State.copyReads_mem : (s.copyReads src len).mem = s.mem :=
  s.copyReads_keeps State.mem (fun _ _ _ => rfl) State.noteCorrected_mem src len

theorem State.copyRange_mem : (s.copyRange src dst len).mem = ((s.copyReads src len).restoreCells dst len (s.cells src len)).mem := by
  have cells : (s.copyReads src len).cells src len = s.cells src len := by
    rw [State.cells, State.copyReads_mem]
    rfl
  rw [← cells]
  rfl

/-- The copied bytes (13 R406). -/
theorem State.memGet_copyRange {j : Nat} (wf : s.mem.wf = true) (mapped : ∀ g ∈ granulesOf dst len, s.mappedOut g = false) (hj : j < len) :
    memGet (s.copyRange src dst len).mem (dst + j) = memGet s.mem (src + j) := by
  rw [State.copyRange_mem, State.memGet_restoreCells (by rwa [State.copyReads_mem]) (State.cells_nodup wf) (fun c => State.of_mem_cells)
    (fun g hg => (State.mappedOut_copyReads g).trans (mapped g hg)) hj, State.memGet_cells hj]

/-- A copied range keeps whatever reads, cells and poison leave alone. -/
theorem State.copyRange_keeps {γ : Type} (π : State → γ) (hm : ∀ (s : State) m b p, π { s with mem := m, bad := b, poison := p } = π s)
    (hn : ∀ (s : State) g, π (s.noteCorrected g) = π s) (s : State) (src dst len : Nat) : π (s.copyRange src dst len) = π s := by
  have reads : π (s.copyReads src len) = π s := s.copyReads_keeps π (fun t b p => hm t t.mem b p) hn src len
  exact (hm _ _ _ _).trans ((hm _ _ _ _).trans reads)

theorem State.mappedOut_copyRange (g : Nat) : (s.copyRange src dst len).mappedOut g = s.mappedOut g :=
  State.mappedOut_congr (fun i => s.copyRange_keeps (fun s => (s.stack i).mapped) (fun _ _ _ _ => rfl) (fun s g => s.mapped_noteCorrected g i)
    src dst len) g

/-- A range whose source is sound arrives sound (08 R260, 13 R391). -/
theorem State.copyRange_sound (aligned : dst % 64 = 0)
    (sound : ∀ g ∈ granulesOf src len, g ∉ s.poison ∧ s.mappedOut g = false ∧ ∀ b, (g, b) ∉ s.bad) :
    ∀ g ∈ granulesOf dst len, g ∉ (s.copyRange src dst len).poison := by
  have inside {g : Nat} (low : src ≤ 64 * g) (high : 64 * g < src + len) : g ∈ granulesOf src len := by
    have := mem_granulesOf low high
    rwa [Nat.mul_div_cancel_left g (by decide)] at this
  have none : (s.bad.map (·.1)).filter (fun g => decide (src ≤ 64 * g ∧ 64 * g < src + len)) = [] := by
    rw [List.filter_eq_nil_iff]
    intro g hg within
    obtain ⟨x, hx, rfl⟩ := List.mem_map.1 hg
    obtain ⟨low, high⟩ := of_decide_eq_true within
    exact (sound x.1 (inside low high)).2.2 x.2 hx
  have poison : s.poison.filter (fun g => decide (src ≤ 64 * g ∧ 64 * g < src + len)) = [] := by
    rw [List.filter_eq_nil_iff]
    intro g hg within
    obtain ⟨low, high⟩ := of_decide_eq_true within
    exact (sound g (inside low high)).1 hg
  have out : (if (s.stack (stackOf src)).mapped.isEmpty then [] else (granulesOf src len).filter s.mappedOut) = [] := by
    split
    · rfl
    · rw [List.filter_eq_nil_iff]
      intro g hg
      simp [(sound g hg).2.1]
  have left : (s.copyRange src dst len).poison = s.poison.filter fun g => !decide (dst ≤ 64 * g ∧ 64 * g < dst + len) := by
    unfold State.copyRange
    dsimp only
    rw [none, List.foldl_nil, poison, out]
    rfl
  intro g hg
  rw [left, List.mem_filter]
  rintro ⟨-, off⟩
  have := of_mem_granulesOf hg
  simp at off
  omega

end

/-! ## Writes of leaves and of the root word -/

section
variable {s : State}

/-- A write at a home leaves the bytes outside it. -/
theorem State.memGet_writeHome_outside {key i : Nat} {b : List Byte} (out : i < key ∨ key + b.length ≤ i) :
    memGet (s.writeHome key b).mem i = memGet s.mem i := by
  unfold State.writeHome
  dsimp only
  split
  · have inside (x : Byte × Nat) (hx : x ∈ b.zipIdx) : key + x.2 ≠ i := by
      have := (List.mem_zipIdx hx).2.1
      omega
    generalize b.zipIdx = l at inside
    generalize s.mem = m
    induction l generalizing m with
    | nil => rfl
    | cons x l ih =>
      rw [List.foldl_cons, ih fun y hy => inside y (List.mem_cons_of_mem _ hy)]
      split
      · rfl
      · exact memGet_memSet_other _ _ _ _ (Ne.symm (inside x List.mem_cons_self))
  · exact memGet_memWrite_outside _ _ _ _ out

/-- A leaf with its EPOCH set (12 R367). -/
def Leaf.withEpoch (l : Leaf) (k : BitVec 8) : Word := (l.entry &&& ~~~0xFF00#64) ||| (k.setWidth 64 <<< 8)

theorem withEpoch_field (e : Word) (k : BitVec 8) : ((e &&& ~~~0xFF00#64) ||| (k.setWidth 64 <<< 8)).extractLsb' 8 8 = k := by
  ext i hi
  have mask : ∀ i : Nat, i < 8 → (~~~0xFF00#64).getLsbD (8 + i) = false := by decide
  rw [BitVec.getElem_extractLsb', BitVec.getLsbD_or, BitVec.getLsbD_and, mask i hi, BitVec.getLsbD_shiftLeft, BitVec.getLsbD_setWidth,
    Nat.add_sub_cancel_left, Bool.and_false, Bool.false_or, decide_eq_true (show 8 + i < 64 by omega),
    decide_eq_false (show ¬ 8 + i < 8 by omega), decide_eq_true (show i < 64 by omega), BitVec.getLsbD_eq_getElem hi]
  rfl

theorem Leaf.epoch_withEpoch (l : Leaf) (k : BitVec 8) : (l.withEpoch k).toNat / 256 % 256 = k.toNat := by
  have field := congrArg BitVec.toNat (withEpoch_field l.entry k)
  rw [BitVec.extractLsb'_toNat, Nat.shiftRight_eq_div_pow] at field
  exact field

theorem withEpoch_above (e : Word) (x : Word) (byte : ∀ i, 16 ≤ i → x.getLsbD i = false) {i : Nat} (high : 16 ≤ i) (small : i < 64) :
    ((e &&& ~~~0xFF00#64) ||| x).getLsbD i = e.getLsbD i := by
  have mask : ∀ i : Nat, i < 64 → 16 ≤ i → (~~~0xFF00#64).getLsbD i = true := by decide
  rw [BitVec.getLsbD_or, BitVec.getLsbD_and, mask i small high, byte i high, Bool.and_true, Bool.or_false]

/-- A leaf read anew is the same but for its EPOCH. -/
theorem State.page_fresh (s : State) (l : Leaf) : (s.fresh l).page = l.page := by
  have byte : ∀ i, 16 ≤ i → (BitVec.ofNat 64 (256 * memRead s.mem (pkey 0 l.home + 1) 1)).getLsbD i = false := by
    intro i high
    have low : 256 * memRead s.mem (pkey 0 l.home + 1) 1 < 2 ^ i := calc
      256 * memRead s.mem (pkey 0 l.home + 1) 1 < 2 ^ 16 := by have := memRead_lt s.mem 1 (pkey 0 l.home + 1); omega
      _ ≤ 2 ^ i := Nat.pow_le_pow_right (by decide) high
    rw [BitVec.getLsbD_ofNat, Nat.testBit_lt_two_pow low, Bool.and_false]
  have field (e : Word) : bits e 55 16 = (e.extractLsb' 16 40).toNat := by
    rw [bits, BitVec.extractLsb'_toNat]
  have same : (s.fresh l).entry.extractLsb' 16 40 = l.entry.extractLsb' 16 40 := by
    ext i hi
    rw [BitVec.getElem_extractLsb', BitVec.getElem_extractLsb']
    exact withEpoch_above _ _ byte (by omega) (by omega)
  rw [Leaf.page, field, same, ← field]
  rfl

end

section
variable {s t : State} {ctx va : Nat} {l : Leaf} {k : BitVec 8}

theorem State.setEpoch_mem : (s.setEpoch ctx va l k).mem = (s.writeHome l.home (toBytes 8 (l.withEpoch k).toNat)).mem := by
  rw [← pkey_zero l.home]
  rfl

/-- The EPOCH field of a leaf in memory, once it is set (12 R367). -/
theorem State.epoch_setEpoch (wf : s.mem.wf = true) (mapped : ∀ g ∈ granulesOf l.home 8, s.mappedOut g = false) :
    memRead (s.setEpoch ctx va l k).mem l.home 8 / 256 % 256 = k.toNat := by
  have opened : s.Opened l.home (toBytes 8 (l.withEpoch k).toNat).length := ⟨wf, by rwa [toBytes_length]⟩
  have written := (State.wrote_writeHome opened).1
  rw [toBytes_length] at written
  have whole : (l.withEpoch k).toNat % 256 ^ 8 = (l.withEpoch k).toNat := Nat.mod_eq_of_lt (l.withEpoch k).isLt
  rw [State.setEpoch_mem, memRead, written, ofBytes_toBytes, whole, Leaf.epoch_withEpoch]

theorem State.memGet_setEpoch_outside {i : Nat} (out : i < l.home ∨ l.home + 8 ≤ i) :
    memGet (s.setEpoch ctx va l k).mem i = memGet s.mem i := by
  rw [State.setEpoch_mem]
  exact State.memGet_writeHome_outside (by rwa [toBytes_length])

theorem State.poison_setEpoch {g : Nat} (sound : g ∉ s.poison) : g ∉ (s.setEpoch ctx va l k).poison :=
  fun held => sound (List.mem_filter.1 held).1

/-- A copy to the shadow is the copy of the page's range, and the slots of its context. -/
theorem State.copyToShadow_eq (h : s.copyToShadow ctx va l k = some t) : ∃ at_ ps, t =
    (s.copyRange (pkey l.ap l.page) ((s.ctx ctx).slotKey ⟨k, at_⟩) l.size).modCtx ctx fun x => { x with slots := ps } := by
  unfold State.copyToShadow at h
  dsimp only at h
  split at h
  · obtain ⟨i, -, rfl⟩ := Option.map_eq_some_iff.1 h
    exact ⟨_, _, rfl⟩
  · obtain ⟨i, -, rfl⟩ := Option.map_eq_some_iff.1 h
    exact ⟨_, _, rfl⟩
  · split at h <;> cases h <;> exact ⟨_, _, rfl⟩

/-- The copy of a page that has no slot yet (13 R406). -/
theorem State.copyToShadow_first {i : Nat} (h : s.copyToShadow ctx va l k = some t)
    (none : (s.ctx ctx).slots.find? (·.va == va / l.size * l.size) = none) (place : s.slotPlace ctx l.units = some i) : t =
      (s.copyRange (pkey l.ap l.page) ((s.ctx ctx).slotKey ⟨k, i⟩) l.size).modCtx ctx fun x =>
        { x with slots :=
          (s.ctx ctx).slots.filter (·.va != va / l.size * l.size) ++ [{ va := va / l.size * l.size, units := l.units, a := some ⟨k, i⟩ }] } := by
  unfold State.copyToShadow at h
  dsimp only at h
  rw [none, place] at h
  cases h
  rfl

theorem State.mappedOut_copyToShadow (h : s.copyToShadow ctx va l k = some t) (g : Nat) : t.mappedOut g = s.mappedOut g := by
  obtain ⟨at_, ps, rfl⟩ := State.copyToShadow_eq h
  show (s.copyRange (pkey l.ap l.page) ((s.ctx ctx).slotKey ⟨k, at_⟩) l.size).mappedOut g = _
  exact State.mappedOut_copyRange g

end

/-! ## Copy on write (08 R247, 13 R406) -/

section
variable {s t : State} {l : Leaf} (found : s.lookup 0 s.on.a s.on.b = .ok l) (due : s.copyDue s.on.a (s.fresh l) = true)
  (image : s.imageDone s.on.a = true) (copy : s.copyToShadow s.on.a s.on.b (s.fresh l) (s.ctx s.on.a).epoch = some t)
include found due image copy

theorem exec_snapshotCopyOnWrite : exec .snapshotCopyOnWrite s =
    .next ((t.setEpoch s.on.a s.on.b (s.fresh l) (s.ctx s.on.a).epoch).modCtx s.on.a fun x =>
      { x with cows := tabDel x.cows (s.on.b / (s.fresh l).size * (s.fresh l).size), pagesLeft := x.pagesLeft - (s.fresh l).units }) := by
  rw [exec, execSnapshotCopyOnWrite, State.cowDue, found]
  dsimp only
  rw [due, image, copy]
  rfl

theorem happens_copyOnWrite : Happens .snapshotCopyOnWrite s fun u => (u.ctx s.on.a).slots = (t.ctx s.on.a).slots ∧
    (s.mem.wf = true → (∀ g ∈ granulesOf l.home 8, s.mappedOut g = false) → memRead u.mem l.home 8 / 256 % 256 = (s.ctx s.on.a).epoch.toNat) ∧
    ∀ i, (s.ctx s.on.a).slots.find? (·.va == s.on.b / l.size * l.size) = none → s.slotPlace s.on.a l.units = some i →
      (∃ q ∈ (u.ctx s.on.a).slots, q.va = s.on.b / l.size * l.size ∧ q.a = some ⟨(s.ctx s.on.a).epoch, i⟩ ∧ q.b = none) ∧
      (s.mem.wf = true → (∀ g ∈ granulesOf ((s.ctx s.on.a).slotKey ⟨(s.ctx s.on.a).epoch, i⟩) l.size, s.mappedOut g = false) →
        l.home + 8 ≤ (s.ctx s.on.a).slotKey ⟨(s.ctx s.on.a).epoch, i⟩ ∨
          (s.ctx s.on.a).slotKey ⟨(s.ctx s.on.a).epoch, i⟩ + l.size ≤ l.home →
        ∀ j, j < l.size → memGet u.mem ((s.ctx s.on.a).slotKey ⟨(s.ctx s.on.a).epoch, i⟩ + j) = memGet s.mem (pkey 0 l.page + j)) := by
  have ap : (s.fresh l).ap = 0 := by
    simp only [State.copyDue, Bool.and_eq_true, decide_eq_true_eq] at due
    exact due.1.1
  refine ⟨_, exec_snapshotCopyOnWrite found due image copy, ?_, fun wf mapped => ?_, fun i none place => ⟨?_, fun wf mapped apart j hj => ?_⟩⟩
  · rw [State.ctx_modCtx]
    rfl
  · rw [State.modCtx_mem]
    exact State.epoch_setEpoch (l := s.fresh l) (s.copyToShadow_wf _ _ _ _ wf t copy) fun g hg =>
      (State.mappedOut_copyToShadow copy g).trans (mapped g hg)
  · rw [State.ctx_modCtx]
    show ∃ q ∈ (t.ctx s.on.a).slots, _
    rw [State.copyToShadow_first copy none place, State.ctx_modCtx]
    exact ⟨_, List.mem_append_right _ (List.mem_singleton_self _), rfl, rfl, rfl⟩
  · have out : (s.ctx s.on.a).slotKey ⟨(s.ctx s.on.a).epoch, i⟩ + j < (s.fresh l).home ∨
        (s.fresh l).home + 8 ≤ (s.ctx s.on.a).slotKey ⟨(s.ctx s.on.a).epoch, i⟩ + j := by
      show _ < l.home ∨ l.home + 8 ≤ _
      omega
    rw [State.modCtx_mem, State.memGet_setEpoch_outside out, State.copyToShadow_first copy none place, State.modCtx_mem, ap, State.page_fresh]
    exact State.memGet_copyRange wf mapped hj

end

/-! ## Begin (13 R405) -/

section
variable {s : State}

/-- A refused command of a context: its own mark, and nothing else of the snapshot or of memory. -/
def State.RefusedCmd (s t : State) (n : Nat) : Prop :=
  (t.ctx n).refusedCmd = true ∧ (t.ctx n).epoch = (s.ctx n).epoch ∧ (t.ctx n).active = (s.ctx n).active ∧ t.mem = s.mem

theorem State.refusedCmd_modCtx (s : State) (n : Nat) : s.RefusedCmd (s.modCtx n fun x => { x with refusedCmd := true }) n := by
  refine ⟨?_, ?_, ?_, rfl⟩ <;> rw [State.ctx_modCtx]

theorem refuses_begin (bad : BitVec.ofNat 8 s.on.b ≠ (s.ctx s.on.a).epoch + 1 ∨ (s.ctx s.on.a).active = true ∨ (s.ctx s.on.a).restoring = true ∨
    (s.ctx s.on.a).failed = true) : Happens .sncmdBegin s fun t => s.RefusedCmd t s.on.a := by
  refine ⟨_, ?_, s.refusedCmd_modCtx s.on.a⟩
  rw [exec, execSncmdBegin, State.sncmdBegin]
  rw [if_pos bad]

theorem happens_begin (next : BitVec.ofNat 8 s.on.b = (s.ctx s.on.a).epoch + 1) (idle : (s.ctx s.on.a).active = false)
    (whole : (s.ctx s.on.a).restoring = false) (sound : (s.ctx s.on.a).failed = false) : Happens .sncmdBegin s fun t =>
      (t.ctx s.on.a).refusedCmd = false ∧ (t.ctx s.on.a).pendingBegin = some (BitVec.ofNat 8 s.on.b) ∧
      (t.ctx s.on.a).epoch = (s.ctx s.on.a).epoch ∧
      ∀ q ∈ s.launches, q.ctx = s.on.a → q.stage = .running → ∀ c ∈ q.cores, c ∈ (t.ctx s.on.a).beginPts := by
  have goes : exec .sncmdBegin s = .next (s.modCtx s.on.a fun x =>
      { x with refusedCmd := false, pendingBegin := some (BitVec.ofNat 8 s.on.b), imageOps := []
               beginPts := (s.runningOf s.on.a).flatMap (·.cores) }) := by
    rw [exec, execSncmdBegin, State.sncmdBegin]
    rw [if_neg (by simp [next, idle, whole, sound])]
  refine ⟨_, goes, ?_, ?_, ?_, fun q hq ctx stage c hc => ?_⟩ <;> rw [State.ctx_modCtx]
  refine List.mem_flatMap.2 ⟨q, List.mem_filter.2 ⟨hq, ?_⟩, hc⟩
  simp [ctx, Launch.holdsCores, stage]

theorem tabGet_map {α β : Type} (f : Nat × α → Nat × β) (keeps : ∀ p, (f p).1 = p.1) (l : Tab α) (k : Nat) :
    tabGet (l.map f) k = (tabGet l k).map fun x => (f (k, x)).2 := by
  induction l with
  | nil => rfl
  | cons p l ih =>
    obtain ⟨a, x⟩ := p
    have pair : f (a, x) = (a, (f (a, x)).2) := Prod.ext (keeps _) rfl
    rw [List.map_cons, pair, tabGet, tabGet, ih]
    split
    · subst_vars
      rfl
    · rfl

/-- New epochs make commands pass their snapshot gate anew, and change nothing else of a core. -/
theorem State.core_regate (s : State) (n c : Nat) : ∃ cs, (s.regate n).core c = { s.core c with copies := cs } := by
  have held : tabGet (s.regate n).cores c = (tabGet s.cores c).map fun q => ((if s.ctxOf c = n then
      (c, { q with copies := q.copies.map fun k => if k.finished || (s.ctx n).inImage c k.id true then k else { k with gated := false } })
      else (c, q) : Nat × Core)).2 := by
    refine tabGet_map _ (fun p => ?_) s.cores c
    split <;> rfl
  rw [State.core, State.core, held]
  cases tabGet s.cores c with
  | none => exact ⟨_, rfl⟩
  | some q =>
    by_cases own : s.ctxOf c = n
    · exact ⟨_, by rw [Option.map_some, if_pos own]; rfl⟩
    · exact ⟨q.copies, by rw [Option.map_some, if_neg own]; rfl⟩

/-- The context of the snapshot that begins with epoch `k` (13 R405, R408). -/
def State.begun (s : State) (k : BitVec 8) (x : Context) : Context :=
  { x with
    pendingBegin := none, epoch := k, active := true, drained := false
    uncovered := (s.ctx s.on.a).producers.any s.uncoveredCore, scanned := []
    verified := (s.ctx s.on.a).producers.isEmpty, activeProducers := (s.ctx s.on.a).producers, producers := [], beginDayc := s.dayc, beginAt := s.now
    pagesLeft := (((s.writableLeaves s.on.a).filter fun l => l.2.epoch == k - 1).map fun l => l.2.units).sum
    drainNext := none, drainAt := s.now }

theorem happens_beginPoint {k : BitVec 8} (pending : (s.ctx s.on.a).pendingBegin = some k) (reached : (s.ctx s.on.a).beginPts = []) :
    Happens .snapshotBeginPoint s fun t => (t.ctx s.on.a).epoch = k ∧ (t.ctx s.on.a).active = true ∧ (t.ctx s.on.a).drained = false ∧
      (t.ctx s.on.a).pendingBegin = none ∧ (t.ctx s.on.a).activeProducers = (s.ctx s.on.a).producers ∧ (t.ctx s.on.a).producers = [] ∧
      t.mem = s.mem ∧ ∀ c, ∃ cs, t.core c = { s.core c with copies := cs } := by
  have due : s.beginDue s.on.a = true := by simp [State.beginDue, pending, reached]
  have goes : exec .snapshotBeginPoint s = .next (if (s.ctx s.on.a).producers.any s.uncoveredCore
      then ((s.regate s.on.a).modCtx s.on.a (s.begun k)).post s.on.a (cause 5 3 6) 0 0 else (s.regate s.on.a).modCtx s.on.a (s.begun k)) := by
    rw [exec, execSnapshotBeginPoint, pending]
    dsimp only
    rw [due]
    rfl
  have begun : ((s.regate s.on.a).modCtx s.on.a (s.begun k)).ctx s.on.a = s.begun k (s.ctx s.on.a) := State.ctx_modCtx _ _ _
  have cores (c : Nat) : ∃ cs, ((s.regate s.on.a).modCtx s.on.a (s.begun k)).core c = { s.core c with copies := cs } := s.core_regate s.on.a c
  refine ⟨_, goes, ?_⟩
  split
  · exact ⟨congrArg Context.epoch begun, congrArg Context.active begun, congrArg Context.drained begun, congrArg Context.pendingBegin begun,
      congrArg Context.activeProducers begun, congrArg Context.producers begun, rfl, cores⟩
  · exact ⟨congrArg Context.epoch begun, congrArg Context.active begun, congrArg Context.drained begun, congrArg Context.pendingBegin begun,
      congrArg Context.activeProducers begun, congrArg Context.producers begun, rfl, cores⟩

/-! ## The drain (13 R406) -/

section
variable (active : (s.ctx s.on.a).active = true) (undrained : (s.ctx s.on.a).drained = false) (time : (s.ctx s.on.a).drainAt ≤ s.now)
  (image : s.imageDone s.on.a = true)
include active undrained time image

theorem exec_snapshotDrain {t : State} (next : s.drained s.on.a = some t) : exec .snapshotDrain s = .next t := by
  have ready : s.drainReady s.on.a = true := by simp [State.drainReady, active, undrained, time, image]
  rw [exec, execSnapshotDrain, ready, next]
  rfl

theorem happens_drain_empty (none : s.writableLeaves s.on.a = []) : Happens .snapshotDrain s fun t =>
    (t.ctx s.on.a).drained = true ∧ t.mem = s.mem ∧ t.cores = s.cores := by
  have next : s.drained s.on.a = some (s.modCtx s.on.a fun x => { x with drained := true, pagesLeft := 0, drainNext := .none }) := by
    rw [State.drained, none, State.drainFrom]
  refine ⟨_, exec_snapshotDrain active undrained time image next, ?_, rfl, rfl⟩
  rw [State.ctx_modCtx]

section
variable {l : Leaf} (one : s.writableLeaves s.on.a = [(s.on.b, l)]) (older : l.epoch = (s.ctx s.on.a).epoch - 1)
include one older

theorem happens_drain_page (waits : (s.ctx s.on.a).drainNext ≠ some s.on.b) : Happens .snapshotDrain s fun t => (t.ctx s.on.a).drained = false ∧
    (t.ctx s.on.a).drainNext = some s.on.b ∧ (t.ctx s.on.a).drainAt = s.now + 4096 * (l.size / 65536) ∧
    (t.ctx s.on.a).pagesLeft = l.size / 65536 ∧ t.mem = s.mem := by
  have next : s.drained s.on.a = some (s.modCtx s.on.a fun c => { c with
      drainNext := some s.on.b, drainAt := s.now + l.copyCycles
      pagesLeft := (([(s.on.b, l)].filter fun x => x.2.epoch == (s.ctx s.on.a).epoch - 1).map (·.2.units)).sum }) := by
    rw [State.drained, one, State.drainFrom, if_pos older, if_neg waits]
  refine ⟨_, exec_snapshotDrain active undrained time image next, ?_, ?_, ?_, ?_, rfl⟩ <;> rw [State.ctx_modCtx]
  · exact undrained
  · rfl
  · show ((([(s.on.b, l)].filter fun x => x.2.epoch == (s.ctx s.on.a).epoch - 1)).map (·.2.units)).sum = l.units
    simp [older]

theorem happens_drain_last {t : State} (busy : (s.ctx s.on.a).drainNext = some s.on.b)
    (copy : s.copyToShadow s.on.a s.on.b l (s.ctx s.on.a).epoch = some t) : Happens .snapshotDrain s fun u => (u.ctx s.on.a).drained = true ∧
      (u.ctx s.on.a).slots = (t.ctx s.on.a).slots ∧ (s.mem.wf = true → (∀ g ∈ granulesOf l.home 8, s.mappedOut g = false) →
        memRead u.mem l.home 8 / 256 % 256 = ((s.ctx s.on.a).epoch - 2).toNat) := by
  have next : s.drained s.on.a = some ((t.setEpoch s.on.a s.on.b l ((s.ctx s.on.a).epoch - 2)).modCtx s.on.a fun x =>
      { x with drained := true, pagesLeft := 0, drainNext := none }) := by
    rw [State.drained, one, State.drainFrom, if_pos older, if_pos busy, copy]
    rfl
  refine ⟨_, exec_snapshotDrain active undrained time image next, ?_, ?_, fun wf mapped => ?_⟩
  · rw [State.ctx_modCtx]
  · rw [State.ctx_modCtx]
    rfl
  · rw [State.modCtx_mem]
    exact State.epoch_setEpoch (s.copyToShadow_wf _ _ _ _ wf t copy) fun g hg => (State.mappedOut_copyToShadow copy g).trans (mapped g hg)

end
end

/-! ## Commit (13 R407, R408) -/

/-- The root word that a commit writes. -/
def State.commitWord (s : State) (n : Nat) (unverified : Bool) : Nat :=
  (if (s.rootWord n).getLsbD 0 then 0 else 1) + 256 * (s.ctx n).epoch.toNat + 65536 + if unverified then 131072 else 0

/-- The descriptor that a commit writes. -/
def State.commitPlace (s : State) (n : Nat) : Nat := (s.ctx n).snroot.toNat + if (s.rootWord n).getLsbD 0 then 16 else 32

theorem State.commitSnapshot_eq (n : Nat) (unverified : Bool) : s.commitSnapshot n unverified =
    ((s.writeHome (s.commitPlace n) (toBytes 8 (s.ctx n).epoch.toNat ++ toBytes 8 (s.ctx n).beginDayc)).writeHome (s.ctx n).snroot.toNat
      (toBytes 8 (s.commitWord n unverified))).modCtx n fun x => { x with active := false, committed := x.epoch, commitValid := true } := by
  rw [← pkey_zero (s.commitPlace n), ← pkey_zero (s.ctx n).snroot.toNat]
  rfl

theorem memBytes_congr {m m' : Memory} {a n : Nat} (same : ∀ i, a ≤ i → i < a + n → memGet m i = memGet m' i) :
    memBytes m a n = memBytes m' a n := by
  induction n generalizing a with
  | zero => rfl
  | succ n ih => rw [memBytes, memBytes, same a (Nat.le_refl a) (by omega), ih fun i low high => same i (by omega) (by omega)]

/-- What a committed snapshot leaves of its context (13 R407): `bit17` is its mark of a commit that no scan has verified. -/
def State.Committed (s t : State) (n bit17 : Nat) : Prop :=
  (t.ctx n).active = false ∧ (t.ctx n).committed = (s.ctx n).epoch ∧ (t.ctx n).commitValid = true ∧
    memRead t.mem (s.ctx n).snroot.toNat 8 = (if (s.rootWord n).getLsbD 0 then 0 else 1) + 256 * (s.ctx n).epoch.toNat + 65536 + bit17 ∧
    memRead t.mem ((s.ctx n).snroot.toNat + if (s.rootWord n).getLsbD 0 then 16 else 32) 8 = (s.ctx n).epoch.toNat ∧ t.cores = s.cores

theorem State.commitWord_lt (n : Nat) (unverified : Bool) : s.commitWord n unverified < 256 ^ 8 := by
  have epoch := (s.ctx n).epoch.isLt
  unfold State.commitWord
  split <;> split <;> omega

theorem State.committed_commitSnapshot (n : Nat) (unverified : Bool) (wf : s.mem.wf = true)
    (mapped : ∀ g ∈ granulesOf (s.ctx n).snroot.toNat 48, s.mappedOut g = false) :
    s.Committed (s.commitSnapshot n unverified) n (if unverified then 131072 else 0) := by
  have place : (s.ctx n).snroot.toNat + 16 ≤ s.commitPlace n ∧ s.commitPlace n + 16 ≤ (s.ctx n).snroot.toNat + 48 := by
    unfold State.commitPlace
    split <;> omega
  have length : (toBytes 8 (s.ctx n).epoch.toNat ++ toBytes 8 (s.ctx n).beginDayc).length = 16 := by simp [toBytes_length]
  have descriptor : s.Opened (s.commitPlace n) (toBytes 8 (s.ctx n).epoch.toNat ++ toBytes 8 (s.ctx n).beginDayc).length :=
    ⟨wf, fun g hg => mapped g (granulesOf_subset (by omega) (by omega) hg)⟩
  have root : (s.writeHome (s.commitPlace n) (toBytes 8 (s.ctx n).epoch.toNat ++ toBytes 8 (s.ctx n).beginDayc)).Opened (s.ctx n).snroot.toNat
      (toBytes 8 (s.commitWord n unverified)).length :=
    ⟨s.writeHome_wf _ _ wf, fun g hg => mapped g (granulesOf_subset (Nat.le_refl _) (by rw [toBytes_length]; omega) hg)⟩
  obtain ⟨first, -⟩ := State.wrote_writeHome descriptor
  obtain ⟨second, around⟩ := State.wrote_writeHome root
  rw [toBytes_length] at second around
  rw [length] at first
  have label := memBytes_within (s.writeHome (s.commitPlace n) (toBytes 8 (s.ctx n).epoch.toNat ++ toBytes 8 (s.ctx n).beginDayc)).mem
    (s.commitPlace n) 0 8 16 (by decide)
  rw [first, List.drop_zero, List.take_left' (toBytes_length _ _), Nat.add_zero] at label
  rw [State.commitSnapshot_eq]
  refine ⟨?_, ?_, ?_, ?_, ?_, rfl⟩
  · rw [State.ctx_modCtx]
  · rw [State.ctx_modCtx]
    rfl
  · rw [State.ctx_modCtx]
  · rw [State.modCtx_mem, memRead, second, ofBytes_toBytes, Nat.mod_eq_of_lt (s.commitWord_lt n unverified)]
    rfl
  · have kept := memBytes_congr (n := 8) (a := s.commitPlace n) fun i low _ => around i (.inr (by omega))
    show memRead _ (s.commitPlace n) 8 = _
    rw [State.modCtx_mem, memRead, kept, label, ofBytes_toBytes]
    exact Nat.mod_eq_of_lt (Nat.lt_of_lt_of_le (s.ctx n).epoch.isLt (by decide))

theorem happens_commit (active : (s.ctx s.on.a).active = true) (drained : (s.ctx s.on.a).drained = true) (verified : (s.ctx s.on.a).verified = true)
    (sound : (s.ctx s.on.a).failed = false) (wf : s.mem.wf = true)
    (mapped : ∀ g ∈ granulesOf (s.ctx s.on.a).snroot.toNat 48, s.mappedOut g = false) :
    Happens .snapshotCommit s fun t => s.Committed t s.on.a 0 := by
  have goes : exec .snapshotCommit s = .next (s.commitSnapshot s.on.a false) := by
    rw [exec, execSnapshotCommit, active, drained, verified, sound]
    rfl
  exact ⟨_, goes, s.committed_commitSnapshot s.on.a false wf mapped⟩

theorem happens_commitUnverified (active : (s.ctx s.on.a).active = true) (drained : (s.ctx s.on.a).drained = true)
    (sound : (s.ctx s.on.a).failed = false) (wf : s.mem.wf = true)
    (mapped : ∀ g ∈ granulesOf (s.ctx s.on.a).snroot.toNat 48, s.mappedOut g = false) :
    Happens .sncmdCommitUnverified s fun t => s.Committed t s.on.a 131072 ∧ (t.ctx s.on.a).refusedCmd = false := by
  have goes : exec .sncmdCommitUnverified s = .next ((s.commitSnapshot s.on.a true).modCtx s.on.a fun x => { x with refusedCmd := false }) := by
    rw [exec, execSncmdCommitUnverified, State.sncmdCommit, if_pos ⟨active, drained, by simp [sound]⟩]
  obtain ⟨idle, label, valid, root, descriptor, cores⟩ := s.committed_commitSnapshot s.on.a true wf mapped
  refine ⟨_, goes, ⟨?_, ?_, ?_, root, descriptor, cores⟩, ?_⟩ <;> rw [State.ctx_modCtx]
  · exact idle
  · exact label
  · exact valid

theorem refuses_commitUnverified (bad : (s.ctx s.on.a).active = false ∨ (s.ctx s.on.a).drained = false ∨ (s.ctx s.on.a).failed = true) :
    Happens .sncmdCommitUnverified s fun t => s.RefusedCmd t s.on.a := by
  refine ⟨_, ?_, s.refusedCmd_modCtx s.on.a⟩
  rw [exec, execSncmdCommitUnverified, State.sncmdCommit, if_neg]
  rintro ⟨active, drained, sound⟩
  rcases bad with e | e | e
  · simp [e] at active
  · simp [e] at drained
  · simp [e] at sound

/-! ## Restore (13 R409) -/

theorem refuses_restore (bad : (∃ q ∈ s.launches, q.ctx = s.on.a ∧ q.stage = .running) ∨ (s.rootWord s.on.a).getLsbD 16 = false) :
    Happens .sncmdRestore s fun t => s.RefusedCmd t s.on.a := by
  refine ⟨_, ?_, s.refusedCmd_modCtx s.on.a⟩
  rw [exec, execSncmdRestore, State.sncmdRestore, if_pos]
  rcases bad with ⟨q, hq, ctx, stage⟩ | invalid
  · have held : q ∈ s.runningOf s.on.a := List.mem_filter.2 ⟨hq, by simp [ctx, Launch.holdsCores, stage]⟩
    exact .inl (by simpa using List.ne_nil_of_mem held)
  · exact .inr (by rw [State.rootValid, invalid]; rfl)

theorem happens_restore (free : ∀ q ∈ s.launches, q.ctx = s.on.a → q.holdsCores = false) (valid : (s.rootWord s.on.a).getLsbD 16 = true) :
    Happens .sncmdRestore s fun t => (t.ctx s.on.a).restoring = true ∧ (t.ctx s.on.a).refusedCmd = false ∧ t.mem = s.mem := by
  have none : s.runningOf s.on.a = [] := by
    rw [State.runningOf, List.filter_eq_nil_iff]
    intro q hq held
    simp only [Bool.and_eq_true, beq_iff_eq] at held
    simp [free q hq held.1] at held
  refine ⟨s.modCtx s.on.a fun x => { x with refusedCmd := false, restoring := true, pagesLeft := (x.slots.map (·.units)).sum }, ?_, ?_, ?_, rfl⟩
  · rw [exec, execSncmdRestore, State.sncmdRestore, none, State.rootValid, valid]
    rfl
  · rw [State.ctx_modCtx]
  · rw [State.ctx_modCtx]

/-- A restore's work on one leaf: its page takes the slot `c` calls for, and its EPOCH is `c - 2` (13 R409). -/
def restorePage (n : Nat) (x : Context) (c : BitVec 8) (s : State) (l : Nat × Leaf) : State :=
  State.setEpoch (match (x.slots.find? (·.va == l.1)).bind fun p => laterSlot c p.a p.b with
    | some sh => s.copyRange (x.slotKey sh) (pkey 0 l.2.page) l.2.size
    | none => s) n l.1 l.2 (c - 2)

/-- The context of a restored snapshot (13 R409). -/
def Context.restored (c : BitVec 8) (x : Context) : Context :=
  { x with
    slots := x.slots.map fun p => { p with a := p.a.filter fun sh => atOrBelow c sh.label, b := p.b.filter fun sh => atOrBelow c sh.label }
    epoch := c, producers := [], active := false, failed := false, restoring := false, pagesLeft := 0, pendingBegin := none
    beginPts := [], imageOps := [], committed := c, commitValid := true }

theorem exec_snapshotRestoreEnd (restoring : (s.ctx s.on.a).restoring = true) : exec .snapshotRestoreEnd s =
    .next (((s.writableLeaves s.on.a).foldl (restorePage s.on.a (s.ctx s.on.a) ((s.rootWord s.on.a).extractLsb' 8 8)) s).modCtx s.on.a
      (Context.restored ((s.rootWord s.on.a).extractLsb' 8 8))) := by
  rw [exec, execSnapshotRestoreEnd, restoring]
  rfl

theorem restorePage_cores (n : Nat) (x : Context) (c : BitVec 8) (s : State) (l : Nat × Leaf) : (restorePage n x c s l).cores = s.cores := by
  have copied (src dst len : Nat) : (s.copyRange src dst len).cores = s.cores :=
    s.copyRange_keeps State.cores (fun _ _ _ _ => rfl) (State.noteCorrected_keeps State.cores fun _ _ _ => rfl) src dst len
  unfold restorePage
  split
  · next sh _ => exact copied (x.slotKey sh) (pkey 0 l.2.page) l.2.size
  · rfl

theorem laterSlot_only {c : BitVec 8} {sh : Shadow} (label : atOrBelow c sh.label = true) : laterSlot c (some sh) none = some sh := by
  have kept : (some sh).filter (fun s => atOrBelow c s.label) = some sh := by simp [label]
  unfold laterSlot
  dsimp only
  rw [kept]
  rfl

/-- A restored page that has one slot. -/
theorem restorePage_of_slot {n : Nat} {x : Context} {c : BitVec 8} {l : Nat × Leaf} {p : ShadowPage} {sh : Shadow}
    (found : x.slots.find? (·.va == l.1) = some p) (a : p.a = some sh) (b : p.b = none) (label : atOrBelow c sh.label = true) :
    restorePage n x c s l = (s.copyRange (x.slotKey sh) (pkey 0 l.2.page) l.2.size).setEpoch n l.1 l.2 (c - 2) := by
  rw [restorePage, found, Option.bind_some, a, b, laterSlot_only label]

theorem happens_restoreEnd (restoring : (s.ctx s.on.a).restoring = true) (l : Leaf) (p : ShadowPage) (sh : Shadow) :
    Happens .snapshotRestoreEnd s fun t => (t.ctx s.on.a).restoring = false ∧ (t.ctx s.on.a).active = false ∧
      (t.ctx s.on.a).epoch = (s.rootWord s.on.a).extractLsb' 8 8 ∧ (t.ctx s.on.a).committed = (s.rootWord s.on.a).extractLsb' 8 8 ∧
      (t.ctx s.on.a).producers = [] ∧ t.cores = s.cores ∧
      (s.writableLeaves s.on.a = [(s.on.b, l)] → (s.ctx s.on.a).slots.find? (·.va == s.on.b) = some p → p.a = some sh → p.b = none →
        atOrBelow ((s.rootWord s.on.a).extractLsb' 8 8) sh.label = true → s.mem.wf = true →
        (∀ g ∈ granulesOf (pkey 0 l.page) l.size, s.mappedOut g = false) →
        l.home + 8 ≤ pkey 0 l.page ∨ pkey 0 l.page + l.size ≤ l.home →
        (∀ i, i < l.size → memGet t.mem (pkey 0 l.page + i) = memGet s.mem ((s.ctx s.on.a).slotKey sh + i)) ∧
        (l.page % 64 = 0 →
          (∀ g ∈ granulesOf ((s.ctx s.on.a).slotKey sh) l.size, g ∉ s.poison ∧ s.mappedOut g = false ∧ ∀ b, (g, b) ∉ s.bad) →
          ∀ g ∈ granulesOf (pkey 0 l.page) l.size, g ∉ t.poison)) := by
  refine ⟨_, exec_snapshotRestoreEnd restoring, ?_, ?_, ?_, ?_, ?_, foldl_keeps State.cores (restorePage_cores _ _ _) _ _,
    fun one found a b label wf mapped apart => ?_⟩
  iterate 5
    · rw [State.ctx_modCtx]
      rfl
  rw [one, List.foldl_cons, List.foldl_nil, restorePage_of_slot found a b label]
  refine ⟨fun i hi => ?_, fun aligned sound g hg => ?_⟩
  · rw [State.modCtx_mem, State.memGet_setEpoch_outside (by dsimp only; omega)]
    exact State.memGet_copyRange wf mapped hi
  · have clean := State.copyRange_sound (dst := pkey 0 l.page) (by rwa [pkey_zero]) sound g hg
    exact State.poison_setEpoch (ctx := s.on.a) (va := s.on.b) clean

end

/-- Settles O50: each command and event of a snapshot, from its begin to its restore. -/
theorem snapshotEvents : Obligations.SnapshotEvents := by
  intro s t' k l sh p n x y refused root writable committed
  refine ⟨fun bad => refuses_begin bad, fun next idle whole sound => happens_begin next idle whole sound,
    fun pending reached => happens_beginPoint pending reached, fun found due image copy => happens_copyOnWrite found due image copy,
    fun active undrained time image none => happens_drain_empty active undrained time image none,
    fun active undrained time image one older => ⟨fun waits => happens_drain_page active undrained time image one older waits,
      fun busy copy => happens_drain_last active undrained time image one older busy copy⟩,
    fun active drained verified sound ⟨wf, mapped⟩ => happens_commit active drained verified sound wf mapped,
    fun active drained sound ⟨wf, mapped⟩ => happens_commitUnverified active drained sound wf mapped,
    fun bad => refuses_commitUnverified bad, fun bad => refuses_restore bad, fun free valid => happens_restore free valid,
    fun restoring => happens_restoreEnd restoring l p sh⟩

end Sys2Proof.Machine
end

section
/-! PROOF. Copy commands after issue: translation, completion, sends and arrivals (08 R232-R260; 10 R317-R333; 12 R376; O51). -/

namespace Sys2Proof.Machine

/-! ## A completed command (08 R240, R245) -/

/-- The completed identifiers of a channel, from `n`, once those of a list have joined them (08 R240). -/
def climb (done : List Nat) (n : Nat) : Nat :=
  (List.range (done.length + 1)).foldl (fun n _ => if done.contains (n + 1) then n + 1 else n) n

theorem le_foldl_climb (done l : List Nat) (n : Nat) : n ≤ l.foldl (fun n _ => if done.contains (n + 1) then n + 1 else n) n := by
  induction l generalizing n with
  | nil => exact Nat.le_refl n
  | cons _ l ih =>
    rw [List.foldl_cons]
    refine Nat.le_trans ?_ (ih _)
    split <;> omega

theorem le_climb_of_mem {done : List Nat} {n : Nat} (next : n + 1 ∈ done) : n + 1 ≤ climb done n := by
  rw [climb, List.range_succ_eq_map, List.foldl_cons, if_pos (List.contains_iff_mem.2 next)]
  exact le_foldl_climb _ _ _

theorem Core.chst_advanceChst (x : Core) (ch : Nat) : vAt x.advanceChst.chst ch = climb (vAt x.chDone ch) (vAt x.chst ch) := by
  have wraps {α : Type} (v : Vector α 4) : vAt v (ch % 4) = vAt v ch := by simp [vAt]
  rw [Core.advanceChst, vAt, Vector.getElem_ofFn, climb]
  dsimp only
  rw [wraps, wraps]

theorem Core.copy?_id {x : Core} {id : Nat} {k : CopyCmd} (found : x.copy? id = some k) : k.id = id :=
  beq_iff_eq.1 (List.find?_some (p := fun j : CopyCmd => j.id == id) found)

theorem Core.copy?_mem {x : Core} {id : Nat} {k : CopyCmd} (found : x.copy? id = some k) : k ∈ x.copies :=
  List.mem_of_find?_eq_some found

theorem State.chst_finishCopy {s : State} {c id : Nat} {k : CopyCmd} (found : (s.core c).copy? id = some k) :
    vAt ((s.finishCopy c id).core c).chst k.ch = climb (vAt (s.core c).chDone k.ch ++ [k.ident]) (vAt (s.core c).chst k.ch) := by
  rw [State.finishCopy, State.core_modCore_same, Core.chst_advanceChst, found]
  dsimp only [Core.unbind]
  rw [vAt_vPut_same]

/-- A command is complete for its core: marked so, and its identifier among its channel's completed ones where it was the next. -/
def State.Completed (s t : State) (c : Nat) (k : CopyCmd) : Prop :=
  (∀ j ∈ (t.core c).copies, j.id = k.id → j.finished = true) ∧ (k.ident = vAt (s.core c).chst k.ch + 1 → k.ident ≤ vAt (t.core c).chst k.ch)

theorem State.completed_finishCopy {s u : State} {c : Nat} {k : CopyCmd} (found : (u.core c).copy? k.id = some k)
    (chst : (u.core c).chst = (s.core c).chst) : s.Completed (u.finishCopy c k.id) c k := by
  refine ⟨u.finished_finishCopy c k.id, fun next => ?_⟩
  rw [State.chst_finishCopy found, chst, next]
  exact le_climb_of_mem (List.mem_append_right _ (List.mem_singleton.2 rfl))

theorem State.Completed.of_core {s t u : State} {c : Nat} {k : CopyCmd} (h : s.Completed t c k) (copies : (u.core c).copies = (t.core c).copies)
    (chst : (u.core c).chst = (t.core c).chst) : s.Completed u c k := by
  rw [State.Completed, copies, chst]
  exact h

theorem State.core_owe (s : State) (c : Nat) (i : TrapInfo) : (s.owe c i).core c = { s.core c with owed := (s.core c).owed ++ [i] } :=
  State.core_modCore_same _ _ _

theorem State.Completed.owe {s t : State} {c : Nat} {k : CopyCmd} (h : s.Completed t c k) (i : TrapInfo) : s.Completed (t.owe c i) c k :=
  h.of_core (by rw [State.core_owe]) (by rw [State.core_owe])

theorem State.cbank_finishCopy (s : State) (c id : Nat) : ((s.finishCopy c id).core c).cbank = (s.core c).cbank := by
  rw [State.finishCopy, State.core_modCore_same]
  rfl

/-! ## Completion of a command of extent zero, and of CCONST (08 R243, R255) -/

theorem State.handle_finishCopy (s : State) (c id n : Nat) : (s.finishCopy c id).handle n = s.handle n := rfl

theorem Core.copies_commit_cbank (x : Core) (f : Nat) (w : List (BitVec 32)) : (x.commit (.cbank f w)).copies = x.copies := by
  rw [Core.commit]

theorem Core.chst_commit_cbank (x : Core) (f : Nat) (w : List (BitVec 32)) : (x.commit (.cbank f w)).chst = x.chst := by
  rw [Core.commit]

section
variable {s : State} {k : CopyCmd} (found : (s.core s.on.a).copy? s.on.b = some k)
include found

/-- A command with no bytes completes as soon as it and the earlier ones have passed translation. -/
theorem happens_copyCompletion_zero (running : k.finished = false) (sound : k.fault = none) (zero : k.zero = true) (kind : k.kind ≠ .nmc)
    (issued : k.issued ≤ (s.core s.on.a).time) (passed : (s.core s.on.a).beforeXlat k = false) :
    Happens .copyCompletion s fun t => s.Completed t s.on.a k ∧ t.mem = s.mem ∧ (t.core s.on.a).ls = (s.core s.on.a).ls ∧
      (k.kind = .send → (s.on.a, k.id) ∉ (t.handle k.handle).sends) := by
  have due : s.completes s.on.a k = true := by
    simp [State.completes, Core.copyDue, running, sound, zero, issued, passed]
  have core : (s.zeroSend s.on.a k).core s.on.a = s.core s.on.a := by
    unfold State.zeroSend
    split <;> rfl
  refine ⟨(s.zeroSend s.on.a k).finishCopy s.on.a k.id, ?_, State.completed_finishCopy ?_ (by rw [core]), ?_, ?_, fun send => ?_⟩
  · rw [exec, execCopyCompletion, found]
    dsimp only
    rw [due, zero, if_neg kind]
    rfl
  · rw [core, Core.copy?_id found, found]
  · rw [State.finishCopy_mem, State.zeroSend]
    split <;> rfl
  · rw [State.ls_finishCopy, core]
  · rw [State.handle_finishCopy, State.zeroSend, if_pos send, State.handle_modHandle]
    simp

/-- CCONST replaces the constants of its span by the words that it took at its Ready cycle. -/
theorem happens_copyCompletion_const {r : List Byte} {x : Span} (due : s.completes s.on.a k = true) (extent : k.zero = false)
    (kind : k.kind = .const) (taken : k.taken = some (r, [])) (spans : k.spans = [x]) :
    Happens .copyCompletion s fun t => s.Completed t s.on.a k ∧ t.mem = s.mem ∧ ∀ i : Fin 256, (t.core s.on.a).cbank[i] =
      if x.dst ≤ i.val ∧ i.val < x.dst + x.len then BitVec.ofNat 32 (recField r (4 * (i.val - x.dst)) 4) else (s.core s.on.a).cbank[i] := by
  let words := (List.range x.len).map fun i => BitVec.ofNat 32 (recField r (4 * i) 4)
  have core : (s.modCore s.on.a fun q => q.commit (.cbank x.dst words)).core s.on.a = (s.core s.on.a).commit (.cbank x.dst words) :=
    State.core_modCore_same _ _ _
  refine ⟨(s.modCore s.on.a fun q => q.commit (.cbank x.dst words)).finishCopy s.on.a k.id, ?_,
    State.completed_finishCopy (by rw [core, Core.copy?, Core.copies_commit_cbank, Core.copy?_id found, ← Core.copy?, found])
      (by rw [core, Core.chst_commit_cbank]), rfl, fun i => ?_⟩
  · rw [exec, execCopyCompletion, found]
    dsimp only
    rw [due, extent, kind, spans, State.takenBy, taken]
    rfl
  · rw [State.cbank_finishCopy, core, Core.commit]
    simp only [Fin.getElem_fin, Vector.getElem_ofFn]
    by_cases low : x.dst ≤ i.val
    · by_cases high : i.val < x.dst + x.len
      · have inside : i.val - x.dst < x.len := by omega
        simp [low, high, words, inside]
      · have outside : ¬i.val - x.dst < x.len := by omega
        simp [low, high, words, outside]
    · simp [low]

end

/-! ## Acknowledgment of a CSEND (10 R318, R319, R322) -/

section
variable {s : State} {k : CopyCmd} (found : (s.core s.on.a).copy? s.on.b = some k)
include found

/-- The state in which the handle of an acknowledged CSEND, and the landing it left by, know of it. -/
def State.ackedSend (s : State) (c : Nat) (k : CopyCmd) : State :=
  (s.flitsMoved (s.handle k.handle).src k.flits).modHandle k.handle fun x => { x with
    sends := x.sends.filter (· != (c, k.id))
    lastDone := max x.lastDone ((s.flitsMoved (s.handle k.handle).src k.flits).handleCount k.handle + x.aged) }

theorem exec_csendAck (running : k.finished = false) (kind : k.kind = .send) (extent : k.zero = false) (left : k.left = []) (arrived : k.arriveAt ≠ 0)
    (count : k.ackAt ≤ s.handleCount k.handle) (sent : (s.on.a, k.id) ∈ (s.handle k.handle).sends) :
    exec .csendAck s = .next (if k.status = 0 then (s.ackedSend s.on.a k).finishCopy s.on.a k.id
      else ((s.ackedSend s.on.a k).finishCopy s.on.a k.id).owe s.on.a k.poisonInfo) := by
  have due : (k.kind != .send || k.finished || k.zero || !k.left.isEmpty || k.arriveAt == 0
      || decide (s.handleCount k.handle < k.ackAt) || !(s.handle k.handle).sends.contains (s.on.a, k.id)) = false := by
    simp [kind, running, extent, left, arrived, sent, count]
  rw [exec, execCsendAck, found]
  dsimp only
  rw [due]
  rfl

theorem happens_csendAck (running : k.finished = false) (kind : k.kind = .send) (extent : k.zero = false) (left : k.left = [])
    (arrived : k.arriveAt ≠ 0) (count : k.ackAt ≤ s.handleCount k.handle) (sent : (s.on.a, k.id) ∈ (s.handle k.handle).sends) :
    Happens .csendAck s fun t => s.Completed t s.on.a k ∧ (k.status ≠ 0 → t.Owes s.on.a (if k.sk = 2 then cause 5 4 1 else cause 5 0 1)) ∧
      (s.on.a, k.id) ∉ (t.handle k.handle).sends ∧ t.mem = s.mem ∧ (t.landing (s.handle k.handle).src).acked =
        min (s.landing (s.handle k.handle).src).nextFlit (max (s.landing (s.handle k.handle).src).acked k.flits) := by
  have done : s.Completed ((s.ackedSend s.on.a k).finishCopy s.on.a k.id) s.on.a k :=
    State.completed_finishCopy (by rw [Core.copy?_id found]; exact found) rfl
  have gone : (s.on.a, k.id) ∉ (((s.ackedSend s.on.a k).finishCopy s.on.a k.id).handle k.handle).sends := by
    rw [State.handle_finishCopy, State.ackedSend, State.handle_modHandle]
    simp
  have acked : (((s.ackedSend s.on.a k).finishCopy s.on.a k.id).landing (s.handle k.handle).src).acked =
      min (s.landing (s.handle k.handle).src).nextFlit (max (s.landing (s.handle k.handle).src).acked k.flits) := by
    have same : ((s.ackedSend s.on.a k).finishCopy s.on.a k.id).landing (s.handle k.handle).src =
      (s.flitsMoved (s.handle k.handle).src k.flits).landing (s.handle k.handle).src := rfl
    rw [same, State.flitsMoved, State.landing_modLanding]
  refine ⟨_, exec_csendAck found running kind extent left arrived count sent, ?_⟩
  by_cases clean : k.status = 0
  · rw [if_pos clean]
    exact ⟨done, fun bad => absurd clean bad, gone, rfl, acked⟩
  · rw [if_neg clean]
    exact ⟨done.owe _, fun _ => State.owes_owe _ _ _, gone, rfl, acked⟩

end

/-! ## The pages of a side (08 R246, 12 R376) -/

/-- The fault of a command on the page of the byte `va`, of condition `z`, on the side of origin `axis`. -/
def CopyCmd.xlatInfo (k : CopyCmd) (axis z va : Nat) : TrapInfo :=
  { code := walkCause axis z, st := .copy, cmd := k.before.step, engine := 3, unit := k.ch, va := BitVec.ofNat 64 va, cyc := k.issued }

section
variable {s : State} {c n z axis : Nat} {k : CopyCmd} {need : Need} {l : Leaf} {runs : List (Nat × Nat)}

theorem State.lookup_of_translate_ok {tile ctx : Nat} (h : s.translate tile ctx n need false = .ok l) :
    s.lookup tile ctx n = .ok l ∧ s.leafFault l n need false = none := by
  unfold State.translate at h
  split at h
  · cases h
  · rename_i m looked
    split at h
    · cases h
    · rename_i sound
      cases h
      exact ⟨looked, sound⟩

theorem State.leafFault_of_translate_bad {tile ctx : Nat} (h : s.translate tile ctx n need false = .bad z) (looked : s.lookup tile ctx n = .ok l) :
    s.leafFault l n need false = some z := by
  unfold State.translate at h
  rw [looked] at h
  dsimp only at h
  split at h
  · rename_i fault
    cases h
    exact fault
  · cases h

/-- A page that translates, with no byte of a run in a hole, gives its leaf. -/
theorem State.xlatSide_ok (h : s.translate (tileOf c) (s.ctxOf c) n need false = .ok l) (whole : touchesHole runs l n = false)
    (place : k.placeOk (tileOf c) l n = true) : s.xlatSide c k need axis [n] runs = ([(n, l)], none) := by
  obtain ⟨looked, sound⟩ := State.lookup_of_translate_ok h
  simp [State.xlatSide, looked, sound, whole, place]

/-- A byte that no stack backs is not mapped (08 R232). -/
theorem State.xlatSide_hole (looked : s.lookup (tileOf c) (s.ctxOf c) n = .ok l) (hole : touchesHole runs l n = true) :
    s.xlatSide c k need axis [n] runs = ([], some (k.xlatInfo axis notMappedC n)) := by
  simp [State.xlatSide, looked, hole, CopyCmd.xlatInfo]

/-- A page that does not translate gives its fault. -/
theorem State.xlatSide_bad (h : s.translate (tileOf c) (s.ctxOf c) n need false = .bad z)
    (whole : s.lookup (tileOf c) (s.ctxOf c) n = .ok l → touchesHole runs l n = false)
    (looked : s.lookup (tileOf c) (s.ctxOf c) n = .ok l ∨ s.lookup (tileOf c) (s.ctxOf c) n = .bad z) :
    s.xlatSide c k need axis [n] runs = ([], some (k.xlatInfo axis z n)) := by
  rcases looked with looked | looked
  · simp [State.xlatSide, looked, whole looked, State.leafFault_of_translate_bad h looked, CopyCmd.xlatInfo]
  · simp [State.xlatSide, looked, CopyCmd.xlatInfo]

end

/-! ## What reading the tables and caching leaves leaves alone -/

theorem State.walkEffects_keeps {γ : Type} (π : State → γ) (hb : ∀ (s : State) b p, π { s with bad := b, poison := p } = π s)
    (hn : ∀ (s : State) x e, π { s with hbm := x, events := e } = π s) (s : State) (tile ctx va : Nat) : π (s.walkEffects tile ctx va) = π s := by
  unfold State.walkEffects
  dsimp only
  split
  · rfl
  · exact foldl_keeps π (fun s a => State.readEffects_keeps π hb (State.noteCorrected_keeps π hn) s _ _) _ _

theorem State.walkEffects_cores (s : State) (tile ctx va : Nat) : (s.walkEffects tile ctx va).cores = s.cores :=
  State.walkEffects_keeps State.cores (fun _ _ _ => rfl) (fun _ _ _ => rfl) s tile ctx va

theorem State.cacheLeaf_cores (s : State) (tile ctx va : Nat) (l : Leaf) : (s.cacheLeaf tile ctx va l).cores = s.cores :=
  s.walkEffects_cores tile ctx va

theorem State.readPages_keeps {γ : Type} (π : State → γ) (hb : ∀ (s : State) b p, π { s with bad := b, poison := p } = π s)
    (hn : ∀ (s : State) x e, π { s with hbm := x, events := e } = π s) (s : State) (k : CopyCmd) (va n : Nat) : π (s.readPages k va n) = π s :=
  foldl_keeps π (fun s _ => State.readEffects_keeps π hb (State.noteCorrected_keeps π hn) s _ _) _ _

theorem State.copies_modCopy (s : State) (c id : Nat) (f : CopyCmd → CopyCmd) :
    ((s.modCopy c id f).core c).copies = updIf (·.id == id) f (s.core c).copies := by
  rw [State.modCopy, State.core_modCore_same]

/-- A changed command stands among its core's. -/
theorem State.mem_modCopy {s : State} {c : Nat} {k : CopyCmd} (h : k ∈ (s.core c).copies) (f : CopyCmd → CopyCmd) :
    f k ∈ ((s.modCopy c k.id f).core c).copies := by
  rw [State.copies_modCopy]
  exact mem_updIf.2 (.inl ⟨k, h, beq_self_eq_true _, rfl⟩)

/-! ## A command passes translation, or finds its fault (08 R246) -/

section
variable {s : State} {k : CopyCmd} (found : (s.core s.on.a).copy? s.on.b = some k)

/-- The pages of the side that a command reads. -/
def State.readSide (s : State) (c : Nat) (k : CopyCmd) : List (Nat × Leaf) × Option TrapInfo :=
  s.xlatSide c k .read k.readA k.reads (k.runs false)

/-- The pages of the side that a command writes. -/
def State.writeSide (s : State) (c : Nat) (k : CopyCmd) : List (Nat × Leaf) × Option TrapInfo :=
  s.xlatSide c k k.writeNeed k.writeA k.writes (k.runs true)

/-- The state after the reads of a faulting command's walks. -/
def State.walked (s : State) (c : Nat) (k : CopyCmd) : State :=
  (k.reads ++ k.writes).foldl (fun (s : State) va => s.walkEffects (tileOf c) (s.ctxOf c) va) s

/-- The state after a command's leaves have come into its tile's unit. -/
def State.cached (s : State) (c : Nat) (pages : List (Nat × Leaf)) : State :=
  pages.foldl (fun (s : State) p => s.cacheLeaf (tileOf c) (s.ctxOf c) p.1 p.2) s

theorem State.walked_core (s : State) (c : Nat) (k : CopyCmd) (d : Nat) : (s.walked c k).core d = s.core d :=
  State.core_eq_of_cores_eq (foldl_keeps State.cores (fun s _ => s.walkEffects_cores _ _ _) _ _) d

theorem State.walked_mem (s : State) (c : Nat) (k : CopyCmd) : (s.walked c k).mem = s.mem :=
  foldl_keeps State.mem (fun s _ => s.walkEffects_mem _ _ _) _ _

theorem State.cached_core (s : State) (c : Nat) (pages : List (Nat × Leaf)) (d : Nat) : (s.cached c pages).core d = s.core d :=
  State.core_eq_of_cores_eq (foldl_keeps State.cores (fun s _ => s.cacheLeaf_cores _ _ _ _) _ _) d

theorem State.cached_mem (s : State) (c : Nat) (pages : List (Nat × Leaf)) : (s.cached c pages).mem = s.mem :=
  foldl_keeps State.mem (fun s _ => s.cacheLeaf_mem _ _ _ _) _ _

section
variable (virt : k.virt = true) (walking : k.xlated = false) (sound : k.fault = none) (due : k.xlatAt ≤ (s.core s.on.a).time)
include found virt walking sound due

theorem exec_copyTranslation_ok {pages : List (Nat × Leaf)} (read : (s.readSide s.on.a k).2 = none) (write : (s.writeSide s.on.a k).2 = none)
    (near : k.kind ≠ .nmc) (all : (s.readSide s.on.a k).1 ++ (s.writeSide s.on.a k).1 = pages) :
    exec .copyTranslation s = .next ((s.cached s.on.a pages).modCopy s.on.a k.id fun k => { k with xlated := true, pages := pages }) := by
  have now : (k.virt && !k.xlated && k.fault.isNone && decide (k.xlatAt ≤ (s.core s.on.a).time)) = true := by
    simp [virt, walking, sound, due]
  have stack (pages : List (Nat × Leaf)) : k.oneStack pages = true := by
    simp [CopyCmd.oneStack, near]
  rw [State.readSide] at read all
  rw [State.writeSide] at write all
  rw [exec, execCopyTranslation, found]
  dsimp only
  rw [if_pos now, read, write, stack, all]
  rfl

theorem exec_copyTranslation_bad {t : TrapInfo} (bad : (s.readSide s.on.a k).2.or (s.writeSide s.on.a k).2 = some t) :
    exec .copyTranslation s = .next ((s.walked s.on.a k).modCopy s.on.a k.id fun k => { k with fault := some t }) := by
  have now : (k.virt && !k.xlated && k.fault.isNone && decide (k.xlatAt ≤ (s.core s.on.a).time)) = true := by
    simp [virt, walking, sound, due]
  rw [State.readSide, State.writeSide] at bad
  rw [exec, execCopyTranslation, found]
  dsimp only
  rw [if_pos now, bad]
  rfl

/-- A command all of whose pages translate has passed its walks. -/
theorem happens_copyTranslation_ok {n : Nat} {l : Leaf} (kind : k.kind = .box) (reads : k.reads = []) (writes : k.writes = [n])
    (ok : s.translate (tileOf s.on.a) (s.ctxOf s.on.a) n .write false = .ok l) (whole : touchesHole (k.runs true) l n = false) :
    Happens .copyTranslation s fun t => t.mem = s.mem ∧ ∃ j ∈ (t.core s.on.a).copies, j.id = k.id ∧ j.xlated = true ∧ j.pages = [(n, l)] := by
  have read : s.readSide s.on.a k = ([], none) := by
    rw [State.readSide, reads]
    rfl
  have need : k.writeNeed = .write := by
    simp [CopyCmd.writeNeed, kind]
  have write : s.writeSide s.on.a k = ([(n, l)], none) := by
    rw [State.writeSide, writes, need]
    exact State.xlatSide_ok ok whole (by simp [CopyCmd.placeOk, kind])
  have cached := (s.cached_core s.on.a [(n, l)] s.on.a).symm ▸ Core.copy?_mem found
  exact ⟨_, exec_copyTranslation_ok found virt walking sound due (by rw [read]) (by rw [write]) (by simp [kind]) (by rw [read, write]; rfl),
    s.cached_mem _ _, _, State.mem_modCopy cached _, rfl, rfl, rfl⟩

/-- A command one of whose pages does not translate keeps its fault. -/
theorem happens_copyTranslation_bad {axis z n : Nat} (bad : (s.readSide s.on.a k).2.or (s.writeSide s.on.a k).2 = some (k.xlatInfo axis z n)) :
    Happens .copyTranslation s fun t => t.mem = s.mem ∧ ∃ j ∈ (t.core s.on.a).copies, j.id = k.id ∧ ∃ i, j.fault = some i ∧
      i.code = (if z = poisonC then cause 5 4 1 else cause 1 axis z) ∧ i.va = BitVec.ofNat 64 n := by
  have walked := (s.walked_core s.on.a k s.on.a).symm ▸ Core.copy?_mem found
  exact ⟨_, exec_copyTranslation_bad found virt walking sound due bad, s.walked_mem _ _, _, State.mem_modCopy walked _, rfl, _, rfl, rfl, rfl⟩

end

section
variable {n z : Nat} {l : Leaf} (kind : k.kind = .box)
include kind

theorem State.faults_write_hole (reads : k.reads = []) (writes : k.writes = [n]) (looked : s.lookup (tileOf s.on.a) (s.ctxOf s.on.a) n = .ok l)
    (hole : touchesHole (k.runs true) l n = true) :
    (s.readSide s.on.a k).2.or (s.writeSide s.on.a k).2 = some (k.xlatInfo 4 0 n) := by
  have axis : k.writeA = 4 := by
    simp [CopyCmd.writeA, kind, copyWriteA]
  rw [State.readSide, State.writeSide, reads, writes, State.xlatSide_hole looked hole, axis]
  rfl

theorem State.faults_write (reads : k.reads = []) (writes : k.writes = [n])
    (bad : s.translate (tileOf s.on.a) (s.ctxOf s.on.a) n .write false = .bad z)
    (whole : s.lookup (tileOf s.on.a) (s.ctxOf s.on.a) n = .ok l → touchesHole (k.runs true) l n = false)
    (looked : s.lookup (tileOf s.on.a) (s.ctxOf s.on.a) n = .ok l ∨ s.lookup (tileOf s.on.a) (s.ctxOf s.on.a) n = .bad z) :
    (s.readSide s.on.a k).2.or (s.writeSide s.on.a k).2 = some (k.xlatInfo 4 z n) := by
  have axis : k.writeA = 4 := by
    simp [CopyCmd.writeA, kind, copyWriteA]
  have need : k.writeNeed = .write := by
    simp [CopyCmd.writeNeed, kind]
  rw [State.readSide, State.writeSide, reads, writes, need, State.xlatSide_bad bad whole looked, axis]
  rfl

theorem State.faults_read (reads : k.reads = [n])
    (bad : s.translate (tileOf s.on.a) (s.ctxOf s.on.a) n .read false = .bad z)
    (whole : s.lookup (tileOf s.on.a) (s.ctxOf s.on.a) n = .ok l → touchesHole (k.runs false) l n = false)
    (looked : s.lookup (tileOf s.on.a) (s.ctxOf s.on.a) n = .ok l ∨ s.lookup (tileOf s.on.a) (s.ctxOf s.on.a) n = .bad z) :
    (s.readSide s.on.a k).2.or (s.writeSide s.on.a k).2 = some (k.xlatInfo 3 z n) := by
  have axis : k.readA = 3 := by
    simp [CopyCmd.readA, kind, copyReadA]
  rw [State.readSide, reads, State.xlatSide_bad bad whole looked, axis]
  rfl

end

/-! ## The stream goes back to a command that faults (08 R246) -/

theorem State.core_rewindStream (s : State) (c : Nat) (k : CopyCmd) (t : TrapInfo) :
    ((s.rewindStream c k t).core c).copies = (s.core c).copies.filter (fun j => !(decide (k.id ≤ j.id) && !j.reissued)) ∧
      ((s.rewindStream c k t).core c).cpy = k.before ∧ t ∈ ((s.rewindStream c k t).core c).raised := by
  have unbound {γ : Type} (π : Core → γ) (h : ∀ x u, π (Core.unbind x u) = π x) (l : List CopyCmd) (x : Core) :
      π (l.foldl (fun (x : Core) j => x.unbind (.crossing, j.id)) x) = π x :=
    foldl_keeps π (fun x j => h x _) l x
  rw [State.rewindStream, State.raiseAt, State.core_modCore_same]
  refine ⟨?_, ?_, List.mem_append_right _ (List.mem_singleton_self _)⟩
  · exact (congrArg Core.copies (State.core_setCore_same s c _)).trans (unbound Core.copies (fun _ _ => rfl) _ _)
  · exact (congrArg Core.cpy (State.core_setCore_same s c _)).trans (unbound Core.cpy (fun _ _ => rfl) _ _)

section
variable (old : k.issued + 512 ≤ (s.core s.on.a).time) (waits : k.passed = false)
  (free : (s.core s.on.a).frozen = false) (runs : (s.core s.on.a).stopped = false) (untrapped : (s.core s.on.a).trap = none)
  (outside : (s.core s.on.a).handler = none) (first : ∀ j ∈ (s.core s.on.a).copies, j.id < k.id → j.passed = true ∨ j.finished = true)
  (fresh : k.reissued = false)
include found old waits free runs untrapped outside first fresh

theorem exec_copyTranslation_back {f : TrapInfo} (later : (k.virt && !k.xlated && k.fault.isNone && decide (k.xlatAt ≤ (s.core s.on.a).time)) = false)
    (fault : k.fault.or (if k.virt && !k.xlated && s.timedAt s.on.a then some k.lateInfo else none) = some f) :
    exec .copyTranslation s = .next (s.rewindStream s.on.a k f) := by
  have earlier : ((s.core s.on.a).copies.any fun j => decide (j.id < k.id) && !j.passed && !j.finished) = false := by
    rw [List.any_eq_false]
    intro j hj
    by_cases before : j.id < k.id
    · rcases first j hj before with h | h <;> simp [h]
    · simp [before]
  have due : (s.core s.on.a).copyFaultDue k = true := by
    rw [Core.copyFaultDue, earlier]
    simp [old, waits, free, runs, untrapped, outside]
  rw [exec, execCopyTranslation, found]
  dsimp only
  rw [later, fault]
  dsimp only
  rw [if_pos due, State.rewindCopy, fresh]
  rfl

/-- The stream goes back to its faulting word, and the command leaves it. -/
theorem happens_copyTranslation_back {f : TrapInfo}
    (later : (k.virt && !k.xlated && k.fault.isNone && decide (k.xlatAt ≤ (s.core s.on.a).time)) = false)
    (fault : k.fault.or (if k.virt && !k.xlated && s.timedAt s.on.a then some k.lateInfo else none) = some f) :
    Happens .copyTranslation s fun t => (t.mem = s.mem ∧ (∀ j ∈ (t.core s.on.a).copies, j.id = k.id → j.reissued = true) ∧
      (t.core s.on.a).cpy = k.before) ∧ f ∈ (t.core s.on.a).raised := by
  obtain ⟨copies, cpy, raised⟩ := s.core_rewindStream s.on.a k f
  refine ⟨_, exec_copyTranslation_back found old waits free runs untrapped outside first fresh later fault,
    ⟨rfl, fun j hj same => ?_, cpy⟩, raised⟩
  rw [copies] at hj
  simpa [same] using (List.mem_filter.1 hj).2

theorem happens_copyTranslation_fault {f : TrapInfo} (fault : k.fault = some f) :
    Happens .copyTranslation s fun t => (t.mem = s.mem ∧ (∀ j ∈ (t.core s.on.a).copies, j.id = k.id → j.reissued = true) ∧
      (t.core s.on.a).cpy = k.before) ∧ f ∈ (t.core s.on.a).raised :=
  happens_copyTranslation_back found old waits free runs untrapped outside first fresh (by simp [fault]) (by simp [fault])

theorem happens_copyTranslation_late (sound : k.fault = none) (virt : k.virt = true) (walking : k.xlated = false)
    (late : (s.core s.on.a).time < k.xlatAt) (timed : s.timedAt s.on.a = true) :
    Happens .copyTranslation s fun t => (t.mem = s.mem ∧ (∀ j ∈ (t.core s.on.a).copies, j.id = k.id → j.reissued = true) ∧
      (t.core s.on.a).cpy = k.before) ∧ t.Raised s.on.a (cause 2 3 3) :=
  (happens_copyTranslation_back found old waits free runs untrapped outside first fresh (f := k.lateInfo) (by simp [late])
    (by simp [sound, virt, walking, timed])).mono fun _ h => ⟨h.1, k.lateInfo, h.2, rfl⟩

end

end

/-! ## Rows out of a clean local store (08 R244, R260) -/

section
variable {s : State} {c : Nat} {k : CopyCmd} {x : Span}

/-- A row that a command reads of its own core's store. -/
theorem State.readSpan_store (own : k.sk = 0) : s.readSpan c k x = (memBytes (s.core c).ls x.src x.len, (sectorsOf x.src x.len).filterMap fun p =>
    if (s.core c).lsPoison.contains p then some (max (32 * p) x.src - x.src, min (32 * p + 32) (x.src + x.len) - max (32 * p) x.src) else none) := by
  rw [State.readSpan, if_pos own]

theorem State.readSpan_clean (own : k.sk = 0) (clean : (s.core c).lsPoison = []) :
    s.readSpan c k x = (memBytes (s.core c).ls x.src x.len, []) := by
  rw [State.readSpan_store own, clean]
  simp

theorem State.writeDst_store (own : k.dk = 0) (a : Nat) (b : List Byte) : s.writeDst c k a b = s.modCore c fun q => q.putBytes a b := by
  rw [State.writeDst, if_pos own]

theorem memBytes_length (m : Memory) (a n : Nat) : (memBytes m a n).length = n := by
  induction n generalizing a with
  | zero => rfl
  | succ n ih => rw [memBytes, List.length_cons, ih]

/-! ## Completion of a box within the own store (08 R244, R245) -/

theorem CopyCmd.selfRace_apart (spans : k.spans = [x]) (apart : x.dst + x.len ≤ x.src ∨ x.src + x.len ≤ x.dst) : k.selfRace = [] := by
  have none : overlaps x.dst x.len x.src x.len = false := by
    rw [overlaps, decide_eq_false_iff_not]
    omega
  simp [CopyCmd.selfRace, spans, none]

theorem Span.without_nil : x.without [] = if 0 < x.len then [x] else [] := by
  have cut : (sectorsOf x.dst x.len).filter ([] : List Nat).contains = [] := by
    simp
  rw [Span.without, cut]
  by_cases some : 0 < x.len
  · simp [some]
  · simp [some]

/-- What the move of one row within a clean store comes to before its tags: its bytes, in the store. -/
def State.movedRow (s : State) (c : Nat) (x : Span) : State :=
  if 0 < x.len then s.modCore c fun q => q.putBytes x.dst (memBytes (s.core c).ls x.src x.len) else s

theorem State.moveSpan_clean (source : k.sk = 0) (target : k.dk = 0) (clean : (s.core c).lsPoison = []) :
    State.moveSpan s s c k x = (s.modCore c fun q => q.putBytes x.dst (memBytes (s.core c).ls x.src x.len), false) := by
  rw [State.moveSpan, State.readSpan_clean source clean, State.writeDst_store target]
  simp [source]

theorem State.moveCopy_row (source : k.sk = 0) (target : k.dk = 0) (spans : k.spans = [x])
    (apart : x.dst + x.len ≤ x.src ∨ x.src + x.len ≤ x.dst) (clean : (s.core c).lsPoison = []) :
    s.moveCopy c k = ((s.movedRow c x).setTags c k (tileOfBytes [])).finishCopy c k.id := by
  have race := CopyCmd.selfRace_apart spans apart
  have kept : k.keptSectors s.freeCtr = [] := by
    rw [CopyCmd.keptSectors, race]
    rfl
  have rows : k.spans.flatMap (fun y => y.without (k.keptSectors s.freeCtr)) = if 0 < x.len then [x] else [] := by
    rw [kept, spans, List.flatMap_singleton, Span.without_nil]
  rw [State.moveCopy]
  dsimp only
  rw [rows, race, target]
  by_cases some : 0 < x.len
  · simp [some, State.movedRow, State.moveSpan_clean source target clean, memBytes]
  · simp [some, State.movedRow, memBytes]

theorem State.mem_movedRow (s : State) (c : Nat) (x : Span) : (s.movedRow c x).mem = s.mem := by
  rw [State.movedRow]
  split <;> rfl

theorem State.copies_movedRow (s : State) (c : Nat) (x : Span) : ((s.movedRow c x).core c).copies = (s.core c).copies := by
  rw [State.movedRow]
  split
  · rw [State.core_modCore_same]
    rfl
  · rfl

theorem State.chst_movedRow (s : State) (c : Nat) (x : Span) : ((s.movedRow c x).core c).chst = (s.core c).chst := by
  rw [State.movedRow]
  split
  · rw [State.core_modCore_same]
    rfl
  · rfl

theorem State.ls_movedRow (s : State) (c : Nat) (x : Span) :
    ((s.movedRow c x).core c).ls = memWrite (s.core c).ls x.dst (memBytes (s.core c).ls x.src x.len) := by
  rw [State.movedRow]
  split
  · rw [State.core_modCore_same]
    rfl
  · rename_i none
    rw [Nat.eq_zero_of_not_pos none]
    rfl

/-- The tags of a completed command with its destination in the own store change nothing but the tags. -/
theorem State.setTags_store (s : State) (c : Nat) {k : CopyCmd} (target : k.dk = 0) (tile : BitVec 32768) :
    (s.setTags c k tile).mem = s.mem ∧ ((s.setTags c k tile).core c).copies = (s.core c).copies ∧
      ((s.setTags c k tile).core c).chst = (s.core c).chst ∧ ((s.setTags c k tile).core c).ls = (s.core c).ls := by
  rw [State.setTags, if_pos target]
  split
  · exact ⟨rfl, rfl, rfl, rfl⟩
  · rw [State.core_modCore_same]
    exact ⟨rfl, rfl, rfl, rfl⟩

/-- A box of one row within the own store lands whole at its completion. -/
theorem happens_copyCompletion_box (found : (s.core s.on.a).copy? s.on.b = some k) (due : s.completes s.on.a k = true) (extent : k.zero = false)
    (kind : k.kind = .box) (status : k.status = 0) (source : k.sk = 0) (target : k.dk = 0) (spans : k.spans = [x])
    (apart : x.dst + x.len ≤ x.src ∨ x.src + x.len ≤ x.dst) (clean : (s.core s.on.a).lsPoison = []) (wf : (s.core s.on.a).ls.wf = true) :
    Happens .copyCompletion s fun t => s.Completed t s.on.a k ∧ t.mem = s.mem ∧
      memBytes (t.core s.on.a).ls x.dst x.len = memBytes (s.core s.on.a).ls x.src x.len ∧
      ∀ i, i < x.dst ∨ x.dst + x.len ≤ i → memGet (t.core s.on.a).ls i = memGet (s.core s.on.a).ls i := by
  obtain ⟨tagMem, tagCopies, tagChst, tagLs⟩ := (s.movedRow s.on.a x).setTags_store s.on.a target (tileOfBytes [])
  have ls : ((s.moveCopy s.on.a k).core s.on.a).ls =
      memWrite (s.core s.on.a).ls x.dst (memBytes (s.core s.on.a).ls x.src x.len) := by
    rw [State.moveCopy_row source target spans apart clean, State.ls_finishCopy, tagLs, State.ls_movedRow]
  have length := memBytes_length (s.core s.on.a).ls x.src x.len
  refine ⟨s.moveCopy s.on.a k, ?_, ?_, ?_, ?_, fun i outside => ?_⟩
  · rw [exec, execCopyCompletion, found]
    dsimp only
    rw [due, extent, kind, status]
    rfl
  · rw [State.moveCopy_row source target spans apart clean]
    refine State.completed_finishCopy ?_ (tagChst.trans (s.chst_movedRow _ _))
    rw [Core.copy?, tagCopies, State.copies_movedRow, Core.copy?_id found, ← Core.copy?, found]
  · rw [State.moveCopy_row source target spans apart clean, State.finishCopy_mem, tagMem, State.mem_movedRow]
  · rw [ls]
    have bytes := memBytes_memWrite_same (memBytes (s.core s.on.a).ls x.src x.len) (s.core s.on.a).ls x.dst wf
    rwa [length] at bytes
  · rw [ls]
    exact memGet_memWrite_outside _ _ _ _ (by rwa [length])

end

/-! ## What a CSEND brings to a landing (10 R317) -/

theorem mem_sectorsOf_iff {a n p : Nat} : p ∈ sectorsOf a n ↔ 0 < n ∧ 32 * p < a + n ∧ a < 32 * p + 32 := by
  rw [sectorsOf]
  by_cases none : n = 0
  · simp [none]
  · rw [if_neg none, List.mem_map]
    constructor
    · rintro ⟨i, hi, rfl⟩
      have := List.mem_range.1 hi
      omega
    · rintro ⟨-, low, high⟩
      exact ⟨p - a / 32, List.mem_range.2 (by omega), by omega⟩

section
variable {s : State} {c dl : Nat} {k : CopyCmd} {x : Span}

/-- Whether a row of a core's store touches a poisoned sector. -/
def Core.rowPoisoned (q : Core) (x : Span) : Bool := q.lsPoison.any fun p => decide (32 * p < x.src + x.len ∧ x.src < 32 * p + 32)

theorem State.readSpan_poisoned (own : k.sk = 0) (some : 0 < x.len) : (!(s.readSpan c k x).2.isEmpty) = (s.core c).rowPoisoned x := by
  rw [State.readSpan_store own, Bool.eq_iff_iff, Core.rowPoisoned, List.any_eq_true, Bool.not_eq_true', ← Bool.not_eq_true, List.isEmpty_iff,
    List.filterMap_eq_nil_iff]
  constructor
  · intro h
    by_contra none
    refine h fun p hp => if_neg fun bad => none ⟨p, List.contains_iff_mem.1 bad, ?_⟩
    exact decide_eq_true (mem_sectorsOf_iff.1 hp).2
  · rintro ⟨p, hp, touches⟩ h
    have := h p (mem_sectorsOf_iff.2 ⟨some, of_decide_eq_true touches⟩)
    simp [hp] at this

/-- The run of a row out of the sender's own store. -/
def State.rowRun (s : State) (c : Nat) (x : Span) : Int × List Byte × Bool :=
  ((BitVec.ofNat 64 x.dst).toInt, memBytes (s.core c).ls x.src x.len, (s.core c).rowPoisoned x)

/-- A CSEND of one row, none of which waits yet, arrives as that row. -/
theorem State.arrivingRuns_row (own : k.sk = 0) (spans : k.spans = [x]) (some : 0 < x.len) (held : k.heldAt dl = []) :
    dropRuns (runBytes (k.heldAt dl)) (s.sendRuns c k) = [s.rowRun c x] := by
  have length : ¬ (memBytes (s.core c).ls x.src x.len).length ≤ 0 := by
    rw [memBytes_length]
    omega
  have poisoned := State.readSpan_poisoned (s := s) (c := c) own some
  have bytes : (s.readSpan c k x).1 = memBytes (s.core c).ls x.src x.len := by
    rw [State.readSpan_store own]
  have none : runBytes [] = 0 := rfl
  rw [held, none, State.sendRuns, spans, List.map_singleton]
  dsimp only
  rw [poisoned, bytes, dropRuns]
  dsimp only
  rw [if_neg length, List.drop_zero, Int.natCast_zero, Int.add_zero]
  rfl

theorem State.arrivingRuns_empty (own : k.sk = 0) (spans : k.spans = [x]) (none : x.len = 0) (held : k.heldAt dl = []) :
    dropRuns (runBytes (k.heldAt dl)) (s.sendRuns c k) = [] := by
  have zero : runBytes [] = 0 := rfl
  rw [held, zero, State.sendRuns, spans, List.map_singleton]
  dsimp only
  rw [State.readSpan_store own, none]
  rfl

/-! ## Delivery by a fibre landing (10 R332, R333) -/

/-- What the reads of a CSEND's virtual rows leave behind. -/
def State.readRows (s : State) (k : CopyCmd) : State :=
  if k.sk = 2 then k.spans.foldl (fun (s : State) x => s.readPages k x.src x.len) s else s

theorem State.readRows_keeps {γ : Type} (π : State → γ) (hb : ∀ (s : State) b p, π { s with bad := b, poison := p } = π s)
    (hn : ∀ (s : State) x e, π { s with hbm := x, events := e } = π s) (s : State) (k : CopyCmd) : π (s.readRows k) = π s := by
  rw [State.readRows]
  split
  · exact foldl_keeps π (fun s x => s.readPages_keeps π hb hn k _ _) _ _
  · rfl

/-- What a CSEND sends out by a fibre landing. -/
def State.parcel (s : State) (c : Nat) (k : CopyCmd) (dl : Nat) : Parcel :=
  { dst := ((s.handle k.handle).relay.map (·.1)).getD (s.facing dl), via := (s.handle k.handle).relay.map (·.2), runs := s.arrivingRuns c k dl }

/-- A CSEND keeps whether a run of it was poisoned. -/
def CopyCmd.sawPoison (runs : List (Int × List Byte × Bool)) (k : CopyCmd) : CopyCmd := { k with status := if runs.any (·.2.2) then 1 else k.status }

/-- A CSEND has reached a landing. -/
def CopyCmd.reached (dl : Nat) (k : CopyCmd) : CopyCmd :=
  { k with left := k.left.filter (· != dl), held := k.held.filter (·.1 != dl), started := true }

/-- A CSEND has left for a relay, which is still to store it. -/
def CopyCmd.relayed (k : CopyCmd) : CopyCmd := { k with gone := true, started := true }

/-- The state after a CSEND has left by a fibre landing. -/
def State.sentOut (s : State) (c : Nat) (k : CopyCmd) (dl : Nat) : State :=
  (((s.readRows k).leaveBy dl (s.parcel c k dl)).modCopy c k.id (CopyCmd.sawPoison (s.arrivingRuns c k dl))).modCopy c k.id
    (if (s.handle k.handle).relay.isSome then CopyCmd.relayed else CopyCmd.reached dl)

theorem State.sentOut_mem (s : State) (c : Nat) (k : CopyCmd) (dl : Nat) : (s.sentOut c k dl).mem = s.mem :=
  s.readRows_keeps State.mem (fun _ _ _ => rfl) (fun _ _ _ => rfl) k

theorem State.lastOut_sentOut (s : State) (c : Nat) (k : CopyCmd) (dl : Nat) :
    ((s.sentOut c k dl).landing dl).lastOut = some (s.parcel c k dl) := by
  have same : (s.sentOut c k dl).landing dl = ((s.readRows k).leaveBy dl (s.parcel c k dl)).landing dl := rfl
  rw [same, State.leaveBy, State.landing_modLanding]

theorem State.copies_sentOut (here : k ∈ (s.core c).copies) :
    (if (s.handle k.handle).relay.isSome then CopyCmd.relayed else CopyCmd.reached dl) (CopyCmd.sawPoison (s.arrivingRuns c k dl) k) ∈
      ((s.sentOut c k dl).core c).copies := by
  have read : k ∈ (((s.readRows k).leaveBy dl (s.parcel c k dl)).core c).copies := by
    rw [State.leaveBy, State.core_modLanding, State.core_eq_of_cores_eq (s.readRows_keeps State.cores (fun _ _ _ => rfl) (fun _ _ _ => rfl) k) c]
    exact here
  exact State.mem_modCopy (State.mem_modCopy read (CopyCmd.sawPoison (s.arrivingRuns c k dl))) _

end

section
variable {s : State} {k : CopyCmd} (found : (s.core s.on.a).copy? s.on.b = some k) (own : s.on.flag = false)
  (due : s.arrivalDue s.on.a k s.on.c = true)
include found own due

theorem exec_csendDelivery_fibre (fibre : isFibre s.on.c = true) : exec .csendDelivery s = .next (s.sentOut s.on.a k s.on.c) := by
  rw [exec, execCsendDelivery, own, found]
  dsimp only
  rw [due, fibre, State.sentOut]
  cases relay : (s.handle k.handle).relay <;> simp [State.parcel, relay] <;> rfl

/-- A CSEND leaves by a fibre landing with the poison of its rows. -/
theorem happens_csendDelivery_fibre {x : Span} (fibre : isFibre s.on.c = true) : Happens .csendDelivery s fun t => t.mem = s.mem ∧
    ((s.handle k.handle).relay = none → ∃ j ∈ (t.core s.on.a).copies, j.id = k.id ∧ j.left = k.left.filter (· != s.on.c)) ∧
    ((s.handle k.handle).relay.isSome = true → ∃ j ∈ (t.core s.on.a).copies, j.id = k.id ∧ j.gone = true ∧ j.left = k.left) ∧
    (k.sk = 0 → k.spans = [x] → 0 < x.len → k.heldAt s.on.c = [] →
      (t.landing s.on.c).lastOut = some { dst := ((s.handle k.handle).relay.map (·.1)).getD (s.facing s.on.c)
                                          via := (s.handle k.handle).relay.map (·.2), runs := [s.rowRun s.on.a x] } ∧
      ((s.core s.on.a).rowPoisoned x = true → ∃ j ∈ (t.core s.on.a).copies, j.id = k.id ∧ j.status = 1)) := by
  have here := State.copies_sentOut (dl := s.on.c) (Core.copy?_mem found)
  refine ⟨_, exec_csendDelivery_fibre found own due fibre, s.sentOut_mem _ _ _, fun direct => ⟨_, here, ?_⟩, fun relay => ⟨_, here, ?_⟩,
    fun source spans some held => ?_⟩
  · rw [direct]
    exact ⟨rfl, rfl⟩
  · rw [if_pos relay]
    exact ⟨rfl, rfl, rfl⟩
  · have runs : s.arrivingRuns s.on.a k s.on.c = [s.rowRun s.on.a x] := by
      rw [State.arrivingRuns, State.arrivingRuns_row source spans some held, held]
      rfl
    refine ⟨?_, fun poisoned => ⟨_, here, ?_⟩⟩
    · rw [State.lastOut_sentOut, State.parcel, runs]
    · have seen : (CopyCmd.sawPoison (s.arrivingRuns s.on.a k s.on.c) k).status = 1 := by
        rw [runs, CopyCmd.sawPoison]
        simp [State.rowRun, poisoned]
      split
      · exact ⟨rfl, seen⟩
      · exact ⟨rfl, seen⟩

end

/-! ## The arrival buffer of a landing (10 R317) -/

theorem State.copy?_modCopy (s : State) (c id : Nat) (f : CopyCmd → CopyCmd) (h : ∀ j, (f j).id = j.id) :
    ((s.modCopy c id f).core c).copy? id = ((s.core c).copy? id).map f := by
  rw [Core.copy?, State.copies_modCopy]
  exact find?_updIf (·.id) id f h _

/-- A CSEND none of which waited now waits at a landing with these runs. -/
def CopyCmd.waitsWith (dl : Nat) (held runs : List (Int × List Byte × Bool)) (k : CopyCmd) : CopyCmd :=
  { k with held := (k.held.filter (·.1 != dl)) ++ [(dl, held ++ runs)] }

/-- A CSEND has begun. -/
def CopyCmd.begun (k : CopyCmd) : CopyCmd := { k with started := true }

section
variable {s : State} {c dl : Nat} {k : CopyCmd} {x : Span}

/-- A run that fits waits whole. -/
theorem takeRuns_whole {room : Nat} {r : Int × List Byte × Bool} (fits : r.2.1.length ≤ room) (some : 0 < r.2.1.length) :
    takeRuns room [r] = [r] := by
  have open_ : room ≠ 0 := by omega
  rw [takeRuns, if_neg open_, takeRuns, List.take_of_length_le fits]

theorem State.bufferArrival_row (source : k.sk = 0) (spans : k.spans = [x]) (some : 0 < x.len) (held : k.heldAt dl = [])
    (room : s.buffered dl + x.len + 32 ≤ 65536) :
    s.bufferArrival c k dl = s.modCopy c k.id (CopyCmd.waitsWith dl (k.heldAt dl) [s.rowRun c x]) := by
  have length : (s.rowRun c x).2.1.length = x.len := memBytes_length _ _ _
  have whole : takeRuns ((65536 - s.buffered dl) / 32 * 32) (dropRuns (runBytes (k.heldAt dl)) (s.sendRuns c k)) = [s.rowRun c x] := by
    rw [State.arrivingRuns_row source spans some held]
    exact takeRuns_whole (by omega) (by omega)
  have bytes : runBytes [s.rowRun c x] ≠ 0 := by
    rw [runBytes, List.map_singleton, List.sum_singleton, length]
    omega
  rw [State.bufferArrival, whole, if_neg bytes]
  rfl

end

section
variable {s : State} {k : CopyCmd} (found : (s.core s.on.a).copy? s.on.b = some k) (own : s.on.flag = false)
  (due : s.arrivalDue s.on.a k s.on.c = true)
include found own due

theorem exec_csendDelivery_buffer (tile : isFibre s.on.c = false) (none : s.arrivalBinding k s.on.c = none)
    (new : (s.bufferArrival s.on.a k s.on.c).modCopy s.on.a k.id CopyCmd.begun ≠ s) :
    exec .csendDelivery s = .next ((s.bufferArrival s.on.a k s.on.c).modCopy s.on.a k.id CopyCmd.begun) := by
  rw [exec, execCsendDelivery, own, found]
  dsimp only
  rw [due, tile, none]
  exact if_neg new

/-- A CSEND with no binding waits in the landing's arrival buffer. -/
theorem happens_csendDelivery_buffer {x : Span} (tile : isFibre s.on.c = false) (none : s.arrivalBinding k s.on.c = none) (source : k.sk = 0)
    (spans : k.spans = [x]) (held : k.heldAt s.on.c = []) (empty : k.held = []) (some : 0 < x.len)
    (room : s.buffered s.on.c + x.len + 32 ≤ 65536) : Happens .csendDelivery s fun t => t.mem = s.mem ∧
      ∃ j ∈ (t.core s.on.a).copies, j.id = k.id ∧ j.left = k.left ∧
        (j.heldAt s.on.c).flatMap (·.2.1) = memBytes (s.core s.on.a).ls x.src x.len := by
  have waits := State.bufferArrival_row (s := s) (c := s.on.a) source spans some held room
  have same := Core.copy?_id found
  have new : (s.bufferArrival s.on.a k s.on.c).modCopy s.on.a k.id CopyCmd.begun ≠ s := by
    intro unchanged
    have after := congrArg (fun t : State => (t.core s.on.a).copy? k.id) unchanged
    rw [waits, State.copy?_modCopy _ _ _ CopyCmd.begun fun _ => rfl, State.copy?_modCopy _ _ _ (CopyCmd.waitsWith _ _ _) fun _ => rfl, same, found,
      Option.map_some, Option.map_some, Option.some_inj] at after
    have waiting := congrArg CopyCmd.held after
    simp [CopyCmd.begun, CopyCmd.waitsWith, empty] at waiting
  refine ⟨_, exec_csendDelivery_buffer found own due tile none new, ?_, ?_⟩
  · rw [waits]
    rfl
  · rw [waits]
    refine ⟨_, State.mem_modCopy (State.mem_modCopy (Core.copy?_mem found) (CopyCmd.waitsWith _ _ _)) CopyCmd.begun, rfl, rfl, ?_⟩
    simp [CopyCmd.heldAt, CopyCmd.begun, CopyCmd.waitsWith, empty, State.rowRun]

end

/-! ## A binding takes what arrives (10 R317) -/

/-- `t` has the memory of `s`, the local store of its core `n`, and its core `c` whole. -/
def State.SameStore (n c : Nat) (s t : State) : Prop := t.mem = s.mem ∧ (t.core n).ls = (s.core n).ls ∧ t.core c = s.core c

section
variable {n c : Nat} {s t u : State}

theorem State.SameStore.refl (s : State) : s.SameStore n c s := ⟨rfl, rfl, rfl⟩

theorem State.SameStore.trans (h : s.SameStore n c t) (g : t.SameStore n c u) : s.SameStore n c u := by
  obtain ⟨mem, ls, whole⟩ := h
  obtain ⟨mem', ls', whole'⟩ := g
  exact ⟨mem'.trans mem, ls'.trans ls, whole'.trans whole⟩

theorem State.SameStore.of_cores (mem : t.mem = s.mem) (cores : t.cores = s.cores) : s.SameStore n c t :=
  ⟨mem, by rw [State.core_eq_of_cores_eq cores], State.core_eq_of_cores_eq cores c⟩

theorem State.sameStore_modCore (apart : c ≠ n) (f : Core → Core) (ls : (f (s.core n)).ls = (s.core n).ls) : s.SameStore n c (s.modCore n f) :=
  ⟨rfl, by rw [State.core_modCore_same, ls], State.core_modCore_other _ _ _ _ apart⟩

theorem State.sameStore_bindingComplete (apart : c ≠ n) {k : CopyCmd} {v : RecvRec} (target : v.dk = 0) (s : State) (h : Nat) :
    s.SameStore n c (s.bindingComplete h n k v) := by
  rw [State.bindingComplete, if_pos target]
  have tagged : s.SameStore n c (s.modCore n fun x => x.tagSlots (slotsIn v.dst v.len) k.tag) := State.sameStore_modCore apart _ rfl
  have finished : State.SameStore n c _ (State.finishCopy (s.modCore n fun x => x.tagSlots (slotsIn v.dst v.len) k.tag) n k.id) :=
    State.sameStore_modCore apart _ rfl
  exact (tagged.trans finished).trans (.of_cores rfl rfl)

/-- The runs of a delivery, cut to the binding. -/
def CopyCmd.cuts (k : CopyCmd) (runs : List (Int × List Byte × Bool)) : List ((Nat × List Byte × Nat) × Bool) :=
  runs.map fun r => (clipRun (recvOf k.record).len r.1 r.2.1, r.2.2)

/-- The bytes of a delivery, and their poison, in the binding's destination. -/
def State.putRuns (s : State) (n : Nat) (k : CopyCmd) (runs : List (Int × List Byte × Bool)) : State :=
  (k.cuts runs).foldl (fun (s : State) r =>
    let s := s.writeBinding n k (recvOf k.record) r.1.1 r.1.2.1
    if r.2 then s.poisonDst n k ((recvOf k.record).dst + r.1.1) r.1.2.1.length else s) s

/-- The slots of a store that a delivery writes. -/
def CopyCmd.runSlots (k : CopyCmd) (runs : List (Int × List Byte × Bool)) : List Nat :=
  if (recvOf k.record).dk < 2 then ((k.cuts runs).flatMap fun r => slotsIn ((recvOf k.record).dst + r.1.1) r.1.2.1.length).foldl addOnce [] else []

/-- The CSEND's tag on the slots that a delivery writes. -/
def State.tagRuns (s : State) (n : Nat) (k : CopyCmd) (slots : List Nat) (tag : Option (BitVec 16)) : State := match tag with
  | some t => if (recvOf k.record).dk = 0 then s.modCore n fun x => x.tagSlots slots t
    else if (recvOf k.record).dk = 1 then s.modCore k.peer fun x => x.tagSlots slots t else s
  | none => s

/-- The trap for bytes that a binding has no place for. -/
def State.oweLost (s : State) (h n : Nat) (k : CopyCmd) (lost : Nat) : State :=
  if lost = 0 then s else s.owe n
    { code := cause 1 copyWriteA lsRangeC, st := .copy, cmd := k.before.step, engine := 7, unit := h, cyc := (s.core n).time }

/-- The binding counts what it has got, and completes with its last byte. -/
def State.countRuns (s : State) (h n : Nat) (k : CopyCmd) (wrote : Nat) : State :=
  if (recvOf k.record).exp ≤ k.count + wrote then
    (s.modCopy n k.id fun k => { k with count := k.count + wrote, started := k.started || decide (0 < wrote) }).bindingComplete h n k
      (recvOf k.record)
  else s.modCopy n k.id fun k => { k with count := k.count + wrote, started := k.started || decide (0 < wrote) }

theorem State.deliverRuns_eq (s : State) (h n : Nat) (k : CopyCmd) (runs : List (Int × List Byte × Bool)) (tag : Option (BitVec 16)) :
    s.deliverRuns h n k runs tag = (((s.putRuns n k runs).tagRuns n k (k.runSlots runs) tag).oweLost h n k
      ((k.cuts runs).map fun r => r.1.2.2).sum).countRuns h n k ((k.cuts runs).map fun r => r.1.2.1.length).sum := rfl

section
variable (apart : c ≠ n) {k : CopyCmd} (target : (recvOf k.record).dk = 0)
include apart

theorem State.sameStore_oweLost (s : State) (h lost : Nat) : s.SameStore n c (s.oweLost h n k lost) := by
  rw [State.oweLost]
  split
  · exact .refl s
  · exact State.sameStore_modCore apart _ rfl

include target

theorem State.sameStore_tagRuns (s : State) (slots : List Nat) (tag : Option (BitVec 16)) : s.SameStore n c (s.tagRuns n k slots tag) := by
  cases tag with
  | none => exact .refl s
  | some t =>
    rw [State.tagRuns, if_pos target]
    exact State.sameStore_modCore apart _ rfl

theorem State.sameStore_countRuns (s : State) (h wrote : Nat) : s.SameStore n c (s.countRuns h n k wrote) := by
  have counted : s.SameStore n c (s.modCopy n k.id fun k => { k with count := k.count + wrote, started := k.started || decide (0 < wrote) }) :=
    State.sameStore_modCore apart _ rfl
  rw [State.countRuns]
  split
  · exact counted.trans (State.sameStore_bindingComplete apart target _ h)
  · exact counted

/-- What comes of a delivery once its bytes are written, tags, trap, count and the binding's end, leaves the bytes. -/
theorem State.sameStore_deliverRuns (s : State) (h : Nat) (runs : List (Int × List Byte × Bool)) (tag : Option (BitVec 16)) :
    (s.putRuns n k runs).SameStore n c (s.deliverRuns h n k runs tag) := by
  rw [State.deliverRuns_eq]
  exact ((State.sameStore_tagRuns apart target _ _ _).trans (State.sameStore_oweLost apart _ _ _)).trans
    (State.sameStore_countRuns apart target _ _ _)

end

/-- A clean run from offset 0, as long as the binding, is written whole. -/
theorem State.putRuns_whole {k : CopyCmd} {b : List Byte} (s : State) (target : (recvOf k.record).dk = 0) (own : k.dk = 0) (some : 0 < b.length)
    (fits : (recvOf k.record).len = b.length) :
    s.putRuns n k [(0, b, false)] = s.modCore n fun q => q.putBytes (recvOf k.record).dst b := by
  have cut : clipRun (recvOf k.record).len 0 b = (0, b, 0) := by
    simp [clipRun, fits]
  have bytes : b.isEmpty = false := by
    cases b with
    | nil => cases some
    | cons _ _ => rfl
  have kind : (recvOf k.record).dk ≠ 3 := by omega
  rw [State.putRuns, CopyCmd.cuts, List.map_singleton]
  dsimp only
  rw [cut, List.foldl_cons, List.foldl_nil]
  dsimp only
  rw [State.writeBinding, bytes, if_neg kind, State.writeDst_store own]
  rfl

end

section
variable {s : State} {k : CopyCmd} (found : (s.core s.on.a).copy? s.on.b = some k) (own : s.on.flag = false)
  (due : s.arrivalDue s.on.a k s.on.c = true)

/-- The state after a CSEND's bytes have gone into a binding of a core. -/
def State.delivered (s : State) (k : CopyCmd) (n : Nat) (b : CopyCmd) : State :=
  (((s.readRows k).deliverRuns k.handle n b (s.arrivingRuns s.on.a k s.on.c) (if k.nt then none else some k.tag)).flitsCame s.on.c k.flits).modCopy
    s.on.a k.id (CopyCmd.sawPoison (s.arrivingRuns s.on.a k s.on.c)) |>.modCopy s.on.a k.id (CopyCmd.reached s.on.c)

/-- The bytes that the oldest binding of another core gets of a clean CSEND of one row as long as it. -/
theorem State.putRuns_arriving {x : Span} {n : Nat} {b : CopyCmd} (apart : n ≠ s.on.a) (source : k.sk = 0)
    (clean : (s.core s.on.a).lsPoison = []) (spans : k.spans = [x]) (first : x.dst = 0) (store : (recvOf b.record).dk = 0)
    (fits : (recvOf b.record).len = x.len) (target : b.dk = 0) (held : k.heldAt s.on.c = []) :
    let t := s.putRuns n b (s.arrivingRuns s.on.a k s.on.c)
    t.mem = s.mem ∧ t.core s.on.a = s.core s.on.a ∧
      (t.core n).ls = memWrite (s.core n).ls (recvOf b.record).dst (memBytes (s.core s.on.a).ls x.src x.len) := by
  dsimp only
  have length := memBytes_length (s.core s.on.a).ls x.src x.len
  rw [State.arrivingRuns, held]
  by_cases some : 0 < x.len
  · have run : s.rowRun s.on.a x = (0, memBytes (s.core s.on.a).ls x.src x.len, false) := by
      simp [State.rowRun, first, Core.rowPoisoned, clean]
    have runs := State.arrivingRuns_row (s := s) (c := s.on.a) source spans some held
    rw [held, run] at runs
    rw [runs, List.nil_append, State.putRuns_whole s store target (by omega) (by omega)]
    exact ⟨rfl, State.core_modCore_other _ _ _ _ apart.symm, by rw [State.core_modCore_same]; rfl⟩
  · have none := Nat.eq_zero_of_not_pos some
    have runs := State.arrivingRuns_empty (s := s) (c := s.on.a) source spans none held
    rw [held] at runs
    rw [runs, none]
    exact ⟨rfl, rfl, rfl⟩

include found own due

theorem exec_csendDelivery_binding {n : Nat} {b : CopyCmd} (tile : isFibre s.on.c = false) (binding : s.arrivalBinding k s.on.c = some (n, b))
    (physical : b.virt = false) : exec .csendDelivery s = .next (s.delivered k n b) := by
  rw [exec, execCsendDelivery, own, found]
  dsimp only
  rw [due, tile, binding]
  dsimp only
  rw [physical]
  rfl

/-- A CSEND goes whole into the oldest binding. -/
theorem happens_csendDelivery_binding {x : Span} {n : Nat} {b : CopyCmd} (tile : isFibre s.on.c = false)
    (binding : s.arrivalBinding k s.on.c = some (n, b)) (apart : n ≠ s.on.a) (physical : b.virt = false) (source : k.sk = 0)
    (clean : (s.core s.on.a).lsPoison = []) (spans : k.spans = [x]) (first : x.dst = 0) (store : (recvOf b.record).dk = 0)
    (fits : (recvOf b.record).len = x.len) (target : b.dk = 0) (held : k.heldAt s.on.c = []) (wf : (s.core n).ls.wf = true) :
    Happens .csendDelivery s fun t => (∃ j ∈ (t.core s.on.a).copies, j.id = k.id ∧ s.on.c ∉ j.left) ∧ t.mem = s.mem ∧
      memBytes (t.core n).ls (recvOf b.record).dst x.len = memBytes (s.core s.on.a).ls x.src x.len := by
  have read : s.readRows k = s := by
    simp [State.readRows, source]
  obtain ⟨mem, sender, ls⟩ := State.putRuns_arriving (n := n) apart source clean spans first store fits target held
  obtain ⟨restMem, restLs, rest⟩ := State.sameStore_deliverRuns (n := n) apart.symm store s k.handle (s.arrivingRuns s.on.a k s.on.c)
    (if k.nt then none else some k.tag)
  have here : k ∈ (((s.deliverRuns k.handle n b (s.arrivingRuns s.on.a k s.on.c) (if k.nt then none else some k.tag)).flitsCame s.on.c
      k.flits).core s.on.a).copies := by
    rw [State.flitsCame, State.core_modLanding, rest, sender]
    exact Core.copy?_mem found
  refine ⟨_, exec_csendDelivery_binding found own due tile binding physical, ?_, ?_, ?_⟩
  · rw [State.delivered, read]
    refine ⟨_, State.mem_modCopy (State.mem_modCopy here (CopyCmd.sawPoison (s.arrivingRuns s.on.a k s.on.c))) (CopyCmd.reached s.on.c), rfl, ?_⟩
    simp [CopyCmd.reached]
  · rw [State.delivered, read, State.modCopy_mem, State.modCopy_mem, State.flitsCame, State.modLanding_mem, restMem, mem]
  · have other (t : State) (f : CopyCmd → CopyCmd) : ((t.modCopy s.on.a k.id f).core n).ls = (t.core n).ls := by
      rw [State.modCopy, State.core_modCore_other _ _ _ _ apart]
    rw [State.delivered, read, other, other, State.flitsCame, State.core_modLanding, restLs, ls]
    have bytes := memBytes_memWrite_same (memBytes (s.core s.on.a).ls x.src x.len) (s.core n).ls (recvOf b.record).dst wf
    rwa [memBytes_length] at bytes

end

/-- Settles O51: each event of a copy command after its issue, from its translation to its arrivals. -/
theorem copyEvents : Obligations.CopyEvents := by
  intro s k b f x l n r c q done badAt back found running
  refine ⟨fun virt walking sound due kind => ⟨fun reads writes ok whole =>
        happens_copyTranslation_ok found virt walking sound due kind reads writes ok whole,
      fun reads writes looked hole => happens_copyTranslation_bad found virt walking sound due (s.faults_write_hole kind reads writes looked hole),
      fun z reads writes bad whole looked =>
        happens_copyTranslation_bad found virt walking sound due (s.faults_write kind reads writes bad whole looked),
      fun z reads bad whole looked => happens_copyTranslation_bad found virt walking sound due (s.faults_read kind reads bad whole looked)⟩,
    fun old waits free runs untrapped outside first fresh => ⟨fun fault =>
        happens_copyTranslation_fault found old waits free runs untrapped outside first fresh fault,
      fun sound virt walking late timed =>
        happens_copyTranslation_late found old waits free runs untrapped outside first fresh sound virt walking late timed⟩,
    fun sound zero kind issued passed => happens_copyCompletion_zero found running sound zero kind issued passed,
    fun due extent kind status source target _ spans _ apart clean wf =>
      happens_copyCompletion_box found due extent kind status source target spans apart clean wf,
    fun due extent kind taken spans => happens_copyCompletion_const found due extent kind taken spans,
    fun kind extent left arrived count sent => happens_csendAck found running kind extent left arrived count sent,
    fun own due fibre => happens_csendDelivery_fibre found own due fibre,
    fun own due tile none source _ spans held empty some room =>
      happens_csendDelivery_buffer found own due tile none source spans held empty some room,
    fun own due tile binding apart physical _ source clean spans first store fits target held wf =>
      happens_csendDelivery_binding found own due tile binding apart physical source clean spans first store fits target held wf⟩

end Sys2Proof.Machine
end
